-- ==== Sys2Proof/Word.lean ====
section
/-! DEFINITION. The plain types the model is built from: bytes, register words and the sparse table. -/

namespace Sys2Proof

/-- One byte of memory or of a packet. -/
abbrev Byte := BitVec 8

/-- A run of bytes in memory order, lowest address first (R17). -/
abbrev Bytes := List (BitVec 8)

/-- One 32-bit control register word (R52). -/
abbrev Word := BitVec 32

/-- A sparse table: keys strictly rising, no entry equal to what an unlisted key reads as. -/
abbrev Tbl (α : Type) := List (Nat × α)

end Sys2Proof
end

