-- ==== Sys2Proof/Syntax.lean ====
section
/-! DEFINITION. The commands the die takes, one constructor per row of the table of operations and events, with
the operands that the row's rules leave to the sender: who makes a control access, which core, module, queue, chain
or instance acts, the packet that arrives, and what a sensor, a partner or a test reports. -/

namespace Sys2Proof

/-- The accessor classes of R53, coded as `STAGE_OWNER` codes them (R50). -/
inductive Cls where
  | mp
  | host
  | dbg
  | ldr
  deriving DecidableEq, Repr

/-- Who makes a control access (R53): the class, the domain of a HOST request, and whether it is this die's own
surveyor core (`TAKE`, `REPLY`, `WDT_KICK` and `EXTEND` accept no other, R443, R447, R457). -/
structure Acc where
  cls : Cls
  dom : Nat
  loc : Bool
  deriving DecidableEq, Repr

/-- A PT packet: the header of R362 and the extensions of R363, a field that a type does not carry being 0. -/
structure Packet where
  typ : Nat
  vc : Nat
  hop : Nat
  len : Nat
  dest : Nat
  dkind : Nat
  src : Nat
  skind : Nat
  dom : Nat
  tag : Nat
  arg : Nat
  rsv : Bool
  addr : Nat
  station : Nat
  chain : Nat
  op : Nat
  rop : Nat
  dt : Nat
  phase : Nat
  epoch : Nat
  count : Nat
  shard : Nat
  shardLen : Nat
  elemOff : Nat
  sq : Nat
  push : Nat
  total : Nat
  data : Bytes
  deriving DecidableEq, Repr

/-- Why a rail of the AVSBus is not ready (R409, R467): its target was not reached within 50 µs, or a transaction for rail 0 or 1 ended
without an acknowledgement, or with an error status. -/
inductive RailFault where
  | late
  | noAck (rail : Nat)
  | badStatus (rail : Nat)
  deriving DecidableEq, Repr

/-- A rail that is not ready, and the voltage that it has (R409, R428). -/
structure RailMiss where
  why : RailFault
  milliVolt : Nat
  deriving DecidableEq, Repr

/-- What the power controller measures and estimates for one control period (R421): the power each class would draw
unthrottled, its power at its floor, the static power, and the power of each operating point at full duty and its part
that duty does not scale, all in watts. -/
structure PowerEstimate where
  demandCompute : Nat
  demandMemory : Nat
  demandLinks : Nat
  floorCompute : Nat
  floorMemory : Nat
  floorLinks : Nat
  static : Nat
  opPower : List Nat
  opLeak : List Nat
  deriving DecidableEq, Repr

/-- One command: a row of the table of operations and events. -/
inductive Instr where
  /-- `COLD_POWER_UP` (R383). -/
  | coldPowerUp
  /-- `WARM_RESET_BY_PIN` (R383). -/
  | warmResetByPin (rail : Option Nat)
  /-- `RST_N_DEASSERT` (R463). -/
  | rstNDeassert (datumEn cfgMaster : Bool) (diepos : Nat)
  /-- `VAON_LOSS` (R471). -/
  | vaonLoss
  /-- `VSRAM_BELOW_VCORE` (R471). -/
  | vsramBelowVcore
  /-- `REFERENCE_GLITCH` (R32). -/
  | referenceGlitch
  /-- `REFERENCE_LOST` (R32). -/
  | referenceLost
  /-- `REFERENCE_RETURN` (R32). -/
  | referenceReturn
  /-- `PLL_LOST` (R479). -/
  | pllLost (island : Nat)
  /-- `SECOND_REFERENCE_SEEN` (R31). -/
  | secondReferenceSeen
  /-- `THERMAL_TRIP` (R426). -/
  | thermalTrip (sensor : Nat)
  /-- `AON_PHASE` (R384). -/
  | aonPhase
  /-- `FUSE_PHASE` (R385). -/
  | fusePhase
  /-- `BIST` (R387). -/
  | bist (findings : List (BitVec 32)) (codes : List Nat) (fatal : Bool)
  /-- `RECONCILE` (R390). -/
  | reconcile
  /-- `SIDEBAND` (R392). -/
  | sideband
  /-- `FETCH_QSPI` (R392). -/
  | fetchQspi (stream : Bytes)
  /-- `FETCH_BOOT_LINK` (R392). -/
  | fetchBootLink
  /-- `VERIFY` (R394). -/
  | verify
  /-- `COMMIT_PHASE` (R395). -/
  | commitPhase
  /-- `WRITE_RECORD` (R396). -/
  | writeRecord
  /-- `RELAY_HOLD_EXPIRY` (R396). -/
  | relayHoldExpiry
  /-- `RELEASE_COMPUTE` (R396). -/
  | releaseCompute
  /-- `CADASTRE_WRITTEN` (R258). -/
  | cadastreWritten
  /-- `RELEASE` (R396). -/
  | release (a : Acc)
  /-- `REFETCH` (R397). -/
  | refetch (a : Acc)
  /-- `WARM_RESET` (R383). -/
  | warmReset (a : Acc)
  /-- `REGISTER_WRITE` (R51). -/
  | registerWrite (a : Acc) (addr size value : Nat)
  /-- `RC_READ` (R51). -/
  | rcRead (a : Acc) (addr size : Nat)
  /-- `STAGED_WRITE` (R58). -/
  | stagedWrite (a : Acc) (addr size value : Nat)
  /-- `COMMIT` (R60). -/
  | commit (a : Acc) (page : Nat)
  /-- `DISCARD` (R61). -/
  | discard (a : Acc) (page : Nat)
  /-- `INSTANCE_APPLY` (R60). -/
  | instanceApply (page inst : Nat)
  /-- `EVENT_MESSAGE_SEND` (R66). -/
  | eventMessageSend
  /-- `EVENT_RECORD_POST` (R297). -/
  | eventRecordPost
  /-- `NOP` (R76). -/
  | nop (c : Nat)
  /-- `END` (R76). -/
  | endInstr (c : Nat)
  /-- `KERNEL_COMPLETION` (R76). -/
  | kernelCompletion (c : Nat)
  /-- `LOOP` (R76). -/
  | loop (c : Nat)
  /-- `JUMP` (R76). -/
  | jump (c : Nat)
  /-- `FENCE` (R76). -/
  | fence (c : Nat)
  /-- `MMA_MULTIPLY_ADD` (R148). -/
  | mmaMultiplyAdd (c : Nat)
  /-- `MMA_L1_DISTANCE` (R99). -/
  | mmaL1Distance (c : Nat)
  /-- `MMA_SQUARED_DIFFERENCE` (R99). -/
  | mmaSquaredDifference (c : Nat)
  /-- `MMA_MAX_PLUS` (R150). -/
  | mmaMaxPlus (c : Nat)
  /-- `MMA_MIN_PLUS` (R150). -/
  | mmaMinPlus (c : Nat)
  /-- `MMA_MAX_TIMES` (R150). -/
  | mmaMaxTimes (c : Nat)
  /-- `MMA_EQUALITY_COUNT` (R99). -/
  | mmaEqualityCount (c : Nat)
  /-- `RESIDENCY_DEADLOCK` (R92). -/
  | residencyDeadlock (c : Nat)
  /-- `OPLD` (R89). -/
  | opld (c : Nat)
  /-- `LOAD_COMPLETE` (R89). -/
  | loadComplete (c : Nat)
  /-- `OPFREE` (R88). -/
  | opfree (c : Nat)
  /-- `HALF_RELEASE_END` (R88). -/
  | halfReleaseEnd (c half : Nat)
  /-- `PDSET` (R86). -/
  | pdset (c : Nat)
  /-- `MSKSET` (R84). -/
  | mskset (c : Nat)
  /-- `WTSET` (R119). -/
  | wtset (c : Nat)
  /-- `ACC_CLAIM` (R93). -/
  | accClaim (c : Nat)
  /-- `FILL_COMPLETE` (R163). -/
  | fillComplete (c u : Nat)
  /-- `FEED_END` (R93). -/
  | feedEnd (c u : Nat)
  /-- `PARCEL_FINAL` (R94). -/
  | parcelFinal (c u : Nat)
  /-- `SPILL_DRAIN_COMPLETE` (R160). -/
  | spillDrainComplete (c u : Nat)
  /-- `CORE_TEST_ENTER` (R102). -/
  | coreTestEnter (a : Acc) (c : Nat)
  /-- `CORE_TEST_START` (R102). -/
  | coreTestStart (a : Acc) (c : Nat)
  /-- `CORE_TEST_LEAVE` (R102). -/
  | coreTestLeave (a : Acc) (c : Nat)
  /-- `VALU_ADD` (R185). -/
  | valuAdd (c : Nat) (epi : Bool)
  /-- `VALU_SUB` (R185). -/
  | valuSub (c : Nat) (epi : Bool)
  /-- `VALU_MUL` (R185). -/
  | valuMul (c : Nat) (epi : Bool)
  /-- `VALU_FMA` (R185). -/
  | valuFma (c : Nat) (epi : Bool)
  /-- `VALU_FNMA` (R185). -/
  | valuFnma (c : Nat) (epi : Bool)
  /-- `VALU_MAX` (R185). -/
  | valuMax (c : Nat) (epi : Bool)
  /-- `VALU_MIN` (R185). -/
  | valuMin (c : Nat) (epi : Bool)
  /-- `VALU_ABS` (R185). -/
  | valuAbs (c : Nat) (epi : Bool)
  /-- `VALU_NEG` (R185). -/
  | valuNeg (c : Nat) (epi : Bool)
  /-- `VALU_MOV` (R185). -/
  | valuMov (c : Nat) (epi : Bool)
  /-- `VALU_SEL` (R185). -/
  | valuSel (c : Nat) (epi : Bool)
  /-- `VALU_I2F` (R185). -/
  | valuI2f (c : Nat) (epi : Bool)
  /-- `VALU_F2I` (R185). -/
  | valuF2i (c : Nat) (epi : Bool)
  /-- `VALU_WIDEN` (R185). -/
  | valuWiden (c : Nat) (epi : Bool)
  /-- `VALU_NARROW` (R185). -/
  | valuNarrow (c : Nat) (epi : Bool)
  /-- `VALU_AND` (R185). -/
  | valuAnd (c : Nat) (epi : Bool)
  /-- `VALU_OR` (R185). -/
  | valuOr (c : Nat) (epi : Bool)
  /-- `VALU_XOR` (R185). -/
  | valuXor (c : Nat) (epi : Bool)
  /-- `VALU_NOT` (R185). -/
  | valuNot (c : Nat) (epi : Bool)
  /-- `VALU_SHL` (R185). -/
  | valuShl (c : Nat) (epi : Bool)
  /-- `VALU_SHR` (R185). -/
  | valuShr (c : Nat) (epi : Bool)
  /-- `VALU_SAR` (R185). -/
  | valuSar (c : Nat) (epi : Bool)
  /-- `VALU_SPLIT` (R185). -/
  | valuSplit (c : Nat) (epi : Bool)
  /-- `VSFU_RCP` (R188). -/
  | vsfuRcp (c : Nat) (epi : Bool)
  /-- `VSFU_RSQ` (R188). -/
  | vsfuRsq (c : Nat) (epi : Bool)
  /-- `VSFU_SQRT` (R188). -/
  | vsfuSqrt (c : Nat) (epi : Bool)
  /-- `VSFU_DIV` (R188). -/
  | vsfuDiv (c : Nat) (epi : Bool)
  /-- `VSFU_EXP2` (R188). -/
  | vsfuExp2 (c : Nat) (epi : Bool)
  /-- `VSFU_LOG2` (R188). -/
  | vsfuLog2 (c : Nat) (epi : Bool)
  /-- `VSFU_EXP` (R188). -/
  | vsfuExp (c : Nat) (epi : Bool)
  /-- `VSFU_LOG` (R188). -/
  | vsfuLog (c : Nat) (epi : Bool)
  /-- `VSFU_TANH` (R188). -/
  | vsfuTanh (c : Nat) (epi : Bool)
  /-- `VSFU_SIGMOID` (R188). -/
  | vsfuSigmoid (c : Nat) (epi : Bool)
  /-- `VSFU_SILU` (R188). -/
  | vsfuSilu (c : Nat) (epi : Bool)
  /-- `VSFU_GELU` (R188). -/
  | vsfuGelu (c : Nat) (epi : Bool)
  /-- `VSFU_ERF` (R188). -/
  | vsfuErf (c : Nat) (epi : Bool)
  /-- `VSFU_SIN` (R188). -/
  | vsfuSin (c : Nat) (epi : Bool)
  /-- `VSFU_COS` (R188). -/
  | vsfuCos (c : Nat) (epi : Bool)
  /-- `VCMP_EQ` (R187). -/
  | vcmpEq (c : Nat) (epi : Bool)
  /-- `VCMP_NE` (R187). -/
  | vcmpNe (c : Nat) (epi : Bool)
  /-- `VCMP_LT` (R187). -/
  | vcmpLt (c : Nat) (epi : Bool)
  /-- `VCMP_LE` (R187). -/
  | vcmpLe (c : Nat) (epi : Bool)
  /-- `VCMP_GT` (R187). -/
  | vcmpGt (c : Nat) (epi : Bool)
  /-- `VCMP_GE` (R187). -/
  | vcmpGe (c : Nat) (epi : Bool)
  /-- `VCMP_UNORDERED` (R187). -/
  | vcmpUnordered (c : Nat) (epi : Bool)
  /-- `VRED_SUM` (R192). -/
  | vredSum (c : Nat) (epi : Bool)
  /-- `VRED_MAX` (R191). -/
  | vredMax (c : Nat) (epi : Bool)
  /-- `VRED_MIN` (R191). -/
  | vredMin (c : Nat) (epi : Bool)
  /-- `VRED_AND` (R191). -/
  | vredAnd (c : Nat) (epi : Bool)
  /-- `VRED_OR` (R191). -/
  | vredOr (c : Nat) (epi : Bool)
  /-- `VRED_XOR` (R191). -/
  | vredXor (c : Nat) (epi : Bool)
  /-- `VRED_POPC` (R191). -/
  | vredPopc (c : Nat) (epi : Bool)
  /-- `VRED_PALL` (R191). -/
  | vredPall (c : Nat) (epi : Bool)
  /-- `VRED_PANY` (R191). -/
  | vredPany (c : Nat) (epi : Bool)
  /-- `VRED_PPAR` (R191). -/
  | vredPpar (c : Nat) (epi : Bool)
  /-- `VRED_PCNT` (R191). -/
  | vredPcnt (c : Nat) (epi : Bool)
  /-- `VPERM` (R193). -/
  | vperm (c : Nat) (epi : Bool)
  /-- `VLD_UNIT_STRIDE` (R194). -/
  | vldUnitStride (c : Nat) (epi : Bool)
  /-- `VLD_STRIDED` (R194). -/
  | vldStrided (c : Nat) (epi : Bool)
  /-- `VLD_GATHER` (R194). -/
  | vldGather (c : Nat) (epi : Bool)
  /-- `VLD_REPEAT` (R194). -/
  | vldRepeat (c : Nat) (epi : Bool)
  /-- `VLD_BROADCAST` (R194). -/
  | vldBroadcast (c : Nat) (epi : Bool)
  /-- `VST_UNIT_STRIDE` (R194). -/
  | vstUnitStride (c : Nat) (epi : Bool)
  /-- `VST_STRIDED` (R194). -/
  | vstStrided (c : Nat) (epi : Bool)
  /-- `VST_SCATTER` (R194). -/
  | vstScatter (c : Nat) (epi : Bool)
  /-- `VDRN` (R203). -/
  | vdrn (c : Nat)
  /-- `VCST_DIRECT` (R198). -/
  | vcstDirect (c : Nat) (epi : Bool)
  /-- `VCST_OUTPUT` (R199). -/
  | vcstOutput (c : Nat)
  /-- `VEEND` (R205). -/
  | veend (c : Nat)
  /-- `VSETI` (R207). -/
  | vseti (c : Nat) (epi : Bool)
  /-- `VCAPS` (R207). -/
  | vcaps (c : Nat) (epi : Bool)
  /-- `VPOP` (R207). -/
  | vpop (c : Nat) (epi : Bool)
  /-- `VPFIRST` (R207). -/
  | vpfirst (c : Nat) (epi : Bool)
  /-- `EPILOGUE_START` (R202). -/
  | epilogueStart (c : Nat)
  /-- `REGION_CLOSE_END` (R236). -/
  | regionCloseEnd (unit head : Nat)
  /-- `SCRUB_COMPLETE` (R237). -/
  | scrubComplete (unit gran : Nat)
  /-- `CORRECTED_WRITEBACK` (R229). -/
  | correctedWriteback (word : Nat)
  /-- `PATROL_PERIOD` (R230). -/
  | patrolPeriod
  /-- `SCRUB_HOLD_WRITE` (R238). -/
  | scrubHoldWrite (a : Acc) (hold : Bool)
  /-- `MOVE` (R247). -/
  | move (c : Nat)
  /-- `MWAIT` (R247). -/
  | mwait (c : Nat)
  /-- `MOVE_NOP` (R251). -/
  | moveNop (k : Nat)
  /-- `MOVE_COPY` (R253). -/
  | moveCopy (k : Nat)
  /-- `MOVE_FILL` (R251). -/
  | moveFill (k : Nat)
  /-- `MOVE_MAP` (R261). -/
  | moveMap (k : Nat)
  /-- `MOVE_UNMAP` (R267). -/
  | moveUnmap (k : Nat)
  /-- `UNMAP_COMPLETE` (R267). -/
  | unmapComplete (k : Nat)
  /-- `MOVE_TOUCH` (R251). -/
  | moveTouch (k : Nat)
  /-- `MOVE_COMPLETE` (R254). -/
  | moveComplete (k : Nat)
  /-- `WALK_COMPLETE` (R265). -/
  | walkComplete (dom va cluster : Nat)
  /-- `PENDING_ZERO_WRITE_DONE` (R271). -/
  | pendingZeroWriteDone (frame : Nat) (ok : Bool)
  /-- `FRAME_SCRUB` (R272). -/
  | frameScrub (frame : Nat)
  /-- `DOORBELL` (R282). -/
  | doorbell (a : Acc) (q tail : Nat)
  /-- `ITEM_NOP` (R285). -/
  | itemNop (q : Nat)
  /-- `ITEM_KERNEL` (R290). -/
  | itemKernel (q : Nat)
  /-- `ITEM_MOVE` (R285). -/
  | itemMove (q : Nat)
  /-- `ITEM_RALLOC` (R289). -/
  | itemRalloc (q : Nat)
  /-- `ITEM_RFREE` (R285). -/
  | itemRfree (q : Nat)
  /-- `RGBEGIN` (R302). -/
  | rgbegin (q : Nat)
  /-- `RGEND` (R304). -/
  | rgend (q : Nat)
  /-- `PLACEMENT_RETRY` (R290). -/
  | placementRetry (q : Nat)
  /-- `PLACE_LIMIT_EXPIRY` (R290). -/
  | placeLimitExpiry (q : Nat)
  /-- `KERNEL_TIMEOUT` (R293). -/
  | kernelTimeout (g : Nat)
  /-- `BARRIER_BROKEN` (R293). -/
  | barrierBroken (g : Nat)
  /-- `KERNEL_END` (R293). -/
  | kernelEnd (g : Nat)
  /-- `Q_ENABLE` (R281). -/
  | qEnable (a : Acc) (q : Nat)
  /-- `Q_DISABLE` (R281). -/
  | qDisable (a : Acc) (q : Nat)
  /-- `Q_RESUME` (R299). -/
  | qResume (a : Acc) (q : Nat)
  /-- `Q_FLUSH` (R299). -/
  | qFlush (a : Acc) (q : Nat)
  /-- `CHEAD_WRITE` (R310). -/
  | cheadWrite (a : Acc) (q value : Nat)
  /-- `DOM_ACTIVATE` (R300). -/
  | domActivate (a : Acc) (dom kind : Nat)
  /-- `DOM_TEAR_DOWN` (R301). -/
  | domTearDown (a : Acc) (dom : Nat)
  /-- `TEARDOWN_COMPLETE` (R301). -/
  | teardownComplete (dom : Nat)
  /-- `GINFO` (R295). -/
  | ginfo (c : Nat)
  /-- `GBAR` (R295). -/
  | gbar (c : Nat)
  /-- `SIGNAL` (R295). -/
  | signal (c : Nat)
  /-- `SWAIT` (R295). -/
  | swait (c : Nat)
  /-- `QPOST` (R295). -/
  | qpost (c : Nat)
  /-- `TRAV` (R320). -/
  | trav (c : Nat)
  /-- `TWAIT` (R315). -/
  | twait (c : Nat)
  /-- `SPUSH` (R334). -/
  | spush (c : Nat)
  /-- `SPOP` (R333). -/
  | spop (c : Nat)
  /-- `ALLREDUCE` (R321). -/
  | allreduce (ch : Nat)
  /-- `REDSCAT` (R321). -/
  | redscat (ch : Nat)
  /-- `ALLGATHER` (R325). -/
  | allgather (ch : Nat)
  /-- `PERMUTE` (R328). -/
  | permute (ch : Nat)
  /-- `RPASS` (R330). -/
  | rpass (ch : Nat)
  /-- `HMERGE` (R329). -/
  | hmerge (ch : Nat)
  /-- `ROUND_COMPLETE` (R327). -/
  | roundComplete (ch : Nat)
  /-- `ROUND_TIMEOUT` (R336). -/
  | roundTimeout (ch : Nat)
  /-- `SBINIT_RETRY` (R348). -/
  | sbinitRetry (m : Nat)
  /-- `SBINIT_DONE` (R348). -/
  | sbinitDone (m : Nat)
  /-- `FEATURE_RECORD` (R356). -/
  | featureRecord (m : Nat) (rec : BitVec 512)
  /-- `EXCHANGE_TIMEOUT` (R350). -/
  | exchangeTimeout (m : Nat)
  /-- `RATE_ATTEMPT` (R351). -/
  | rateAttempt (m ownMap : Nat) (peerOk : Bool)
  /-- `CLOSURE_RECORD` (R352). -/
  | closureRecord (m peerMap peerRate peerWidth peerSet peerMin peerResets : Nat)
  /-- `PARTNER_RETRAIN_REQUEST` (R361). -/
  | partnerRetrainRequest (m : Nat)
  /-- `RETRAIN_TIMEOUT` (R348). -/
  | retrainTimeout (m : Nat)
  /-- `SIDEBAND_LOSS` (R348). -/
  | sidebandLoss (m : Nat)
  /-- `RETRAIN` (R379). -/
  | retrain (a : Acc) (m : Nat)
  /-- `UNQUARANTINE` (R376). -/
  | unquarantine (a : Acc) (m : Nat)
  /-- `TAKE_DOWN` (R379). -/
  | takeDown (a : Acc) (m : Nat)
  /-- `FLIT` (R360). -/
  | flit (m : Nat) (bits : BitVec 2048)
  /-- `ACK_DUE` (R360). -/
  | ackDue (m : Nat)
  /-- `RD` (R364). -/
  | rd (m : Nat) (p : Packet)
  /-- `WR` (R364). -/
  | wr (m : Nat) (p : Packet)
  /-- `BWR` (R364). -/
  | bwr (m : Nat) (p : Packet)
  /-- `RDATA` (R367). -/
  | rdata (m : Nat) (p : Packet)
  /-- `WACK` (R254). -/
  | wack (m : Nat) (p : Packet)
  /-- `ERSP` (R364). -/
  | ersp (m : Nat) (p : Packet)
  /-- `SEG` (R326). -/
  | seg (m : Nat) (p : Packet)
  /-- `PERM` (R328). -/
  | perm (m : Nat) (p : Packet)
  /-- `GRANT` (R326). -/
  | grant (m : Nat) (p : Packet)
  /-- `CACK` (R327). -/
  | cack (m : Nat) (p : Packet)
  /-- `ABORT` (R336). -/
  | abort (m : Nat) (p : Packet)
  /-- `CREFUSE` (R337). -/
  | crefuse (m : Nat) (p : Packet)
  /-- `SDATA` (R334). -/
  | sdata (m : Nat) (p : Packet)
  /-- `SACK` (R334). -/
  | sack (m : Nat) (p : Packet)
  /-- `SOPEN` (R333). -/
  | sopen (m : Nat) (p : Packet)
  /-- `SCREDIT` (R333). -/
  | scredit (m : Nat) (p : Packet)
  /-- `SERR` (R339). -/
  | serr (m : Nat) (p : Packet)
  /-- `CREQ` (R53). -/
  | creq (m : Nat) (p : Packet)
  /-- `CRSP` (R364). -/
  | crsp (m : Nat) (p : Packet)
  /-- `EVENT` (R483). -/
  | event (m : Nat) (p : Packet)
  /-- `FRAME_CODE` (R270). -/
  | frameCode (m : Nat) (p : Packet)
  /-- `FCACK` (R364). -/
  | fcack (m : Nat) (p : Packet)
  /-- `MSG` (R443). -/
  | msg (m : Nat) (p : Packet)
  /-- `IMAGE` (R392). -/
  | image (m : Nat) (p : Packet)
  /-- `ENOTE` (R438). -/
  | enote (m : Nat) (p : Packet)
  /-- `MACK` (R364). -/
  | mack (m : Nat) (p : Packet)
  /-- `REQUEST_TIMEOUT` (R374). -/
  | requestTimeout (tag : Nat)
  /-- `ROUTE_HOLD_END` (R373). -/
  | routeHoldEnd (entry : Nat)
  /-- `ISSUE_FRACTION_UPDATE` (R414). -/
  | issueFractionUpdate (demand : Nat)
  /-- `RAIL_SAMPLE` (R407). -/
  | railSample (rail milliVolt current : Nat)
  /-- `CONTROL_PERIOD` (R421). -/
  | controlPeriod (p : PowerEstimate)
  /-- `VCORE_REACHED` (R409). -/
  | vcoreReached
  /-- `VCORE_READY_TIMEOUT` (R409). -/
  | vcoreReadyTimeout (miss : RailMiss)
  /-- `TEMPERATURE_SCAN` (R424). -/
  | temperatureScan (quarterDegrees : List Int)
  /-- `ENERGY_UPDATE` (R430). -/
  | energyUpdate (energy : Nat)
  /-- `FN_RPTR_WRITE` (R438). -/
  | fnRptrWrite (a : Acc) (value : Nat)
  /-- `DIE_FATAL` (R437). -/
  | dieFatal (unit : Nat)
  /-- `MB_REQ_WRITE` (R443). -/
  | mbReqWrite (a : Acc) (mb off value : Nat)
  /-- `POST` (R443). -/
  | post (a : Acc) (mb len : Nat)
  /-- `MB_RELEASE` (R443). -/
  | mbRelease (a : Acc) (mb : Nat)
  /-- `TAKE` (R443). -/
  | take (a : Acc) (mb : Nat)
  /-- `REPLY` (R443). -/
  | reply (a : Acc) (mb len : Nat)
  /-- `LOAD_WINDOW` (R444). -/
  | loadWindow (percent : Nat)
  /-- `MIRROR_SNAPSHOT` (R445). -/
  | mirrorSnapshot
  /-- `WDT_KICK` (R446). -/
  | wdtKick (a : Acc) (value : Nat)
  /-- `WATCHDOG_EXPIRY` (R446). -/
  | watchdogExpiry
  /-- `SURVEYOR_MEMORY_ERROR` (R446). -/
  | surveyorMemoryError (addr : Nat)
  /-- `SURVEYOR_RESTART_END` (R446). -/
  | surveyorRestartEnd
  /-- `EXTEND` (R447). -/
  | extend (a : Acc) (index : Nat)
  /-- `QUOTE_REQ` (R448). -/
  | quoteReq (a : Acc)
  /-- `QUOTE_DONE` (R448). -/
  | quoteDone
  /-- `SUBMIT` (R451). -/
  | submit (a : Acc)
  /-- `MA_READ` (R452). -/
  | maRead (a : Acc)
  /-- `MA_WRITE` (R452). -/
  | maWrite (a : Acc)
  /-- `MA_COMPLETE` (R452). -/
  | maComplete
  /-- `CL_RETIRE` (R398). -/
  | clRetire (a : Acc) (cl phys : Nat) (force : Bool)
  /-- `QUIESCE_POINT` (R399). -/
  | quiescePoint (c : Nat)
  /-- `RECOVERY_TEST_END` (R399). -/
  | recoveryTestEnd (cl : Nat) (pass : Bool)
  /-- `NEW_CLEAR` (R403). -/
  | newClear (a : Acc)
  /-- `CLEAR` (R144). -/
  | clear (a : Acc) (slot : Nat)
  /-- `SCALE_ENTRY_WRITE` (R144). -/
  | scaleEntryWrite (a : Acc) (slot entry value : Nat)
  /-- `TEST_LOGIC_RESET` (R474). -/
  | testLogicReset
  /-- `EXTEST` (R474). -/
  | extest
  /-- `IDCODE` (R475). -/
  | idcode
  /-- `SAMPLE_PRELOAD` (R474). -/
  | samplePreload (pins : BitVec 40)
  /-- `CLAMP` (R474). -/
  | clamp
  /-- `HIGHZ` (R474). -/
  | highz
  /-- `IJTAG` (R476). -/
  | ijtag (open_ : Nat)
  /-- `BYPASS` (R474). -/
  | bypass (code : Nat)
  /-- `MR_SYNC` (R478). -/
  | mrSync
  /-- `PRES_IN_CHANGE` (R477). -/
  | presInChange (level : Bool)
  /-- `PARTNER_SIDEBAND_RESTART` (R349). -/
  | partnerSidebandRestart (m : Nat)
  /-- `RAILS_VALID` (R471). -/
  | railsValid
  deriving DecidableEq, Repr

end Sys2Proof
end

