-- ==== Sys2Proof/Decode.lean ====
section
/-! DEFINITION. The decoder of the table of operations. No row of the table gives a command any bits: a command is an event or an
access with operands, not a word. So no word spells a command. -/

namespace Sys2Proof

/-- The command that a word of `nbits` bits spells by the table: none, since no row gives bits. -/
def decodeTableWord (nbits w : Nat) : Option Instr :=
  match nbits, w with
  | _, _ => none

end Sys2Proof
end

