-- ==== Sys2Proof/Config.lean ====
section
/-! DEFINITION. What the die's stepping fixes, and the free values: constants with no body, so that nothing can be
proved of them. -/

namespace Sys2Proof.Config

/-- The stepping of the die, as `PAGE_VER.STEPPING` codes it (R50): 0xB0, the production stepping of R1. -/
def stepping : Nat := 0xB0

/-- The n-th draw of 64 bits from the entropy source (R353, R450): unconstrained. -/
opaque entropy : Nat → BitVec 64

/-- What the code makes of an error beyond what its class detects (R226), for the n-th free value: 0 uncorrectable,
1 miscorrected, 2 undetected, 3 uncorrectable. -/
opaque eccOutcome : Nat → BitVec 2

/-- The data that an error beyond detection delivers (R226), for the n-th free value and the 8-byte word. -/
opaque eccWord : Nat → Nat → BitVec 64

/-- The binary32 result bits of special function `f` (its minor opcode) for an operand (R190): one fixed mapping of which
nothing is known but the bounds that Machine/Sfu.lean applies. -/
opaque sfu : Nat → BitVec 32 → BitVec 32

/-- The contributions that the other positions of a chain give a round beyond one each (R313, R323), for a chain of a length, as seen
from a position with some local contributors: the die holds no other position's count. -/
opaque peerContributions : Nat → Nat → Nat → Nat → Nat

/-- The filler cycles, over all cores, of one 10 ns period in which the allowance is above what real activity draws
(R417), for the n-th free value. -/
opaque fillerCk : Nat → BitVec 12

/-- The level at a signal of R462 that the package drives, for the n-th free value; for a clock of the test port or of the management
ring, whether an edge of it falls in this ck (R474, R478). -/
opaque pinLevel : Nat → Nat → Bool

/-- What the 40 cells of the boundary register sample at a Capture-DR (R474), for the n-th free value. -/
opaque cellLevels : Nat → BitVec 40

/-- The boundary register's cell of a miscellaneous signal (R474): the spec gives no order of the 40 cells. -/
opaque boundaryCell : Nat → Fin 40

end Sys2Proof.Config
end

