-- ==== Sys2Proof/Machine/Bits.lean ====
section
/-! DEFINITION. Bit ranges and byte order (R17): bit 0 is the least significant, and a multi-byte value is
little-endian. -/

namespace Sys2Proof.Machine

/-- Bits [lo + len - 1 : lo] of `w` (R17). -/
def bitsAt (w lo len : Nat) : Nat := w / 2 ^ lo % 2 ^ len

/-- `w` with bits [lo + len - 1 : lo] replaced by the low bits of `v` (R17). -/
def bitsPut (w lo len v : Nat) : Nat :=
  w % 2 ^ lo + (v % 2 ^ len) * 2 ^ lo + w / 2 ^ (lo + len) * 2 ^ (lo + len)

/-- Bit `i` of `w`. -/
def bitOf (w i : Nat) : Bool := w / 2 ^ i % 2 == 1

/-- A Boolean as one bit. -/
def b2n (b : Bool) : Nat := if b then 1 else 0

/-- The little-endian value of a run of bytes (R17). -/
def leVal : Bytes → Nat
  | [] => 0
  | b :: t => b.toNat + 256 * leVal t

/-- The `n` low bytes of `v`, little-endian (R17). -/
def leBytes : Nat → Nat → Bytes
  | 0, _ => []
  | n + 1, v => BitVec.ofNat 8 v :: leBytes n (v / 256)

/-- The big-endian value of a run of bytes (R393). -/
def beVal (b : Bytes) : Nat := leVal b.reverse

/-- Bytes [off, off + n) of a run, short where the run is. -/
def sub (b : Bytes) (off n : Nat) : Bytes := (b.drop off).take n

/-- The little-endian value of `n` bytes at `off` (R17). -/
def leAt (b : Bytes) (off n : Nat) : Nat := leVal (sub b off n)

/-- `n` zero bytes. -/
def zeros (n : Nat) : Bytes := List.replicate n 0

/-- A run of bytes cut or filled with zero bytes to length `n`. -/
def fit (b : Bytes) (n : Nat) : Bytes := (b ++ zeros n).take n

/-- A 64-bit or narrower counter that stops at its largest value. -/
def satAdd (width a n : Nat) : Nat := min (a + n) (2 ^ width - 1)

/-- The numbers below `n` that satisfy `p`, ascending. -/
def idx (n : Nat) (p : Nat → Bool) : List Nat := (List.range n).filter p

/-- The numbers below `n` whose bit of `mask` is set, ascending. -/
def maskIdx (n mask : Nat) : List Nat := idx n (bitOf mask)

/-- The mask with the listed bits set. -/
def idxMask (l : List Nat) : Nat := l.foldl (fun m i => if bitOf m i then m else m + 2 ^ i) 0

/-- The number of ones among the low `n` bits. -/
def popcount (n w : Nat) : Nat := (maskIdx n w).length

/-- `n` divided by `d`, rounded up. -/
def ceilDiv (n d : Nat) : Nat := (n + d - 1) / d

/-- The two's complement value of a `width`-bit field. -/
def signed (width v : Nat) : Int := if v % 2 ^ width < 2 ^ (width - 1) then (v % 2 ^ width : Nat) else (v % 2 ^ width : Nat) - (2 ^ width : Nat)

/-- The `width`-bit two's complement code of an integer. -/
def unsigned (width : Nat) (v : Int) : Nat := (v % (2 ^ width : Nat)).toNat

end Sys2Proof.Machine
end

