-- ==== Sys2Proof/Machine/RegMap.lean ====
section
/-! DEFINITION. The register map of the control aperture, one entry per 32-bit register word, with the bits of
each access code of R51 as a mask, the bits that are fixed until reset (R62) and the reset value; and one named
field for every field of the spec's register tables (R37, R107, R143, R144, R175, R211, R242-R244, R277, R278, R308,
R309, R342, R343, R378, R379, R381, R382, R402-R404, R432, R433, R455-R458, R479). A field whose reset the spec
leaves to the fuses, the plat, the image or entropy holds 0 here until bring-up writes it, but for the bypass maps,
which hold 0xFF for "none" (R107). -/

namespace Sys2Proof.Machine

/-- One 32-bit register word, or an array of `cnt` of them `stride` bytes apart: its bits by access code (R51). -/
structure RegW where
  off : Nat
  cnt : Nat
  stride : Nat
  rw : Nat
  ro : Nat
  ws : Nat
  w1c : Nat
  rc : Nat
  wo : Nat
  fixed : Nat
  rst : Nat
  pair : Bool
  deriving DecidableEq, Repr

/-- A named register field: the block's first page, whether it lies in the channel window, the register's offset,
the field's lowest bit, its width, and the distance between elements of a register array. -/
structure Fld where
  page : Nat
  win : Bool
  off : Nat
  lo : Nat
  len : Nat
  stride : Nat
  deriving DecidableEq, Repr

/-- The page registers of the DIE block. -/
def regsOfDIE : List RegW :=
  [
    ⟨0x100, 1, 4, 0, 0xfff, 0, 0, 0, 0, 0, 0, false⟩ /- DIE_ID R37 -/,
    ⟨0x104, 1, 4, 0, 0, 0x7ff, 0, 0, 0, 0xff, 0, false⟩ /- DIE_CFG R37 -/,
    ⟨0x108, 1, 4, 0, 0x3f, 0, 0, 0, 0, 0, 0, false⟩ /- DIE_STACKS R37 -/,
    ⟨0x200, 32, 4, 0, 0, 0xffff003f, 0, 0, 0, 0xffff003f, 0, false⟩ /- STACK R37 -/,
    ⟨0x300, 8, 4, 0, 0, 0x3fff, 0, 0, 0, 0x3fff, 0, false⟩ /- GUEST R37 -/ ]

/-- The page registers of the BOOT block. -/
def regsOfBOOT : List RegW :=
  [
    ⟨0x100, 1, 4, 0, 0x3f07ff1f, 0, 0, 0, 0, 0, 0, false⟩ /- BOOT_STATE R402 -/,
    ⟨0x104, 1, 4, 0, 0xffff, 0, 0, 0, 0, 0, 0, false⟩ /- BOOT_RESETS R402 -/,
    ⟨0x108, 1, 4, 0, 0xffffffff, 0, 0, 0, 0, 0, 0, false⟩ /- BOOT_IMG_VER R402 -/,
    ⟨0x10c, 1, 4, 0, 0, 0, 0, 0xffffffff, 0, 0, 0, false⟩ /- BOOT_LDR_ERRS R402 -/,
    ⟨0x110, 1, 4, 0, 0, 0, 0, 0, 7, 0, 0, false⟩ /- BOOT_CTL R402 -/,
    ⟨0x118, 1, 4, 0, 0xffffffff, 0, 0, 0, 0, 0, 0, true⟩ /- BOOT_SERIAL R402 -/,
    ⟨0x11c, 1, 4, 0, 0xffffffff, 0, 0, 0, 0, 0, 0, false⟩ /- BOOT_SERIAL R402 -/,
    ⟨0x120, 8, 4, 0, 0xffffffff, 0, 0, 0, 0, 0, 0, false⟩ /- BOOT_PH R402 -/ ]

/-- The page registers of the PLAT block. -/
def regsOfPLAT : List RegW :=
  [
    ⟨0x100, 1, 4, 0, 0xffffff, 0, 0, 0, 0, 0, 0, false⟩ /- PLAT_COUNTS R403 -/,
    ⟨0x104, 1, 4, 0, 0x1ff, 0, 0, 0, 0, 0, 0, false⟩ /- PLAT_NEW R403 -/,
    ⟨0x108, 1, 4, 0, 0, 0, 0, 0, 1, 0, 0, false⟩ /- PLAT_CTL R403 -/,
    ⟨0x1000, 128, 4, 0, 0xffffffff, 0, 0, 0, 0, 0, 0, false⟩ /- PLAT_FUSE R403 -/,
    ⟨0x1400, 256, 4, 0, 0xffffffff, 0, 0, 0, 0, 0, 0, false⟩ /- PLAT_FIELD R403 -/,
    ⟨0x1800, 256, 4, 0, 0xffffffff, 0, 0, 0, 0, 0, 0, false⟩ /- PLAT_NEW R403 -/,
    ⟨0x1c00, 64, 4, 0, 0xffffffff, 0, 0, 0, 0, 0, 0, false⟩ /- PLAT_RET R403 -/ ]

/-- The page registers of the CLK block. -/
def regsOfCLK : List RegW :=
  [
    ⟨0x100, 1, 4, 0, 0x3f07, 0, 0, 0, 0, 0, 0, false⟩ /- CLK_STATUS R479 -/,
    ⟨0x104, 1, 4, 0, 0xfc, 0, 3, 0, 0, 0, 0, false⟩ /- CLK_AON R479 -/,
    ⟨0x108, 1, 4, 0, 0, 0, 0, 0xffffffff, 0, 0, 0, false⟩ /- CLK_GLITCHES R479 -/,
    ⟨0x10c, 1, 4, 0, 0xfff, 0, 0, 0, 0, 0, 0, false⟩ /- CLK_FREQ R479 -/,
    ⟨0x110, 1, 4, 0, 0xffffffff, 0, 0, 0, 0, 0, 0, true⟩ /- CLK_TIME R479 -/,
    ⟨0x114, 1, 4, 0, 0xffffffff, 0, 0, 0, 0, 0, 0, false⟩ /- CLK_TIME R479 -/ ]

/-- The page registers of the PWR block. -/
def regsOfPWR : List RegW :=
  [
    ⟨0x100, 1, 4, 0, 0, 0x7ff, 0, 0, 0, 0, 0x86, false⟩ /- PWR_CFG R432 -/,
    ⟨0x104, 1, 4, 0, 0, 0x7f03ff, 0, 0, 0, 0, 0xa0320, false⟩ /- PWR_CAP R432 -/,
    ⟨0x108, 1, 4, 0, 0, 0xffff, 0, 0, 0, 0, 0x1414, false⟩ /- PWR_GRADE R432 -/,
    ⟨0x10c, 1, 4, 0, 0, 0xff7f, 0, 0, 0, 0, 0xa69, false⟩ /- THERM_CFG R432 -/,
    ⟨0x110, 1, 4, 0, 0x7ff7ffff, 0, 0, 0, 0, 0, 0x21081, false⟩ /- PWR_STATUS R432 -/,
    ⟨0x114, 1, 4, 0, 0x7ffff, 0, 0, 0, 0, 0, 0, false⟩ /- PWR_TJ R432 -/,
    ⟨0x118, 1, 4, 0, 0x3ff3fff, 0, 0, 0, 0, 0, 0x3840000, false⟩ /- PWR_POWER R432 -/,
    ⟨0x120, 1, 4, 0, 0xffffffff, 0, 0, 0, 0, 0, 0, true⟩ /- PWR_ENERGY R432 -/,
    ⟨0x124, 1, 4, 0, 0xffffffff, 0, 0, 0, 0, 0, 0, false⟩ /- PWR_ENERGY R432 -/,
    ⟨0x128, 1, 4, 0, 0xff, 0, 0, 0, 0, 0, 0, false⟩ /- EPI_PTR R432 -/,
    ⟨0x12c, 1, 4, 0, 0, 0, 0, 0xffffffff, 0, 0, 0, false⟩ /- EPI_LOST R432 -/,
    ⟨0x130, 11, 8, 0, 0xffffffff, 0, 0, 0, 0, 0, 0, true⟩ /- THR_TIME R432 -/ ]
  ++ [
    ⟨0x134, 11, 8, 0, 0xffffffff, 0, 0, 0, 0, 0, 0, false⟩ /- THR_TIME R432 -/,
    ⟨0x188, 1, 4, 0, 0xffffffff, 0, 0, 0, 0, 0, 0, true⟩ /- FILLER_CK R432 -/,
    ⟨0x18c, 1, 4, 0, 0xffffffff, 0, 0, 0, 0, 0, 0, false⟩ /- FILLER_CK R432 -/,
    ⟨0x2000, 2048, 4, 0, 0xffffffff, 0, 0, 0, 0, 0, 0, false⟩ /- EPI R432 -/ ]

/-- The window registers of the PWR block. -/
def regsOfPWRWin : List RegW :=
  [
    ⟨0x0, 1, 4, 0, 0, 0xffffffff, 0, 0, 0, 0, 0, false⟩ /- RAIL_LIM_A R433 -/,
    ⟨0x4, 1, 4, 0, 0, 0xffff, 0, 0, 0, 0, 0, false⟩ /- RAIL_LIM_B R433 -/,
    ⟨0x8, 1, 4, 0, 0xffffffff, 0, 0, 0, 0, 0, 0, false⟩ /- RAIL_MEAS R433 -/,
    ⟨0xc, 1, 4, 0, 0, 0, 0, 0xffff, 0, 0, 0, false⟩ /- RAIL_PEAK R433 -/,
    ⟨0x10, 1, 4, 0, 0, 0, 0, 0xffffffff, 0, 0, 0, false⟩ /- RAIL_OVER R433 -/ ]

/-- The page registers of the ERR block. -/
def regsOfERR : List RegW :=
  [
    ⟨0x100, 1, 4, 0, 0, 0xff01, 0, 0, 0, 0, 0x100, false⟩ /- FN_CFG R455 -/,
    ⟨0x104, 1, 4, 0, 0xffffffff, 0, 0, 0, 0, 0, 0, false⟩ /- FN_WPTR R455 -/,
    ⟨0x108, 1, 4, 0xffffffff, 0, 0, 0, 0, 0, 0, 0, false⟩ /- FN_RPTR R455 -/,
    ⟨0x10c, 1, 4, 0, 0, 0, 0, 0xffffffff, 0, 0, 0, false⟩ /- FN_LOST R455 -/,
    ⟨0x110, 1, 4, 0, 0xf1, 0, 0, 0, 0, 0, 0, false⟩ /- ERR_FATAL R455 -/,
    ⟨0x114, 1, 4, 0, 0, 0, 0, 0xffffffff, 0, 0, 0, false⟩ /- ERR_UNPOP R455 -/,
    ⟨0x118, 1, 4, 0, 0, 0, 0, 0xffffffff, 0, 0, 0, false⟩ /- ERR_ERSP_RX R455 -/,
    ⟨0x11c, 1, 4, 0, 0, 0, 0, 0xffffffff, 0, 0, 0, false⟩ /- ERR_ENOTE_RX R455 -/,
    ⟨0x2000, 2048, 4, 0, 0xffffffff, 0, 0, 0, 0, 0, 0, false⟩ /- FN R455 -/ ]

/-- The page registers of the SEC block. -/
def regsOfSEC : List RegW :=
  [
    ⟨0x100, 1, 4, 0, 0xf, 0, 0, 0, 0, 0, 0, false⟩ /- SEC_STATE R456 -/,
    ⟨0x104, 1, 4, 0, 0, 0x7ffff, 0, 0, 0, 0, 0, false⟩ /- SEC_HOSTMASK R456 -/,
    ⟨0x108, 1, 4, 0, 0, 0, 0, 0, 1, 0, 0, false⟩ /- QUOTE_CTL R456 -/,
    ⟨0x10c, 1, 4, 0, 0, 0, 0, 0, 0xf, 0, 0, false⟩ /- MEAS_CTL R456 -/,
    ⟨0x1000, 96, 4, 0, 0xffffffff, 0, 0, 0, 0, 0, 0, false⟩ /- MEAS R456 -/,
    ⟨0x1200, 8, 4, 0xffffffff, 0, 0, 0, 0, 0, 0, 0, false⟩ /- QUOTE_NONCE R456 -/,
    ⟨0x1300, 12, 4, 0xffffffff, 0, 0, 0, 0, 0, 0, 0, false⟩ /- MEAS_DATA R456 -/,
    ⟨0x1400, 144, 4, 0, 0xffffffff, 0, 0, 0, 0, 0, 0, false⟩ /- QUOTE R456 -/,
    ⟨0x1800, 25, 4, 0, 0xffffffff, 0, 0, 0, 0, 0, 0, false⟩ /- IDKEY_PUB R456 -/ ]

/-- The page registers of the MBX block. -/
def regsOfMBX : List RegW :=
  [
    ⟨0x100, 1, 4, 0, 0x7f0f, 0, 0, 0, 0, 0, 3, false⟩ /- SVY_STATE R457 -/,
    ⟨0x104, 1, 4, 0, 0xffff, 0, 0, 0, 0, 0, 0, false⟩ /- SVY_RESTARTS R457 -/,
    ⟨0x108, 1, 4, 0, 0, 0, 0, 0, 0xff, 0, 0, false⟩ /- WDT_KICK R457 -/,
    ⟨0x200, 1, 4, 0, 0xffffffff, 0, 0, 0, 0, 0, 0, false⟩ /- MIR_SEQ0 R457 -/,
    ⟨0x204, 7, 4, 0, 0xffffffff, 0, 0, 0, 0, 0, 0, false⟩ /- Mirror R457 -/,
    ⟨0x220, 1, 4, 0, 0xffffffff, 0, 0, 0, 0, 0, 0, true⟩ /- MIR_LNK_UP R457 -/,
    ⟨0x224, 1, 4, 0, 0xffffffff, 0, 0, 0, 0, 0, 0, false⟩ /- MIR_LNK_UP R457 -/,
    ⟨0x228, 1, 4, 0, 0xffffffff, 0, 0, 0, 0, 0, 0, true⟩ /- MIR_HOLES R457 -/,
    ⟨0x22c, 1, 4, 0, 0xffffffff, 0, 0, 0, 0, 0, 0, false⟩ /- MIR_HOLES R457 -/,
    ⟨0x23c, 1, 4, 0, 0xffffffff, 0, 0, 0, 0, 0, 0, false⟩ /- MIR_SEQ1 R457 -/ ]

/-- The window registers of the MBX block. -/
def regsOfMBXWin : List RegW :=
  [
    ⟨0x0, 1, 4, 0, 0x7ffff37, 0, 0, 0, 0, 0, 0, false⟩ /- MB_STATE R457 -/,
    ⟨0x4, 1, 4, 0, 0x7ff, 0, 0, 0, 0, 0, 0, false⟩ /- MB_RSP_INFO R457 -/,
    ⟨0x8, 1, 4, 0, 0, 0, 0, 0, 0x1ff000f, 0, 0, false⟩ /- MB_CTL R457 -/,
    ⟨0x100, 64, 4, 0xffffffff, 0, 0, 0, 0, 0, 0, 0, false⟩ /- MB_REQ R457 -/,
    ⟨0x200, 64, 4, 0xffffffff, 0, 0, 0, 0, 0, 0, 0, false⟩ /- MB_RSP R457 -/ ]

/-- The page registers of the DSP block. -/
def regsOfDSP : List RegW :=
  [
    ⟨0x100, 1, 4, 0x1ffff, 0, 0, 0, 0, 0, 0, 0, false⟩ /- EVENT_QUEUE R308 -/,
    ⟨0x104, 1, 4, 0, 0, 0xffffffff, 0, 0, 0, 0, 0x640000, false⟩ /- DSP_CFG R308 -/,
    ⟨0x108, 1, 4, 0, 0, 0, 0, 0, 0xffffffff, 0, 0, false⟩ /- DOORBELL R308 -/,
    ⟨0x10c, 1, 4, 0, 0, 0, 0, 0, 0xfff, 0, 0, false⟩ /- DOM_CMD R308 -/,
    ⟨0x110, 1, 4, 0, 0xfff1, 0, 0, 0, 0, 0, 0, false⟩ /- DOM_CMD_STATUS R308 -/,
    ⟨0x114, 1, 4, 0, 0, 0, 0, 0xffffffff, 0, 0, 0, false⟩ /- EVQ_LOST R308 -/,
    ⟨0x118, 1, 4, 0, 0xffffffff, 0, 0, 0, 0, 0, 0, true⟩ /- DSP_KSTART R308 -/,
    ⟨0x11c, 1, 4, 0, 0xffffffff, 0, 0, 0, 0, 0, 0, false⟩ /- DSP_KSTART R308 -/,
    ⟨0x120, 1, 4, 0, 0xffffffff, 0, 0, 0, 0, 0, 0, true⟩ /- DSP_REPLAYS R308 -/,
    ⟨0x124, 1, 4, 0, 0xffffffff, 0, 0, 0, 0, 0, 0, false⟩ /- DSP_REPLAYS R308 -/,
    ⟨0x1000, 1024, 4, 0xffffffff, 0, 0, 0, 0, 0, 0, 0, false⟩ /- SIG R308 -/,
    ⟨0x2000, 256, 4, 0xffffffff, 0, 0, 0, 0, 0, 0, 0, false⟩ /- SIG_OWN R308 -/ ]
  ++ [
    ⟨0x2400, 256, 4, 0xffff0000, 0xf, 0, 0, 0, 0, 0, 0, false⟩ /- DOM_CFG R308 -/ ]

/-- The window registers of the DSP block. -/
def regsOfDSPWin : List RegW :=
  [
    ⟨0x0, 1, 4, 0, 0, 0xff7fff07, 0, 0, 0, 0, 0, false⟩ /- Q_CFG R309 -/,
    ⟨0x4, 1, 4, 0, 0, 0x1f, 0, 0, 0, 0, 0, false⟩ /- Q_RING R309 -/,
    ⟨0x8, 1, 4, 0, 0, 0xfffff000, 0, 0, 0, 0, 0, true⟩ /- Q_RING_BASE R309 -/,
    ⟨0xc, 1, 4, 0, 0, 0x3ff, 0, 0, 0, 0, 0, false⟩ /- Q_RING_BASE R309 -/,
    ⟨0x10, 1, 4, 0, 0, 0xfffff000, 0, 0, 0, 0, 0, true⟩ /- Q_CMPL_BASE R309 -/,
    ⟨0x14, 1, 4, 0, 0, 0x3ff, 0, 0, 0, 0, 0, false⟩ /- Q_CMPL_BASE R309 -/,
    ⟨0x18, 1, 4, 0, 0, 0, 0, 0, 0xf, 0, 0, false⟩ /- Q_CTL R309 -/,
    ⟨0x1c, 1, 4, 0, 0xffff07, 0, 0, 0, 0, 0, 0, false⟩ /- Q_STATE R309 -/,
    ⟨0x20, 1, 4, 0, 0xffffffff, 0, 0, 0, 0, 0, 0, false⟩ /- Q_PTRS R309 -/,
    ⟨0x24, 1, 4, 0xffff0000, 0xffff, 0, 0, 0, 0, 0, 0, false⟩ /- Q_CMPL R309 -/,
    ⟨0x28, 1, 4, 0, 0, 0xffffffff, 0, 0, 0, 0, 0, false⟩ /- Q_TIMEOUT R309 -/,
    ⟨0x30, 1, 4, 0, 0xffffffff, 0, 0, 0, 0, 0, 0, true⟩ /- Q_SERIAL R309 -/ ]
  ++ [
    ⟨0x34, 1, 4, 0, 0xff, 0, 0, 0, 0, 0, 0, false⟩ /- Q_SERIAL R309 -/,
    ⟨0x38, 1, 4, 0, 0xffffffff, 0, 0, 0, 0, 0, 0, true⟩ /- Q_DONE R309 -/,
    ⟨0x3c, 1, 4, 0, 0xffffffff, 0, 0, 0, 0, 0, 0, false⟩ /- Q_DONE R309 -/ ]

/-- The page registers of the XLT block. -/
def regsOfXLT : List RegW :=
  [
    ⟨0x100, 1, 4, 0, 0, 0x3fffffff, 0, 0, 0, 0x3fffffff, 0, false⟩ /- POOL_BASE R277 -/,
    ⟨0x104, 1, 4, 0, 0, 0x3fffffff, 0, 0, 0, 0x3fffffff, 0, false⟩ /- POOL_COUNT R277 -/,
    ⟨0x108, 1, 4, 0, 0x3fffffff, 0, 0, 0, 0, 0, 0, false⟩ /- FREE_FRAMES R277 -/,
    ⟨0x10c, 1, 4, 0, 0x3fffffff, 0, 0, 0, 0, 0, 0, false⟩ /- PENDING_FRAMES R277 -/,
    ⟨0x110, 1, 4, 0, 0, 0xffffffff, 0, 0, 0, 0, 0x100040, false⟩ /- XLT_CFG R277 -/,
    ⟨0x114, 1, 4, 0, 0xffffffff, 0, 0, 0, 0, 0, 0, false⟩ /- XLT_GEOM R277 -/,
    ⟨0x118, 1, 4, 0, 0xffffffff, 0, 0, 0, 0, 0, 0, true⟩ /- XLT_WALKS R277 -/,
    ⟨0x11c, 1, 4, 0, 0xffffffff, 0, 0, 0, 0, 0, 0, false⟩ /- XLT_WALKS R277 -/,
    ⟨0x120, 1, 4, 0, 0xffffffff, 0, 0, 0, 0, 0, 0, true⟩ /- XLT_TLB_MISS R277 -/,
    ⟨0x124, 1, 4, 0, 0xffffffff, 0, 0, 0, 0, 0, 0, false⟩ /- XLT_TLB_MISS R277 -/ ]

/-- The window registers of the XLT block. -/
def regsOfXLTWin : List RegW :=
  [
    ⟨0x0, 1, 4, 0, 3, 0, 0, 0, 0, 0, 0, false⟩ /- DOM_STATE R278 -/,
    ⟨0x4, 1, 4, 0, 0, 0x3fffffff, 0, 0, 0, 0, 0, false⟩ /- DOM_LIMIT R278 -/,
    ⟨0x8, 1, 4, 0, 0x3fffffff, 0, 0, 0, 0, 0, 0, false⟩ /- DOM_USED R278 -/,
    ⟨0xc, 1, 4, 0, 0xff, 0, 0x100, 0, 0, 0, 0, false⟩ /- DOM_FAULT R278 -/,
    ⟨0x10, 1, 4, 0, 0xffffffff, 0, 0, 0, 0, 0, 0, true⟩ /- DOM_FAULT_VA R278 -/,
    ⟨0x14, 1, 4, 0, 0x3ff, 0, 0, 0, 0, 0, 0, false⟩ /- DOM_FAULT_VA R278 -/,
    ⟨0x18, 1, 4, 0, 0xffffffff, 0, 0, 0, 0, 0, 0, true⟩ /- DOM_WALKS R278 -/,
    ⟨0x1c, 1, 4, 0, 0xffffffff, 0, 0, 0, 0, 0, 0, false⟩ /- DOM_WALKS R278 -/ ]

/-- The page registers of the FLD block. -/
def regsOfFLD : List RegW :=
  [
    ⟨0x100, 1, 4, 0, 0, 0xffffff, 0, 0, 0, 0, 0x10001, false⟩ /- FLD_CFG R243 -/,
    ⟨0x104, 1, 4, 1, 0, 0, 0, 0, 0, 0, 0, false⟩ /- FLD_DBGCTL R243 -/,
    ⟨0x108, 1, 4, 0, 0x1fff, 0, 0, 0, 0, 0, 0, false⟩ /- FLD_HELD R243 -/ ]

/-- The window registers of the FLD block. -/
def regsOfFLDWin : List RegW :=
  [
    ⟨0x0, 1, 4, 0, 0x13f3f, 0, 0, 0, 0, 0, 0, false⟩ /- SL_STATUS R244 -/,
    ⟨0x4, 1, 4, 0, 0, 0, 0, 0xffffffff, 0, 0, 0, false⟩ /- SL_CE_COUNT R244 -/,
    ⟨0x8, 1, 4, 0, 0, 0, 0, 0xffffffff, 0, 0, 0, false⟩ /- SL_UE_COUNT R244 -/,
    ⟨0xc, 1, 4, 0, 0xbffffff, 0, 0x4000000, 0, 0, 0, 0, false⟩ /- SL_ERR_ADDR R244 -/,
    ⟨0x10, 48, 4, 0, 0xffffffff, 0, 0, 0, 0, 0, 0, false⟩ /- SL_GRAN R244 -/ ]

/-- The page registers of the TRV block. -/
def regsOfTRV : List RegW :=
  [
    ⟨0x100, 1, 4, 0, 0, 0xffff, 0, 0, 0, 0, 0x64, false⟩ /- TRV_CFG R342 -/,
    ⟨0x104, 1, 4, 0, 0x3fff, 0, 0, 0, 0, 0, 0, false⟩ /- TRV_LAST R342 -/,
    ⟨0x108, 1, 4, 0, 0, 0, 0, 0xffffffff, 0, 0, 0, false⟩ /- TRV_REFUSED R342 -/,
    ⟨0x110, 1, 4, 0, 0xffffffff, 0, 0, 0, 0, 0, 0, true⟩ /- TRV_ELEMS R342 -/,
    ⟨0x114, 1, 4, 0, 0xffffffff, 0, 0, 0, 0, 0, 0, false⟩ /- TRV_ELEMS R342 -/,
    ⟨0x1000, 64, 64, 0, 0, 0xfffffff, 0, 0, 0, 0, 0, false⟩ /- SQ_CFG R342 -/,
    ⟨0x1004, 64, 64, 0, 0, 0xffffff, 0, 0, 0, 0, 0, false⟩ /- SQ_GEOM R342 -/,
    ⟨0x1008, 64, 64, 0, 0, 0xffffffff, 0, 0, 0, 0, 0, false⟩ /- SQ_BASE R342 -/,
    ⟨0x100c, 64, 64, 0, 0, 0x3ff, 0, 0, 0, 0, 0, false⟩ /- SQ_SIG R342 -/,
    ⟨0x1010, 64, 64, 0, 0xff03, 0, 0, 0, 0, 0, 0, false⟩ /- SQ_STATE R342 -/,
    ⟨0x1014, 64, 64, 0, 0xffffffff, 0, 0, 0, 0, 0, 0, false⟩ /- SQ_MOVED R342 -/,
    ⟨0x1018, 64, 64, 0, 0xffffffff, 0, 0, 0, 0, 0, 0, false⟩ /- SQ_POPPED R342 -/ ]
  ++ [
    ⟨0x1020, 64, 64, 0, 0xffffffff, 0, 0, 0, 0, 0, 0, true⟩ /- SQ_WAIT_CREDIT R342 -/,
    ⟨0x1024, 64, 64, 0, 0xffffffff, 0, 0, 0, 0, 0, 0, false⟩ /- SQ_WAIT_CREDIT R342 -/,
    ⟨0x1028, 64, 64, 0, 0xffffffff, 0, 0, 0, 0, 0, 0, true⟩ /- SQ_WAIT_DATA R342 -/,
    ⟨0x102c, 64, 64, 0, 0xffffffff, 0, 0, 0, 0, 0, 0, false⟩ /- SQ_WAIT_DATA R342 -/ ]

/-- The window registers of the TRV block. -/
def regsOfTRVWin : List RegW :=
  [
    ⟨0x0, 1, 4, 0, 0, 0xffffffd, 0, 0, 0, 0, 0, false⟩ /- CH_CFG R343 -/,
    ⟨0x4, 1, 4, 0, 0, 0xfff, 0, 0, 0, 0, 0, false⟩ /- CH_POS R343 -/,
    ⟨0x8, 1, 4, 0, 0, 0xfff0fff, 0, 0, 0, 0, 0, false⟩ /- CH_NBR R343 -/,
    ⟨0xc, 1, 4, 0, 0, 0xffffffff, 0, 0, 0, 0, 0, false⟩ /- CH_BUF R343 -/,
    ⟨0x10, 1, 4, 0, 0, 0xff, 0, 0, 0, 0, 7, false⟩ /- CH_WIN R343 -/,
    ⟨0x14, 1, 4, 0, 0x3ff, 0, 0xc00, 0, 0, 0, 0, false⟩ /- CH_STATUS R343 -/,
    ⟨0x18, 1, 4, 0, 0xffffffff, 0, 0, 0, 0, 0, 0, false⟩ /- CH_EPOCH R343 -/,
    ⟨0x20, 1, 4, 0, 0xffffffff, 0, 0, 0, 0, 0, 0, true⟩ /- CH_WAIT_PRED R343 -/,
    ⟨0x24, 1, 4, 0, 0xffffffff, 0, 0, 0, 0, 0, 0, false⟩ /- CH_WAIT_PRED R343 -/,
    ⟨0x28, 1, 4, 0, 0xffffffff, 0, 0, 0, 0, 0, 0, true⟩ /- CH_WAIT_GRANT R343 -/,
    ⟨0x2c, 1, 4, 0, 0xffffffff, 0, 0, 0, 0, 0, 0, false⟩ /- CH_WAIT_GRANT R343 -/,
    ⟨0x30, 1, 4, 0, 0xffffffff, 0, 0, 0, 0, 0, 0, true⟩ /- CH_WAIT_LOCAL R343 -/ ]
  ++ [
    ⟨0x34, 1, 4, 0, 0xffffffff, 0, 0, 0, 0, 0, 0, false⟩ /- CH_WAIT_LOCAL R343 -/,
    ⟨0x38, 1, 4, 0, 0xffffffff, 0, 0, 0, 0, 0, 0, true⟩ /- CH_ROUNDS R343 -/,
    ⟨0x3c, 1, 4, 0, 0xffffffff, 0, 0, 0, 0, 0, 0, false⟩ /- CH_ROUNDS R343 -/ ]

/-- The page registers of the SCL block. -/
def regsOfSCL : List RegW :=
  [
    ⟨0x100, 1, 4, 0, 0xfff, 0, 0, 0, 0, 0, 0, false⟩ /- SCL_LAST_SLOT R143 -/ ]

/-- The window registers of the SCL block. -/
def regsOfSCLWin : List RegW :=
  [
    ⟨0x0, 1, 4, 0, 0, 0xffff3fff, 0, 0, 0, 0, 0x7f0041, false⟩ /- SLOT_CFG R144 -/,
    ⟨0x4, 1, 4, 0, 0xffffff00, 0, 0x3f, 0, 0, 0, 0, false⟩ /- SLOT_STATUS R144 -/,
    ⟨0x8, 1, 4, 0, 0, 0, 0, 0, 1, 0, 0, false⟩ /- SLOT_CTRL R144 -/,
    ⟨0x10, 16, 8, 0xffffffff, 0, 0, 0, 0, 0, 0, 0, true⟩ /- ENTRY R144 -/,
    ⟨0x14, 16, 8, 0xffffffff, 0, 0, 0, 0, 0, 0, 0, false⟩ /- ENTRY R144 -/ ]

/-- The page registers of the DBG block. -/
def regsOfDBG : List RegW :=
  [
    ⟨0x100, 1, 4, 0, 0, 0, 0, 0, 7, 0, 0, false⟩ /- DBG_CTL R458 -/,
    ⟨0x104, 1, 4, 0, 0xff0f, 0, 0, 0, 0, 0, 0, false⟩ /- DBG_STATUS R458 -/,
    ⟨0x108, 1, 4, 0xffffffff, 0, 0, 0, 0, 0, 0, 0, true⟩ /- DBG_MA_ADDR R458 -/,
    ⟨0x10c, 1, 4, 0xffffffff, 0, 0, 0, 0, 0, 0, 0, false⟩ /- DBG_MA_ADDR R458 -/,
    ⟨0x1000, 12, 4, 0, 0xffffffff, 0, 0, 0, 0, 0, 0, false⟩ /- DBG_CHAL R458 -/,
    ⟨0x1100, 25, 4, 0xffffffff, 0, 0, 0, 0, 0, 0, 0, false⟩ /- DBG_PUB R458 -/,
    ⟨0x1200, 24, 4, 0xffffffff, 0, 0, 0, 0, 0, 0, 0, false⟩ /- DBG_TOKEN R458 -/,
    ⟨0x1300, 16, 4, 0xffffffff, 0, 0, 0, 0, 0, 0, 0, false⟩ /- DBG_MA_DATA R458 -/ ]

/-- The page registers of the CL block. -/
def regsOfCL : List RegW :=
  [
    ⟨0x100, 1, 4, 0, 0, 0xffffff, 0, 0, 0, 0, 2, false⟩ /- CL_CFG R404 -/,
    ⟨0x104, 1, 4, 0, 0, 0, 0, 0, 0x1f, 0, 0, false⟩ /- CL_RETIRE R404 -/,
    ⟨0x108, 1, 4, 0, 0x1fff, 0, 0, 0, 0, 0, 0, false⟩ /- CL_STATUS R404 -/ ]

/-- The window registers of the CL block. -/
def regsOfCLWin : List RegW :=
  [
    ⟨0x0, 1, 4, 0, 0xf3f, 0, 0, 0, 0, 0, 0, false⟩ /- PC_STATE R404 -/,
    ⟨0x4, 1, 4, 0, 0xffffffff, 0, 0, 0, 0, 0, 0, false⟩ /- PC_ERRS R404 -/,
    ⟨0x8, 1, 4, 0, 0xffffffff, 0, 0, 0, 0, 0, 0xffffffff, false⟩ /- PC_BYPASS R404 -/ ]

/-- The page registers of the CORE block. -/
def regsOfCORE : List RegW :=
  [
    ⟨0x100, 1, 4, 0, 0xf07, 0, 0, 0, 0, 0, 0, false⟩ /- CORE_STATE R107 -/,
    ⟨0x104, 1, 4, 0, 0, 0xf, 0, 0, 0, 0, 0, false⟩ /- CORE_CFG R107 -/,
    ⟨0x108, 1, 4, 0, 0xffffffff, 0, 0, 0, 0, 0, 0, false⟩ /- SEQ_NUM R107 -/,
    ⟨0x10c, 1, 4, 0, 0xff, 0, 0, 0, 0, 0, 0, false⟩ /- CORE_FAULT R107 -/,
    ⟨0x110, 1, 4, 0, 0xffffffff, 0, 0, 0, 0, 0, 0, false⟩ /- FAULT_SEQ R107 -/,
    ⟨0x114, 1, 4, 0, 0xfff, 0, 0, 0, 0, 0, 0, false⟩ /- HALF_STATE R107 -/,
    ⟨0x118, 1, 4, 0, 0x3f, 0, 0, 0, 0, 0, 0, false⟩ /- ACC_STATE R107 -/,
    ⟨0x11c, 1, 4, 0, 0xffffffff, 0, 0, 0, 0, 0, 0xffffffff, false⟩ /- SPARE_MAP R107 -/,
    ⟨0x120, 1, 4, 0, 0xffffffff, 0, 0, 0, 0, 0, 0, true⟩ /- ARR_FEED_CK R107 -/,
    ⟨0x124, 1, 4, 0, 0xffffffff, 0, 0, 0, 0, 0, 0, false⟩ /- ARR_FEED_CK R107 -/,
    ⟨0x128, 1, 4, 0, 0xffffffff, 0, 0, 0, 0, 0, 0, true⟩ /- ARR_WAIT_RES R107 -/,
    ⟨0x12c, 1, 4, 0, 0xffffffff, 0, 0, 0, 0, 0, 0, false⟩ /- ARR_WAIT_RES R107 -/ ]
  ++ [
    ⟨0x130, 1, 4, 0, 0xffffffff, 0, 0, 0, 0, 0, 0, true⟩ /- ARR_WAIT_ACC R107 -/,
    ⟨0x134, 1, 4, 0, 0xffffffff, 0, 0, 0, 0, 0, 0, false⟩ /- ARR_WAIT_ACC R107 -/,
    ⟨0x138, 1, 4, 0, 0xffffffff, 0, 0, 0, 0, 0, 0, true⟩ /- DRAIN_WAIT R107 -/,
    ⟨0x13c, 1, 4, 0, 0xffffffff, 0, 0, 0, 0, 0, 0, false⟩ /- DRAIN_WAIT R107 -/,
    ⟨0x140, 1, 4, 0xff00, 0, 0, 0, 0, 7, 0, 0, false⟩ /- CORE_TEST R107 -/,
    ⟨0x144, 1, 4, 0xffffffff, 0, 0, 0, 0, 0, 0, 0, false⟩ /- TEST_PC R107 -/,
    ⟨0x148, 1, 4, 0xffffffff, 0, 0, 0, 0, 0, 0, 0, false⟩ /- TEST_LEN R107 -/,
    ⟨0x150, 1, 4, 0, 0xffffffff, 0, 0, 0, 0, 0, 0, true⟩ /- ACC_SLOTS R107 -/,
    ⟨0x154, 1, 4, 0, 0xffffffff, 0, 0, 0, 0, 0, 0, false⟩ /- ACC_SLOTS R107 -/,
    ⟨0x200, 1, 4, 0, 0xfff03, 0, 0, 0, 0, 0, 0, false⟩ /- NER_INFO R175 -/,
    ⟨0x204, 1, 4, 0, 0xffffffff, 0, 0, 0, 0, 0, 0, false⟩ /- NER_COUNT R175 -/,
    ⟨0x208, 1, 4, 0, 0xff, 0, 0, 0, 0, 0, 0, false⟩ /- NER_DOMAIN R175 -/ ]
  ++ [
    ⟨0x20c, 1, 4, 0, 0xffff, 0, 0, 0, 0, 0, 0, false⟩ /- NER_QUEUE R175 -/,
    ⟨0x210, 1, 4, 0, 0xffffffff, 0, 0, 0, 0, 0, 0, true⟩ /- NER_KINST R175 -/,
    ⟨0x214, 1, 4, 0, 0xffffffff, 0, 0, 0, 0, 0, 0, false⟩ /- NER_KINST R175 -/,
    ⟨0x218, 1, 4, 0, 0xffffffff, 0, 0, 0, 0, 0, 0, false⟩ /- NER_SEQ R175 -/,
    ⟨0x21c, 1, 4, 0, 0xffffffff, 0, 0, 0, 0, 0, 0, false⟩ /- NER_ORG R175 -/,
    ⟨0x220, 1, 4, 0, 0xffffffff, 0, 0, 0, 0, 0, 0, false⟩ /- NER_GRP R175 -/,
    ⟨0x224, 1, 4, 0, 0x1fffffff, 0, 0, 0, 0, 0, 0, false⟩ /- NER_ELEM R175 -/,
    ⟨0x228, 1, 4, 0, 0xffffffff, 0, 0, 0, 0, 0, 0, true⟩ /- NER_STATION R175 -/,
    ⟨0x22c, 1, 4, 0, 0xffffffff, 0, 0, 0, 0, 0, 0, false⟩ /- NER_STATION R175 -/,
    ⟨0x230, 1, 4, 0, 0xffffffff, 0, 0, 0, 0, 0, 0, false⟩ /- NER_OPA R175 -/,
    ⟨0x234, 1, 4, 0, 0xffffffff, 0, 0, 0, 0, 0, 0, false⟩ /- NER_OPB R175 -/,
    ⟨0x238, 1, 4, 0, 0xffff, 0, 0, 0, 0, 0, 0, false⟩ /- NER_SCALES R175 -/ ]
  ++ [
    ⟨0x300, 1, 4, 0, 0x30f, 0, 0, 0, 0, 0, 0, false⟩ /- VEC_STATUS R211 -/,
    ⟨0x304, 1, 4, 0, 0xffffffff, 0, 0, 0, 0, 0, 0, false⟩ /- VEC_IDX_SEQ R211 -/,
    ⟨0x308, 1, 4, 0, 0xffffffff, 0, 0, 0, 0, 0, 0, true⟩ /- VIDX_BASE R211 -/,
    ⟨0x30c, 1, 4, 0, 0xffff, 0, 0, 0, 0, 0, 0, false⟩ /- VIDX_BASE R211 -/,
    ⟨0x310, 1, 4, 0, 0xffffffff, 0, 0, 0, 0, 0, 0, true⟩ /- VEC_ISSUE_CK R211 -/,
    ⟨0x314, 1, 4, 0, 0xffffffff, 0, 0, 0, 0, 0, 0, false⟩ /- VEC_ISSUE_CK R211 -/,
    ⟨0x318, 1, 4, 0, 0xffffffff, 0, 0, 0, 0, 0, 0, true⟩ /- VEC_EPI_CK R211 -/,
    ⟨0x31c, 1, 4, 0, 0xffffffff, 0, 0, 0, 0, 0, 0, false⟩ /- VEC_EPI_CK R211 -/,
    ⟨0x320, 1, 4, 0, 0xffffffff, 0, 0, 0, 0, 0, 0, true⟩ /- VEC_SHARED_WAIT R211 -/,
    ⟨0x324, 1, 4, 0, 0xffffffff, 0, 0, 0, 0, 0, 0, false⟩ /- VEC_SHARED_WAIT R211 -/,
    ⟨0x328, 1, 4, 0, 0xffffffff, 0, 0, 0, 0, 0, 0, true⟩ /- EPI_DONE R211 -/,
    ⟨0x32c, 1, 4, 0, 0xffffffff, 0, 0, 0, 0, 0, 0, false⟩ /- EPI_DONE R211 -/ ]
  ++ [
    ⟨0x400, 64, 4, 0, 0x3fff7f, 0, 0, 0, 0, 0, 0, false⟩ /- CM_GRAN R242 -/,
    ⟨0x500, 1, 4, 0, 0, 0, 0, 0xffffffff, 0, 0, 0, false⟩ /- CM_CE_COUNT R242 -/,
    ⟨0x504, 1, 4, 0, 0, 0, 0, 0xffffffff, 0, 0, 0, false⟩ /- CM_UE_COUNT R242 -/,
    ⟨0x508, 1, 4, 0, 0xbfffff, 0, 0x400000, 0, 0, 0, 0, false⟩ /- CM_ERR_ADDR R242 -/,
    ⟨0x50c, 1, 4, 0, 0x7f7f, 0, 0, 0, 0, 0, 0, false⟩ /- CM_STATUS R242 -/,
    ⟨0x510, 1, 4, 0, 0xffffffff, 0, 0, 0, 0, 0, 0, true⟩ /- CM_NARROW_FORCED R242 -/,
    ⟨0x514, 1, 4, 0, 0xffffffff, 0, 0, 0, 0, 0, 0, false⟩ /- CM_NARROW_FORCED R242 -/,
    ⟨0x518, 1, 4, 0, 0xffffffff, 0, 0, 0, 0, 0, 0, true⟩ /- CM_NARROW_WAIT R242 -/,
    ⟨0x51c, 1, 4, 0, 0xffffffff, 0, 0, 0, 0, 0, 0, false⟩ /- CM_NARROW_WAIT R242 -/,
    ⟨0x520, 1, 4, 0, 0xffffffff, 0, 0, 0, 0, 0, 0, true⟩ /- CM_SCRUB_FORCED R242 -/,
    ⟨0x524, 1, 4, 0, 0xffffffff, 0, 0, 0, 0, 0, 0, false⟩ /- CM_SCRUB_FORCED R242 -/ ]

/-- The page registers of the LNK block. -/
def regsOfLNK : List RegW :=
  [
    ⟨0x100, 1, 4, 0, 0, 1, 0, 0, 0, 1, 0, false⟩ /- LNK_MODE R378 -/,
    ⟨0x104, 1, 4, 0, 0, 0xffff, 0, 0, 0, 0, 0x7d0, false⟩ /- LNK_TIMEOUT R378 -/,
    ⟨0x108, 1, 4, 0, 0, 0xffff, 0, 0, 0, 0, 0x110, false⟩ /- LNK_QUAR R378 -/,
    ⟨0x10c, 1, 4, 0, 0x3f, 0, 0, 0, 0, 0, 0, false⟩ /- LNK_LAST R378 -/,
    ⟨0x110, 1, 4, 0, 0, 0, 0, 0xffffffff, 0, 0, 0, false⟩ /- LNK_LATE_RSP R378 -/,
    ⟨0x114, 1, 4, 0, 0, 0, 0, 0xffffffff, 0, 0, 0, false⟩ /- LNK_EASE_DROP R378 -/,
    ⟨0x118, 1, 4, 0, 0xffffffff, 0, 0, 0, 0, 0, 0, true⟩ /- LNK_UP R378 -/,
    ⟨0x11c, 1, 4, 0, 0xff, 0, 0, 0, 0, 0, 0, false⟩ /- LNK_UP R378 -/ ]

/-- The window registers of the LNK block. -/
def regsOfLNKWin : List RegW :=
  [
    ⟨0x0, 1, 4, 0, 0, 0x1ffff77, 0, 0, 0, 0x1ffff77, 0xc00000, false⟩ /- MOD_CFG R379 -/,
    ⟨0x4, 1, 4, 0, 0, 0xfff7, 0, 0, 0, 0, 0x4104, false⟩ /- MOD_TUNE R379 -/,
    ⟨0x8, 1, 4, 0, 0xff7fff, 0, 0, 0, 0, 0, 1, false⟩ /- MOD_STATE R379 -/,
    ⟨0xc, 1, 4, 0, 0xffffffff, 0, 0, 0, 0, 0, 0, false⟩ /- MOD_LANES R379 -/,
    ⟨0x10, 1, 4, 0, 0xfffffff, 0, 0, 0, 0, 0, 0, false⟩ /- MOD_PEER R379 -/,
    ⟨0x14, 1, 4, 0, 0xffffffff, 0, 0, 0, 0, 0, 0, false⟩ /- MOD_FEAT R379 -/,
    ⟨0x18, 1, 4, 0, 0, 0, 0, 0, 7, 0, 0, false⟩ /- MOD_CTL R379 -/,
    ⟨0x1c, 1, 4, 0, 0, 0, 0, 0xffffffff, 0, 0, 0, false⟩ /- MOD_RETRAINS R379 -/,
    ⟨0x20, 1, 4, 0, 0, 0, 0, 0xffffffff, 0, 0, 0, false⟩ /- MOD_CLOSURE R379 -/,
    ⟨0x24, 1, 4, 0, 0xff0000, 0, 0, 0xffff, 0, 0, 0, false⟩ /- MOD_VIOL R379 -/ ]

/-- The page registers of the PTR block. -/
def regsOfPTR : List RegW :=
  [
    ⟨0x100, 1, 4, 0, 0x3f, 0, 0, 0, 0, 0, 0, false⟩ /- PTR_LAST R381 -/ ]

/-- The window registers of the PTR block. -/
def regsOfPTRWin : List RegW :=
  [
    ⟨0x0, 1, 4, 0, 0, 0, 0, 0xffffffff, 0, 0, 0, false⟩ /- PT_CRC_ERR R381 -/,
    ⟨0x4, 1, 4, 0, 0, 0, 0, 0xffffffff, 0, 0, 0, false⟩ /- PT_REPLAYS R381 -/,
    ⟨0x8, 1, 4, 0, 0, 0, 0, 0xffffffff, 0, 0, 0, false⟩ /- PT_LOST R381 -/,
    ⟨0xc, 1, 4, 0, 0, 0, 0, 0xffffffff, 0, 0, 0, false⟩ /- PT_DROPPED R381 -/,
    ⟨0x10, 1, 4, 0, 0xffffffff, 0, 0, 0, 0, 0, 0, true⟩ /- PT_TX_FLITS R381 -/,
    ⟨0x14, 1, 4, 0, 0xffffffff, 0, 0, 0, 0, 0, 0, false⟩ /- PT_TX_FLITS R381 -/,
    ⟨0x18, 1, 4, 0, 0xffffffff, 0, 0, 0, 0, 0, 0, true⟩ /- PT_RX_FLITS R381 -/,
    ⟨0x1c, 1, 4, 0, 0xffffffff, 0, 0, 0, 0, 0, 0, false⟩ /- PT_RX_FLITS R381 -/,
    ⟨0x20, 6, 4, 0, 0x3ff03ff, 0, 0, 0, 0, 0, 0, false⟩ /- PT_CRED R381 -/,
    ⟨0x38, 1, 4, 0, 0xffffffff, 0, 0, 0, 0, 0, 0, true⟩ /- PT_STALL_CK R381 -/,
    ⟨0x3c, 1, 4, 0, 0xffffffff, 0, 0, 0, 0, 0, 0, false⟩ /- PT_STALL_CK R381 -/ ]

/-- The page registers of the RTE block. -/
def regsOfRTE : List RegW :=
  [
    ⟨0x100, 1, 4, 0, 0, 7, 0, 0, 0, 7, 0, false⟩ /- RTE_OFFPKG R382 -/,
    ⟨0x104, 1, 4, 0, 0x3f, 0, 0, 0, 0, 0, 0, false⟩ /- RTE_LAST R382 -/ ]

/-- The window registers of the RTE block. -/
def regsOfRTEWin : List RegW :=
  [
    ⟨0x0, 1, 4, 0, 0, 0xffffffff, 0, 0, 0, 0xffffffff, 0, true⟩ /- RT_PRI R382 -/,
    ⟨0x4, 1, 4, 0, 0, 0xff, 0, 0, 0, 0xff, 0, false⟩ /- RT_PRI R382 -/,
    ⟨0x8, 1, 4, 0, 0, 0xffffffff, 0, 0, 0, 0xffffffff, 0, true⟩ /- RT_ALT R382 -/,
    ⟨0xc, 1, 4, 0, 0, 0xff, 0, 0, 0, 0xff, 0, false⟩ /- RT_ALT R382 -/,
    ⟨0x10, 1, 4, 0, 6, 1, 0, 0, 0, 1, 0, false⟩ /- RT_CTL R382 -/,
    ⟨0x14, 1, 4, 0, 0, 0, 0, 0xffffffff, 0, 0, 0, false⟩ /- RT_SWITCHES R382 -/ ]

/-- The register words of a block, page view or window view. -/
def regsOf (blk : Nat) (win : Bool) : List RegW :=
  match blk, win with
  | 0x0, false => regsOfDIE
  | 0x1, false => regsOfBOOT
  | 0x2, false => regsOfPLAT
  | 0x3, false => regsOfCLK
  | 0x4, false => regsOfPWR
  | 0x4, true => regsOfPWRWin
  | 0x5, false => regsOfERR
  | 0x6, false => regsOfSEC
  | 0x7, false => regsOfMBX
  | 0x7, true => regsOfMBXWin
  | 0x8, false => regsOfDSP
  | 0x8, true => regsOfDSPWin
  | 0x9, false => regsOfXLT
  | 0x9, true => regsOfXLTWin
  | 0xa, false => regsOfFLD
  | 0xa, true => regsOfFLDWin
  | 0xb, false => regsOfTRV
  | 0xb, true => regsOfTRVWin
  | 0xc, false => regsOfSCL
  | 0xc, true => regsOfSCLWin
  | 0xd, false => regsOfDBG
  | 0x10, false => regsOfCL
  | 0x10, true => regsOfCLWin
  | 0x40, false => regsOfCORE
  | 0x100, false => regsOfLNK
  | 0x100, true => regsOfLNKWin
  | 0x101, false => regsOfPTR
  | 0x101, true => regsOfPTRWin
  | 0x102, false => regsOfRTE
  | 0x102, true => regsOfRTEWin
  | _, _ => []

/-- The block-defined bits of `PAGE_CAPS` (R50) that the block chapters give. -/
def capsBits (blk : Nat) : Nat :=
  match blk with
  | 0x0 => 0x4400000
  | 0x4 => 0x0
  | 0x8 => 0x20000
  | 0x9 => 0xe0000
  | 0xa => 0x600000
  | 0xb => 0x800000
  | 0xc => 0x200000
  | 0x40 => 0x1000000
  | 0x100 => 0x1d00000
  | _ => 0

/-- `PAGE_CAPS.HAS_STAGED`: the block holds a staged field (R50). -/
def hasStaged (blk : Nat) : Bool :=
  match blk with
  | 0x0 => true
  | 0x4 => true
  | 0x5 => true
  | 0x6 => true
  | 0x8 => true
  | 0x9 => true
  | 0xa => true
  | 0xb => true
  | 0xc => true
  | 0x10 => true
  | 0x40 => true
  | 0x100 => true
  | 0x102 => true
  | _ => false

/-- R37 -/
def Fld.DIE_PAGE_CAPS_STACK_SLOTS : Fld := ⟨0x0, false, 0x8, 17, 6, 4⟩
/-- R37 -/
def Fld.DIE_PAGE_CAPS_GUEST_SLOTS : Fld := ⟨0x0, false, 0x8, 23, 4, 4⟩
/-- R37 -/
def Fld.DIE_PAGE_EVENT_CFG_FIXUP : Fld := ⟨0x0, false, 0x14, 0, 1, 4⟩
/-- R37 -/
def Fld.DIE_DIE_ID_SYS_ID : Fld := ⟨0x0, false, 0x100, 0, 12, 4⟩
/-- R37 -/
def Fld.DIE_DIE_CFG_PKG : Fld := ⟨0x0, false, 0x104, 0, 8, 4⟩
/-- R37 -/
def Fld.DIE_DIE_CFG_HOST_HUB : Fld := ⟨0x0, false, 0x104, 8, 3, 4⟩
/-- R37 -/
def Fld.DIE_DIE_STACKS_N : Fld := ⟨0x0, false, 0x108, 0, 6, 4⟩
/-- R37 -/
def Fld.DIE_STACK_VALID : Fld := ⟨0x0, false, 0x200, 0, 1, 4⟩
/-- R37 -/
def Fld.DIE_STACK_HOME_HUB : Fld := ⟨0x0, false, 0x200, 1, 1, 4⟩
/-- R37 -/
def Fld.DIE_STACK_HOME : Fld := ⟨0x0, false, 0x200, 2, 4, 4⟩
/-- R37 -/
def Fld.DIE_STACK_CAP_GIB : Fld := ⟨0x0, false, 0x200, 16, 16, 4⟩
/-- R37 -/
def Fld.DIE_GUEST_DOMAIN : Fld := ⟨0x0, false, 0x300, 0, 8, 4⟩
/-- R37 -/
def Fld.DIE_GUEST_CHANNELS : Fld := ⟨0x0, false, 0x300, 8, 5, 4⟩
/-- R37 -/
def Fld.DIE_GUEST_VALID : Fld := ⟨0x0, false, 0x300, 13, 1, 4⟩
/-- R107 -/
def Fld.CORE_PAGE_CAPS_LAT_ADD : Fld := ⟨0x40, false, 0x8, 17, 1, 4⟩
/-- R107 -/
def Fld.CORE_PAGE_CAPS_VM_RATIO : Fld := ⟨0x40, false, 0x8, 18, 7, 4⟩
/-- R107 -/
def Fld.CORE_PAGE_EVENT_FAULT : Fld := ⟨0x40, false, 0x14, 0, 1, 4⟩
/-- R107 -/
def Fld.CORE_PAGE_EVENT_SPLIT_REFUSED : Fld := ⟨0x40, false, 0x14, 1, 1, 4⟩
/-- R107 -/
def Fld.CORE_PAGE_EVENT_NUMERIC : Fld := ⟨0x40, false, 0x14, 2, 1, 4⟩
/-- R107 -/
def Fld.CORE_PAGE_EVENT_TEST_DONE : Fld := ⟨0x40, false, 0x14, 3, 1, 4⟩
/-- R107 -/
def Fld.CORE_PAGE_EVENT_TEST_REFUSED : Fld := ⟨0x40, false, 0x14, 4, 1, 4⟩
/-- R107 -/
def Fld.CORE_CORE_STATE_STATE : Fld := ⟨0x40, false, 0x100, 0, 3, 4⟩
/-- R107 -/
def Fld.CORE_CORE_STATE_PHYS : Fld := ⟨0x40, false, 0x100, 8, 4, 4⟩
/-- R107 -/
def Fld.CORE_CORE_CFG_ACC_SPLIT : Fld := ⟨0x40, false, 0x104, 0, 3, 4⟩
/-- R107 -/
def Fld.CORE_CORE_CFG_SPLIT_BARE : Fld := ⟨0x40, false, 0x104, 3, 1, 4⟩
/-- R107 -/
def Fld.CORE_SEQ_NUM_SEQ : Fld := ⟨0x40, false, 0x108, 0, 32, 4⟩
/-- R107 -/
def Fld.CORE_CORE_FAULT_CODE : Fld := ⟨0x40, false, 0x10c, 0, 8, 4⟩
/-- R107 -/
def Fld.CORE_FAULT_SEQ_SEQ : Fld := ⟨0x40, false, 0x110, 0, 32, 4⟩
/-- R107 -/
def Fld.CORE_HALF_STATE_A0 : Fld := ⟨0x40, false, 0x114, 0, 3, 4⟩
/-- R107 -/
def Fld.CORE_HALF_STATE_A1 : Fld := ⟨0x40, false, 0x114, 3, 3, 4⟩
/-- R107 -/
def Fld.CORE_HALF_STATE_B0 : Fld := ⟨0x40, false, 0x114, 6, 3, 4⟩
/-- R107 -/
def Fld.CORE_HALF_STATE_B1 : Fld := ⟨0x40, false, 0x114, 9, 3, 4⟩
/-- R107 -/
def Fld.CORE_ACC_STATE_SET0 : Fld := ⟨0x40, false, 0x118, 0, 3, 4⟩
/-- R107 -/
def Fld.CORE_ACC_STATE_SET1 : Fld := ⟨0x40, false, 0x118, 3, 3, 4⟩
/-- R107 -/
def Fld.CORE_SPARE_MAP_BYROW0 : Fld := ⟨0x40, false, 0x11c, 0, 8, 4⟩
/-- R107 -/
def Fld.CORE_SPARE_MAP_BYROW1 : Fld := ⟨0x40, false, 0x11c, 8, 8, 4⟩
/-- R107 -/
def Fld.CORE_SPARE_MAP_BYCOL0 : Fld := ⟨0x40, false, 0x11c, 16, 8, 4⟩
/-- R107 -/
def Fld.CORE_SPARE_MAP_BYCOL1 : Fld := ⟨0x40, false, 0x11c, 24, 8, 4⟩
/-- R107 -/
def Fld.CORE_ARR_FEED_CK_COUNT : Fld := ⟨0x40, false, 0x120, 0, 64, 4⟩
/-- R107 -/
def Fld.CORE_ARR_WAIT_RES_COUNT : Fld := ⟨0x40, false, 0x128, 0, 64, 4⟩
/-- R107 -/
def Fld.CORE_ARR_WAIT_ACC_COUNT : Fld := ⟨0x40, false, 0x130, 0, 64, 4⟩
/-- R107 -/
def Fld.CORE_DRAIN_WAIT_COUNT : Fld := ⟨0x40, false, 0x138, 0, 64, 4⟩
/-- R107 -/
def Fld.CORE_CORE_TEST_ENTER : Fld := ⟨0x40, false, 0x140, 0, 1, 4⟩
/-- R107 -/
def Fld.CORE_CORE_TEST_LEAVE : Fld := ⟨0x40, false, 0x140, 1, 1, 4⟩
/-- R107 -/
def Fld.CORE_CORE_TEST_START : Fld := ⟨0x40, false, 0x140, 2, 1, 4⟩
/-- R107 -/
def Fld.CORE_CORE_TEST_TEST_DOM : Fld := ⟨0x40, false, 0x140, 8, 8, 4⟩
/-- R107 -/
def Fld.CORE_TEST_PC_ADDR : Fld := ⟨0x40, false, 0x144, 0, 32, 4⟩
/-- R107 -/
def Fld.CORE_TEST_LEN_LEN : Fld := ⟨0x40, false, 0x148, 0, 32, 4⟩
/-- R107 -/
def Fld.CORE_ACC_SLOTS_BUSY : Fld := ⟨0x40, false, 0x150, 0, 64, 4⟩
/-- R143 -/
def Fld.SCL_PAGE_CAPS_HIST_DEPTH : Fld := ⟨0xc, false, 0x8, 17, 5, 4⟩
/-- R143 -/
def Fld.SCL_PAGE_EVENT_CFG_FIXUP : Fld := ⟨0xc, false, 0x14, 0, 1, 4⟩
/-- R143 -/
def Fld.SCL_PAGE_EVENT_STALE_RECORD : Fld := ⟨0xc, false, 0x14, 1, 1, 4⟩
/-- R143 -/
def Fld.SCL_PAGE_EVENT_LATE_RECORD : Fld := ⟨0xc, false, 0x14, 2, 1, 4⟩
/-- R143 -/
def Fld.SCL_PAGE_EVENT_HIST_SHORT : Fld := ⟨0xc, false, 0x14, 3, 1, 4⟩
/-- R143 -/
def Fld.SCL_SCL_LAST_SLOT_SLOT : Fld := ⟨0xc, false, 0x100, 0, 12, 4⟩
/-- R144 -/
def Fld.SCL_SLOT_CFG_CLASS : Fld := ⟨0xc, true, 0x0, 0, 2, 4⟩
/-- R144 -/
def Fld.SCL_SLOT_CFG_SEL_MODE : Fld := ⟨0xc, true, 0x0, 2, 2, 4⟩
/-- R144 -/
def Fld.SCL_SLOT_CFG_HIST_LEN : Fld := ⟨0xc, true, 0x0, 4, 5, 4⟩
/-- R144 -/
def Fld.SCL_SLOT_CFG_LAG_M1 : Fld := ⟨0xc, true, 0x0, 9, 3, 4⟩
/-- R144 -/
def Fld.SCL_SLOT_CFG_MARGIN : Fld := ⟨0xc, true, 0x0, 12, 2, 4⟩
/-- R144 -/
def Fld.SCL_SLOT_CFG_INIT_SCALE : Fld := ⟨0xc, true, 0x0, 16, 8, 4⟩
/-- R144 -/
def Fld.SCL_SLOT_CFG_OWNER : Fld := ⟨0xc, true, 0x0, 24, 8, 4⟩
/-- R144 -/
def Fld.SCL_SLOT_STATUS_CVT_OVF : Fld := ⟨0xc, true, 0x4, 0, 1, 4⟩
/-- R144 -/
def Fld.SCL_SLOT_STATUS_CVT_UNF : Fld := ⟨0xc, true, 0x4, 1, 1, 4⟩
/-- R144 -/
def Fld.SCL_SLOT_STATUS_CVT_NAN : Fld := ⟨0xc, true, 0x4, 2, 1, 4⟩
/-- R144 -/
def Fld.SCL_SLOT_STATUS_HIST_SHORT : Fld := ⟨0xc, true, 0x4, 3, 1, 4⟩
/-- R144 -/
def Fld.SCL_SLOT_STATUS_STALE_RECORD : Fld := ⟨0xc, true, 0x4, 4, 1, 4⟩
/-- R144 -/
def Fld.SCL_SLOT_STATUS_LATE_RECORD : Fld := ⟨0xc, true, 0x4, 5, 1, 4⟩
/-- R144 -/
def Fld.SCL_SLOT_STATUS_LAST_SCALE : Fld := ⟨0xc, true, 0x4, 8, 8, 4⟩
/-- R144 -/
def Fld.SCL_SLOT_STATUS_READ : Fld := ⟨0xc, true, 0x4, 16, 16, 4⟩
/-- R144 -/
def Fld.SCL_SLOT_CTRL_CLEAR : Fld := ⟨0xc, true, 0x8, 0, 1, 4⟩
/-- R144 -/
def Fld.SCL_ENTRY_AMAX : Fld := ⟨0xc, true, 0x10, 0, 31, 8⟩
/-- R144 -/
def Fld.SCL_ENTRY_VALID : Fld := ⟨0xc, true, 0x10, 31, 1, 8⟩
/-- R144 -/
def Fld.SCL_ENTRY_STEP : Fld := ⟨0xc, true, 0x10, 32, 32, 8⟩
/-- R175 -/
def Fld.CORE_NER_INFO_VALID : Fld := ⟨0x40, false, 0x200, 0, 1, 4⟩
/-- R175 -/
def Fld.CORE_NER_INFO_REPLACED : Fld := ⟨0x40, false, 0x200, 1, 1, 4⟩
/-- R175 -/
def Fld.CORE_NER_INFO_CAUSE : Fld := ⟨0x40, false, 0x200, 8, 8, 4⟩
/-- R175 -/
def Fld.CORE_NER_INFO_UNIT : Fld := ⟨0x40, false, 0x200, 16, 2, 4⟩
/-- R175 -/
def Fld.CORE_NER_INFO_SET : Fld := ⟨0x40, false, 0x200, 18, 1, 4⟩
/-- R175 -/
def Fld.CORE_NER_INFO_TRAP : Fld := ⟨0x40, false, 0x200, 19, 1, 4⟩
/-- R175 -/
def Fld.CORE_NER_COUNT_COUNT : Fld := ⟨0x40, false, 0x204, 0, 32, 4⟩
/-- R175 -/
def Fld.CORE_NER_DOMAIN_DOMAIN : Fld := ⟨0x40, false, 0x208, 0, 8, 4⟩
/-- R175 -/
def Fld.CORE_NER_QUEUE_QUEUE : Fld := ⟨0x40, false, 0x20c, 0, 16, 4⟩
/-- R175 -/
def Fld.CORE_NER_KINST_KINST : Fld := ⟨0x40, false, 0x210, 0, 64, 4⟩
/-- R175 -/
def Fld.CORE_NER_SEQ_SEQ : Fld := ⟨0x40, false, 0x218, 0, 32, 4⟩
/-- R175 -/
def Fld.CORE_NER_ORG_ORG_M : Fld := ⟨0x40, false, 0x21c, 0, 16, 4⟩
/-- R175 -/
def Fld.CORE_NER_ORG_ORG_N : Fld := ⟨0x40, false, 0x21c, 16, 16, 4⟩
/-- R175 -/
def Fld.CORE_NER_GRP_KBLK : Fld := ⟨0x40, false, 0x220, 0, 16, 4⟩
/-- R175 -/
def Fld.CORE_NER_GRP_GROUP : Fld := ⟨0x40, false, 0x220, 16, 16, 4⟩
/-- R175 -/
def Fld.CORE_NER_ELEM_ROW : Fld := ⟨0x40, false, 0x224, 0, 8, 4⟩
/-- R175 -/
def Fld.CORE_NER_ELEM_COL : Fld := ⟨0x40, false, 0x224, 8, 8, 4⟩
/-- R175 -/
def Fld.CORE_NER_ELEM_ELEM : Fld := ⟨0x40, false, 0x224, 16, 13, 4⟩
/-- R175 -/
def Fld.CORE_NER_STATION_STATION : Fld := ⟨0x40, false, 0x228, 0, 64, 4⟩
/-- R175 -/
def Fld.CORE_NER_OPA_OPA : Fld := ⟨0x40, false, 0x230, 0, 32, 4⟩
/-- R175 -/
def Fld.CORE_NER_OPB_OPB : Fld := ⟨0x40, false, 0x234, 0, 32, 4⟩
/-- R175 -/
def Fld.CORE_NER_SCALES_SA : Fld := ⟨0x40, false, 0x238, 0, 8, 4⟩
/-- R175 -/
def Fld.CORE_NER_SCALES_SB : Fld := ⟨0x40, false, 0x238, 8, 8, 4⟩
/-- R211 -/
def Fld.CORE_VEC_STATUS_IDX_RANGE : Fld := ⟨0x40, false, 0x300, 0, 1, 4⟩
/-- R211 -/
def Fld.CORE_VEC_STATUS_INT_SAT : Fld := ⟨0x40, false, 0x300, 1, 1, 4⟩
/-- R211 -/
def Fld.CORE_VEC_STATUS_DRAIN_SHORT : Fld := ⟨0x40, false, 0x300, 2, 1, 4⟩
/-- R211 -/
def Fld.CORE_VEC_STATUS_DRAIN_UNTAKEN : Fld := ⟨0x40, false, 0x300, 3, 1, 4⟩
/-- R211 -/
def Fld.CORE_VEC_STATUS_EPI_STATE : Fld := ⟨0x40, false, 0x300, 8, 2, 4⟩
/-- R211 -/
def Fld.CORE_VEC_IDX_SEQ_SEQ : Fld := ⟨0x40, false, 0x304, 0, 32, 4⟩
/-- R211 -/
def Fld.CORE_VIDX_BASE_BASE : Fld := ⟨0x40, false, 0x308, 0, 48, 4⟩
/-- R211 -/
def Fld.CORE_VEC_ISSUE_CK_COUNT : Fld := ⟨0x40, false, 0x310, 0, 64, 4⟩
/-- R211 -/
def Fld.CORE_VEC_EPI_CK_COUNT : Fld := ⟨0x40, false, 0x318, 0, 64, 4⟩
/-- R211 -/
def Fld.CORE_VEC_SHARED_WAIT_COUNT : Fld := ⟨0x40, false, 0x320, 0, 64, 4⟩
/-- R211 -/
def Fld.CORE_EPI_DONE_COUNT : Fld := ⟨0x40, false, 0x328, 0, 64, 4⟩
/-- R242 -/
def Fld.CORE_CM_GRAN_STATE : Fld := ⟨0x40, false, 0x400, 0, 3, 4⟩
/-- R242 -/
def Fld.CORE_CM_GRAN_CLASS : Fld := ⟨0x40, false, 0x400, 3, 1, 4⟩
/-- R242 -/
def Fld.CORE_CM_GRAN_SEALED : Fld := ⟨0x40, false, 0x400, 4, 1, 4⟩
/-- R242 -/
def Fld.CORE_CM_GRAN_HEAD : Fld := ⟨0x40, false, 0x400, 5, 1, 4⟩
/-- R242 -/
def Fld.CORE_CM_GRAN_LIFE : Fld := ⟨0x40, false, 0x400, 6, 1, 4⟩
/-- R242 -/
def Fld.CORE_CM_GRAN_DOMAIN : Fld := ⟨0x40, false, 0x400, 8, 8, 4⟩
/-- R242 -/
def Fld.CORE_CM_GRAN_LEN_M1 : Fld := ⟨0x40, false, 0x400, 16, 6, 4⟩
/-- R242 -/
def Fld.CORE_CM_CE_COUNT_COUNT : Fld := ⟨0x40, false, 0x500, 0, 32, 4⟩
/-- R242 -/
def Fld.CORE_CM_UE_COUNT_COUNT : Fld := ⟨0x40, false, 0x504, 0, 32, 4⟩
/-- R242 -/
def Fld.CORE_CM_ERR_ADDR_OFFSET : Fld := ⟨0x40, false, 0x508, 0, 22, 4⟩
/-- R242 -/
def Fld.CORE_CM_ERR_ADDR_VALID : Fld := ⟨0x40, false, 0x508, 22, 1, 4⟩
/-- R242 -/
def Fld.CORE_CM_ERR_ADDR_OPBUF : Fld := ⟨0x40, false, 0x508, 23, 1, 4⟩
/-- R242 -/
def Fld.CORE_CM_STATUS_FREE_GRAN : Fld := ⟨0x40, false, 0x50c, 0, 7, 4⟩
/-- R242 -/
def Fld.CORE_CM_STATUS_SCRUB_GRAN : Fld := ⟨0x40, false, 0x50c, 8, 7, 4⟩
/-- R242 -/
def Fld.CORE_CM_NARROW_FORCED_COUNT : Fld := ⟨0x40, false, 0x510, 0, 64, 4⟩
/-- R242 -/
def Fld.CORE_CM_NARROW_WAIT_COUNT : Fld := ⟨0x40, false, 0x518, 0, 64, 4⟩
/-- R242 -/
def Fld.CORE_CM_SCRUB_FORCED_COUNT : Fld := ⟨0x40, false, 0x520, 0, 64, 4⟩
/-- R243 -/
def Fld.FLD_PAGE_CAPS_SLICE_GRAN : Fld := ⟨0xa, false, 0x8, 17, 6, 4⟩
/-- R243 -/
def Fld.FLD_PAGE_EVENT_FLD_UE : Fld := ⟨0xa, false, 0x14, 0, 1, 4⟩
/-- R243 -/
def Fld.FLD_PAGE_EVENT_FLD_CE_THRESH : Fld := ⟨0xa, false, 0x14, 1, 1, 4⟩
/-- R243 -/
def Fld.FLD_PAGE_EVENT_PATROL_PASS : Fld := ⟨0xa, false, 0x14, 2, 1, 4⟩
/-- R243 -/
def Fld.FLD_PAGE_EVENT_HOLD_PENDING : Fld := ⟨0xa, false, 0x14, 3, 1, 4⟩
/-- R243 -/
def Fld.FLD_FLD_CFG_PATROL_HOURS : Fld := ⟨0xa, false, 0x100, 0, 8, 4⟩
/-- R243 -/
def Fld.FLD_FLD_CFG_CE_THRESH : Fld := ⟨0xa, false, 0x100, 8, 16, 4⟩
/-- R243 -/
def Fld.FLD_FLD_DBGCTL_SCRUB_HOLD : Fld := ⟨0xa, false, 0x104, 0, 1, 4⟩
/-- R243 -/
def Fld.FLD_FLD_HELD_COUNT : Fld := ⟨0xa, false, 0x108, 0, 13, 4⟩
/-- R244 -/
def Fld.FLD_SL_STATUS_FREE_GRAN : Fld := ⟨0xa, true, 0x0, 0, 6, 4⟩
/-- R244 -/
def Fld.FLD_SL_STATUS_SCRUB_GRAN : Fld := ⟨0xa, true, 0x0, 8, 6, 4⟩
/-- R244 -/
def Fld.FLD_SL_STATUS_PATROL_ACTIVE : Fld := ⟨0xa, true, 0x0, 16, 1, 4⟩
/-- R244 -/
def Fld.FLD_SL_CE_COUNT_COUNT : Fld := ⟨0xa, true, 0x4, 0, 32, 4⟩
/-- R244 -/
def Fld.FLD_SL_UE_COUNT_COUNT : Fld := ⟨0xa, true, 0x8, 0, 32, 4⟩
/-- R244 -/
def Fld.FLD_SL_ERR_ADDR_OFFSET : Fld := ⟨0xa, true, 0xc, 0, 26, 4⟩
/-- R244 -/
def Fld.FLD_SL_ERR_ADDR_VALID : Fld := ⟨0xa, true, 0xc, 26, 1, 4⟩
/-- R244 -/
def Fld.FLD_SL_ERR_ADDR_CLASS : Fld := ⟨0xa, true, 0xc, 27, 1, 4⟩
/-- R244 -/
def Fld.FLD_SL_GRAN_WORD : Fld := ⟨0xa, true, 0x10, 0, 32, 4⟩
/-- R277 -/
def Fld.XLT_PAGE_CAPS_PG4K : Fld := ⟨0x9, false, 0x8, 17, 1, 4⟩
/-- R277 -/
def Fld.XLT_PAGE_CAPS_PG64K : Fld := ⟨0x9, false, 0x8, 18, 1, 4⟩
/-- R277 -/
def Fld.XLT_PAGE_CAPS_PG2M : Fld := ⟨0x9, false, 0x8, 19, 1, 4⟩
/-- R277 -/
def Fld.XLT_PAGE_EVENT_POOL_LOW : Fld := ⟨0x9, false, 0x14, 0, 1, 4⟩
/-- R277 -/
def Fld.XLT_PAGE_EVENT_MAP_REFUSED : Fld := ⟨0x9, false, 0x14, 1, 1, 4⟩
/-- R277 -/
def Fld.XLT_PAGE_EVENT_CODE_DOWNGRADE : Fld := ⟨0x9, false, 0x14, 2, 1, 4⟩
/-- R277 -/
def Fld.XLT_PAGE_EVENT_CAP_MISMATCH : Fld := ⟨0x9, false, 0x14, 3, 1, 4⟩
/-- R277 -/
def Fld.XLT_PAGE_EVENT_POOL_CLIPPED : Fld := ⟨0x9, false, 0x14, 4, 1, 4⟩
/-- R277 -/
def Fld.XLT_PAGE_EVENT_TABLE_BAD : Fld := ⟨0x9, false, 0x14, 5, 1, 4⟩
/-- R277 -/
def Fld.XLT_POOL_BASE_FRAME : Fld := ⟨0x9, false, 0x100, 0, 30, 4⟩
/-- R277 -/
def Fld.XLT_POOL_COUNT_COUNT : Fld := ⟨0x9, false, 0x104, 0, 30, 4⟩
/-- R277 -/
def Fld.XLT_FREE_FRAMES_COUNT : Fld := ⟨0x9, false, 0x108, 0, 30, 4⟩
/-- R277 -/
def Fld.XLT_PENDING_FRAMES_COUNT : Fld := ⟨0x9, false, 0x10c, 0, 30, 4⟩
/-- R277 -/
def Fld.XLT_XLT_CFG_SCRUB_RATE : Fld := ⟨0x9, false, 0x110, 0, 16, 4⟩
/-- R277 -/
def Fld.XLT_XLT_CFG_POOL_LOW : Fld := ⟨0x9, false, 0x110, 16, 16, 4⟩
/-- R277 -/
def Fld.XLT_XLT_GEOM_STACKS : Fld := ⟨0x9, false, 0x114, 0, 6, 4⟩
/-- R277 -/
def Fld.XLT_XLT_GEOM_STACK_FRAMES_K : Fld := ⟨0x9, false, 0x114, 6, 26, 4⟩
/-- R277 -/
def Fld.XLT_XLT_WALKS_COUNT : Fld := ⟨0x9, false, 0x118, 0, 64, 4⟩
/-- R277 -/
def Fld.XLT_XLT_TLB_MISS_COUNT : Fld := ⟨0x9, false, 0x120, 0, 64, 4⟩
/-- R278 -/
def Fld.XLT_DOM_STATE_STATE : Fld := ⟨0x9, true, 0x0, 0, 2, 4⟩
/-- R278 -/
def Fld.XLT_DOM_LIMIT_FRAMES : Fld := ⟨0x9, true, 0x4, 0, 30, 4⟩
/-- R278 -/
def Fld.XLT_DOM_USED_FRAMES : Fld := ⟨0x9, true, 0x8, 0, 30, 4⟩
/-- R278 -/
def Fld.XLT_DOM_FAULT_STATUS : Fld := ⟨0x9, true, 0xc, 0, 8, 4⟩
/-- R278 -/
def Fld.XLT_DOM_FAULT_VALID : Fld := ⟨0x9, true, 0xc, 8, 1, 4⟩
/-- R278 -/
def Fld.XLT_DOM_FAULT_VA_VA : Fld := ⟨0x9, true, 0x10, 0, 42, 4⟩
/-- R278 -/
def Fld.XLT_DOM_WALKS_COUNT : Fld := ⟨0x9, true, 0x18, 0, 64, 4⟩
/-- R308 -/
def Fld.DSP_PAGE_CAPS_REPLAY : Fld := ⟨0x8, false, 0x8, 17, 1, 4⟩
/-- R308 -/
def Fld.DSP_PAGE_EVENT_QUEUE_ERROR : Fld := ⟨0x8, false, 0x14, 0, 1, 4⟩
/-- R308 -/
def Fld.DSP_PAGE_EVENT_DOORBELL_BAD : Fld := ⟨0x8, false, 0x14, 1, 1, 4⟩
/-- R308 -/
def Fld.DSP_PAGE_EVENT_DOM_DOWN : Fld := ⟨0x8, false, 0x14, 2, 1, 4⟩
/-- R308 -/
def Fld.DSP_PAGE_EVENT_REPLAY : Fld := ⟨0x8, false, 0x14, 3, 1, 4⟩
/-- R308 -/
def Fld.DSP_PAGE_EVENT_Q_ENABLE_REFUSED : Fld := ⟨0x8, false, 0x14, 4, 1, 4⟩
/-- R308 -/
def Fld.DSP_PAGE_EVENT_UNIT_LOST : Fld := ⟨0x8, false, 0x14, 5, 1, 4⟩
/-- R308 -/
def Fld.DSP_PAGE_EVENT_CHEAD_BAD : Fld := ⟨0x8, false, 0x14, 6, 1, 4⟩
/-- R308 -/
def Fld.DSP_EVENT_QUEUE_QUEUE : Fld := ⟨0x8, false, 0x100, 0, 16, 4⟩
/-- R308 -/
def Fld.DSP_EVENT_QUEUE_EN : Fld := ⟨0x8, false, 0x100, 16, 1, 4⟩
/-- R308 -/
def Fld.DSP_DSP_CFG_KTIMEOUT : Fld := ⟨0x8, false, 0x104, 0, 16, 4⟩
/-- R308 -/
def Fld.DSP_DSP_CFG_PLACE_LIMIT : Fld := ⟨0x8, false, 0x104, 16, 16, 4⟩
/-- R308 -/
def Fld.DSP_DOORBELL_QUEUE : Fld := ⟨0x8, false, 0x108, 0, 16, 4⟩
/-- R308 -/
def Fld.DSP_DOORBELL_TAIL : Fld := ⟨0x8, false, 0x108, 16, 16, 4⟩
/-- R308 -/
def Fld.DSP_DOM_CMD_DOMAIN : Fld := ⟨0x8, false, 0x10c, 0, 8, 4⟩
/-- R308 -/
def Fld.DSP_DOM_CMD_CMD : Fld := ⟨0x8, false, 0x10c, 8, 2, 4⟩
/-- R308 -/
def Fld.DSP_DOM_CMD_KIND : Fld := ⟨0x8, false, 0x10c, 10, 2, 4⟩
/-- R308 -/
def Fld.DSP_DOM_CMD_STATUS_BUSY : Fld := ⟨0x8, false, 0x110, 0, 1, 4⟩
/-- R308 -/
def Fld.DSP_DOM_CMD_STATUS_RESULT : Fld := ⟨0x8, false, 0x110, 4, 4, 4⟩
/-- R308 -/
def Fld.DSP_DOM_CMD_STATUS_DOMAIN : Fld := ⟨0x8, false, 0x110, 8, 8, 4⟩
/-- R308 -/
def Fld.DSP_EVQ_LOST_COUNT : Fld := ⟨0x8, false, 0x114, 0, 32, 4⟩
/-- R308 -/
def Fld.DSP_DSP_KSTART_COUNT : Fld := ⟨0x8, false, 0x118, 0, 64, 4⟩
/-- R308 -/
def Fld.DSP_DSP_REPLAYS_COUNT : Fld := ⟨0x8, false, 0x120, 0, 64, 4⟩
/-- R308 -/
def Fld.DSP_SIG_VALUE : Fld := ⟨0x8, false, 0x1000, 0, 32, 4⟩
/-- R308 -/
def Fld.DSP_SIG_OWN_OWNER0 : Fld := ⟨0x8, false, 0x2000, 0, 8, 4⟩
/-- R308 -/
def Fld.DSP_SIG_OWN_OWNER1 : Fld := ⟨0x8, false, 0x2000, 8, 8, 4⟩
/-- R308 -/
def Fld.DSP_SIG_OWN_OWNER2 : Fld := ⟨0x8, false, 0x2000, 16, 8, 4⟩
/-- R308 -/
def Fld.DSP_SIG_OWN_OWNER3 : Fld := ⟨0x8, false, 0x2000, 24, 8, 4⟩
/-- R308 -/
def Fld.DSP_DOM_CFG_KIND : Fld := ⟨0x8, false, 0x2400, 0, 2, 4⟩
/-- R308 -/
def Fld.DSP_DOM_CFG_STATE : Fld := ⟨0x8, false, 0x2400, 2, 2, 4⟩
/-- R308 -/
def Fld.DSP_DOM_CFG_EVQ : Fld := ⟨0x8, false, 0x2400, 16, 16, 4⟩
/-- R309 -/
def Fld.DSP_Q_CFG_PRIO : Fld := ⟨0x8, true, 0x0, 0, 3, 4⟩
/-- R309 -/
def Fld.DSP_Q_CFG_DOMAIN : Fld := ⟨0x8, true, 0x0, 8, 8, 4⟩
/-- R309 -/
def Fld.DSP_Q_CFG_INFLIGHT_M1 : Fld := ⟨0x8, true, 0x0, 16, 6, 4⟩
/-- R309 -/
def Fld.DSP_Q_CFG_NOTIFY : Fld := ⟨0x8, true, 0x0, 22, 1, 4⟩
/-- R309 -/
def Fld.DSP_Q_CFG_VEC : Fld := ⟨0x8, true, 0x0, 24, 8, 4⟩
/-- R309 -/
def Fld.DSP_Q_RING_LOG2 : Fld := ⟨0x8, true, 0x4, 0, 5, 4⟩
/-- R309 -/
def Fld.DSP_Q_RING_BASE_VA : Fld := ⟨0x8, true, 0x8, 12, 30, 4⟩
/-- R309 -/
def Fld.DSP_Q_CMPL_BASE_VA : Fld := ⟨0x8, true, 0x10, 12, 30, 4⟩
/-- R309 -/
def Fld.DSP_Q_CTL_ENABLE : Fld := ⟨0x8, true, 0x18, 0, 1, 4⟩
/-- R309 -/
def Fld.DSP_Q_CTL_DISABLE : Fld := ⟨0x8, true, 0x18, 1, 1, 4⟩
/-- R309 -/
def Fld.DSP_Q_CTL_RESUME : Fld := ⟨0x8, true, 0x18, 2, 1, 4⟩
/-- R309 -/
def Fld.DSP_Q_CTL_FLUSH : Fld := ⟨0x8, true, 0x18, 3, 1, 4⟩
/-- R309 -/
def Fld.DSP_Q_STATE_STATE : Fld := ⟨0x8, true, 0x1c, 0, 3, 4⟩
/-- R309 -/
def Fld.DSP_Q_STATE_ERR_STATUS : Fld := ⟨0x8, true, 0x1c, 8, 8, 4⟩
/-- R309 -/
def Fld.DSP_Q_STATE_ERR_DETAIL : Fld := ⟨0x8, true, 0x1c, 16, 8, 4⟩
/-- R309 -/
def Fld.DSP_Q_PTRS_HEAD : Fld := ⟨0x8, true, 0x20, 0, 16, 4⟩
/-- R309 -/
def Fld.DSP_Q_PTRS_TAIL : Fld := ⟨0x8, true, 0x20, 16, 16, 4⟩
/-- R309 -/
def Fld.DSP_Q_CMPL_CTAIL : Fld := ⟨0x8, true, 0x24, 0, 16, 4⟩
/-- R309 -/
def Fld.DSP_Q_CMPL_CHEAD : Fld := ⟨0x8, true, 0x24, 16, 16, 4⟩
/-- R309 -/
def Fld.DSP_Q_TIMEOUT_US : Fld := ⟨0x8, true, 0x28, 0, 32, 4⟩
/-- R309 -/
def Fld.DSP_Q_SERIAL_SERIAL : Fld := ⟨0x8, true, 0x30, 0, 40, 4⟩
/-- R309 -/
def Fld.DSP_Q_DONE_COUNT : Fld := ⟨0x8, true, 0x38, 0, 64, 4⟩
/-- R342 -/
def Fld.TRV_PAGE_CAPS_SQ_COUNT : Fld := ⟨0xb, false, 0x8, 17, 7, 4⟩
/-- R342 -/
def Fld.TRV_PAGE_EVENT_ROUND_FAIL : Fld := ⟨0xb, false, 0x14, 0, 1, 4⟩
/-- R342 -/
def Fld.TRV_PAGE_EVENT_PEER_REFUSED : Fld := ⟨0xb, false, 0x14, 1, 1, 4⟩
/-- R342 -/
def Fld.TRV_PAGE_EVENT_SQ_ERROR : Fld := ⟨0xb, false, 0x14, 2, 1, 4⟩
/-- R342 -/
def Fld.TRV_PAGE_EVENT_LAPSE : Fld := ⟨0xb, false, 0x14, 3, 1, 4⟩
/-- R342 -/
def Fld.TRV_TRV_CFG_RND_TIMEOUT : Fld := ⟨0xb, false, 0x100, 0, 16, 4⟩
/-- R342 -/
def Fld.TRV_TRV_LAST_CHAIN : Fld := ⟨0xb, false, 0x104, 0, 8, 4⟩
/-- R342 -/
def Fld.TRV_TRV_LAST_SQ : Fld := ⟨0xb, false, 0x104, 8, 6, 4⟩
/-- R342 -/
def Fld.TRV_TRV_REFUSED_COUNT : Fld := ⟨0xb, false, 0x108, 0, 32, 4⟩
/-- R342 -/
def Fld.TRV_TRV_ELEMS_COUNT : Fld := ⟨0xb, false, 0x110, 0, 64, 4⟩
/-- R342 -/
def Fld.TRV_SQ_CFG_ROLE : Fld := ⟨0xb, false, 0x1000, 0, 2, 64⟩
/-- R342 -/
def Fld.TRV_SQ_CFG_PEER_Q : Fld := ⟨0xb, false, 0x1000, 2, 6, 64⟩
/-- R342 -/
def Fld.TRV_SQ_CFG_PEER_DIE : Fld := ⟨0xb, false, 0x1000, 8, 12, 64⟩
/-- R342 -/
def Fld.TRV_SQ_CFG_DOMAIN : Fld := ⟨0xb, false, 0x1000, 20, 8, 64⟩
/-- R342 -/
def Fld.TRV_SQ_GEOM_DEPTH_M1 : Fld := ⟨0xb, false, 0x1004, 0, 8, 64⟩
/-- R342 -/
def Fld.TRV_SQ_GEOM_SLOT_64K : Fld := ⟨0xb, false, 0x1004, 8, 16, 64⟩
/-- R342 -/
def Fld.TRV_SQ_BASE_ADDR : Fld := ⟨0xb, false, 0x1008, 0, 32, 64⟩
/-- R342 -/
def Fld.TRV_SQ_SIG_SIG : Fld := ⟨0xb, false, 0x100c, 0, 10, 64⟩
/-- R342 -/
def Fld.TRV_SQ_STATE_STATE : Fld := ⟨0xb, false, 0x1010, 0, 2, 64⟩
/-- R342 -/
def Fld.TRV_SQ_STATE_CAUSE : Fld := ⟨0xb, false, 0x1010, 8, 8, 64⟩
/-- R342 -/
def Fld.TRV_SQ_MOVED_COUNT : Fld := ⟨0xb, false, 0x1014, 0, 32, 64⟩
/-- R342 -/
def Fld.TRV_SQ_POPPED_COUNT : Fld := ⟨0xb, false, 0x1018, 0, 32, 64⟩
/-- R342 -/
def Fld.TRV_SQ_WAIT_CREDIT_COUNT : Fld := ⟨0xb, false, 0x1020, 0, 64, 64⟩
/-- R342 -/
def Fld.TRV_SQ_WAIT_DATA_COUNT : Fld := ⟨0xb, false, 0x1028, 0, 64, 64⟩
/-- R343 -/
def Fld.TRV_CH_CFG_EN : Fld := ⟨0xb, true, 0x0, 0, 1, 4⟩
/-- R343 -/
def Fld.TRV_CH_CFG_LOCAL_M1 : Fld := ⟨0xb, true, 0x0, 2, 6, 4⟩
/-- R343 -/
def Fld.TRV_CH_CFG_DOMAIN : Fld := ⟨0xb, true, 0x0, 8, 8, 4⟩
/-- R343 -/
def Fld.TRV_CH_CFG_LEN_M1 : Fld := ⟨0xb, true, 0x0, 16, 12, 4⟩
/-- R343 -/
def Fld.TRV_CH_POS_POS : Fld := ⟨0xb, true, 0x4, 0, 12, 4⟩
/-- R343 -/
def Fld.TRV_CH_NBR_NEXT : Fld := ⟨0xb, true, 0x8, 0, 12, 4⟩
/-- R343 -/
def Fld.TRV_CH_NBR_PREV : Fld := ⟨0xb, true, 0x8, 16, 12, 4⟩
/-- R343 -/
def Fld.TRV_CH_BUF_ADDR : Fld := ⟨0xb, true, 0xc, 0, 32, 4⟩
/-- R343 -/
def Fld.TRV_CH_WIN_WIN_M1 : Fld := ⟨0xb, true, 0x10, 0, 8, 4⟩
/-- R343 -/
def Fld.TRV_CH_STATUS_LAST_STATUS : Fld := ⟨0xb, true, 0x14, 0, 8, 4⟩
/-- R343 -/
def Fld.TRV_CH_STATUS_ACTIVE : Fld := ⟨0xb, true, 0x14, 8, 1, 4⟩
/-- R343 -/
def Fld.TRV_CH_STATUS_ABORT_PENDING : Fld := ⟨0xb, true, 0x14, 9, 1, 4⟩
/-- R343 -/
def Fld.TRV_CH_STATUS_NAN_MADE : Fld := ⟨0xb, true, 0x14, 10, 1, 4⟩
/-- R343 -/
def Fld.TRV_CH_STATUS_LAPSED : Fld := ⟨0xb, true, 0x14, 11, 1, 4⟩
/-- R343 -/
def Fld.TRV_CH_EPOCH_EPOCH : Fld := ⟨0xb, true, 0x18, 0, 32, 4⟩
/-- R343 -/
def Fld.TRV_CH_WAIT_PRED_COUNT : Fld := ⟨0xb, true, 0x20, 0, 64, 4⟩
/-- R343 -/
def Fld.TRV_CH_WAIT_GRANT_COUNT : Fld := ⟨0xb, true, 0x28, 0, 64, 4⟩
/-- R343 -/
def Fld.TRV_CH_WAIT_LOCAL_COUNT : Fld := ⟨0xb, true, 0x30, 0, 64, 4⟩
/-- R343 -/
def Fld.TRV_CH_ROUNDS_COUNT : Fld := ⟨0xb, true, 0x38, 0, 64, 4⟩
/-- R378 -/
def Fld.LNK_PAGE_CAPS_MODULES : Fld := ⟨0x100, false, 0x8, 17, 6, 4⟩
/-- R378 -/
def Fld.LNK_PAGE_CAPS_EXT_RATES : Fld := ⟨0x100, false, 0x8, 23, 1, 4⟩
/-- R378 -/
def Fld.LNK_PAGE_CAPS_X4 : Fld := ⟨0x100, false, 0x8, 24, 1, 4⟩
/-- R378 -/
def Fld.LNK_PAGE_EVENT_MOD_DOWN : Fld := ⟨0x100, false, 0x14, 0, 1, 4⟩
/-- R378 -/
def Fld.LNK_PAGE_EVENT_MOD_RETRAIN : Fld := ⟨0x100, false, 0x14, 1, 1, 4⟩
/-- R378 -/
def Fld.LNK_PAGE_EVENT_CLOSURE_SETTLED : Fld := ⟨0x100, false, 0x14, 2, 1, 4⟩
/-- R378 -/
def Fld.LNK_PAGE_EVENT_QUARANTINE : Fld := ⟨0x100, false, 0x14, 3, 1, 4⟩
/-- R378 -/
def Fld.LNK_PAGE_EVENT_PARTNER_MISMATCH : Fld := ⟨0x100, false, 0x14, 4, 1, 4⟩
/-- R378 -/
def Fld.LNK_PAGE_EVENT_WIDTH_DEGRADED : Fld := ⟨0x100, false, 0x14, 5, 1, 4⟩
/-- R378 -/
def Fld.LNK_PAGE_EVENT_GEN_MIXED : Fld := ⟨0x100, false, 0x14, 6, 1, 4⟩
/-- R378 -/
def Fld.LNK_PAGE_EVENT_CFG_FIXUP : Fld := ⟨0x100, false, 0x14, 7, 1, 4⟩
/-- R378 -/
def Fld.LNK_PAGE_EVENT_EASE_DROP : Fld := ⟨0x100, false, 0x14, 8, 1, 4⟩
/-- R378 -/
def Fld.LNK_LNK_MODE_LINK_MODE : Fld := ⟨0x100, false, 0x100, 0, 1, 4⟩
/-- R378 -/
def Fld.LNK_LNK_TIMEOUT_REQ_TIMEOUT : Fld := ⟨0x100, false, 0x104, 0, 16, 4⟩
/-- R378 -/
def Fld.LNK_LNK_QUAR_VIOL_LIMIT : Fld := ⟨0x100, false, 0x108, 0, 8, 4⟩
/-- R378 -/
def Fld.LNK_LNK_QUAR_VIOL_WINDOW : Fld := ⟨0x100, false, 0x108, 8, 8, 4⟩
/-- R378 -/
def Fld.LNK_LNK_LAST_MODULE : Fld := ⟨0x100, false, 0x10c, 0, 6, 4⟩
/-- R378 -/
def Fld.LNK_LNK_LATE_RSP_COUNT : Fld := ⟨0x100, false, 0x110, 0, 32, 4⟩
/-- R378 -/
def Fld.LNK_LNK_EASE_DROP_COUNT : Fld := ⟨0x100, false, 0x114, 0, 32, 4⟩
/-- R378 -/
def Fld.LNK_LNK_UP_ACTIVE : Fld := ⟨0x100, false, 0x118, 0, 40, 4⟩
/-- R379 -/
def Fld.LNK_MOD_CFG_MOD_ROLE : Fld := ⟨0x100, true, 0x0, 0, 3, 4⟩
/-- R379 -/
def Fld.LNK_MOD_CFG_PARTNER_KIND : Fld := ⟨0x100, true, 0x0, 4, 3, 4⟩
/-- R379 -/
def Fld.LNK_MOD_CFG_PARTNER_ID : Fld := ⟨0x100, true, 0x0, 8, 12, 4⟩
/-- R379 -/
def Fld.LNK_MOD_CFG_MAX_RATE : Fld := ⟨0x100, true, 0x0, 20, 3, 4⟩
/-- R379 -/
def Fld.LNK_MOD_CFG_MIN_WIDTH : Fld := ⟨0x100, true, 0x0, 23, 2, 4⟩
/-- R379 -/
def Fld.LNK_MOD_TUNE_RATE_CAP : Fld := ⟨0x100, true, 0x4, 0, 3, 4⟩
/-- R379 -/
def Fld.LNK_MOD_TUNE_CRC_THRESH : Fld := ⟨0x100, true, 0x4, 4, 8, 4⟩
/-- R379 -/
def Fld.LNK_MOD_TUNE_REPLAY_LIMIT : Fld := ⟨0x100, true, 0x4, 12, 4, 4⟩
/-- R379 -/
def Fld.LNK_MOD_STATE_STATE : Fld := ⟨0x100, true, 0x8, 0, 4, 4⟩
/-- R379 -/
def Fld.LNK_MOD_STATE_DOWN_CAUSE : Fld := ⟨0x100, true, 0x8, 4, 4, 4⟩
/-- R379 -/
def Fld.LNK_MOD_STATE_RATE : Fld := ⟨0x100, true, 0x8, 8, 3, 4⟩
/-- R379 -/
def Fld.LNK_MOD_STATE_WIDTH : Fld := ⟨0x100, true, 0x8, 11, 2, 4⟩
/-- R379 -/
def Fld.LNK_MOD_STATE_SET : Fld := ⟨0x100, true, 0x8, 13, 2, 4⟩
/-- R379 -/
def Fld.LNK_MOD_STATE_LEVEL : Fld := ⟨0x100, true, 0x8, 16, 8, 4⟩
/-- R379 -/
def Fld.LNK_MOD_LANES_OWN_MAP : Fld := ⟨0x100, true, 0xc, 0, 16, 4⟩
/-- R379 -/
def Fld.LNK_MOD_LANES_PEER_MAP : Fld := ⟨0x100, true, 0xc, 16, 16, 4⟩
/-- R379 -/
def Fld.LNK_MOD_PEER_KIND : Fld := ⟨0x100, true, 0x10, 0, 3, 4⟩
/-- R379 -/
def Fld.LNK_MOD_PEER_VENDOR : Fld := ⟨0x100, true, 0x10, 3, 1, 4⟩
/-- R379 -/
def Fld.LNK_MOD_PEER_IDENT : Fld := ⟨0x100, true, 0x10, 4, 12, 4⟩
/-- R379 -/
def Fld.LNK_MOD_PEER_STEPPING : Fld := ⟨0x100, true, 0x10, 16, 8, 4⟩
/-- R379 -/
def Fld.LNK_MOD_PEER_GEN : Fld := ⟨0x100, true, 0x10, 24, 4, 4⟩
/-- R379 -/
def Fld.LNK_MOD_FEAT_COMMON : Fld := ⟨0x100, true, 0x14, 0, 16, 4⟩
/-- R379 -/
def Fld.LNK_MOD_FEAT_PEER_RESETS : Fld := ⟨0x100, true, 0x14, 16, 16, 4⟩
/-- R379 -/
def Fld.LNK_MOD_CTL_RETRAIN : Fld := ⟨0x100, true, 0x18, 0, 1, 4⟩
/-- R379 -/
def Fld.LNK_MOD_CTL_UNQUARANTINE : Fld := ⟨0x100, true, 0x18, 1, 1, 4⟩
/-- R379 -/
def Fld.LNK_MOD_CTL_TAKE_DOWN : Fld := ⟨0x100, true, 0x18, 2, 1, 4⟩
/-- R379 -/
def Fld.LNK_MOD_RETRAINS_COUNT : Fld := ⟨0x100, true, 0x1c, 0, 32, 4⟩
/-- R379 -/
def Fld.LNK_MOD_CLOSURE_MISMATCHES : Fld := ⟨0x100, true, 0x20, 0, 16, 4⟩
/-- R379 -/
def Fld.LNK_MOD_CLOSURE_SETTLES : Fld := ⟨0x100, true, 0x20, 16, 16, 4⟩
/-- R379 -/
def Fld.LNK_MOD_VIOL_COUNT : Fld := ⟨0x100, true, 0x24, 0, 16, 4⟩
/-- R379 -/
def Fld.LNK_MOD_VIOL_LAST_CODE : Fld := ⟨0x100, true, 0x24, 16, 8, 4⟩
/-- R381 -/
def Fld.PTR_PAGE_EVENT_CRC_THRESH_HIT : Fld := ⟨0x101, false, 0x14, 0, 1, 4⟩
/-- R381 -/
def Fld.PTR_PAGE_EVENT_REPLAY_LIMIT_HIT : Fld := ⟨0x101, false, 0x14, 1, 1, 4⟩
/-- R381 -/
def Fld.PTR_PAGE_EVENT_FLITS_LOST : Fld := ⟨0x101, false, 0x14, 2, 1, 4⟩
/-- R381 -/
def Fld.PTR_PTR_LAST_MODULE : Fld := ⟨0x101, false, 0x100, 0, 6, 4⟩
/-- R381 -/
def Fld.PTR_PT_CRC_ERR_COUNT : Fld := ⟨0x101, true, 0x0, 0, 32, 4⟩
/-- R381 -/
def Fld.PTR_PT_REPLAYS_COUNT : Fld := ⟨0x101, true, 0x4, 0, 32, 4⟩
/-- R381 -/
def Fld.PTR_PT_LOST_COUNT : Fld := ⟨0x101, true, 0x8, 0, 32, 4⟩
/-- R381 -/
def Fld.PTR_PT_DROPPED_COUNT : Fld := ⟨0x101, true, 0xc, 0, 32, 4⟩
/-- R381 -/
def Fld.PTR_PT_TX_FLITS_COUNT : Fld := ⟨0x101, true, 0x10, 0, 64, 4⟩
/-- R381 -/
def Fld.PTR_PT_RX_FLITS_COUNT : Fld := ⟨0x101, true, 0x18, 0, 64, 4⟩
/-- R381 -/
def Fld.PTR_PT_CRED_AVAIL : Fld := ⟨0x101, true, 0x20, 0, 10, 4⟩
/-- R381 -/
def Fld.PTR_PT_CRED_ADV : Fld := ⟨0x101, true, 0x20, 16, 10, 4⟩
/-- R381 -/
def Fld.PTR_PT_STALL_CK_COUNT : Fld := ⟨0x101, true, 0x38, 0, 64, 4⟩
/-- R382 -/
def Fld.RTE_PAGE_EVENT_ALT_IN_USE : Fld := ⟨0x102, false, 0x14, 0, 1, 4⟩
/-- R382 -/
def Fld.RTE_PAGE_EVENT_PATH_DOWN : Fld := ⟨0x102, false, 0x14, 1, 1, 4⟩
/-- R382 -/
def Fld.RTE_PAGE_EVENT_HOP_LIMIT : Fld := ⟨0x102, false, 0x14, 2, 1, 4⟩
/-- R382 -/
def Fld.RTE_PAGE_EVENT_ROUTE_FIXUP : Fld := ⟨0x102, false, 0x14, 3, 1, 4⟩
/-- R382 -/
def Fld.RTE_RTE_OFFPKG_HUB : Fld := ⟨0x102, false, 0x100, 0, 3, 4⟩
/-- R382 -/
def Fld.RTE_RTE_LAST_ENTRY : Fld := ⟨0x102, false, 0x104, 0, 6, 4⟩
/-- R382 -/
def Fld.RTE_RT_PRI_MASK : Fld := ⟨0x102, true, 0x0, 0, 40, 4⟩
/-- R382 -/
def Fld.RTE_RT_ALT_MASK : Fld := ⟨0x102, true, 0x8, 0, 40, 4⟩
/-- R382 -/
def Fld.RTE_RT_CTL_VALID : Fld := ⟨0x102, true, 0x10, 0, 1, 4⟩
/-- R382 -/
def Fld.RTE_RT_CTL_ALT_ACTIVE : Fld := ⟨0x102, true, 0x10, 1, 1, 4⟩
/-- R382 -/
def Fld.RTE_RT_CTL_HOLDING : Fld := ⟨0x102, true, 0x10, 2, 1, 4⟩
/-- R382 -/
def Fld.RTE_RT_SWITCHES_COUNT : Fld := ⟨0x102, true, 0x14, 0, 32, 4⟩
/-- R402 -/
def Fld.BOOT_PAGE_EVENT_BOOT_FAIL : Fld := ⟨0x1, false, 0x14, 0, 1, 4⟩
/-- R402 -/
def Fld.BOOT_PAGE_EVENT_LDR_ERR : Fld := ⟨0x1, false, 0x14, 1, 1, 4⟩
/-- R402 -/
def Fld.BOOT_PAGE_EVENT_CFG_MASTER_MISMATCH : Fld := ⟨0x1, false, 0x14, 2, 1, 4⟩
/-- R402 -/
def Fld.BOOT_PAGE_EVENT_RELEASED : Fld := ⟨0x1, false, 0x14, 3, 1, 4⟩
/-- R402 -/
def Fld.BOOT_PAGE_EVENT_FETCH_RETRY : Fld := ⟨0x1, false, 0x14, 4, 1, 4⟩
/-- R402 -/
def Fld.BOOT_BOOT_STATE_PHASE : Fld := ⟨0x1, false, 0x100, 0, 4, 4⟩
/-- R402 -/
def Fld.BOOT_BOOT_STATE_COLD : Fld := ⟨0x1, false, 0x100, 4, 1, 4⟩
/-- R402 -/
def Fld.BOOT_BOOT_STATE_ERR : Fld := ⟨0x1, false, 0x100, 8, 8, 4⟩
/-- R402 -/
def Fld.BOOT_BOOT_STATE_RESET_CAUSE : Fld := ⟨0x1, false, 0x100, 16, 2, 4⟩
/-- R402 -/
def Fld.BOOT_BOOT_STATE_SRC : Fld := ⟨0x1, false, 0x100, 18, 1, 4⟩
/-- R402 -/
def Fld.BOOT_BOOT_STATE_SRC_MODULE : Fld := ⟨0x1, false, 0x100, 24, 6, 4⟩
/-- R402 -/
def Fld.BOOT_BOOT_RESETS_RESET_COUNT : Fld := ⟨0x1, false, 0x104, 0, 16, 4⟩
/-- R402 -/
def Fld.BOOT_BOOT_IMG_VER_VER : Fld := ⟨0x1, false, 0x108, 0, 32, 4⟩
/-- R402 -/
def Fld.BOOT_BOOT_LDR_ERRS_COUNT : Fld := ⟨0x1, false, 0x10c, 0, 32, 4⟩
/-- R402 -/
def Fld.BOOT_BOOT_CTL_RELEASE : Fld := ⟨0x1, false, 0x110, 0, 1, 4⟩
/-- R402 -/
def Fld.BOOT_BOOT_CTL_REFETCH : Fld := ⟨0x1, false, 0x110, 1, 1, 4⟩
/-- R402 -/
def Fld.BOOT_BOOT_CTL_WARM_RESET : Fld := ⟨0x1, false, 0x110, 2, 1, 4⟩
/-- R402 -/
def Fld.BOOT_BOOT_SERIAL_SERIAL : Fld := ⟨0x1, false, 0x118, 0, 64, 4⟩
/-- R402 -/
def Fld.BOOT_BOOT_PH_US : Fld := ⟨0x1, false, 0x120, 0, 32, 4⟩
/-- R403 -/
def Fld.PLAT_PAGE_EVENT_NEW_ENTRY : Fld := ⟨0x2, false, 0x14, 0, 1, 4⟩
/-- R403 -/
def Fld.PLAT_PAGE_EVENT_FP_FOREIGN : Fld := ⟨0x2, false, 0x14, 1, 1, 4⟩
/-- R403 -/
def Fld.PLAT_PAGE_EVENT_FP_CORRUPT : Fld := ⟨0x2, false, 0x14, 2, 1, 4⟩
/-- R403 -/
def Fld.PLAT_PAGE_EVENT_PLAT_FULL : Fld := ⟨0x2, false, 0x14, 3, 1, 4⟩
/-- R403 -/
def Fld.PLAT_PAGE_EVENT_PLAT_RSV : Fld := ⟨0x2, false, 0x14, 4, 1, 4⟩
/-- R403 -/
def Fld.PLAT_PLAT_COUNTS_FUSE : Fld := ⟨0x2, false, 0x100, 0, 8, 4⟩
/-- R403 -/
def Fld.PLAT_PLAT_COUNTS_FIELD : Fld := ⟨0x2, false, 0x100, 8, 9, 4⟩
/-- R403 -/
def Fld.PLAT_PLAT_COUNTS_RETAINED : Fld := ⟨0x2, false, 0x100, 17, 7, 4⟩
/-- R403 -/
def Fld.PLAT_PLAT_NEW_COUNT : Fld := ⟨0x2, false, 0x104, 0, 9, 4⟩
/-- R403 -/
def Fld.PLAT_PLAT_CTL_NEW_CLEAR : Fld := ⟨0x2, false, 0x108, 0, 1, 4⟩
/-- R403 -/
def Fld.PLAT_PLAT_FUSE_ENTRY : Fld := ⟨0x2, false, 0x1000, 0, 32, 4⟩
/-- R403 -/
def Fld.PLAT_PLAT_FIELD_ENTRY : Fld := ⟨0x2, false, 0x1400, 0, 32, 4⟩
/-- R403 -/
def Fld.PLAT_PLAT_NEW_ENTRY : Fld := ⟨0x2, false, 0x1800, 0, 32, 4⟩
/-- R403 -/
def Fld.PLAT_PLAT_RET_ENTRY : Fld := ⟨0x2, false, 0x1c00, 0, 32, 4⟩
/-- R404 -/
def Fld.CL_PAGE_EVENT_RETIRE_START : Fld := ⟨0x10, false, 0x14, 0, 1, 4⟩
/-- R404 -/
def Fld.CL_PAGE_EVENT_SPARE_USED : Fld := ⟨0x10, false, 0x14, 1, 1, 4⟩
/-- R404 -/
def Fld.CL_PAGE_EVENT_HOLE_MADE : Fld := ⟨0x10, false, 0x14, 2, 1, 4⟩
/-- R404 -/
def Fld.CL_PAGE_EVENT_SPARE_LOST : Fld := ⟨0x10, false, 0x14, 3, 1, 4⟩
/-- R404 -/
def Fld.CL_PAGE_EVENT_CMD_IGNORED : Fld := ⟨0x10, false, 0x14, 4, 1, 4⟩
/-- R404 -/
def Fld.CL_CL_CFG_UE_RETIRE : Fld := ⟨0x10, false, 0x100, 0, 8, 4⟩
/-- R404 -/
def Fld.CL_CL_CFG_CE_RETIRE : Fld := ⟨0x10, false, 0x100, 8, 16, 4⟩
/-- R404 -/
def Fld.CL_CL_RETIRE_PHYS : Fld := ⟨0x10, false, 0x104, 0, 4, 4⟩
/-- R404 -/
def Fld.CL_CL_RETIRE_FORCE : Fld := ⟨0x10, false, 0x104, 4, 1, 4⟩
/-- R404 -/
def Fld.CL_CL_STATUS_HOLES : Fld := ⟨0x10, false, 0x108, 0, 8, 4⟩
/-- R404 -/
def Fld.CL_CL_STATUS_SPARE_AVAIL : Fld := ⟨0x10, false, 0x108, 8, 1, 4⟩
/-- R404 -/
def Fld.CL_CL_STATUS_SPARE_PHYS : Fld := ⟨0x10, false, 0x108, 9, 4, 4⟩
/-- R404 -/
def Fld.CL_PC_STATE_STATE : Fld := ⟨0x10, true, 0x0, 0, 3, 4⟩
/-- R404 -/
def Fld.CL_PC_STATE_LOGICAL : Fld := ⟨0x10, true, 0x0, 3, 3, 4⟩
/-- R404 -/
def Fld.CL_PC_STATE_BIST : Fld := ⟨0x10, true, 0x0, 8, 4, 4⟩
/-- R404 -/
def Fld.CL_PC_ERRS_PC_UE : Fld := ⟨0x10, true, 0x4, 0, 16, 4⟩
/-- R404 -/
def Fld.CL_PC_ERRS_PC_CE : Fld := ⟨0x10, true, 0x4, 16, 16, 4⟩
/-- R404 -/
def Fld.CL_PC_BYPASS_WORD : Fld := ⟨0x10, true, 0x8, 0, 32, 4⟩
/-- R432 -/
def Fld.PWR_PAGE_CAPS_OP_CEIL : Fld := ⟨0x4, false, 0x8, 17, 1, 4⟩
/-- R432 -/
def Fld.PWR_PAGE_EVENT_THROTTLE_START : Fld := ⟨0x4, false, 0x14, 0, 1, 4⟩
/-- R432 -/
def Fld.PWR_PAGE_EVENT_CAP_UNATTAINABLE : Fld := ⟨0x4, false, 0x14, 1, 1, 4⟩
/-- R432 -/
def Fld.PWR_PAGE_EVENT_THERMAL : Fld := ⟨0x4, false, 0x14, 2, 1, 4⟩
/-- R432 -/
def Fld.PWR_PAGE_EVENT_TRIP_SEEN : Fld := ⟨0x4, false, 0x14, 3, 1, 4⟩
/-- R432 -/
def Fld.PWR_PAGE_EVENT_EPI_OVERWRITE : Fld := ⟨0x4, false, 0x14, 4, 1, 4⟩
/-- R432 -/
def Fld.PWR_PAGE_EVENT_CFG_FIXUP : Fld := ⟨0x4, false, 0x14, 5, 1, 4⟩
/-- R432 -/
def Fld.PWR_PAGE_EVENT_RAIL_OVER : Fld := ⟨0x4, false, 0x14, 6, 1, 4⟩
/-- R432 -/
def Fld.PWR_PAGE_EVENT_RAIL_NOT_READY : Fld := ⟨0x4, false, 0x14, 7, 1, 4⟩
/-- R432 -/
def Fld.PWR_PWR_CFG_FIRST : Fld := ⟨0x4, false, 0x100, 0, 2, 4⟩
/-- R432 -/
def Fld.PWR_PWR_CFG_SECOND : Fld := ⟨0x4, false, 0x100, 2, 2, 4⟩
/-- R432 -/
def Fld.PWR_PWR_CFG_THIRD : Fld := ⟨0x4, false, 0x100, 4, 2, 4⟩
/-- R432 -/
def Fld.PWR_PWR_CFG_FIXED : Fld := ⟨0x4, false, 0x100, 6, 1, 4⟩
/-- R432 -/
def Fld.PWR_PWR_CFG_BOOST_EN : Fld := ⟨0x4, false, 0x100, 7, 1, 4⟩
/-- R432 -/
def Fld.PWR_PWR_CFG_OP_MAX : Fld := ⟨0x4, false, 0x100, 8, 3, 4⟩
/-- R432 -/
def Fld.PWR_PWR_CAP_CAP_W : Fld := ⟨0x4, false, 0x104, 0, 10, 4⟩
/-- R432 -/
def Fld.PWR_PWR_CAP_CAP_TAU : Fld := ⟨0x4, false, 0x104, 16, 7, 4⟩
/-- R432 -/
def Fld.PWR_PWR_GRADE_GRADE_UP : Fld := ⟨0x4, false, 0x108, 0, 8, 4⟩
/-- R432 -/
def Fld.PWR_PWR_GRADE_GRADE_DOWN : Fld := ⟨0x4, false, 0x108, 8, 8, 4⟩
/-- R432 -/
def Fld.PWR_THERM_CFG_THERM_LIMIT : Fld := ⟨0x4, false, 0x10c, 0, 7, 4⟩
/-- R432 -/
def Fld.PWR_THERM_CFG_EPI_MIN : Fld := ⟨0x4, false, 0x10c, 8, 8, 4⟩
/-- R432 -/
def Fld.PWR_PWR_STATUS_OP : Fld := ⟨0x4, false, 0x110, 0, 3, 4⟩
/-- R432 -/
def Fld.PWR_PWR_STATUS_DUTY : Fld := ⟨0x4, false, 0x110, 3, 5, 4⟩
/-- R432 -/
def Fld.PWR_PWR_STATUS_MEM_FRAC : Fld := ⟨0x4, false, 0x110, 8, 5, 4⟩
/-- R432 -/
def Fld.PWR_PWR_STATUS_LINK_FRAC : Fld := ⟨0x4, false, 0x110, 13, 5, 4⟩
/-- R432 -/
def Fld.PWR_PWR_STATUS_TRIP_SEEN : Fld := ⟨0x4, false, 0x110, 18, 1, 4⟩
/-- R432 -/
def Fld.PWR_PWR_STATUS_ACTIVE : Fld := ⟨0x4, false, 0x110, 20, 11, 4⟩
/-- R432 -/
def Fld.PWR_PWR_TJ_TJ : Fld := ⟨0x4, false, 0x114, 0, 12, 4⟩
/-- R432 -/
def Fld.PWR_PWR_TJ_SENSOR : Fld := ⟨0x4, false, 0x114, 12, 7, 4⟩
/-- R432 -/
def Fld.PWR_PWR_POWER_AVG : Fld := ⟨0x4, false, 0x118, 0, 14, 4⟩
/-- R432 -/
def Fld.PWR_PWR_POWER_TH_CAP : Fld := ⟨0x4, false, 0x118, 16, 10, 4⟩
/-- R432 -/
def Fld.PWR_PWR_ENERGY_COUNT : Fld := ⟨0x4, false, 0x120, 0, 64, 4⟩
/-- R432 -/
def Fld.PWR_EPI_PTR_WPTR : Fld := ⟨0x4, false, 0x128, 0, 8, 4⟩
/-- R432 -/
def Fld.PWR_EPI_LOST_COUNT : Fld := ⟨0x4, false, 0x12c, 0, 32, 4⟩
/-- R432 -/
def Fld.PWR_THR_TIME_COUNT : Fld := ⟨0x4, false, 0x130, 0, 64, 8⟩
/-- R432 -/
def Fld.PWR_FILLER_CK_COUNT : Fld := ⟨0x4, false, 0x188, 0, 64, 4⟩
/-- R432 -/
def Fld.PWR_EPI : Fld := ⟨0x4, false, 0x2000, 0, 32, 4⟩
/-- R433 -/
def Fld.PWR_RAIL_LIM_A_LIM_1US : Fld := ⟨0x4, true, 0x0, 0, 16, 4⟩
/-- R433 -/
def Fld.PWR_RAIL_LIM_A_LIM_10US : Fld := ⟨0x4, true, 0x0, 16, 16, 4⟩
/-- R433 -/
def Fld.PWR_RAIL_LIM_B_LIM_100US : Fld := ⟨0x4, true, 0x4, 0, 16, 4⟩
/-- R433 -/
def Fld.PWR_RAIL_MEAS_I_1US : Fld := ⟨0x4, true, 0x8, 0, 16, 4⟩
/-- R433 -/
def Fld.PWR_RAIL_MEAS_MV : Fld := ⟨0x4, true, 0x8, 16, 16, 4⟩
/-- R433 -/
def Fld.PWR_RAIL_PEAK_I_PEAK : Fld := ⟨0x4, true, 0xc, 0, 16, 4⟩
/-- R433 -/
def Fld.PWR_RAIL_OVER_COUNT : Fld := ⟨0x4, true, 0x10, 0, 32, 4⟩
/-- R455 -/
def Fld.ERR_PAGE_EVENT_FN_OVERWRITE : Fld := ⟨0x5, false, 0x14, 0, 1, 4⟩
/-- R455 -/
def Fld.ERR_PAGE_EVENT_UE_SEEN : Fld := ⟨0x5, false, 0x14, 1, 1, 4⟩
/-- R455 -/
def Fld.ERR_PAGE_EVENT_DIE_FATAL : Fld := ⟨0x5, false, 0x14, 2, 1, 4⟩
/-- R455 -/
def Fld.ERR_FN_CFG_FWD : Fld := ⟨0x5, false, 0x100, 0, 1, 4⟩
/-- R455 -/
def Fld.ERR_FN_CFG_CE_COALESCE : Fld := ⟨0x5, false, 0x100, 8, 8, 4⟩
/-- R455 -/
def Fld.ERR_FN_WPTR_COUNT : Fld := ⟨0x5, false, 0x104, 0, 32, 4⟩
/-- R455 -/
def Fld.ERR_FN_RPTR_COUNT : Fld := ⟨0x5, false, 0x108, 0, 32, 4⟩
/-- R455 -/
def Fld.ERR_FN_LOST_COUNT : Fld := ⟨0x5, false, 0x10c, 0, 32, 4⟩
/-- R455 -/
def Fld.ERR_ERR_FATAL_FATAL : Fld := ⟨0x5, false, 0x110, 0, 1, 4⟩
/-- R455 -/
def Fld.ERR_ERR_FATAL_UNIT : Fld := ⟨0x5, false, 0x110, 4, 4, 4⟩
/-- R455 -/
def Fld.ERR_ERR_UNPOP_COUNT : Fld := ⟨0x5, false, 0x114, 0, 32, 4⟩
/-- R455 -/
def Fld.ERR_ERR_ERSP_RX_COUNT : Fld := ⟨0x5, false, 0x118, 0, 32, 4⟩
/-- R455 -/
def Fld.ERR_ERR_ENOTE_RX_COUNT : Fld := ⟨0x5, false, 0x11c, 0, 32, 4⟩
/-- R455 -/
def Fld.ERR_FN : Fld := ⟨0x5, false, 0x2000, 0, 32, 4⟩
/-- R456 -/
def Fld.SEC_PAGE_EVENT_QUOTE_DONE : Fld := ⟨0x6, false, 0x14, 0, 1, 4⟩
/-- R456 -/
def Fld.SEC_PAGE_EVENT_QUOTE_REFUSED : Fld := ⟨0x6, false, 0x14, 1, 1, 4⟩
/-- R456 -/
def Fld.SEC_PAGE_EVENT_UNLOCKED : Fld := ⟨0x6, false, 0x14, 2, 1, 4⟩
/-- R456 -/
def Fld.SEC_PAGE_EVENT_UNLOCK_REFUSED : Fld := ⟨0x6, false, 0x14, 3, 1, 4⟩
/-- R456 -/
def Fld.SEC_SEC_STATE_DBG_MODE : Fld := ⟨0x6, false, 0x100, 0, 2, 4⟩
/-- R456 -/
def Fld.SEC_SEC_STATE_UNLOCKED : Fld := ⟨0x6, false, 0x100, 2, 1, 4⟩
/-- R456 -/
def Fld.SEC_SEC_STATE_QUOTE_BUSY : Fld := ⟨0x6, false, 0x100, 3, 1, 4⟩
/-- R456 -/
def Fld.SEC_SEC_HOSTMASK_PAGES : Fld := ⟨0x6, false, 0x104, 0, 14, 4⟩
/-- R456 -/
def Fld.SEC_SEC_HOSTMASK_CLUSTER : Fld := ⟨0x6, false, 0x104, 14, 1, 4⟩
/-- R456 -/
def Fld.SEC_SEC_HOSTMASK_CORE : Fld := ⟨0x6, false, 0x104, 15, 1, 4⟩
/-- R456 -/
def Fld.SEC_SEC_HOSTMASK_LNK_PTR_RTE : Fld := ⟨0x6, false, 0x104, 16, 3, 4⟩
/-- R456 -/
def Fld.SEC_QUOTE_CTL_REQ : Fld := ⟨0x6, false, 0x108, 0, 1, 4⟩
/-- R456 -/
def Fld.SEC_MEAS_CTL_INDEX : Fld := ⟨0x6, false, 0x10c, 0, 3, 4⟩
/-- R456 -/
def Fld.SEC_MEAS_CTL_EXTEND : Fld := ⟨0x6, false, 0x10c, 3, 1, 4⟩
/-- R456 -/
def Fld.SEC_MEAS : Fld := ⟨0x6, false, 0x1000, 0, 32, 4⟩
/-- R456 -/
def Fld.SEC_QUOTE_NONCE : Fld := ⟨0x6, false, 0x1200, 0, 32, 4⟩
/-- R456 -/
def Fld.SEC_MEAS_DATA : Fld := ⟨0x6, false, 0x1300, 0, 32, 4⟩
/-- R456 -/
def Fld.SEC_QUOTE : Fld := ⟨0x6, false, 0x1400, 0, 32, 4⟩
/-- R456 -/
def Fld.SEC_IDKEY_PUB : Fld := ⟨0x6, false, 0x1800, 0, 32, 4⟩
/-- R457 -/
def Fld.MBX_PAGE_EVENT_MB_POSTED : Fld := ⟨0x7, false, 0x14, 0, 1, 4⟩
/-- R457 -/
def Fld.MBX_PAGE_EVENT_MB_BUSY : Fld := ⟨0x7, false, 0x14, 1, 1, 4⟩
/-- R457 -/
def Fld.MBX_PAGE_EVENT_SVY_RESTART : Fld := ⟨0x7, false, 0x14, 2, 1, 4⟩
/-- R457 -/
def Fld.MBX_PAGE_EVENT_SVY_HALT : Fld := ⟨0x7, false, 0x14, 3, 1, 4⟩
/-- R457 -/
def Fld.MBX_PAGE_EVENT_LOAD_LEVEL : Fld := ⟨0x7, false, 0x14, 4, 1, 4⟩
/-- R457 -/
def Fld.MBX_SVY_STATE_STATE : Fld := ⟨0x7, false, 0x100, 0, 2, 4⟩
/-- R457 -/
def Fld.MBX_SVY_STATE_LEVEL : Fld := ⟨0x7, false, 0x100, 2, 2, 4⟩
/-- R457 -/
def Fld.MBX_SVY_STATE_LOAD : Fld := ⟨0x7, false, 0x100, 8, 7, 4⟩
/-- R457 -/
def Fld.MBX_SVY_RESTARTS_COUNT : Fld := ⟨0x7, false, 0x104, 0, 16, 4⟩
/-- R457 -/
def Fld.MBX_WDT_KICK_KICK : Fld := ⟨0x7, false, 0x108, 0, 8, 4⟩
/-- R457 -/
def Fld.MBX_MIR_SEQ0_SEQ : Fld := ⟨0x7, false, 0x200, 0, 32, 4⟩
/-- R457 -/
def Fld.MBX_Mirror_VALUE : Fld := ⟨0x7, false, 0x204, 0, 32, 4⟩
/-- R457 -/
def Fld.MBX_MIR_LNK_UP_VALUE : Fld := ⟨0x7, false, 0x220, 0, 64, 4⟩
/-- R457 -/
def Fld.MBX_MIR_HOLES_VALUE : Fld := ⟨0x7, false, 0x228, 0, 64, 4⟩
/-- R457 -/
def Fld.MBX_MIR_SEQ1_SEQ : Fld := ⟨0x7, false, 0x23c, 0, 32, 4⟩
/-- R457 -/
def Fld.MBX_MB_STATE_STATE : Fld := ⟨0x7, true, 0x0, 0, 3, 4⟩
/-- R457 -/
def Fld.MBX_MB_STATE_OWNER : Fld := ⟨0x7, true, 0x0, 4, 2, 4⟩
/-- R457 -/
def Fld.MBX_MB_STATE_DOMAIN : Fld := ⟨0x7, true, 0x0, 8, 8, 4⟩
/-- R457 -/
def Fld.MBX_MB_STATE_REQ_LEN : Fld := ⟨0x7, true, 0x0, 16, 9, 4⟩
/-- R457 -/
def Fld.MBX_MB_STATE_LAST_POST : Fld := ⟨0x7, true, 0x0, 25, 2, 4⟩
/-- R457 -/
def Fld.MBX_MB_RSP_INFO_RSP_LEN : Fld := ⟨0x7, true, 0x4, 0, 9, 4⟩
/-- R457 -/
def Fld.MBX_MB_RSP_INFO_RSP_STATUS : Fld := ⟨0x7, true, 0x4, 9, 2, 4⟩
/-- R457 -/
def Fld.MBX_MB_CTL_POST : Fld := ⟨0x7, true, 0x8, 0, 1, 4⟩
/-- R457 -/
def Fld.MBX_MB_CTL_RELEASE : Fld := ⟨0x7, true, 0x8, 1, 1, 4⟩
/-- R457 -/
def Fld.MBX_MB_CTL_TAKE : Fld := ⟨0x7, true, 0x8, 2, 1, 4⟩
/-- R457 -/
def Fld.MBX_MB_CTL_REPLY : Fld := ⟨0x7, true, 0x8, 3, 1, 4⟩
/-- R457 -/
def Fld.MBX_MB_CTL_LEN : Fld := ⟨0x7, true, 0x8, 16, 9, 4⟩
/-- R457 -/
def Fld.MBX_MB_REQ : Fld := ⟨0x7, true, 0x100, 0, 32, 4⟩
/-- R457 -/
def Fld.MBX_MB_RSP : Fld := ⟨0x7, true, 0x200, 0, 32, 4⟩
/-- R458 -/
def Fld.DBG_DBG_CTL_SUBMIT : Fld := ⟨0xd, false, 0x100, 0, 1, 4⟩
/-- R458 -/
def Fld.DBG_DBG_CTL_MA_READ : Fld := ⟨0xd, false, 0x100, 1, 1, 4⟩
/-- R458 -/
def Fld.DBG_DBG_CTL_MA_WRITE : Fld := ⟨0xd, false, 0x100, 2, 1, 4⟩
/-- R458 -/
def Fld.DBG_DBG_STATUS_UNLOCK_CODE : Fld := ⟨0xd, false, 0x104, 0, 3, 4⟩
/-- R458 -/
def Fld.DBG_DBG_STATUS_MA_BUSY : Fld := ⟨0xd, false, 0x104, 3, 1, 4⟩
/-- R458 -/
def Fld.DBG_DBG_STATUS_MA_STATUS : Fld := ⟨0xd, false, 0x104, 8, 8, 4⟩
/-- R458 -/
def Fld.DBG_DBG_MA_ADDR_ADDR : Fld := ⟨0xd, false, 0x108, 0, 64, 4⟩
/-- R458 -/
def Fld.DBG_DBG_CHAL : Fld := ⟨0xd, false, 0x1000, 0, 32, 4⟩
/-- R458 -/
def Fld.DBG_DBG_PUB : Fld := ⟨0xd, false, 0x1100, 0, 32, 4⟩
/-- R458 -/
def Fld.DBG_DBG_TOKEN : Fld := ⟨0xd, false, 0x1200, 0, 32, 4⟩
/-- R458 -/
def Fld.DBG_DBG_MA_DATA : Fld := ⟨0xd, false, 0x1300, 0, 32, 4⟩
/-- R479 -/
def Fld.CLK_PAGE_EVENT_REF_GLITCH : Fld := ⟨0x3, false, 0x14, 0, 1, 4⟩
/-- R479 -/
def Fld.CLK_PAGE_EVENT_SECOND_REF : Fld := ⟨0x3, false, 0x14, 1, 1, 4⟩
/-- R479 -/
def Fld.CLK_CLK_STATUS_SOURCE : Fld := ⟨0x3, false, 0x100, 0, 1, 4⟩
/-- R479 -/
def Fld.CLK_CLK_STATUS_SECOND_REF_SEEN : Fld := ⟨0x3, false, 0x100, 1, 1, 4⟩
/-- R479 -/
def Fld.CLK_CLK_STATUS_XTAL_OK : Fld := ⟨0x3, false, 0x100, 2, 1, 4⟩
/-- R479 -/
def Fld.CLK_CLK_STATUS_ISL_LOCK : Fld := ⟨0x3, false, 0x100, 8, 6, 4⟩
/-- R479 -/
def Fld.CLK_CLK_AON_REF_LOST : Fld := ⟨0x3, false, 0x104, 0, 1, 4⟩
/-- R479 -/
def Fld.CLK_CLK_AON_PLL_LOST : Fld := ⟨0x3, false, 0x104, 1, 1, 4⟩
/-- R479 -/
def Fld.CLK_CLK_AON_DATUM_EN : Fld := ⟨0x3, false, 0x104, 2, 1, 4⟩
/-- R479 -/
def Fld.CLK_CLK_AON_CFG_MASTER : Fld := ⟨0x3, false, 0x104, 3, 1, 4⟩
/-- R479 -/
def Fld.CLK_CLK_AON_DIEPOS : Fld := ⟨0x3, false, 0x104, 4, 4, 4⟩
/-- R479 -/
def Fld.CLK_CLK_GLITCHES_COUNT : Fld := ⟨0x3, false, 0x108, 0, 32, 4⟩
/-- R479 -/
def Fld.CLK_CLK_FREQ_MHZ : Fld := ⟨0x3, false, 0x10c, 0, 12, 4⟩
/-- R479 -/
def Fld.CLK_CLK_TIME_COUNT : Fld := ⟨0x3, false, 0x110, 0, 64, 4⟩

end Sys2Proof.Machine
end

