-- ==== Sys2Proof/Machine/Tbl.lean ====
section
/-! DEFINITION. Sparse tables (registers, memories, per-unit state) in one canonical form: keys strictly rising and
no entry equal to what an unlisted key reads as, so that equal tables are equal data. -/

namespace Sys2Proof.Machine

/-- The value at key `k`: the listed one, or the default `d k`. -/
def tget {α : Type} (d : Nat → α) (k : Nat) : Tbl α → α
  | [] => d k
  | (j, v) :: t => if j = k then v else tget d k t

/-- Whether key `k` is listed. -/
def thas {α : Type} (k : Nat) : Tbl α → Bool
  | [] => false
  | (j, _) :: t => j == k || thas k t

/-- Enter `v` at key `k`, keeping the keys rising. -/
def tins {α : Type} (k : Nat) (v : α) : Tbl α → Tbl α
  | [] => [(k, v)]
  | (j, w) :: t => if k < j then (k, v) :: (j, w) :: t else if j = k then (k, v) :: t else (j, w) :: tins k v t

/-- Remove key `k`. -/
def tdel {α : Type} (k : Nat) : Tbl α → Tbl α
  | [] => []
  | (j, w) :: t => if j = k then tdel k t else (j, w) :: tdel k t

/-- Write `v` at key `k`: a default value is not listed. -/
def tset {α : Type} [DecidableEq α] (d : Nat → α) (k : Nat) (v : α) (t : Tbl α) : Tbl α :=
  if v = d k then tdel k t else tins k v t

/-- Keep the listed entries whose key satisfies `p`; the others read as the default again. -/
def tkeep {α : Type} (p : Nat → Bool) (t : Tbl α) : Tbl α := t.filter (fun e => p e.1)

/-- The canonical form: keys strictly rising from `lo`, no entry at its default. -/
def twfFrom {α : Type} [DecidableEq α] (d : Nat → α) (lo : Nat) : Tbl α → Bool
  | [] => true
  | (j, v) :: t => decide (lo ≤ j) && !(decide (v = d j)) && twfFrom d (j + 1) t

/-- The canonical form of a table whose unlisted keys read as `d`. -/
def twf {α : Type} [DecidableEq α] (d : Nat → α) (t : Tbl α) : Bool := twfFrom d 0 t

end Sys2Proof.Machine
end

