-- ==== Sys2Proof/Machine/State.lean ====
section
/-! DEFINITION. The state of the die as plain data, the reasons a command can stop, and the state at reset. Every
register of the control pages has its one home in `State.regs`; state that the spec gives the die beside its
registers (queued commands, memories, sequencers, link buffers, units in progress) has a field of its own. -/

namespace Sys2Proof.Machine

/-- Why a command stops the machine. -/
inductive Fault where
  /-- Raised by a command whose operand names no unit of this die (a core above 63, a module above 39, and so on):
  no such command can reach the die. Safe: the model stops where the hardware has nothing to do. -/
  | noSuchUnit (kind : String) (index : Nat)
  deriving DecidableEq, Repr

/-- Why a command has no meaning. -/
inductive Refusal where
  /-- Raised by the dispatch of a row that the model does not give a meaning yet. Safe: the model stops. -/
  | notModelled (mnemonic : String)
  deriving DecidableEq, Repr

/-- The key of a register word: its page, 0 for a page register or the window instance plus 1, and its offset. -/
def regKey (page inst off : Nat) : Nat := page * 2 ^ 32 + inst * 2 ^ 14 + off

/-- The block of a page by its first page number (R68). -/
def blkOf (page : Nat) : Nat :=
  if 0x10 ≤ page ∧ page ≤ 0x17 then 0x10 else if 0x40 ≤ page ∧ page ≤ 0x7F then 0x40 else page

/-- The register word of the map that covers offset `off` of a block's page or window. -/
def regWord (blk : Nat) (win : Bool) (off : Nat) : Option RegW :=
  (regsOf blk win).find? (fun w => w.off ≤ off && (off - w.off) % w.stride == 0 && (off - w.off) / w.stride < w.cnt)

/-- The limit of a rail, which every window's limit resets to (R433). -/
def railLimReset : Nat → Nat
  | 0 => 0x44C0
  | 1 => 0x0FA0
  | 2 => 0x0500
  | 3 => 0x0020
  | _ => 0x0010

/-- What a register word that nothing has written reads as: its reset value (R50, R432, R433 and the block tables). -/
def regReset (key : Nat) : BitVec 32 :=
  let page := key / 2 ^ 32
  let inst := key / 2 ^ 14 % 2 ^ 18
  let off := key % 2 ^ 14
  if off < 0x100 ∧ inst = 0 then (if off = 0x1C then 0xA2#32 else 0#32)
  else if page = 4 ∧ inst ≠ 0 ∧ off ≤ 4 then BitVec.ofNat 32 (railLimReset (inst - 1) * (if off = 0 then 65537 else 1))
  else match regWord (blkOf page) (inst != 0) off with
    | some w => BitVec.ofNat 32 w.rst
    | none => 0#32

/-- A staged word: the value and the bits that have been written since the last COMMIT or DISCARD (R58, R59). -/
structure Staged where
  val : BitVec 32
  mask : BitVec 32
  deriving DecidableEq, Repr

/-- The completion of the last control access: its code as `CRSP` codes it (R364) and the data of a read. -/
structure CtlRsp where
  code : Nat
  data : Nat
  deriving DecidableEq, Repr

/-- A record of the field notes before it is stamped: its kind, the bytes 0-2 and 4-39 as a run of 40 bytes whose
byte 3 the kind replaces, and the bytes 48-55 (R439). -/
structure Note where
  kind : Nat
  body : Bytes
  tail : Bytes
  deriving DecidableEq, Repr

/-- An event record that waits for its queue (R297, R298): its status, byte 2, byte 3, bytes 8-15, station number, and
the queue it goes to. -/
structure EvRec where
  queue : Nat
  status : Nat
  detail : Nat
  member : Nat
  info : Nat
  station : Nat
  deriving DecidableEq, Repr

/-- A host event message that waits to leave (R483): its 12 payload bytes from byte 0. -/
structure HostMsg where
  payload : Bytes
  deriving DecidableEq, Repr

/-- The fuse groups (R385), as data of this die: whether a group is uncorrectable, the identity group, the options
group, the trims (VCORE by operating point, PLL, thermal sensor and SRAM assist), the image key hashes with their revoke bits, the
monument record and the fuse plat. -/
structure Fuses where
  bad : Bool
  identity : Bytes
  options : Bytes
  serial : Nat
  dbgMode : Nat
  written : Bool
  opCeil : Nat
  vcore : List Nat
  pllTrim : Nat
  thermTrim : Nat
  sramTrim : Nat
  dbgKeyHash : Bytes
  keyHash0 : Bytes
  keyHash1 : Bytes
  revoke0 : Bool
  revoke1 : Bool
  idScalar : Nat
  idPub : Bytes
  idKeyHash : Bytes
  plat : List (BitVec 32)
  deriving DecidableEq, Repr

/-- A write record of the image (R396). -/
structure WrRec where
  page : Nat
  off : Nat
  inst : Nat
  op : Nat
  rsv : Bool
  value : Nat
  deriving DecidableEq, Repr

/-- One packet of a module that the partner has not acknowledged yet, with the sequence number of its last flit. -/
structure Unacked where
  pkt : Packet
  key : Nat
  seq : Nat
  deriving DecidableEq, Repr

/-- A flit in the replay buffer (R360): its sequence number, its 256 bytes, how often it has been resent, whether it has been
sent at all (R377), and whether it carries traffic of VCs 0-4 (R418). -/
structure TxFlit where
  seq : Nat
  bytes : Bytes
  resent : Nat
  sent : Bool
  bulk : Bool
  deriving DecidableEq, Repr

/-- A queued packet with the key it was routed by (R372). -/
structure Queued where
  pkt : Packet
  key : Nat
  deriving DecidableEq, Repr

/-- What a module sends on its sideband (R348, R352, R353): its feature record; its closure record, with its lane map, proposed rate,
width and lane set, `MIN_WIDTH` and `RESET_COUNT`; or the answer of a quarantined module. -/
inductive Sideband where
  | feature (record : BitVec 512)
  | closure (map rate width set minWidth resets : Nat)
  | quarantined
  deriving DecidableEq, Repr

/-- What a link module holds beside its registers (R348-R377): the queued packets; the bytes of the packet being sent and that
packet; the replay buffer with the next flit to send again; packets whose last flit is not acknowledged; the last VC of
the round-robin (R368); the next sequence number, and how many flits the stream has sent, up to 2,048; credits held, advertised and to be returned, by VC · 8 + class; the
receiving side; the last flit sent; the times of CRC errors and violations; training: consecutive mismatches, whether
one record was malformed, boot link, the partner's `MAX_RATE` and nonce, rates still to try and the proposal; the next
chunk that the partner asked for, with the tag of its request (R392); when the state was entered; whether the module is held; whether a
flit has been received in order since the streams began; the flit slot of 16 (R418); and what it last sent on its sideband. -/
structure ModSt where
  queue : List Queued
  stream : Bytes
  packing : List Unacked
  replay : List TxFlit
  resend : Option Nat
  unacked : List Unacked
  rr : Nat
  txSeq : Nat
  txDone : Nat
  txCred : Tbl Nat
  advert : List Nat
  retCred : Tbl Nat
  rxSeq : Nat
  rxSkip : Bool
  rxBuf : Bytes
  rxHeld : Tbl Nat
  nakOwed : Bool
  nakSent : Bool
  ackOwed : Nat
  lastTx : Bytes
  crcTimes : List Nat
  violTimes : List Nat
  mismatch : Nat
  malformed : Bool
  boot : Bool
  peerRate : Nat
  peerNonce : Nat
  rates : List Nat
  propRate : Nat
  propWidth : Nat
  propSet : Nat
  askedChunk : Option (Nat × Nat)
  entered : Nat
  held : Bool
  rxAny : Bool
  slot : Nat
  sideband : Option Sideband
  deriving DecidableEq, Repr

/-- A module that has trained with no partner yet. -/
def ModSt.init : ModSt :=
  { queue := [], stream := [], packing := [], replay := [], resend := none, unacked := [], rr := 0, txSeq := 0, txDone := 0, txCred := [], advert := []
    retCred := [], rxSeq := 0, rxSkip := false, rxBuf := [], rxHeld := [], nakOwed := false, nakSent := false, ackOwed := 0, lastTx := []
    crcTimes := [], violTimes := [], mismatch := 0, malformed := false, boot := false, peerRate := 0, peerNonce := 0, rates := []
    propRate := 0, propWidth := 0, propSet := 0, askedChunk := none, entered := 0, held := false, rxAny := false, slot := 0, sideband := none }

/-- Who waits for the reply of a request that this die sent on a link (R374). -/
inductive ReqOwner where
  /-- Move engine `engine` (0-15 cluster, 16-31 die), for the descriptor in move slot `slot` (R250). -/
  | move (slot : Nat)
  /-- The loader, for the image stream on module `m` (R392). -/
  | image (m : Nat)
  /-- The MAP that waits for its FRAME_CODE acknowledgements (R270). -/
  | frameCode (slot : Nat)
  /-- The producer end of a stage queue (R339). -/
  | stage (q : Nat)
  /-- The walk for this domain and virtual page number (R265). -/
  | walk (dom vpn : Nat)
  /-- The zero writes of a frame: before its first write (R271), or by the scrubber (R272). -/
  | zero (frame : Nat)
  /-- The memory access of the DBG page (R452). -/
  | debug
  deriving DecidableEq, Repr

/-- A request of this die that waits for its reply (R374) until `due`, once it has been sent: the `REQ_TIMEOUT` in force when it was
sent stands (R380). -/
structure Req where
  tag : Nat
  pkt : Packet
  owner : ReqOwner
  due : Option Nat
  deriving DecidableEq, Repr

/-- A packet that waits to be given a module: its route entry and its key (R372, R373). -/
structure Waiting where
  entry : Nat
  key : Nat
  pkt : Packet
  deriving DecidableEq, Repr

/-- The most recent correctable memory error record (R439): its number, the protection unit it names and its time. -/
structure LastCe where
  recNo : Nat
  unit : Nat
  loc : Nat
  off : Nat
  time : Nat
  deriving DecidableEq, Repr

/-- A decoded instruction in a unit queue (R72): its sequence number and its 128 bits, a handle address already
replaced (R291). -/
structure Dec where
  seq : Nat
  word : Nat
  deriving DecidableEq, Repr

/-- One level of LOOP (R76): the body's first address, the address after its end, and the repetitions left. -/
structure LoopEnt where
  start : Nat
  stop : Nat
  left : Nat
  deriving DecidableEq, Repr

/-- An operand half (R87): its state code, and the format, reduction length and records it holds. -/
structure Half where
  state : Nat
  fmt : Nat
  k : Nat
  recs : List Bytes
  deriving DecidableEq, Repr

/-- An accumulator set, or a parcel slot of split mode (R93, R103): its state code, the pass it holds (mode, descriptor
index and contents, shape, masks, origin), its containers (R152) as (128·i + j, container) for each enabled element, the counts of R156, what the
pass record held at the fill, and the MMAs that opened and closed it. -/
structure AccSet where
  state : Nat
  mode : Nat
  b64 : Bool
  pd : Nat
  desc : Nat
  mM1 : Nat
  nM1 : Nat
  maskSel : Nat
  rows : Nat
  cols : Nat
  orgM : Nat
  orgN : Nat
  kblk : Nat
  acc : List (Nat × Nat)
  groupAdds : Nat
  products : Nat
  hdrAdds : Nat
  hdrProducts : Nat
  hdr : Bytes
  resumed : Bool
  lapsed : Bool
  ovf : Bool
  claimSeq : Option Nat
  closeSeq : Option Nat
  feeding : Bool
  feedWt : Option Nat
  order : Nat
  deriving DecidableEq, Repr

/-- A set that holds nothing. -/
def AccSet.idle : AccSet :=
  { state := 0, mode := 0, b64 := false, pd := 0, desc := 0, mM1 := 0, nM1 := 0, maskSel := 0, rows := 0, cols := 0, orgM := 0,
    orgN := 0, kblk := 0, acc := [], groupAdds := 0, products := 0, hdrAdds := 0, hdrProducts := 0, hdr := [], resumed := false,
    lapsed := false, ovf := false, claimSeq := none, closeSeq := none, feeding := false, feedWt := none, order := 0 }

/-- The epilogue of a parcel in a final drain (R201-R205): its set, its closing MMA, the parcel's descriptor and shape,
whether its first instruction may issue yet, the next instruction, and the drain elements not yet taken. -/
structure Epi where
  set : Nat
  seq : Nat
  desc : Nat
  pc : Nat
  rows : Nat
  cols : Nat
  orgM : Nat
  orgN : Nat
  started : Bool
  ip : Nat
  taken : Nat
  deriving DecidableEq, Repr

/-- What a logical core holds beside its page's registers (R70, R177). `run` is 0 with no kernel, 1 while one runs, 2
when the core has executed END, 3 when it was stopped. -/
structure CoreSt where
  run : Nat
  test : Bool
  gang : Nat
  member : Nat
  dom : Nat
  lastDom : Option Nat
  queue : Nat
  kinst : Nat
  step : Nat
  seed : Nat
  trap : Bool
  spill : Nat
  codeBase : Nat
  codeLen : Nat
  pc : Nat
  nextSeq : Nat
  handles : Tbl (Nat × Nat)
  loops : List LoopEnt
  cur : Option Dec
  mq : List Dec
  lq : List Dec
  aq : List Dec
  vq : List Dec
  tq : List Dec
  mvCnt : List Nat
  tvCnt : List Nat
  barriers : List Nat
  waiting : Option Nat
  halves : Tbl Half
  loading : List Nat
  sets : Tbl AccSet
  closes : Nat
  pd : Tbl Nat
  mr : Tbl (Nat × Nat)
  wt : Tbl Nat
  vregs : Tbl (BitVec 32)
  preds : Tbl Nat
  epiPc : Option Nat
  epiCode : List Nat
  epis : List Epi
  nsw : Nat
  deriving DecidableEq, Repr

/-- A core at reset. -/
def CoreSt.init : CoreSt :=
  { run := 0, test := false, gang := 0, member := 0, dom := 0, lastDom := none, queue := 0, kinst := 0, step := 0, seed := 0,
    trap := false, spill := 0, codeBase := 0, codeLen := 0, pc := 0, nextSeq := 0, handles := [], loops := [], cur := none,
    mq := [], lq := [], aq := [], vq := [], tq := [], mvCnt := List.replicate 16 0, tvCnt := List.replicate 4 0,
    barriers := List.replicate 16 0, waiting := none, halves := [], loading := [], sets := [], closes := 0, pd := [],
    mr := [], wt := [], vregs := [], preds := [], epiPc := none, epiCode := [], epis := [], nsw := 0 }

/-- A scale that a kernel instance holds for a slot and an MX target (R134). -/
structure HeldScale where
  gang : Nat
  slot : Nat
  target : Nat
  scale : Nat
  deriving DecidableEq, Repr

/-- How a gang ends before every member has executed END (R293): the status of its record (R298), the detail, the member
and the sequence number of the fault. -/
structure Stop where
  status : Nat
  detail : Nat
  member : Nat
  seq : Nat
  deriving DecidableEq, Repr

/-- A running kernel (R287-R293): its number in this model, queue and ring index, member cores in order, domain, kernel
instance, the work item's fields, its gang-lifetime regions as (unit, head granule), the bytes that a replay group member
may write as (address, length) (R303), when it started, its time limit in 10 ns periods (0 for none), the replay level
and attempt, and why it stops. -/
structure Gang where
  gid : Nat
  queue : Nat
  ring : Nat
  members : List Nat
  dom : Nat
  kinst : Nat
  step : Nat
  arg : Nat
  group : Bool
  level : Nat
  regions : List (Nat × Nat)
  writable : List (Nat × Nat)
  started : Nat
  limit : Nat
  sigAdd : Option Nat
  stop : Option Stop
  deriving DecidableEq, Repr

/-- A pool frame (R258): its state code, and whether it is mapped or hardware-owned. -/
structure Frame where
  code : Nat
  mapped : Bool
  deriving DecidableEq, Repr

/-- A mapped page (R261): its size code (0 4 KiB, 1 64 KiB, 2 2 MiB; 3 for no page), first frame, `WRITE`, `CLASS`, and
whether it translates yet (R364: not before every FCACK of its MAP). -/
structure Page where
  size : Nat
  frame : Nat
  write : Bool
  cls : Nat
  live : Bool
  deriving DecidableEq, Repr

/-- No page. -/
def Page.none : Page := { size := 3, frame := 0, write := false, cls := 0, live := false }

/-- A walk in progress (R264, R265): domain, virtual page number of 4 KiB, the cluster TLBs it will fill (8 for a die
requester), the tables it still reads, first the one under way with the tag of its request, and the table whose read failed, with the
status. -/
structure Walk where
  dom : Nat
  vpn : Nat
  cls : List Nat
  reads : List Nat
  tag : Option Nat
  bad : Option (Nat × Nat)
  deriving DecidableEq, Repr

/-- What dispatch accesses stack memory for (R280, R283, R285, R289, R295, R297): a queue's next work item, its request list, a
descriptor of an item's list, the record being written to a queue's completion ring, or the ring entry of a core's QPOST. -/
inductive VUse where
  | item (q : Nat)
  | reqs (q : Nat)
  | list (q serial pos : Nat)
  | record (q : Nat)
  | post (c seq : Nat)
  deriving DecidableEq, Repr

/-- Who submitted a move descriptor (R246, R248): a core's MOVE with its counter, sequence number and gang, item `pos`
of the list of work item `serial` of a queue (R285, R304), or dispatch for an access of its own. -/
inductive MoveOwner where
  | core (n ctr seq gang : Nat)
  | item (queue serial pos : Nat)
  | dispatch (u : VUse)
  deriving DecidableEq, Repr

/-- What a started descriptor waits for. -/
inductive MoveWait where
  | run
  /-- A walk for this virtual address (R264). -/
  | walk (va : Nat)
  /-- The zero write of a PENDING frame (R271), for an access at this offset of it. -/
  | zero (frame off : Nat)
  /-- The reply to the request with this tag (R367). -/
  | reply (tag : Nat)
  /-- The FCACKs of a weight-class MAP (R270), and the status of a command that got none. -/
  | codes (left bad : Nat)
  /-- The accesses in flight of an UNMAP (R267). -/
  | drain
  deriving DecidableEq, Repr

/-- A descriptor that an engine holds (R246-R254): its 512 bits, domain, submitter, stream, submission order, status once
it has ended, whether it has started, its position (row, byte, bytes read but not yet written), what it waits for, the
outcome of the last walk it waited for as (page, status), what the translation of the access that waits for a walk said when the access
was accepted, as (status, frame, offset) (R263), the page keys of its MAP, the frames of its UNMAP or the pages
that its TOUCH still walks, whether its domain is being torn down, and the bytes of an access of dispatch: those it writes, or those it
has read. -/
structure MoveJob where
  w : Nat
  dom : Nat
  owner : MoveOwner
  stream : Nat
  order : Nat
  status : Option Nat
  started : Bool
  row : Nat
  off : Nat
  got : Bytes
  wait : MoveWait
  walked : Option (Nat × Nat)
  xlat : Option (Nat × Nat × Nat)
  held : List Nat
  dead : Bool
  data : Bytes
  deriving DecidableEq, Repr

/-- No descriptor. -/
def MoveJob.none : MoveJob :=
  { w := 0, dom := 0, owner := .item 0 0 0, stream := 0, order := 0, status := Option.none, started := false, row := 0, off := 0, got := [],
    wait := .run, walked := Option.none, xlat := Option.none, held := [], dead := false, data := [] }

/-- The zero writes of a frame under way (R271, R272): the move slots that wait for them, in order of arrival, the requests without
an acknowledgement, the first status that was not OK, whether the scrubber writes them, and, once they are done, the slot whose first write
is being performed. -/
structure ZeroSt where
  frame : Nat
  waiters : List Nat
  left : Nat
  status : Nat
  scrub : Bool
  first : Option Nat
  deriving DecidableEq, Repr

/-- A contributor of a round (R320): member number, core, the TRAV's sequence number and counter, and its descriptor. -/
structure Contrib where
  member : Nat
  core : Nat
  seq : Nat
  ctr : Nat
  desc : Nat
  deriving DecidableEq, Repr

/-- A received segment that waits in the chain buffer to be sent on (R326): buffer slot, phase, shard, element offset, bytes. -/
structure InSeg where
  slot : Nat
  phase : Nat
  shard : Nat
  off : Nat
  len : Nat
  deriving DecidableEq, Repr

/-- A round of a chain (R314-R331): the kernel it is bound to, its contributors, whether it has started, the shard lengths
of its tables and its position map; the segments held in the buffer; how many segments of each phase have been sent and
received, sent to each position (PERMUTE), sent and acknowledged in all; the final codes of this die's shard; elements
received (PERMUTE); the step and element offset that a ring pass sends and receives next, the steps it has granted, and
the values of its signal counters at the start; and the time of its last progress. -/
structure Round where
  gang : Nat
  contribs : List Contrib
  started : Bool
  shards : List Nat
  olds : List Nat
  posmap : List Nat
  held : List InSeg
  sentR : Nat
  sentG : Nat
  gotR : Nat
  gotG : Nat
  sentTo : Tbl Nat
  sent : Nat
  acked : Nat
  results : List Nat
  permGot : Nat
  sStep : Nat
  sOff : Nat
  rStep : Nat
  rOff : Nat
  gStep : Nat
  arr0 : Nat
  rel0 : Nat
  progress : Nat
  deriving DecidableEq, Repr

/-- What a chain has heard from another die (R336, R344): the epoch of its last message, whether the round of that epoch has ended OK
here, and whether the message came before the chain's last COMMIT. -/
structure Peer where
  die : Nat
  epoch : Nat
  ok : Bool
  old : Bool
  deriving DecidableEq, Repr

/-- A chain context beside its registers (R312): its round, the segment windows granted by other dies as (epoch, die,
segments), the ring pass steps granted by the successor as (epoch, step), the epochs of ABORTs that wait, the epoch, die, `OP`,
`ROP`, `DT` and `COUNT` of GRANTs for rounds that have not started here (R336), what it has heard from other dies, the epoch that its last
COMMIT replaced, and whether a peer's epoch was found to differ while no round had started (R344). -/
structure Chain where
  round : Option Round
  grants : List (Nat × Nat × Nat)
  steps : List (Nat × Nat)
  aborts : List Nat
  early : List (Nat × Nat × Nat × Nat × Nat × Nat)
  peers : List Peer
  before : Option Nat
  astray : Bool
  deriving DecidableEq, Repr

/-- A chain without a round. -/
def Chain.idle : Chain :=
  { round := none, grants := [], steps := [], aborts := [], early := [], peers := [], before := none, astray := false }

/-- A push that the consumer has not acknowledged (R334): its number, the SPUSH's core, counter, gang and sequence number. -/
structure Push where
  num : Nat
  core : Nat
  ctr : Nat
  gang : Nat
  seq : Nat
  deriving DecidableEq, Repr

/-- A stage queue end beside its registers (R332-R334): unacknowledged pushes, bytes received of the push in arrival, and an
OPEN that arrived before the end was enabled, as (die, domain, argument). -/
structure Stage where
  pushes : List Push
  got : Nat
  opened : List (Nat × Nat × Nat)
  deriving DecidableEq, Repr

/-- A stage queue end with nothing under way. -/
def Stage.idle : Stage := { pushes := [], got := 0, opened := [] }

/-- A member of a replay group (R302): ring index, serial, its 512 bits, and whether its record has been written. -/
structure Member where
  ring : Nat
  serial : Nat
  w : Nat
  recorded : Bool
  deriving DecidableEq, Repr

/-- An open replay group (R302-R305): its levels, the level and attempt under way, the members met so far and the next one to
run, the staging regions as (handle, unit, head granule, granules), the numeric status words of this attempt ORed, and
whether it is exhausted or aborted. -/
structure Group where
  first : Nat
  last : Nat
  level : Nat
  attempt : Nat
  members : List Member
  pos : Nat
  staging : List (Nat × Nat × Nat × Nat)
  nsw : Nat
  exhausted : Bool
  aborted : Bool
  deriving DecidableEq, Repr

/-- A work item in flight (R283): its queue, ring index, serial and 512 bits, when it started, and for the move descriptors of a
move or RGEND how many have been submitted and how many of those have not completed, the first one in list order that did
not end OK as (position, status, tag), the tag of the last one, and the replay group that an RGEND commits (R304). -/
structure Item where
  queue : Nat
  ring : Nat
  serial : Nat
  w : Nat
  started : Nat
  next : Nat
  left : Nat
  bad : Option (Nat × Nat × Nat)
  tag : Nat
  group : Option Group
  deriving DecidableEq, Repr

/-- A record that waits to be written to its queue's completion ring (R297): the queue, the item it completes (none for an event
record), its 32 bytes, and the item's status and detail. -/
structure RecJob where
  queue : Nat
  item : Option Item
  bytes : Bytes
  status : Nat
  detail : Nat
  deriving DecidableEq, Repr

/-- What a queue holds beside its registers: since when its next item waits for space and the limit of that wait in 10 ns
periods (R290), whether it waits for cores (R288), its open replay group, and what dispatch has read of its next item, with the statuses
of the reads (R283): the item and its request list. -/
structure QueueSt where
  since : Option Nat
  limit : Nat
  forCores : Bool
  group : Option Group
  head : Option (Nat × Nat)
  reqs : Option (Nat × Bytes)
  deriving DecidableEq, Repr

/-- A queue with nothing waiting. -/
def QueueSt.idle : QueueSt := { since := none, limit := 0, forCores := false, group := none, head := none, reqs := none }

/-- The current windows of a rail (R407): for 1, 10 and 100 µs the samples of the window under way and their sum, and the
average of the last whole window, in 1/16 A. -/
structure RailSt where
  counts : List Nat
  sums : List Nat
  avgs : List Nat
  /-- The samples since the control period began, and the sum of their products of mV and 1/16 A. -/
  taken : Nat
  power : Nat
  /-- The samples in a row that lie below the rail's reset threshold, and those of a lost VAON above its rising one (R465). -/
  low : Nat
  high : Nat
  deriving DecidableEq, Repr

/-- A rail without samples. -/
def RailSt.init : RailSt := { counts := [0, 0, 0], sums := [0, 0, 0], avgs := [0, 0, 0], taken := 0, power := 0, low := 0, high := 0 }

/-- What the die sends on the AVSBus (R467): a voltage write with commit, a voltage read or a status read. Rail 0 is VCORE and rail 1
VSRAM. -/
inductive AvsOp where
  | write (rail mv : Nat)
  | readVoltage (rail : Nat)
  | readStatus (rail : Nat)
  deriving DecidableEq, Repr

/-- A read command of the configuration store (R468): its code, the bits of its address, the address, and the dummy clocks. -/
structure QspiRead where
  code : Nat
  addrBits : Nat
  addr : Nat
  dummy : Nat
  deriving DecidableEq, Repr

/-- A running episode of a throttle reason (R428): its start, detail, the highest-numbered operating point and lowest duty so
far, and its peak value. -/
structure Episode where
  start : Nat
  detail : Nat
  opLow : Nat
  dutyLow : Nat
  peak : Nat
  deriving DecidableEq, Repr

/-- The always-on island beside the registers it keeps (R31, R32, R426, R463, R471): what holds the die in reset (`RST_N` low, a
rail out of its band, no reference, a thermal trip, no VAON), the strap pins as last seen and whether they have been latched since the
last reset, the hottest reading in 1/4 °C, and whether the next release sets `TRIP_SEEN`. -/
structure Aon where
  pinLow : Bool
  railOut : Bool
  refOut : Bool
  tripped : Bool
  noVaon : Bool
  datumEn : Bool
  cfgMaster : Bool
  diepos : Nat
  latched : Bool
  tj : Int
  tripPending : Bool
  deriving DecidableEq, Repr

/-- The island at a cold power-up: `RST_N` is low until it is deasserted, and the straps are pulled down (R462, R470). -/
def Aon.init : Aon :=
  { pinLow := true, railOut := false, refOut := false, tripped := false, noVaon := false, datumEn := false, cfgMaster := false, diepos := 0
    latched := false, tj := 0, tripPending := false }

/-- Bring-up beside its registers (R384-R396): when the phase began; the stream received so far, failed fetch attempts and the
boot link that delivers it; the findings of BIST; the sections not yet applied, the first being under way, and the pages whose
COMMIT the loader waits for; the cores have been numbered since the reset (R395); when the role outcomes took effect; `RELAY_HOLD` has passed; and `RELEASE` has been written. After the
release, the retirements under way (R399): logical ID, the physical core that fails, and the trigger of R439. -/
structure BootSt where
  phaseAt : Nat
  stream : Bytes
  tries : Nat
  source : Option Nat
  findings : List (BitVec 32)
  sections : Option (List Bytes)
  waits : List Nat
  numbered : Bool
  roledAt : Nat
  relayOver : Bool
  releaseAsked : Bool
  retiring : List (Nat × Nat × Nat)
  deriving DecidableEq, Repr

/-- Bring-up at its start. -/
def BootSt.init : BootSt :=
  { phaseAt := 0, stream := [], tries := 0, source := none, findings := [], sections := none, waits := [], numbered := false, roledAt := 0, relayOver := false
    releaseAsked := false, retiring := [] }

/-- Where a data scan of the test access port stands: the states of the IEEE 1149.1 controller from Run-Test/Idle through Select-DR-Scan to
Update-DR (R474). Its instruction scans are the rows of the instructions. -/
inductive ScanSt where
  | idle | select | capture | shift | exit1 | pause | exit2 | update
  deriving DecidableEq, Repr

/-- The test access port and the management ring (R474-R478): the instruction, what the last instruction scan captured, the 40 boundary
cells as last updated, where a data scan stands, the selected data register and its length in bits, the one bit of a die in bypass (R477), how the miscellaneous outputs are driven
(0 by the die, 1 from the boundary register, 2 not at all), the segments opened, the ring register, and the level of `PRES_IN`. -/
structure Tap where
  instr : Nat
  irOut : Nat
  boundary : BitVec 40
  scan : ScanSt
  dr : Nat
  drLen : Nat
  bit : Bool
  drive : Nat
  segments : Nat
  ring : Nat
  presIn : Bool
  deriving DecidableEq, Repr

/-- The port after Test-Logic-Reset: the instruction is IDCODE (R474). -/
def Tap.init : Tap := { instr := 1, irOut := 1, boundary := 0, scan := .idle, dr := 0, drLen := 32, bit := false, drive := 0, segments := 0, ring := 0, presIn := false }

/-- A memory access of the DBG page under way (R452): whether it writes, the tag of its stack request, and the reply's status and
bytes. -/
structure MaSt where
  write : Bool
  tag : Option Nat
  reply : Option (Nat × Bytes)
  deriving DecidableEq, Repr

/-- What a byte of memory that nothing has written reads as: 0, as BIST leaves every memory of the die (R387). -/
def blankByte (_ : Nat) : Byte := 0

/-- The canonical form of a memory: addresses strictly rising, and no entry that reads as an unlisted address. -/
def Memory.wf (m : List Host.Cell) : Bool := twf blankByte m

/-- The state of the die. -/
structure State where
  /-- The commands that wait, first in, first out. -/
  pending : List Instr
  /-- Every control register of every page (R48-R69), by `regKey`. -/
  regs : Tbl (BitVec 32)
  /-- The staging copies (R58), by the same keys. -/
  staged : Tbl Staged
  /-- The completion of the last control access (R57). -/
  ctl : CtlRsp
  /-- Free values drawn so far: the model's own counter, which chooses the next unconstrained value. -/
  free : Nat
  /-- ck of the arithmetic clock since the last whole reference period of R33. -/
  ckFrac : Nat
  /-- The 64-bit station number of the always-on island (R43, R46). -/
  station : Nat
  /-- The boot nonce of the always-on island (R353). -/
  bootNonce : Nat
  /-- The fuses (R385). -/
  fuses : Fuses
  /-- The raised interrupt lines of the surveyor core, one per page (R66), ascending. -/
  irq : List Nat
  /-- Event records that wait for their queue (R297). -/
  evq : List EvRec
  /-- Host event messages that wait to leave (R66). -/
  hostMsgs : List HostMsg
  /-- Link modules by instance number (R22). -/
  mods : Tbl ModSt
  /-- Requests of this die without a reply (R374). -/
  reqs : List Req
  /-- The next request tag (R362). -/
  nextTag : Nat
  /-- Packets that wait for a module of their route (R373). -/
  waiting : List Waiting
  /-- Easement packets dropped because their path is down (R29). -/
  pathDrops : Nat
  /-- Core memories and field memory: bytes by die-local address (R41). An unlisted byte reads 0, as BIST leaves every
  memory (R387). -/
  mem : List Host.Cell
  /-- Flipped bits of each 8-byte word that holds any (R226): die-local address / 8, and above them the operand buffers,
  surveyor memory, scale history and vector registers (`eccBase`). -/
  ecc : Tbl Nat
  /-- Protection units with a corrected error that wait to be written back (R229), by their first word. -/
  fixups : List Nat
  /-- The most recent correctable memory error record (R439). -/
  lastCe : Option LastCe
  /-- When the patrol period under way began (R230, R245). -/
  patrolFrom : Nat
  /-- Logical cores 0-63 (R70). -/
  cores : Tbl CoreSt
  /-- The scales that running kernel instances hold (R134). -/
  held : List HeldScale
  /-- The slots that each running kernel instance has recorded into or selected from (R145): (gang, slot). -/
  touched : List (Nat × Nat)
  /-- Running kernels (R287-R293). -/
  gangs : List Gang
  /-- The model's number for the next kernel. -/
  nextGang : Nat
  /-- Frames of the pool (R258) by frame number; an unlisted one is PENDING and unmapped. -/
  frames : Tbl Frame
  /-- Mapped pages (R261) by domain · 2^30 + virtual page number. -/
  pages : Tbl Page
  /-- Page table frames (R259) by domain · 2^24 + level · 2^22 + index; an unlisted one does not exist. -/
  tables : Tbl Nat
  /-- The page keys that the cluster TLBs 0-7 and the die TLB 8 hold, oldest first (R264). -/
  tlbs : Tbl (List Nat)
  /-- The root and second-level entries that the walk cache holds, each by the key of the table it leads to, oldest first (R264). -/
  walkCache : List Nat
  /-- Walks in progress (R264). -/
  walks : List Walk
  /-- Frames whose zero writes are under way (R271, R272). -/
  zeroing : List ZeroSt
  /-- Frames of a table that went BAD (R269), which become PENDING once no access to them is in flight. -/
  condemned : List Nat
  /-- Descriptors held by the move engines, by slot: engine · 64 + place, engines 0-15 of the clusters, 16-31 of the die
  (R246); from 2048 up, the accesses of dispatch to stack memory. -/
  moves : Tbl MoveJob
  /-- Descriptors submitted since reset: the model's order of submission. -/
  nextMove : Nat
  /-- The core of each cluster, 0-7, whose MOVE its engines took last (R246). -/
  moveLast : Tbl Nat
  /-- Chain contexts 0-255 (R312). -/
  chains : Tbl Chain
  /-- Stage queue ends 0-63 (R332). -/
  stages : Tbl Stage
  /-- Queues 0-65535 (R280). -/
  queues : Tbl QueueSt
  /-- Work items in flight (R283). -/
  items : List Item
  /-- Records that wait to be written, or are being written, in completion order (R297). -/
  records : List RecJob
  /-- The queue that last started an item, by priority class (R288). -/
  classLast : Tbl Nat
  /-- The cadastre has been written since release (R396). -/
  cadastre : Bool
  /-- A domain activation that waits for the cadastre (R396): domain and kind. -/
  domWait : Option (Nat × Nat)
  /-- Lanes that the plat marks bad, by module (R388). -/
  laneBad : Tbl Nat
  /-- Modules that the plat disables (R388), ascending. -/
  modBad : List Nat
  /-- The loader has applied the image's last section, so that role outcomes hold (R396). -/
  roled : Bool
  /-- Tags of requests that ended in timeout, so that a late reply is told from one without a request (R374). -/
  lateTags : List Nat
  /-- Route entries that hold their packets, with the time of the change of group (R373). -/
  holds : List (Nat × Nat)
  /-- Route entries that have a usable module (R382). -/
  routeUp : List Nat
  /-- The issue fraction in units of 1/64 (R414). -/
  phi : Nat
  /-- The VCORE allowance G in 1/16 A (R413). -/
  allowance : Nat
  /-- The compute class's power share in watts (R421). -/
  shareW : Nat
  /-- The VCORE windows that hold the allowance below demand (R414, R423). -/
  tight : List Nat
  /-- The conditions of R410 held at the last control period boundary. -/
  boostRun : Bool
  /-- Those of them that are measured within a control period have held since. -/
  coolRun : Bool
  /-- `OP_MAX` was 0 at the last control period boundary (R410). -/
  opMaxRun : Bool
  /-- The die power of the latest control periods, in 1/16 W, the last first: as many as `CAP_TAU` holds at most (R432). -/
  powers : List Nat
  /-- The rails' windows (R407). -/
  rails : Tbl RailSt
  /-- The operating point that a rising VCORE leads to (R409). -/
  opTarget : Option Nat
  /-- Running episodes by reason (R428). -/
  episodes : List (Nat × Episode)
  /-- Episode records that nothing has read (R428), by ring index. -/
  epiUnread : List Nat
  /-- What an issue account lacks of 0, in 1/64 ck (R415): array accounts at 2·core, lanelet accounts at 2·core + 1. -/
  accounts : Tbl Nat
  /-- The access and flit fractions that the last budget allows, m and l (R421, R423). -/
  memBudget : Nat
  linkBudget : Nat
  /-- The VCORE and VSRAM voltages that the die has asked its regulators for, in mV (R467). -/
  vcoreSet : Nat
  vsramSet : Nat
  /-- The VSRAM voltage that the die writes once a falling VCORE has reached its target (R467). -/
  vsramDue : Option Nat
  /-- The AVSBus transactions of the latest change of voltage, in the order of the bus (R467). -/
  avs : List AvsOp
  /-- The last command that the die sent to the configuration store (R468). -/
  qspi : Option QspiRead
  /-- The surveyor core's private memory, by address (R442). -/
  svyMem : Tbl Byte
  /-- The bytes of its locked code region (R442). -/
  svyCode : Nat
  /-- The times of its restarts, and what the restart under way is for: 0 watchdog, 1 memory (R446). -/
  svyTimes : List Nat
  svyCause : Nat
  /-- When the watchdog was last kicked (R446). -/
  kickedAt : Nat
  /-- `DBG_CHAL`, the challenge of the debug lock (R450). -/
  chal : Bytes
  /-- Unlock submissions refused since reset (R451). -/
  refusals : Nat
  /-- Bytes 0-479 of the quote that is being signed, but for its station number (R448). -/
  quoteDraft : Bytes
  /-- A memory access of the DBG page under way (R452). -/
  maAccess : Option MaSt
  /-- The pool's base and count at the last release, kept by the always-on island (R258). -/
  poolKept : Option (Nat × Nat)
  /-- The key slot of the image that VERIFY accepted (R393, R448). -/
  keySlot : Nat
  /-- The always-on island (R31, R32, R426, R463, R471). -/
  aon : Aon
  /-- Bring-up (R384-R396). -/
  boot : BootSt
  /-- The trims that the FUSE phase has applied: PLL, thermal sensor, SRAM assist (R385). -/
  trims : List Nat
  /-- The test access port and the management ring (R474-R478). -/
  tap : Tap
  deriving DecidableEq, Repr

/-- Fuses of a die that no rule describes further: nothing uncorrectable, every number 0, no valid key, and debug mode 1
(locked until an accepted unlock). -/
def Fuses.blank : Fuses :=
  { bad := false, identity := List.replicate 32 0, options := List.replicate 32 0, serial := 0, dbgMode := 1, written := true, opCeil := 0
    vcore := [850, 780, 730, 690, 650, 610, 580, 550], pllTrim := 0, thermTrim := 0, sramTrim := 0
    dbgKeyHash := List.replicate 48 0, keyHash0 := List.replicate 48 0, keyHash1 := List.replicate 48 0, revoke0 := false, revoke1 := false
    idScalar := 1, idPub := List.replicate 97 0, idKeyHash := List.replicate 48 0, plat := [] }

/-- The challenge that the `n`-th draw of the entropy source and the five after it give (R450). -/
def drawChallenge (n : Nat) : Bytes := ((List.range 6).map (fun i => leBytes 8 (Config.entropy (n + i)).toNat)).flatten

/-- The die right after a cold power-up (R383): bring-up stands at the AON phase, `BOOT_STATE` says that the last reset was
cold, every register holds its reset value, every memory, queue and unit is empty, and the boot nonce and the challenge are the entropy
source's first draws (R353, R450). -/
def State.reset : State :=
  { pending := [], regs := [(regKey 1 0 0x100, 0x10#32)], staged := [], ctl := { code := 0, data := 0 }, free := 7, ckFrac := 0, station := 0
    bootNonce := (Config.entropy 0).toNat, fuses := Fuses.blank, irq := [], evq := [], hostMsgs := [], mods := [], reqs := [], nextTag := 0, waiting := []
    pathDrops := 0, mem := [], ecc := [], fixups := [], lastCe := none, patrolFrom := 0, cores := [], held := [], touched := [], gangs := [], nextGang := 0
    frames := [], pages := [], tables := [], tlbs := [], walkCache := [], walks := [], zeroing := [], condemned := [], moves := [], nextMove := 0, moveLast := []
    chains := [], stages := []
    queues := [], items := [], records := [], classLast := [], cadastre := false, domWait := none
    laneBad := [], modBad := [], roled := false, lateTags := [], holds := [], routeUp := []
    phi := 64, allowance := 0, shareW := 900, tight := [], boostRun := false, coolRun := false, opMaxRun := false, powers := [], rails := [], opTarget := none, episodes := [], epiUnread := [], accounts := []
    memBudget := 16, linkBudget := 16, vcoreSet := 810, vsramSet := 810, vsramDue := none, avs := [], qspi := none
    svyMem := [], svyCode := 0, svyTimes := [], svyCause := 0, kickedAt := 0, chal := drawChallenge 1, refusals := 0, quoteDraft := [], maAccess := none
    poolKept := none, keySlot := 0
    aon := Aon.init, boot := BootSt.init, trims := []
    tap := Tap.init
  }

end Sys2Proof.Machine
end

