-- ==== Sys2Proof/Machine/Ops.lean ====
section
/-! DEFINITION. The named operations that every family uses: register fields, time and station numbers (R33, R43-R47),
packets that leave the die (R366, R370-R373), the field notes (R438, R439) and page events (R64-R66). -/

namespace Sys2Proof.Machine

/-- What a command answers. -/
abbrev Res := Host.Outcome State Fault Refusal

/-- Stop unless index `i` names one of the `n` units of its kind. -/
def onUnit (kind : String) (n i : Nat) (r : Res) : Res := if i < n then r else .fault (.noSuchUnit kind i)

/-! ### Register fields -/

/-- The key of field `f` for unit `i` (core, cluster or window instance; physical cores of the cluster pages count
9 to a cluster) and array element `e`. -/
def Fld.key (f : Fld) (i e : Nat) : Nat :=
  let page := if f.page = 0x10 then 0x10 + (if f.win then i / 9 else i) else if f.page = 0x40 then 0x40 + i else f.page
  let inst := if f.win then (if f.page = 0x10 then i % 9 else i) + 1 else 0
  regKey page inst (f.off + e * f.stride)

/-- The word at a register key (R52). -/
def State.word (s : State) (k : Nat) : BitVec 32 := tget regReset k s.regs

/-- Write the word at a register key. -/
def State.setWord (s : State) (k : Nat) (v : BitVec 32) : State := { s with regs := tset regReset k v s.regs }

/-- The live value of a register field; a field above bit 31 lies in the next word (R52). -/
def State.get (s : State) (f : Fld) (i : Nat := 0) (e : Nat := 0) : Nat :=
  let k := f.key i e
  if f.lo + f.len ≤ 32 then bitsAt (s.word k).toNat f.lo f.len
  else bitsAt ((s.word k).toNat + 2 ^ 32 * (s.word (k + 4)).toNat) f.lo f.len

/-- Set a register field to the low bits of `v`. -/
def State.put (s : State) (f : Fld) (v : Nat) (i : Nat := 0) (e : Nat := 0) : State :=
  let k := f.key i e
  if f.lo + f.len ≤ 32 then s.setWord k (BitVec.ofNat 32 (bitsPut (s.word k).toNat f.lo f.len v))
  else
    let w := bitsPut ((s.word k).toNat + 2 ^ 32 * (s.word (k + 4)).toNat) f.lo f.len v
    (s.setWord k (BitVec.ofNat 32 w)).setWord (k + 4) (BitVec.ofNat 32 (w / 2 ^ 32))

/-- Add to a saturating counter field. -/
def State.bump (s : State) (f : Fld) (n : Nat := 1) (i : Nat := 0) (e : Nat := 0) : State :=
  s.put f (satAdd f.len (s.get f i e) n) i e

/-- Add to a counter field that wraps. -/
def State.count (s : State) (f : Fld) (n : Nat := 1) (i : Nat := 0) (e : Nat := 0) : State :=
  s.put f (s.get f i e + n) i e

/-- `n` words of an array register from element `e`, as bytes (R17). -/
def State.getBytes (s : State) (f : Fld) (i e n : Nat) : Bytes :=
  ((List.range n).map fun j => leBytes 4 (s.get f i (e + j))).flatten

/-- Write a run of bytes to the words of an array register from element `e`. -/
def State.putBytes (s : State) (f : Fld) (i e : Nat) (b : Bytes) : State :=
  (List.range (b.length / 4)).foldl (fun s j => s.put f (leAt b (4 * j) 4) i (e + j)) s

/-! ### Time and order -/

/-- The timestamp of R33: 10 ns periods since the die last left reset. -/
def State.now (s : State) : Nat := s.get Fld.CLK_CLK_TIME_COUNT

/-- The largest station number (R46). -/
def stationMax : Nat := 2 ^ 64 - 1

/-- Advance the station number by one event of the die's own (R44, R46). -/
def State.stamp (s : State) : State := { s with station := min (s.station + 1) stationMax }

/-- The receipt of one collective or easement packet that carries station number `v` (R44, R47). -/
def State.receive (s : State) (v : Nat) : State :=
  { s with station := min ((if v > s.station + 2 ^ 48 then s.station else max s.station v) + 1) stationMax }

/-! ### Identity -/

/-- The system die ID (R36). -/
def State.sysId (s : State) : Nat := s.get Fld.DIE_DIE_ID_SYS_ID

/-! ### Packets that leave the die -/

/-- The virtual channel of a packet type (R364): 6 for a reserved type. -/
def vcOf (t : Nat) : Nat :=
  if t = 0x01 ∨ t = 0x02 then 0
  else if 0x10 ≤ t ∧ t ≤ 0x12 then 1
  else if t = 0x20 then 2
  else if 0x30 ≤ t ∧ t ≤ 0x35 then 3
  else if 0x40 ≤ t ∧ t ≤ 0x44 then 4
  else if 0x50 ≤ t ∧ t ≤ 0x58 then 5
  else 6

/-- A packet of type `t` from this die with every other field 0; its channel follows its type. -/
def pktOf (t : Nat) : Packet :=
  { typ := t, vc := vcOf t, hop := 0, len := 0, dest := 0, dkind := 0, src := 0, skind := 0, dom := 0, tag := 0, arg := 0,
    rsv := false, addr := 0, station := 0, chain := 0, op := 0, rop := 0, dt := 0, phase := 0, epoch := 0, count := 0,
    shard := 0, shardLen := 0, elemOff := 0, sq := 0, push := 0, total := 0, data := [] }

/-- The route key of a packet (R372). -/
def pktKey (p : Packet) : Nat :=
  if p.vc = 0 ∨ p.vc = 2 ∨ p.typ = 0x53 then p.dest * 2 ^ 40 ||| p.addr / 64
  else if p.vc = 1 then p.tag
  else if p.vc = 3 then p.chain
  else if p.vc = 4 then p.sq
  else 0

/-- The number of no route entry: no entry has it, so its `VALID` reads 0. -/
def noEntry : Nat := 64

/-- The route entry of a destination (R370): a stack, hub or guest beyond the table has none (R29). -/
def State.routeEntry (s : State) (dest dkind : Nat) : Nat :=
  if dkind = 0 then (if dest / 16 = s.sysId / 16 then dest % 16 else 48 + s.get Fld.RTE_RTE_OFFPKG_HUB)
  else if dkind = 1 then (if dest < 32 then 16 + dest else noEntry)
  else if dkind = 2 then (if dest < 8 then 48 + dest else noEntry)
  else if dest < 8 then 56 + dest else noEntry

/-- Link module `m` (R22). -/
def State.mod (s : State) (m : Nat) : ModSt := tget (fun _ => ModSt.init) m s.mods

/-- Replace what module `m` holds. -/
def State.setMod (s : State) (m : Nat) (x : ModSt) : State := { s with mods := tset (fun _ => ModSt.init) m x s.mods }

/-- The state code of module `m` (R348). -/
def State.modState (s : State) (m : Nat) : Nat := s.get Fld.LNK_MOD_STATE_STATE m

/-- A module is usable when it is ACTIVE or held (R348, R372). A boot link carries only easement (R392). -/
def State.usable (s : State) (m : Nat) : Bool := s.modState m == 6 || (s.mod m).held

/-- The modules of a group that are usable. -/
def State.anyUsable (s : State) (mask : Nat) : Bool := (maskIdx 40 mask).any s.usable

/-- The module of a group for a key: from `hash(key) mod n`, the first usable one (R372). -/
def State.pickModule (s : State) (mask key : Nat) : Option Nat :=
  let g := maskIdx 40 mask
  let start := if g.length = 0 then 0 else key % 8191 % g.length
  (g.drop start ++ g.take start).find? s.usable

/-- The module that a route entry chooses for a key, in the group in use (R370, R372). -/
def State.routeModule (s : State) (entry key : Nat) : Option Nat :=
  if s.get Fld.RTE_RT_CTL_VALID entry = 0 then none
  else
    let pri := s.get Fld.RTE_RT_PRI_MASK entry
    let alt := s.get Fld.RTE_RT_ALT_MASK entry
    s.pickModule (if s.anyUsable pri then pri else alt) key

/-- The row of the key table that a packet falls under (R372): reads, writes, bulk writes and FRAME_CODE share the first. -/
def keyRow (p : Packet) : Nat := if p.vc = 0 ∨ p.vc = 2 ∨ p.typ = 0x53 then 0 else p.vc

/-- Module `m` still holds a packet of this key and destination that is not acknowledged at the flit level (R373). -/
def ModSt.busyFor (x : ModSt) (w : Waiting) : Bool :=
  let same (p : Packet) (k : Nat) := p.dest == w.pkt.dest && p.dkind == w.pkt.dkind && k == w.key && keyRow p == keyRow w.pkt
  x.queue.any (fun q => same q.pkt q.key) || x.packing.any (fun q => same q.pkt q.key) ||
    x.unacked.any (fun q => same q.pkt q.key)

/-- Two easement packets that this die originates for one destination: they leave in order (R368). -/
def easeTo (p q : Packet) : Bool := p.vc == 5 && q.vc == 5 && p.hop == 0 && q.hop == 0 && p.dest == q.dest && p.dkind == q.dkind

/-- What becomes of one waiting packet: none while it must wait (R368, R373), or the module it joins. -/
def State.mayJoin (s : State) (w : Waiting) : Option Nat :=
  if s.get Fld.RTE_RT_CTL_HOLDING w.entry = 1 then none
  else match s.routeModule w.entry w.key with
    | none => none
    | some m => if (List.range 40).any (fun j => j != m && ((s.mod j).busyFor w || (s.mod j).queue.any (fun q => easeTo q.pkt w.pkt))) then none
      else some m

/-- Give each waiting packet its module where R373 lets it go, in order; a packet behind one that waits for the same
entry and key waits too, and an easement packet of this die behind another for its destination (R368). -/
def State.flushWaiting (s : State) : State :=
  let step (a : State × List Waiting) (w : Waiting) : State × List Waiting :=
    if a.2.any (fun v => v.entry == w.entry && (v.key == w.key || easeTo v.pkt w.pkt)) then (a.1, a.2 ++ [w])
    else match a.1.mayJoin w with
      | none => (a.1, a.2 ++ [w])
      | some m =>
        let x := a.1.mod m
        (a.1.setMod m { x with queue := x.queue ++ [{ pkt := w.pkt, key := w.key }] }, a.2)
  let r := s.waiting.foldl step ({ s with waiting := [] }, [])
  { r.1 with waiting := r.2 }

/-- Whether a packet for a destination is taken now (R29): its entry is valid and has a usable module, or it holds its packets after a
change of group (R373). -/
def State.reachable (s : State) (dest dkind key : Nat) : Bool :=
  let entry := s.routeEntry dest dkind
  (s.routeModule entry key).isSome || (s.get Fld.RTE_RT_CTL_VALID entry == 1 && s.get Fld.RTE_RT_CTL_HOLDING entry == 1)

/-- `REQ_TIMEOUT` in 10 ns periods (R378). -/
def State.reqTimeout (s : State) : Nat := let t := s.get Fld.LNK_LNK_TIMEOUT_REQ_TIMEOUT; (if t = 0 then 2000 else t) * 100

/-- The packet that starts to leave is the request `r`: of a push, the packet that carries its last byte (R334; log entry 89). -/
def Req.leaves (r : Req) (p : Packet) : Bool :=
  p.hop == 0 && p.typ == r.pkt.typ && p.dest == r.pkt.dest && p.dkind == r.pkt.dkind &&
    (if p.typ = 0x40 then p.sq == r.pkt.sq && p.push == r.pkt.push && p.arg + p.data.length == p.total else p.tag == r.tag)

/-- The requests among packets that start to leave wait for their replies from now on (R374, R380). -/
def State.markSent (s : State) (l : List Packet) : State :=
  { s with reqs := s.reqs.map (fun r => if l.any r.leaves then { r with due := some (s.now + s.reqTimeout) } else r) }

/-- Send a packet on its route; its station number is stamped as it leaves (R43, R44). With no path an easement packet is dropped
and counted (R29); the caller has looked at `reachable` for every other packet. -/
def State.sendOn (s : State) (p : Packet) : State :=
  if s.reachable p.dest p.dkind (pktKey p) then
    ({ s with waiting := s.waiting ++ [{ entry := s.routeEntry p.dest p.dkind, key := pktKey p, pkt := p }] } : State).flushWaiting
  else if p.vc = 5 then { s with pathDrops := s.pathDrops + 1 }
  else s

/-- Send a packet that this die originates: its source is this die, its `HOP` is 0 (R366). -/
def State.send (s : State) (p : Packet) : State := s.sendOn { p with src := s.sysId, skind := 0, hop := 0, len := p.data.length }

/-- Send a packet on module `m` itself, whatever the route table holds (a boot link in bring-up, R392). -/
def State.sendVia (s : State) (m : Nat) (p : Packet) : State :=
  let p : Packet := { p with src := s.sysId, skind := 0, hop := 0, len := p.data.length }
  let x := s.mod m
  s.setMod m { x with queue := x.queue ++ [{ pkt := p, key := (pktKey p) }] }

/-- The next request tag. -/
def State.freshTag (s : State) : State × Nat := ({ s with nextTag := (s.nextTag + 1) % 2 ^ 24 }, s.nextTag)

/-- Send a request and remember it until its reply (R374); its time runs from when it leaves the die (`markSent`), and from now for one
that is dropped for want of a path (R29; log entry 80). -/
def State.request (s : State) (p : Packet) (o : ReqOwner) : State :=
  let p : Packet := { p with tag := s.nextTag, src := s.sysId, skind := 0, hop := 0, len := p.data.length }
  let s : State := { s with nextTag := (s.nextTag + 1) % 2 ^ 24 }
  let s : State := { s with reqs := s.reqs ++ [{ tag := p.tag, pkt := p, owner := o, due := none }] }
  if s.reachable p.dest p.dkind (pktKey p) then s.sendOn p else (s.sendOn p).markSent [p]

/-! ### The field notes -/

/-- The packet that carries a field notes record to the host hub (R438). -/
def State.enote (s : State) (raw : Bytes) : Packet :=
  { pktOf 0x57 with dest := s.get Fld.DIE_DIE_CFG_HOST_HUB, dkind := 2, data := raw }

/-- Write a record to the ring (R438, R439): the record takes the next station number (R44); a full ring loses its
oldest unread record, which the answer's second part says. With `FWD` the record also leaves as an ENOTE. -/
def State.putNote (s : State) (n : Note) : State × Bool :=
  let s := s.stamp
  let raw := (fit n.body 40).set 3 (BitVec.ofNat 8 n.kind) ++ leBytes 8 s.station ++
    (if n.kind = 0 then fit n.tail 16 else fit n.tail 8 ++ leBytes 8 s.now)
  let wp := s.get Fld.ERR_FN_WPTR_COUNT
  let full := (wp + 2 ^ 32 - s.get Fld.ERR_FN_RPTR_COUNT) % 2 ^ 32 = 128
  let s := if full then (s.count Fld.ERR_FN_RPTR_COUNT).bump Fld.ERR_FN_LOST_COUNT else s
  let s := s.putBytes Fld.ERR_FN 0 (wp % 128 * 16) raw
  let s := s.count Fld.ERR_FN_WPTR_COUNT
  let s := if s.get Fld.ERR_FN_CFG_FWD = 1 then s.send (s.enote raw) else s
  (s, full)

/-! ### Page events -/

/-- The common header registers of a page (R50). -/
def pageEvent (page : Nat) : Nat := regKey page 0 0x14
/-- `PAGE_EVENT_EN` (R50). -/
def pageEventEn (page : Nat) : Nat := regKey page 0 0x18
/-- `PAGE_EVENT_ROUTE` (R50). -/
def pageEventRoute (page : Nat) : Nat := regKey page 0 0x1C

/-- The set-and-enabled bits of a group: the block events [23:0] or the common events [30:24] (R65). -/
def State.activeBits (s : State) (page : Nat) (common : Bool) : Nat :=
  let w := (s.word (pageEvent page)).toNat &&& (s.word (pageEventEn page)).toNat
  if common then bitsAt w 24 7 else bitsAt w 0 24

/-- The destinations of a group (R50). -/
def State.groupDest (s : State) (page : Nat) (common : Bool) : Nat :=
  bitsAt (s.word (pageEventRoute page)).toNat (if common then 4 else 0) 4

/-- The host event message of a page event (R483). -/
def State.pageMsg (s : State) (page : Nat) : HostMsg :=
  { payload := leBytes 2 page ++ leBytes 1 (bitsAt (s.word (pageEventRoute page)).toNat 8 8) ++ leBytes 1 0 ++
      leBytes 4 (s.word (pageEvent page)).toNat ++ zeros 8 }

/-- The domain of a queue (R309). -/
def State.qDom (s : State) (q : Nat) : Nat := s.get Fld.DSP_Q_CFG_DOMAIN q
/-- The state of a queue (R281): one that is not DISABLED is STOPPED while its domain is torn down or inactive. -/
def State.qState (s : State) (q : Nat) : Nat :=
  let d := s.get Fld.DSP_DOM_CFG_STATE 0 (s.qDom q)
  let st := s.get Fld.DSP_Q_STATE_STATE q
  if d = 2 ∨ (st ≠ 0 ∧ d ≠ 1) then 4 else st
/-- Entries of the queue's rings. -/
def State.qSize (s : State) (q : Nat) : Nat := 2 ^ s.get Fld.DSP_Q_RING_LOG2 q
/-- Items of the queue in flight. -/
def State.inFlight (s : State) (q : Nat) : List Item := s.items.filter (fun i => i.queue == q)
/-- Records between `CHEAD` and `CTAIL` (R283). -/
def State.qUnread (s : State) (q : Nat) : Nat :=
  (s.get Fld.DSP_Q_CMPL_CTAIL q + s.qSize q - s.get Fld.DSP_Q_CMPL_CHEAD q % s.qSize q) % s.qSize q
/-- The completion ring has a free entry for one more record beside those of the items in flight and of the event records that are
being written (R283, R297). -/
def State.qFree (s : State) (q : Nat) : Bool :=
  decide (s.qUnread q + (s.inFlight q).length + (s.records.filter (fun r => r.queue == q && r.item.isNone)).length + 1 < s.qSize q)

/-- The queue takes event records now (R297). -/
def State.takesEvents (s : State) (q : Nat) : Bool := s.qState q == 1 && s.qFree q

/-- Let an event record wait for its queue (R297): 64 wait for queues that take none, further ones are dropped and counted. -/
def State.waitEvent (s : State) (r : EvRec) : State :=
  if s.takesEvents r.queue ∨ (s.evq.filter (fun e => !s.takesEvents e.queue)).length < 64 then { s with evq := s.evq ++ [r] }
  else s.bump Fld.DSP_EVQ_LOST_COUNT

/-- The event record of a page event (R298, code 0x40). -/
def State.pageRec (s : State) (page inst : Nat) : EvRec :=
  { queue := s.get Fld.DSP_EVENT_QUEUE_QUEUE, status := 0x40, detail := page % 256, member := 0,
    info := page + inst * 2 ^ 16 + (s.word (pageEvent page)).toNat * 2 ^ 32, station := s.station }

/-- The field notes record of a page event (R439). -/
def State.pageNote (s : State) (page inst : Nat) : Note :=
  { kind := 1, body := leBytes 2 page ++ zeros 2 ++ leBytes 2 inst ++ zeros 2 ++ leBytes 4 (s.word (pageEvent page)).toNat,
    tail := [] }

/-- Raise the surveyor core's interrupt line of a page (R66). -/
def State.raiseIrq (s : State) (page : Nat) : State :=
  if s.irq.contains page then s else { s with irq := (s.irq.filter (· < page)) ++ page :: (s.irq.filter (page < ·)) }

/-- Signal a group to the destinations in `dest`, but for the field notes (R66). With `EVENT_QUEUE.EN` = 0 page event
records are not posted (R308). -/
def State.signalPlain (s : State) (page inst dest : Nat) : State :=
  let s := if bitOf dest 0 && s.get Fld.DSP_EVENT_QUEUE_EN == 1 then s.waitEvent (s.pageRec page inst) else s
  let s := if bitOf dest 1 then s.raiseIrq page else s
  if bitOf dest 2 then { s with hostMsgs := s.hostMsgs ++ [s.pageMsg page] } else s

/-- Set bits of a page's `PAGE_EVENT` and say which group has just come to hold set-and-enabled bits (R64, R65). -/
def State.orEvent (s : State) (page bits : Nat) : State × Bool × Bool :=
  let b0 := s.activeBits page false
  let c0 := s.activeBits page true
  let s := s.setWord (pageEvent page) (s.word (pageEvent page) ||| BitVec.ofNat 32 bits)
  (s, b0 == 0 && s.activeBits page false != 0, c0 == 0 && s.activeBits page true != 0)

/-- The loss that a record of the `FN_OVERWRITE` event itself causes sets a bit that is set already (R65, R438). -/
def State.noteOnly (s : State) (n : Note) : State :=
  let r := s.putNote n
  if r.2 then (r.1.orEvent 5 1).1 else r.1

/-- Set `FN_OVERWRITE`, signalling its group when it becomes active (R438, R65). -/
def State.noteLost (s : State) : State :=
  let r := s.orEvent 5 1
  if r.2.1 then
    let d := r.1.groupDest 5 false
    let s := r.1.signalPlain 5 0 d
    if bitOf d 3 then s.noteOnly (s.pageNote 5 0) else s
  else r.1

/-- Write a field notes record (R438). -/
def State.note (s : State) (n : Note) : State :=
  let r := s.putNote n
  if r.2 then r.1.noteLost else r.1

/-- Signal a group to the destinations in `dest` (R66). -/
def State.signal (s : State) (page inst dest : Nat) : State :=
  let s := s.signalPlain page inst dest
  if bitOf dest 3 then s.note (s.pageNote page inst) else s

/-- Set bits of a page's `PAGE_EVENT`, signalling each group whose set-and-enabled bits come from none (R64-R66). -/
def State.raise (s : State) (page bits : Nat) (inst : Nat := 0) : State :=
  let r := s.orEvent page bits
  let s := if r.2.1 then r.1.signal page inst (r.1.groupDest page false) else r.1
  if r.2.2 then s.signal page inst (s.groupDest page true) else s

/-- Set the page event that a field of `PAGE_EVENT` names, on the page of unit `u`, for window instance `inst`. -/
def State.event (s : State) (f : Fld) (u : Nat := 0) (inst : Nat := 0) : State :=
  s.raise (f.key u 0 / 2 ^ 32) (2 ^ f.lo) inst

/-! ### Issue accounts -/

/-- The account of the issues made at φ = 1 that goes with an array's issue account. -/
def fullAcct (acct : Nat) : Nat := acct + 128

/-- An issue account below 0 holds its next issue (R415). What an array account was charged at φ = 1 is regained by the next issue that
R90 allows at φ = 1, so it holds an issue only once φ has fallen. -/
def State.heldBack (s : State) (acct : Nat) : Bool :=
  tget (fun _ => 0) acct s.accounts != 0 || (decide (s.phi < 64) && tget (fun _ => 0) (fullAcct acct) s.accounts != 0)

/-- Charge an issue of `ck` ck to an account (R415): an array account has an even number, a lanelet account an odd one. -/
def State.charge (s : State) (acct ck : Nat) : State :=
  let (k, v) := if s.phi < 64 ∨ acct % 2 = 1 then (acct, tget (fun _ => 0) acct s.accounts + 64 * ck) else (fullAcct acct, 64 * ck)
  { s with accounts := tset (fun _ => 0) k v s.accounts }

end Sys2Proof.Machine
end

