-- ==== Sys2Proof/Machine/Power.lean ====
section
/-! DEFINITION. Power, current and temperature (R406-R434): the rails' windows, the allowance and the issue fraction, the
control period, operating points, throttle reasons and their episodes. None of it changes a result bit (R10). -/

namespace Sys2Proof.Machine

/-! ### Reasons and episodes (R427, R428) -/

/-- Reason `r` is active. -/
def State.reasonOn (s : State) (r : Nat) : Bool := bitOf (s.get Fld.PWR_PWR_STATUS_ACTIVE) (r - 1)

/-- The power budget before the static share: min(`CAP_W`, `TH_CAP`) (R421). -/
def State.capNow (s : State) : Nat := min (s.get Fld.PWR_PWR_CAP_CAP_W) (s.get Fld.PWR_PWR_POWER_TH_CAP)

/-- A window limit of a rail: 0 for 1 µs, 1 for 10 µs, 2 for 100 µs (R433). -/
def State.railLimit (s : State) (rail w : Nat) : Nat :=
  match w with
  | 0 => s.get Fld.PWR_RAIL_LIM_A_LIM_1US rail
  | 1 => s.get Fld.PWR_RAIL_LIM_A_LIM_10US rail
  | _ => s.get Fld.PWR_RAIL_LIM_B_LIM_100US rail

/-- The `LIMIT` of a record: W, 1/16 A or °C as the reason's peak (R428). -/
def State.reasonLimit (s : State) (r detail : Nat) : Nat :=
  if r ≤ 3 ∨ r = 8 then s.capNow
  else if r ≤ 6 then s.railLimit detail (r - 4)
  else if r = 7 then s.get Fld.PWR_THERM_CFG_THERM_LIMIT
  else 0

/-- The 32 bytes of an episode record that ends now (R428). -/
def State.episodeBytes (s : State) (r : Nat) (e : Episode) : Bytes :=
  leBytes 1 r ++ leBytes 1 e.detail ++ leBytes 1 e.opLow ++ leBytes 1 e.dutyLow ++ leBytes 4 (min (s.now - e.start) (2 ^ 32 - 1)) ++
    leBytes 8 e.start ++ leBytes 2 e.peak ++ leBytes 2 (s.reasonLimit r e.detail) ++ zeros 12

/-- Write an episode record at `WPTR` (R428): one over an unread record is counted. -/
def State.putEpisode (s : State) (r : Nat) (e : Episode) : State :=
  let i := s.get Fld.PWR_EPI_PTR_WPTR
  let lost := s.epiUnread.contains i
  let s := s.putBytes Fld.PWR_EPI 0 (8 * i) (s.episodeBytes r e)
  let s := { (s.count Fld.PWR_EPI_PTR_WPTR) with epiUnread := if lost then s.epiUnread else s.epiUnread ++ [i] }
  if lost then (s.bump Fld.PWR_EPI_LOST_COUNT).event Fld.PWR_PAGE_EVENT_EPI_OVERWRITE else s

/-- A reason ends (R428): its record is written if it lasted `EPI_MIN`. -/
def State.endReason (s : State) (r : Nat) : State :=
  let s := s.put Fld.PWR_PWR_STATUS_ACTIVE (s.get Fld.PWR_PWR_STATUS_ACTIVE - 2 ^ (r - 1))
  match s.episodes.find? (·.1 == r) with
  | none => s
  | some (_, e) =>
    let s := { s with episodes := s.episodes.filter (·.1 != r) }
    if s.get Fld.PWR_THERM_CFG_EPI_MIN * 100 ≤ s.now - e.start then s.putEpisode r e else s

/-- The higher of two peaks; temperatures are signed (R427). -/
def peakOf (r a b : Nat) : Nat := if r = 7 then (if signed 16 a < signed 16 b then b else a) else max a b

/-- A reason begins, or goes on: its extremes follow (R428). -/
def State.onReason (s : State) (r detail peak : Nat) : State :=
  let op := s.get Fld.PWR_PWR_STATUS_OP
  let duty := s.get Fld.PWR_PWR_STATUS_DUTY
  if s.reasonOn r then
    { s with episodes := s.episodes.map fun e =>
        if e.1 = r then (r, { e.2 with opLow := max e.2.opLow op, dutyLow := min e.2.dutyLow duty, peak := peakOf r e.2.peak peak }) else e }
  else
    let s := s.put Fld.PWR_PWR_STATUS_ACTIVE (s.get Fld.PWR_PWR_STATUS_ACTIVE + 2 ^ (r - 1))
    { s with episodes := s.episodes ++ [(r, { start := s.now, detail := detail, opLow := op, dutyLow := duty, peak := peak })] }

/-- Every running episode sees the operating point and the duty in force (R428). -/
def State.trackEpisodes (s : State) : State :=
  let op := s.get Fld.PWR_PWR_STATUS_OP
  let duty := s.get Fld.PWR_PWR_STATUS_DUTY
  { s with episodes := s.episodes.map (fun e => (e.1, { e.2 with opLow := max e.2.opLow op, dutyLow := min e.2.dutyLow duty })) }

/-- The page events of the reasons in `l` that become active (R432). -/
def reasonEvents (l : List Nat) : Nat :=
  (if l.any (fun r => decide (r ≤ 8)) then 2 ^ Fld.PWR_PAGE_EVENT_THROTTLE_START.lo else 0) +
    (if l.contains 8 then 2 ^ Fld.PWR_PAGE_EVENT_CAP_UNATTAINABLE.lo else 0) +
    (if l.contains 7 then 2 ^ Fld.PWR_PAGE_EVENT_THERMAL.lo else 0)

/-- Set each listed reason (reason, active, detail, peak): the ends first, in ascending code (R431), then the starts. -/
def State.reasons (s : State) (l : List (Nat × Bool × Nat × Nat)) : State :=
  let ended := l.filter (fun x => !x.2.1 && s.reasonOn x.1)
  let begun := (l.filter (fun x => x.2.1 && !s.reasonOn x.1)).map (·.1)
  let s := ended.foldl (fun s x => s.endReason x.1) s
  let s := l.foldl (fun s x => if x.2.1 then s.onReason x.1 x.2.2.1 x.2.2.2 else s) s
  if begun = [] then s else s.raise 4 (reasonEvents begun)

/-! ### Rails (R407, R423) -/

/-- The samples of a window. -/
def windowLen : Nat → Nat
  | 0 => 100
  | 1 => 1000
  | _ => 10000

/-- The windows of a rail. -/
def State.rail (s : State) (r : Nat) : RailSt := tget (fun _ => RailSt.init) r s.rails

/-- Window `w` of rail `r` binds (R414, R423): the last whole one reached its limit, or, for VCORE, it is what holds the allowance down. -/
def State.binds (s : State) (r w : Nat) : Bool :=
  decide (s.railLimit r w ≤ (s.rail r).avgs.getD w 0) || (r == 0 && s.tight.contains w)

/-- Any window of a rail binds. -/
def State.railBinds (s : State) (r : Nat) : Bool := (List.range 3).any (s.binds r)

/-- The current reasons 0x04-0x06: active while that window binds on a rail with a class, the lowest such rail in the
detail. -/
def State.currentReasons (s : State) : List (Nat × Bool × Nat × Nat) :=
  (List.range 3).map fun w =>
    let r := ((List.range 3).find? (fun r => s.binds r w)).getD 0
    (4 + w, (List.range 3).any (fun r => s.binds r w), r, (s.rail r).avgs.getD w 0)

/-- One sample joins window `w`; at its end the average is kept and a new window begins. -/
def RailSt.sample (x : RailSt) (w i : Nat) : RailSt :=
  let n := x.counts.getD w 0 + 1
  let t := x.sums.getD w 0 + i
  if n < windowLen w then { x with counts := x.counts.set w n, sums := x.sums.set w t }
  else { x with counts := x.counts.set w 0, sums := x.sums.set w 0, avgs := x.avgs.set w (t / n) }

/-- The reset threshold of a rail in mV (R465). -/
def resetThreshold (rail : Nat) : Nat := [480, 650, 680, 1080, 680].getD rail 0

/-- One sample counts for the rail's power, and for the time it has been below its reset threshold. -/
def RailSt.account (x : RailSt) (rail mv i : Nat) : RailSt :=
  { x with taken := x.taken + 1, power := x.power + mv * i, low := if mv < resetThreshold rail then x.low + 1 else 0 }

/-- The rail has been below its reset threshold for the detection time of 1 µs, and is removed (R465). -/
def State.railRemoved (s : State) (rail : Nat) : Bool := decide (100 ≤ (s.rail rail).low)

/-- A window of rail `r` ends with whole-window averages `x`: VSRAM and VLINK throttle their class a step while one binds,
and recover towards the budget's setting (R423). -/
def State.railStep (s : State) (r : Nat) : State :=
  let m := s.get Fld.PWR_PWR_STATUS_MEM_FRAC
  let l := s.get Fld.PWR_PWR_STATUS_LINK_FRAC
  if r = 1 then s.put Fld.PWR_PWR_STATUS_MEM_FRAC (if s.railBinds 1 then max 4 (m - 1) else min s.memBudget (m + 1))
  else if r = 2 then s.put Fld.PWR_PWR_STATUS_LINK_FRAC (if s.railBinds 2 then max 2 (l - 1) else min s.linkBudget (l + 1))
  else s

/-- A 1 µs window of a rail ends: each rail counts one above `LIM_1US` (R433), and for VIO and VAON the page event sets (R407). -/
def State.railMicro (s : State) (r : Nat) : State :=
  let a := (s.rail r).avgs.getD 0 0
  let s := s.put Fld.PWR_RAIL_MEAS_I_1US a r
  let s := s.put Fld.PWR_RAIL_PEAK_I_PEAK (max (s.get Fld.PWR_RAIL_PEAK_I_PEAK r) a) r
  if s.railLimit r 0 < a then
    let s := s.bump Fld.PWR_RAIL_OVER_COUNT 1 r
    if 3 ≤ r then s.event Fld.PWR_PAGE_EVENT_RAIL_OVER 0 r else s
  else s

/-- The temperature and the rails leave room for boost (R410). -/
def State.boostCool (s : State) : Bool :=
  decide (signed 12 (s.get Fld.PWR_PWR_TJ_TJ) + 40 ≤ 4 * (s.get Fld.PWR_THERM_CFG_THERM_LIMIT : Int)) &&
    (List.range 5).all (fun r => decide (10 * (s.rail r).avgs.getD 2 0 < 9 * s.railLimit r 2))

/-- The conditions of R410 that are measured within a control period have held since its start, and hold still. -/
def State.keepCool (s : State) : State := { s with coolRun := s.coolRun && s.boostCool }

/-- A voltage is written on the AVSBus (R467). DESIGN CHOICE (log entry 96): the rule names the voltage and status reads and says nowhere
when the die makes them; it makes both of the rail after each write. -/
def State.avsWrite (s : State) (rail mv : Nat) : State :=
  let s : State := { s with avs := s.avs ++ [.write rail mv, .readVoltage rail, .readStatus rail] }
  if rail = 0 then { s with vcoreSet := mv } else { s with vsramSet := mv }

/-- VCORE has come down to its target, so that VSRAM follows (R467). -/
def State.vsramFollows (s : State) (rail mv : Nat) : State :=
  match s.vsramDue with
  | some v => if rail = 0 ∧ mv ≤ s.vcoreSet then ({ s with vsramDue := none } : State).avsWrite 1 v else s
  | none => s

/-- A rail's voltage and current are measured (R407). -/
def State.railSample (s : State) (rail milliVolt current : Nat) : State :=
  let s := (s.put Fld.PWR_RAIL_MEAS_MV milliVolt rail).vsramFollows rail milliVolt
  let x := ((((s.rail rail).account rail milliVolt current).sample 0 current).sample 1 current).sample 2 current
  let s := { s with rails := tset (fun _ => RailSt.init) rail x s.rails }
  if x.counts.getD 0 0 ≠ 0 then s
  else
    let s := s.railMicro rail
    ((s.railStep rail).reasons s.currentReasons).keepCool

/-! ### The allowance and the issue fraction (R413-R417, R423) -/

/-- How far the allowance may move in 10 ns for a grade of `u` × 100 ns (R413): 1,100 A per u × 100 ns, in 1/16 A. -/
def gradeStep (u : Nat) : Nat := 1760 / u

/-- The current that keeps VCORE window `w` at or below its limit if the allowance holds for the rest of it (R414). -/
def State.windowRoom (s : State) (w : Nat) : Nat :=
  let x := s.rail 0
  (windowLen w * s.railLimit 0 w - x.sums.getD w 0) / (windowLen w - x.counts.getD w 0)

/-- The current that the compute share allows at the measured VCORE, in 1/16 A (R414); none before a measurement. -/
def State.shareRoom (s : State) : Option Nat :=
  let mv := s.get Fld.PWR_RAIL_MEAS_MV 0
  if mv = 0 then none else some (s.shareW * 16 * 1000 / mv)

/-- The VCORE windows that hold the allowance below demand `d`, the compute share allowing more (R423). -/
def State.tightWindows (s : State) (d : Nat) : List Nat :=
  let open_ := match s.shareRoom with
    | none => d
    | some x => min x d
  (List.range 3).filter (fun w => decide (s.windowRoom w < open_))

/-- The allowance that the limits other than the grade give, for demand `d` (R414, R417). -/
def State.allowanceWanted (s : State) (d : Nat) : Nat :=
  let g := min (min (s.windowRoom 0) (s.windowRoom 1)) (min (s.windowRoom 2) d)
  match s.shareRoom with
  | none => g
  | some x => min g x

/-- The issue fraction for allowance `g` and demand `d`, in 1/64 (R414). -/
def State.fraction (s : State) (g d : Nat) : Nat :=
  let k := 4 * s.get Fld.PWR_PWR_STATUS_DUTY
  max 1 (if d = 0 then k else min k (64 * g / d))

/-- `ISSUE_FRACTION_UPDATE`: the 10 ns step of the controller for demand `demand` in 1/16 A (R413, R414, R417). -/
def execIssueFractionUpdate (demand : Nat) (s : State) : Res :=
  let up := s.allowance + gradeStep (s.get Fld.PWR_PWR_GRADE_GRADE_UP)
  let down := s.allowance - gradeStep (s.get Fld.PWR_PWR_GRADE_GRADE_DOWN)
  let want := s.allowanceWanted demand
  let g := max down (min up want)
  let phi := s.fraction g demand
  let s := if demand < g then
      { (s.count Fld.PWR_FILLER_CK_COUNT (Config.fillerCk s.free).toNat) with free := s.free + 1 }
    else s
  let s := { s with allowance := g, phi := phi, tight := s.tightWindows demand }
  .next (s.reasons (s.currentReasons ++ [(0xB, decide (phi < 64) && decide (64 ≤ s.fraction want demand), 0, 0)]))

/-! ### Operating points (R408-R412) -/

/-- The arithmetic clock of an operating point in MHz (R408). -/
def opMhz (op : Nat) : Nat := [2300, 2000, 1800, 1600, 1400, 1200, 1000, 800].getD op 1000

/-- The VSRAM that goes with a VCORE: min(max(VCORE + 20 mV, 0.70 V), 0.85 V) (R467). -/
def vsramFor (mv : Nat) : Nat := min (max (mv + 20) 700) 850

/-- Ask the regulators for a VCORE (R467): VSRAM is written before VCORE rises, and once VCORE has come down. -/
def State.askVcore (s : State) (mv : Nat) : State :=
  if s.vcoreSet ≤ mv then (({ s with avs := [], vsramDue := none } : State).avsWrite 1 (vsramFor mv)).avsWrite 0 mv
  else ({ s with avs := [], vsramDue := some (vsramFor mv) } : State).avsWrite 0 mv

/-- Run at an operating point: its clock, and its trimmed VCORE (R408, R409). -/
def State.runAt (s : State) (op : Nat) : State :=
  (((s.put Fld.PWR_PWR_STATUS_OP op).put Fld.CLK_CLK_FREQ_MHZ (opMhz op)).askVcore (s.fuses.vcore.getD op 0))

/-- Go towards operating point `op` (R409): down at once, up by one once VCORE has reached its target. -/
def State.moveTo (s : State) (op : Nat) : State :=
  let cur := s.get Fld.PWR_PWR_STATUS_OP
  if cur ≤ op then ({ s with opTarget := none } : State).runAt op
  else ({ s with opTarget := some (cur - 1) } : State).askVcore (s.fuses.vcore.getD (cur - 1) 0)

/-- `VCORE_REACHED`: the requested VCORE is there, and the clock is raised (R409). -/
def execVcoreReached (s : State) : Res :=
  match s.opTarget with
  | none => .next s
  | some op => .next ((({ s with opTarget := none } : State).runAt op).reasons [(0xA, false, 0, 0)])

/-- `VCORE_READY_TIMEOUT`: the rail is not ready (R409, R467), since its target was not reached within 50 µs or an AVSBus transaction failed:
the step is cancelled, and during bring-up the die stays at its start-up voltages. With no step under way no target is awaited, and a
transaction that fails only reports (log entry 96). -/
def execVcoreReadyTimeout (miss : RailMiss) (s : State) : Res :=
  let report (s : State) : State := (s.reasons [(0xA, true, 0, miss.milliVolt)]).event Fld.PWR_PAGE_EVENT_RAIL_NOT_READY
  match s.opTarget with
  | some _ =>
    .next (report (({ s with opTarget := none } : State).askVcore (s.fuses.vcore.getD (s.get Fld.PWR_PWR_STATUS_OP) 0)))
  | none =>
    if s.get Fld.BOOT_BOOT_STATE_PHASE < 8 then
      .next (({ s with vcoreSet := 810, vsramSet := 810, vsramDue := none } : State).event Fld.PWR_PAGE_EVENT_RAIL_NOT_READY)
    else .next (if miss.why = .late then s else report s)

/-! ### The control period (R410-R412, R418, R421, R425) -/

/-- A class's demand and floor by its code: 0 compute, 1 memory, 2 links. -/
def classPower (p : PowerEstimate) : Nat → Nat × Nat
  | 0 => (p.demandCompute, p.floorCompute)
  | 1 => (p.demandMemory, p.floorMemory)
  | _ => (p.demandLinks, p.floorLinks)

/-- Share what the floors leave among the classes in order (R421): the allowance of each class code. -/
def shareOut (p : PowerEstimate) (order : List Nat) (room : Int) : List (Nat × Int) :=
  (order.foldl (fun (a : List (Nat × Int) × Int) c =>
    let d : Int := (classPower p c).1
    let f : Int := (classPower p c).2
    let extra := min (d - f) a.2
    (a.1 ++ [(c, f + extra)], a.2 - extra)) ([], room)).1

/-- The allowances of compute, memory and links, and whether the floors exceed the budget (R421, R422). -/
def State.budget (s : State) (p : PowerEstimate) : List (Nat × Int) × Bool :=
  let room : Int := (s.capNow : Int) - p.static - (p.floorCompute + p.floorMemory + p.floorLinks)
  if room < 0 then ([(0, (p.floorCompute : Int)), (1, (p.floorMemory : Int)), (2, (p.floorLinks : Int))], true)
  else (shareOut p [s.get Fld.PWR_PWR_CFG_FIRST, s.get Fld.PWR_PWR_CFG_SECOND, s.get Fld.PWR_PWR_CFG_THIRD] room, false)

/-- The allowance of a class. -/
def allowOf (l : List (Nat × Int)) (c : Nat) : Int := ((l.find? (·.1 == c)).map (·.2)).getD 0

/-- The largest fraction n/16 from `lo` on whose power fits, the power running linearly from floor to demand (R418, R421). -/
def largestFraction (lo demand floor : Nat) (allow : Int) : Nat :=
  ((List.range (17 - lo)).map (16 - ·)).find? (fun (m : Nat) =>
    decide ((floor : Int) * (16 - lo : Nat) + ((demand : Int) - floor) * ((m - lo : Nat) : Int) ≤ allow * (16 - lo : Nat))) |>.getD lo

/-- The power of operating point `op` at duty k/16: its leakage and the part that duty scales, in 1/16 W (R418). -/
def opWatts (p : PowerEstimate) (op k : Nat) : Nat :=
  16 * p.opLeak.getD op 0 + (p.opPower.getD op 0 - p.opLeak.getD op 0) * k

/-- The die power of the control period that ends, in 1/16 W: what the samples of the five rails say. -/
def State.periodPower (s : State) : Nat :=
  ((List.range 5).map (fun r => (s.rail r).power / (1000 * (s.rail r).taken))).sum

/-- The die power averaged over `CAP_TAU` (R432), of as many control periods as there have been. -/
def State.powerStep (s : State) : State :=
  let l := (s.periodPower :: s.powers).take (10 * max 1 (s.get Fld.PWR_PWR_CAP_CAP_TAU))
  let s : State := { s with powers := l, rails := s.rails.map (fun e => (e.1, { e.2 with taken := 0, power := 0 })) }
  s.put Fld.PWR_PWR_POWER_AVG (min (l.sum / l.length) (2 ^ 14 - 1))

/-- R410 without `OP_MAX`. -/
def State.boostOk (s : State) (p : PowerEstimate) : Bool :=
  s.get Fld.PWR_PWR_CFG_BOOST_EN == 1 && s.get Fld.PWR_PWR_CFG_FIXED == 0 && s.fuses.opCeil % 2 == 0 &&
    decide (s.get Fld.PWR_PWR_POWER_AVG + 16 * (p.static + 40) ≤ 16 * s.capNow) &&
    s.boostCool

/-- The operating points that may be used, lowest number first, under a ceiling (R410-R412): boost needs its conditions at both ends of
the control period that ends, `OP_MAX` = 0 (`held`) among them. -/
def State.opsAllowed (s : State) (p : PowerEstimate) (ceil : Nat) (held : Bool) : List Nat :=
  if s.get Fld.PWR_PWR_CFG_FIXED = 1 then [1]
  else (List.range 8).filter (fun op =>
    decide (max ceil (s.fuses.opCeil % 2) ≤ op) && (op != 0 || (held && s.coolRun && s.boostRun && s.boostOk p)))

/-- The operating point and duty for an allowance (R418, R421). -/
def State.opChoice (s : State) (p : PowerEstimate) (ceil : Nat) (held : Bool) (allow : Int) : Nat × Nat :=
  let ops := s.opsAllowed p ceil held
  match ops.find? (fun op => decide ((opWatts p op 16 : Int) ≤ 16 * allow)) with
  | some op => (op, 16)
  | none =>
    let f := if s.get Fld.PWR_PWR_CFG_FIXED = 1 then 1 else 7
    (f, (((List.range 16).map (16 - ·)).find? (fun k => decide ((opWatts p f k : Int) ≤ 16 * allow))).getD 1)

/-- The thermal step (R425). -/
def State.thermalStep (s : State) : State :=
  let tj := signed 12 (s.get Fld.PWR_PWR_TJ_TJ)
  let lim : Int := 4 * s.get Fld.PWR_THERM_CFG_THERM_LIMIT
  let cap := s.get Fld.PWR_PWR_POWER_TH_CAP
  if lim ≤ tj then s.put Fld.PWR_PWR_POWER_TH_CAP (cap - 8)
  else if tj ≤ lim - 12 then s.put Fld.PWR_PWR_POWER_TH_CAP (min 900 (cap + 4))
  else s

/-- The 100 µs step of the power controller (R410-R412, R418, R421-R425). Boost needs its conditions at both ends of a control period
and, for those that are measured within it, throughout. -/
def State.controlPeriod (s : State) (p : PowerEstimate) : State :=
  let s := s.thermalStep
  let watts := s.periodPower / 16
  let s := s.powerStep
  let b := s.budget p
  let opMax := s.get Fld.PWR_PWR_CFG_OP_MAX
  let fixed := s.get Fld.PWR_PWR_CFG_FIXED = 1
  let floorOp := if fixed then 1 else 7
  let op := if b.2 then (floorOp, 1) else s.opChoice p opMax s.opMaxRun (allowOf b.1 0)
  let free := if b.2 then (floorOp, 1) else s.opChoice p 0 true (allowOf b.1 0)
  let m := if b.2 then 4 else largestFraction 4 p.demandMemory p.floorMemory (allowOf b.1 1)
  let l := if b.2 then 2 else largestFraction 2 p.demandLinks p.floorLinks (allowOf b.1 2)
  let s := ({ s with boostRun := s.boostOk p, coolRun := s.boostCool, opMaxRun := opMax == 0 } : State)
  let s := (s.moveTo op.1).put Fld.PWR_PWR_STATUS_DUTY op.2
  let s := { s with memBudget := m, linkBudget := l, shareW := (allowOf b.1 0).toNat }
  let s := s.put Fld.PWR_PWR_STATUS_MEM_FRAC (if s.railBinds 1 then min m (s.get Fld.PWR_PWR_STATUS_MEM_FRAC) else m)
  let s := s.put Fld.PWR_PWR_STATUS_LINK_FRAC (if s.railBinds 2 then min l (s.get Fld.PWR_PWR_STATUS_LINK_FRAC) else l)
  let below (c : Nat) : Bool := decide (allowOf b.1 c < (classPower p c).1)
  let tj := unsigned 16 (signed 12 (s.get Fld.PWR_PWR_TJ_TJ))
  (s.reasons
    [(1, below 0, 0, watts), (2, below 1, 1, watts), (3, below 2, 2, watts),
     (7, decide (s.get Fld.PWR_PWR_POWER_TH_CAP < s.get Fld.PWR_PWR_CAP_CAP_W), s.get Fld.PWR_PWR_TJ_SENSOR, tj),
     (8, b.2, 0, watts), (9, !fixed && decide (free.1 < op.1) && decide (free.1 < opMax), opMax, 0),
     (0xA, s.reasonOn 0xA && s.opTarget.isSome, 0, 0)]).trackEpisodes

/-- `TEMPERATURE_SCAN`: the 96 junction sensors, in 1/4 °C (R424); of equal readings the lowest sensor is named. The island sees the
hottest one too (R426). -/
def execTemperatureScan (quarterDegrees : List Int) (s : State) : Res :=
  match quarterDegrees with
  | [] => .next s
  | t :: r =>
    if r.length ≠ 95 then .next s
    else
      let top := r.foldl max t
      let s := (s.put Fld.PWR_PWR_TJ_TJ (unsigned 12 top)).put Fld.PWR_PWR_TJ_SENSOR ((t :: r).findIdx (· == top))
      .next ({ (if s.reasonOn 7 then s.onReason 7 0 (unsigned 16 top) else s) with aon := { s.aon with tj := top } } : State).keepCool

/-- `ENERGY_UPDATE`: `energy` more units of 2⁻¹⁶ J since the last update (R430). -/
def execEnergyUpdate (energy : Nat) (s : State) : Res := .next (s.count Fld.PWR_PWR_ENERGY_COUNT energy)

end Sys2Proof.Machine
end

