-- ==== Sys2Proof/Machine/Crypto.lean ====
section
/-! DEFINITION. The checks that the spec names by their standards: SHA-384 (R394, R447, R451), ECDSA on brainpoolP384r1
(R394, R448, R450) with the per-signature value of RFC 6979 (R448), and the CRC-32 of IEEE 802.3 (R395). The constants are
those of the standards (PRESUMED: the spec names the standards and gives no constant). -/

namespace Sys2Proof.Machine

/-! ### SHA-384 -/

/-- The first 80 primes. -/
def shaPrimes : List Nat :=
  (List.range 410).filter fun n => decide (2 ≤ n) && (List.range 21).all (fun d => decide (d < 2) || decide (n ≤ d) || n % d != 0)

/-- The first 64 bits behind the point of the `k`-th root of `p`, a root below 8; bit by bit from the top. -/
def rootBits (k p : Nat) : BitVec 64 :=
  BitVec.ofNat 64 ((List.range 67).foldl (fun r i =>
    if (r + 2 ^ (66 - i)) ^ k ≤ p * 2 ^ (64 * k) then r + 2 ^ (66 - i) else r) 0)

/-- The round constants: the cube roots of the first 80 primes. -/
def shaK : List (BitVec 64) := shaPrimes.map (rootBits 3)

/-- The initial hash value of SHA-384: the square roots of the 9th to the 16th prime. -/
def shaInit : List (BitVec 64) := ((shaPrimes.drop 8).take 8).map (rootBits 2)

/-- The message padded to whole blocks of 128 bytes: a one bit, zero bits, and the length in bits, big-endian. -/
def shaPad (b : Bytes) : Bytes :=
  let z := (128 - (b.length + 17) % 128) % 128
  b ++ [0x80#8] ++ zeros z ++ (leBytes 16 (8 * b.length)).reverse

/-- A word xored with itself under three rotations. -/
def spin (x : BitVec 64) (a b c : Nat) : BitVec 64 := x.rotateRight a ^^^ x.rotateRight b ^^^ x.rotateRight c

/-- A word xored with itself under two rotations and a shift. -/
def slide (x : BitVec 64) (a b c : Nat) : BitVec 64 := x.rotateRight a ^^^ x.rotateRight b ^^^ (x >>> c)

/-- The word that enters the schedule as the oldest of its last 16 leaves. -/
def shaNext (w : List (BitVec 64)) : BitVec 64 :=
  w.getD 0 0 + w.getD 9 0 + slide (w.getD 1 0) 1 8 7 + slide (w.getD 14 0) 19 61 6

/-- The working variables, first to eighth, after a round whose constant and schedule word sum to `kw`. -/
def shaRound (v : List (BitVec 64)) (kw : BitVec 64) : List (BitVec 64) :=
  match v with
  | [p, q, r, s, t, x, y, z] =>
    let mix := kw + z + spin t 14 18 41 + (y ^^^ (t &&& (x ^^^ y)))
    [mix + spin p 28 34 39 + ((p &&& (q ||| r)) ||| (q &&& r)), p, q, r, mix + s, t, x, y]
  | _ => v

/-- The rounds of the constants `ks`, over the last 16 words `w` of the schedule and the working variables `v`. -/
def shaRounds : List (BitVec 64) → List (BitVec 64) → List (BitVec 64) → List (BitVec 64)
  | [], _, v => v
  | k :: ks, w, v => shaRounds ks (w.drop 1 ++ [shaNext w]) (shaRound v (k + w.headD 0))

/-- One block of 128 bytes joins the hash value. -/
def shaBlock (h : List (BitVec 64)) (b : Bytes) : List (BitVec 64) :=
  (shaRounds shaK ((List.range 16).map fun i => BitVec.ofNat 64 (beVal (sub b (8 * i) 8))) h).zipWith (· + ·) h

/-- The blocks of a padded message, `n` of them. -/
def shaBlocks : Nat → Bytes → List (BitVec 64) → List (BitVec 64)
  | 0, _, h => h
  | n + 1, b, h => shaBlocks n (b.drop 128) (shaBlock h (b.take 128))

/-- SHA-384: 48 bytes. -/
def sha384 (b : Bytes) : Bytes :=
  let p := shaPad b
  (((shaBlocks (p.length / 128) p shaInit).take 6).map fun w => (leBytes 8 w.toNat).reverse).flatten

/-! ### brainpoolP384r1 -/

/-- The prime of the field. -/
def ecP : Nat := 0x8CB91E82A3386D280F5D6F7E50E641DF152F7109ED5456B412B1DA197FB71123ACD3A729901D1A71874700133107EC53
/-- The coefficient A. -/
def ecA : Nat := 0x7BC382C63D8C150C3C72080ACE05AFA0C2BEA28E4FB22787139165EFBA91F90F8AA5814A503AD4EB04A8C7DD22CE2826
/-- The coefficient B. -/
def ecB : Nat := 0x04A8C7DD22CE28268B39B55416F0447C2FB77DE107DCD2A62E880EA53EEB62D57CB4390295DBC9943AB78696FA504C11
/-- The base point. -/
def ecG : Nat × Nat :=
  (0x1D1C64F068CF45FFA2A63A81B7C13F6B8847A3E77EF14FE3DB7FCAFE0CBD10E8E826E03436D646AAEF87B2E247D4AF1E,
   0x8ABE1D7520F9C2A45CB1EB8E95CFD55262B70B29FEEC5864E19C054FF99129280E4646217791811142820341263C5315)
/-- The order of the base point. -/
def ecN : Nat := 0x8CB91E82A3386D280F5D6F7E50E641DF152F7109ED5456B31F166E6CAC0425A7CF3AB6AF6B7FC3103B883202E9046565

/-- x to the power e modulo m, over the low `n` bits of e. -/
def powMod (m : Nat) : Nat → Nat → Nat → Nat
  | 0, _, _ => 1 % m
  | n + 1, x, e => (if e % 2 = 1 then x else 1) * powMod m n (x * x % m) (e / 2) % m

/-- The inverse modulo a prime of at most 384 bits. -/
def invMod (m x : Nat) : Nat := powMod m 384 (x % m) (m - 2)

/-- The sum of two points of the curve; none is the point at infinity. -/
def ecAdd : Option (Nat × Nat) → Option (Nat × Nat) → Option (Nat × Nat)
  | none, q => q
  | p, none => p
  | some (x1, y1), some (x2, y2) =>
    if x1 = x2 ∧ (y1 + y2) % ecP = 0 then none
    else
      let l := if x1 = x2 then (3 * x1 * x1 + ecA) * invMod ecP (2 * y1) % ecP
        else (y2 + ecP - y1) * invMod ecP (x2 + ecP - x1) % ecP
      let x := (l * l + 2 * ecP - x1 - x2) % ecP
      some (x, (l * (x1 + ecP - x) + ecP - y1) % ecP)

/-- k times a point, over the low `n` bits of k. -/
def ecMul : Nat → Nat → Option (Nat × Nat) → Option (Nat × Nat)
  | 0, _, _ => none
  | n + 1, k, p => ecAdd (if k % 2 = 1 then p else none) (ecMul n (k / 2) (ecAdd p p))

/-- A point of the curve other than infinity. -/
def ecOn (x y : Nat) : Bool := decide (x < ecP) && decide (y < ecP) && y * y % ecP == (x * x * x + ecA * x + ecB) % ecP

/-- A signature (r then s, 48 bytes each, big-endian) over a message verifies with an uncompressed point of 97 bytes. -/
def ecdsaVerify (pub sig msg : Bytes) : Bool :=
  let x := beVal (sub pub 1 48)
  let y := beVal (sub pub 49 48)
  let r := beVal (sub sig 0 48)
  let t := beVal (sub sig 48 48)
  let e := beVal (sha384 msg)
  pub.getD 0 0 == 4#8 && ecOn x y && decide (0 < r) && decide (r < ecN) && decide (0 < t) && decide (t < ecN) &&
    (let w := invMod ecN t
     match ecAdd (ecMul 384 (e * w % ecN) (some ecG)) (ecMul 384 (r * w % ecN) (some (x, y))) with
     | none => false
     | some q => q.1 % ecN == r)

/-- The 48 bytes of a number, big-endian. -/
def be48 (v : Nat) : Bytes := (leBytes 48 v).reverse

/-- HMAC with SHA-384 under a key of 48 bytes. -/
def hmac384 (k m : Bytes) : Bytes :=
  let key := fit k 128
  sha384 (key.map (· ^^^ 0x5C#8) ++ sha384 (key.map (· ^^^ 0x36#8) ++ m))

/-- The candidates of RFC 6979 until one is in range, at most `n` of them. -/
def rfcLoop : Nat → Bytes → Bytes → Nat
  | 0, _, _ => 1
  | n + 1, k, v =>
    let v := hmac384 k v
    let c := beVal v
    if 1 ≤ c ∧ c < ecN then c
    else
      let k := hmac384 k (v ++ [0#8])
      rfcLoop n k (hmac384 k v)

/-- The per-signature value of RFC 6979 for a private scalar and a message hash. -/
def rfc6979 (scalar : Nat) (h : Bytes) : Nat :=
  let x := be48 scalar ++ be48 (beVal h % ecN)
  let v : Bytes := List.replicate 48 1
  let k := hmac384 (zeros 48) (v ++ [0#8] ++ x)
  let v := hmac384 k v
  let k := hmac384 k (v ++ [1#8] ++ x)
  rfcLoop 64 k (hmac384 k v)

/-- The ECDSA signature of a message under a private scalar, r then s, each big-endian (R448). -/
def ecdsaSign (scalar : Nat) (msg : Bytes) : Bytes :=
  let h := sha384 msg
  let k := rfc6979 scalar h
  match ecMul 384 k (some ecG) with
  | none => zeros 96
  | some q =>
    let r := q.1 % ecN
    be48 r ++ be48 (invMod ecN k * ((beVal h + r * scalar) % ecN) % ecN)

/-! ### CRC-32 of IEEE 802.3 -/

/-- One bit of the reflected CRC-32. -/
def crc32Bit : Nat → BitVec 32 → BitVec 32
  | 0, c => c
  | n + 1, c => crc32Bit n (if c.getLsbD 0 then (c >>> 1) ^^^ 0xEDB88320#32 else c >>> 1)

/-- The CRC-32 with the IEEE 802.3 polynomial (R395). -/
def crc32 (b : Bytes) : Nat :=
  (b.foldl (fun (c : BitVec 32) x => crc32Bit 8 (c ^^^ x.setWidth 32)) 0xFFFFFFFF#32 ^^^ 0xFFFFFFFF#32).toNat

end Sys2Proof.Machine
end

