-- ==== Sys2Proof/Machine/Num.lean ====
section
/-! DEFINITION. Exact values and the number formats (R112-R117, R121-R123, R137, R139, R152): decoding, rounding to nearest
with ties to even, stochastic rounding, encoding, comparison, and the compensated ADD of R154. A finite value is
m · 2^e with integers m and e, so sums and products are exact. Zero has no sign: R121 writes only +0. -/

namespace Sys2Proof.Machine

/-- An exact value, an infinity or a NaN. -/
inductive Val where
  | nan
  | inf (neg : Bool)
  | fin (m e : Int)
  deriving DecidableEq, Repr

/-- Zero. -/
def vzero : Val := .fin 0 0

/-- An integer as a value. -/
def vint (n : Int) : Val := .fin n 0

/-- The significand of `m · 2^e` at the lower exponent `q`. -/
def scaleTo (m e q : Int) : Int := m * 2 ^ (e - q).toNat

/-- Negation. -/
def vneg : Val → Val
  | .nan => .nan
  | .inf s => .inf !s
  | .fin m e => .fin (-m) e

/-- Magnitude. -/
def vabs : Val → Val
  | .nan => .nan
  | .inf _ => .inf false
  | .fin m e => .fin m.natAbs e

/-- Exact sum; opposite infinities give NaN (R154). -/
def vadd : Val → Val → Val
  | .nan, _ => .nan
  | _, .nan => .nan
  | .inf a, .inf b => if a = b then .inf a else .nan
  | .inf a, _ => .inf a
  | _, .inf b => .inf b
  | .fin m e, .fin n f => let q := min e f; .fin (scaleTo m e q + scaleTo n f q) q

/-- Exact difference. -/
def vsub (a b : Val) : Val := vadd a (vneg b)

/-- Exact product; zero times infinity is NaN (R171). -/
def vmul : Val → Val → Val
  | .nan, _ => .nan
  | _, .nan => .nan
  | .inf a, .inf b => .inf (a != b)
  | .inf a, .fin n _ => if n = 0 then .nan else .inf (a != decide (n < 0))
  | .fin m _, .inf b => if m = 0 then .nan else .inf (decide (m < 0) != b)
  | .fin m e, .fin n f => .fin (m * n) (e + f)

/-- Product with a power of two. -/
def vscale (v : Val) (k : Int) : Val :=
  match v with
  | .fin m e => .fin m (e + k)
  | x => x

/-- NaN. -/
def Val.isNan : Val → Bool
  | .nan => true
  | _ => false

/-- Infinite. -/
def Val.isInf : Val → Bool
  | .inf _ => true
  | _ => false

/-- Zero. -/
def Val.isZero : Val → Bool
  | .fin m _ => m == 0
  | _ => false

/-- Less than, as R123 orders values; false with a NaN. -/
def vlt : Val → Val → Bool
  | .nan, _ => false
  | _, .nan => false
  | .inf a, .inf b => a && !b
  | .inf a, _ => a
  | _, .inf b => !b
  | .fin m e, .fin n f => let q := min e f; decide (scaleTo m e q < scaleTo n f q)

/-- Equal, as R123 compares values; false with a NaN. -/
def veq (a b : Val) : Bool := !a.isNan && !b.isNan && !vlt a b && !vlt b a

/-- Below zero. -/
def vneg? (a : Val) : Bool := vlt a vzero

/-- Maximum (R123). -/
def vmax (a b : Val) : Val := if a.isNan || b.isNan then .nan else if vlt a b then b else a

/-- Minimum (R123). -/
def vmin (a b : Val) : Val := if a.isNan || b.isNan then .nan else if vlt b a then b else a

/-! ### Formats -/

/-- A binary format (R112): exponent bits, fraction bits, bias, and which of its codes are specials: 0 an exponent of
all ones is infinity or NaN; 1 only the all-ones code is NaN (E4M3); 2 no special. -/
structure Fmt where
  eb : Nat
  fb : Nat
  bias : Nat
  special : Nat
  deriving DecidableEq, Repr

/-- E4M3 (R113). -/
def fE4M3 : Fmt := { eb := 4, fb := 3, bias := 7, special := 1 }
/-- E5M2 (R113). -/
def fE5M2 : Fmt := { eb := 5, fb := 2, bias := 15, special := 0 }
/-- E3M2 (R113). -/
def fE3M2 : Fmt := { eb := 3, fb := 2, bias := 3, special := 2 }
/-- E2M3 (R113). -/
def fE2M3 : Fmt := { eb := 2, fb := 3, bias := 1, special := 2 }
/-- E2M1 (R114). -/
def fE2M1 : Fmt := { eb := 2, fb := 1, bias := 1, special := 2 }
/-- BF16 (R117). -/
def fBF16 : Fmt := { eb := 8, fb := 7, bias := 127, special := 0 }
/-- binary16 (R117). -/
def fB16 : Fmt := { eb := 5, fb := 10, bias := 15, special := 0 }
/-- binary32 (R117). -/
def fB32 : Fmt := { eb := 8, fb := 23, bias := 127, special := 0 }
/-- binary64 (R117). -/
def fB64 : Fmt := { eb := 11, fb := 52, bias := 1023, special := 0 }
/-- The pass format (R152). -/
def fPass : Fmt := { eb := 10, fb := 25, bias := 511, special := 0 }

/-- Bits of a format. -/
def Fmt.bits (f : Fmt) : Nat := 1 + f.eb + f.fb

/-- The exponent of the smallest subnormal (R112). -/
def Fmt.qmin (f : Fmt) : Int := 1 - f.bias - f.fb

/-- The largest exponent field of a finite value. -/
def Fmt.emax (f : Fmt) : Nat := if f.special = 0 then 2 ^ f.eb - 2 else 2 ^ f.eb - 1

/-- The largest finite value (R112). -/
def Fmt.maxFin (f : Fmt) : Val :=
  let frac := if f.special = 1 then 2 ^ f.fb - 2 else 2 ^ f.fb - 1
  .fin ((2 ^ f.fb + frac : Nat) : Int) ((f.emax : Int) - f.bias - f.fb)

/-- Decode a code (R112, R113). -/
def Fmt.dec (f : Fmt) (code : Nat) : Val :=
  let m := bitsAt code 0 f.fb
  let e := bitsAt code f.fb f.eb
  let neg := bitOf code (f.eb + f.fb)
  let sg (x : Nat) : Int := if neg then -(x : Int) else x
  if f.special = 0 ∧ e = 2 ^ f.eb - 1 then (if m = 0 then .inf neg else .nan)
  else if f.special = 1 ∧ e = 2 ^ f.eb - 1 ∧ m = 2 ^ f.fb - 1 then .nan
  else if e = 0 then .fin (sg m) f.qmin
  else .fin (sg (2 ^ f.fb + m)) ((e : Int) - f.bias - f.fb)

/-- The canonical NaN (R122, R152); 0 where the format has none. -/
def Fmt.nanCode (f : Fmt) : Nat :=
  if f.special = 0 then (2 ^ f.eb - 1) * 2 ^ f.fb + 2 ^ (f.fb - 1)
  else if f.special = 1 then 2 ^ (f.eb + f.fb) - 1
  else 0

/-- Encode a value that lies on the format's grid (R112, R121, R122). -/
def Fmt.enc (f : Fmt) (v : Val) : Nat :=
  match v with
  | .nan => f.nanCode
  | .inf neg => (2 ^ f.eb - 1) * 2 ^ f.fb + (if neg then 2 ^ (f.eb + f.fb) else 0)
  | .fin m e =>
    if m = 0 then 0
    else
      let a := m.natAbs
      let top : Int := e + (Nat.log2 a : Nat)
      let s := if m < 0 then 2 ^ (f.eb + f.fb) else 0
      if top < 1 - (f.bias : Int) then s + (if f.qmin ≤ e then a * 2 ^ (e - f.qmin).toNat else a / 2 ^ (f.qmin - e).toNat)
      else
        let q := top - f.fb
        let sig := if q ≤ e then a * 2 ^ (e - q).toNat else a / 2 ^ (q - e).toNat
        s + (top + f.bias).toNat * 2 ^ f.fb + (sig - 2 ^ f.fb)

/-! ### Rounding -/

/-- The quantum of a magnitude `a · 2^e` in a grid of `fb` fraction bits whose smallest step is 2^qmin. -/
def quantum (fb : Nat) (qmin : Int) (a : Nat) (e : Int) : Int := max (e + (Nat.log2 a : Nat) - fb) qmin

/-- Round a magnitude to nearest with ties to even: the integer multiple of 2^q. -/
def rneMag (a : Nat) (e q : Int) : Nat :=
  if q ≤ e then a * 2 ^ (e - q).toNat
  else
    let d := 2 ^ (q - e).toNat
    let lo := a / d
    let r := a % d
    if 2 * r > d ∨ (2 * r = d ∧ lo % 2 = 1) then lo + 1 else lo

/-- Round a finite value to `fb` fraction bits above 2^qmin, to nearest with ties to even, without a range limit. -/
def rneGrid (fb : Nat) (qmin : Int) (m e : Int) : Val :=
  if m = 0 then vzero
  else
    let q := quantum fb qmin m.natAbs e
    let k := rneMag m.natAbs e q
    .fin (if m < 0 then -(k : Int) else k) q

/-- Round to nearest with ties to even into a format with infinity; a result beyond the largest finite becomes an
infinity (R126, R154). -/
def Fmt.rne (f : Fmt) (v : Val) : Val :=
  match v with
  | .fin m e =>
    let r := rneGrid f.fb f.qmin m e
    if vlt f.maxFin (vabs r) then .inf (decide (m < 0)) else r
  | x => x

/-- Round to nearest into a format for a value that does not pass the largest finite (R128). -/
def Fmt.rneIn (f : Fmt) (v : Val) : Val :=
  match v with
  | .fin m e => rneGrid f.fb f.qmin m e
  | x => x

/-- The random bits of a stochastic rounding (R137). -/
def srBits (seed slot index : Nat) : Nat :=
  let m := 2 ^ 64
  let step (a : Nat × Nat) : Nat × Nat :=
    let x := Nat.xor a.1 a.2
    let x := x * 0xA4C31E5B97D26F0B % m
    let x := Nat.xor x (x / 2 ^ 29)
    (x, (a.2 + 0x5E2D7A91C3B40F67) % m)
  let r := step (step (step (step ((slot * 2 ^ 48 + index % 2 ^ 48) % m, seed % m))))
  r.1 / 2 ^ 32 % 2 ^ 32

/-- Stochastic rounding of a magnitude `a · 2^e` at grid step 2^q with random bits `r` (R139): the multiple of 2^q. -/
def srMag (a : Nat) (e q : Int) (r : Nat) : Nat :=
  if q ≤ e then a * 2 ^ (e - q).toNat
  else
    let d := 2 ^ (q - e).toNat
    let lo := a / d
    let frac := a % d * 2 ^ 32 / d
    if frac + r ≥ 2 ^ 32 then lo + 1 else lo

/-- Stochastic rounding into a format with infinity (R126, R139): above the largest finite, the step is that of the top
binade, and a magnitude a whole step above always gives infinity. -/
def Fmt.sr (f : Fmt) (v : Val) (r : Nat) : Val :=
  match v with
  | .fin m e =>
    if m = 0 then vzero
    else
      let qtop := (f.emax : Int) - f.bias - f.fb
      let q := min (quantum f.fb f.qmin m.natAbs e) qtop
      let k := srMag m.natAbs e q r
      let x := Val.fin (if m < 0 then -(k : Int) else k) q
      if vlt f.maxFin (vabs x) then .inf (decide (m < 0)) else x
  | x => x

/-- Stochastic rounding of a value that does not pass the largest finite (R128, R139). -/
def Fmt.srIn (f : Fmt) (v : Val) (r : Nat) : Val :=
  match v with
  | .fin m e =>
    if m = 0 then vzero
    else
      let q := quantum f.fb f.qmin m.natAbs e
      let k := srMag m.natAbs e q r
      .fin (if m < 0 then -(k : Int) else k) q
  | x => x

/-- Round a magnitude up to binary32 (R132). -/
def roundUp32 (v : Val) : Val :=
  match v with
  | .fin m e =>
    if m = 0 then vzero
    else
      let a := m.natAbs
      let q := quantum 23 fB32.qmin a e
      let k := if q ≤ e then a * 2 ^ (e - q).toNat else ceilDiv a (2 ^ (q - e).toNat)
      let x := Val.fin k q
      if vlt fB32.maxFin x then .inf false else x
  | .inf _ => .inf false
  | .nan => .nan

/-- The exponent of a non-zero finite value's leading bit: floor(log2 |v|) (R133). -/
def vlog2 : Val → Int
  | .fin m e => e + (Nat.log2 m.natAbs : Nat)
  | _ => 0

/-! ### Quotients and roots, with a sticky bit below 80 significant bits -/

/-- The quotient of two magnitudes, exact to far below any format's rounding, with a last bit that says whether a
remainder is left. -/
def vquot : Val → Val → Val
  | .fin m e, .fin n f =>
    let a := m.natAbs * 2 ^ 200
    let b := n.natAbs
    let q := a / b * 2 + (if a % b = 0 then 0 else 1)
    .fin (if (m < 0) != (n < 0) then -(q : Int) else q) (e - f - 201)
  | _, _ => .nan

/-- The integer square root: bits from the top down. -/
def isqrtFrom : Nat → Nat → Nat → Nat
  | 0, _, r => r
  | k + 1, n, r => let t := r + 2 ^ k; isqrtFrom k n (if t * t ≤ n then t else r)

/-- The square root of a positive value, with a sticky last bit. -/
def vsqrt : Val → Val
  | .fin m e =>
    let odd := e % 2 != 0
    let a := m.natAbs * 2 ^ 200 * (if odd then 2 else 1)
    let e2 := if odd then e - 1 else e
    let k := Nat.log2 a / 2 + 1
    let r := isqrtFrom (k + 1) a 0
    .fin ((r * 2 + (if r * r = a then 0 else 1) : Nat) : Int) (e2 / 2 - 101)
  | x => x

/-! ### Compensated summation -/

/-- What ADD finds (R154): nothing, an overflow, or opposite infinities. -/
structure AddRes where
  s : Val
  c : Val
  ovf : Bool
  opp : Bool

/-- ADD of R154 in format `f`. -/
def addComp (f : Fmt) (s c x : Val) : AddRes :=
  if s.isNan || x.isNan then ⟨.nan, vzero, false, false⟩
  else if s.isInf || x.isInf then
    match vadd s x with
    | .nan => ⟨.nan, vzero, false, true⟩
    | y => ⟨y, vzero, false, false⟩
  else
    let t := f.rne (vadd s x)
    if t.isInf then ⟨t, vzero, true, false⟩
    else ⟨t, f.rne (vadd c (vsub (vadd s x) t)), false, false⟩

end Sys2Proof.Machine
end

