-- ==== Sys2Proof/Machine/Control.lean ====
section
/-! DEFINITION. Control accesses (R41, R42, R48-R69): which register an address names, who may read and write it, the
access codes, the staging copy with its owner, COMMIT and DISCARD. A register whose write has an effect of its own, and
a field that other state computes, come in as the arguments `act` and `view`, which Machine/ControlActs.lean gives. -/

namespace Sys2Proof.Machine

/-! ### Pages -/

/-- The pages that the page map lists (R68). -/
def populated (page : Nat) : Bool :=
  decide (page ≤ 0xD) || (decide (0x10 ≤ page) && decide (page ≤ 0x17)) || (decide (0x40 ≤ page) && decide (page ≤ 0x7F)) ||
    (decide (0x100 ≤ page) && decide (page ≤ 0x102))

/-- A page's instance count (R49, R68). -/
def instCount (page : Nat) : Nat :=
  match blkOf page with
  | 0x4 => 5
  | 0x7 => 16
  | 0x8 => 65536
  | 0x9 => 256
  | 0xA => 8
  | 0xB => 256
  | 0xC => 4096
  | 0x10 => 9
  | 0x100 => 40
  | 0x101 => 40
  | 0x102 => 64
  | _ => 0

/-- The `BLOCK` code of a page (R68). -/
def blockCode (page : Nat) : Nat :=
  match blkOf page with
  | 0x10 => 0x10
  | 0x40 => 0x11
  | 0x100 => 0x20
  | 0x101 => 0x21
  | 0x102 => 0x22
  | b => b + 1

/-- Logical core `n` is a hole (R69, R395). -/
def State.isHole (s : State) (n : Nat) : Bool := bitOf (s.get Fld.CL_CL_STATUS_HOLES (n / 8)) (n % 8)

/-- The page of a logical core that is a hole (R69). -/
def State.retiredPage (s : State) (page : Nat) : Bool := decide (0x40 ≤ page) && decide (page ≤ 0x7F) && s.isHole (page - 0x40)

/-- A die-fatal error has stopped the die until a reset (R437). -/
def State.fatal (s : State) : Bool := s.get Fld.ERR_ERR_FATAL_FATAL == 1

/-- Compute has been released (R396). -/
def State.released (s : State) : Bool := s.get Fld.BOOT_BOOT_STATE_PHASE == 8

/-- The die is debug-unlocked: mode 0, or an accepted unlock (R449, R451). -/
def State.unlocked (s : State) : Bool := s.get Fld.SEC_SEC_STATE_UNLOCKED == 1

/-- The class code (R50, `STAGE_OWNER`). -/
def clsCode : Cls → Nat
  | .mp => 0
  | .host => 1
  | .dbg => 2
  | .ldr => 3

/-- A domain is active and of kind host (R53, R300). -/
def State.hostDomain (s : State) (d : Nat) : Bool :=
  s.get Fld.DSP_DOM_CFG_STATE 0 d == 1 && s.get Fld.DSP_DOM_CFG_KIND 0 d == 0

/-! ### Where an access lands -/

/-- What an aperture offset names (R48, R49): a page register or one of the window of an instance, in the live or the
staged view; a reserved offset; another class's window; or a window whose `CHSEL` is out of range. -/
inductive Spot where
  | reg (inst off : Nat) (staged : Bool)
  | reserved
  | foreign
  | range
  deriving DecidableEq, Repr

/-- The `CHSEL` register of a class on a page (R50). -/
def State.chsel (s : State) (page : Nat) (c : Cls) : Nat := bitsAt (s.word (regKey page 0 (0x20 + 4 * clsCode c))).toNat 0 16

/-- The spot that a page offset names for class `c` (R48, R49, R56). -/
def State.spot (s : State) (c : Cls) (page off : Nat) : Spot :=
  if off < 0x30 then .reg 0 off false
  else if off < 0x100 then .reserved
  else if off < 0x4000 then .reg 0 off false
  else if off < 0x4100 then .reserved
  else if off < 0x8000 then .reg 0 (off - 0x4000) true
  else if off < 0xC000 then
    if instCount page = 0 then .reserved
    else if (off - 0x8000) / 0x1000 ≠ clsCode c then .foreign
    else if s.chsel page c ≥ instCount page then .range
    else .reg (s.chsel page c + 1) (off % 0x800) (off % 0x1000 ≥ 0x800)
  else .reserved

/-! ### Who may access -/

/-- The unlock registers of the DBG page, which the DBG class reaches on a locked die (R53, R450, R458): `DBG_CTL`,
`DBG_STATUS`, `DBG_CHAL`, `DBG_PUB` and `DBG_TOKEN`, in the live view (R48). -/
def unlockLive (page off : Nat) : Bool :=
  page == 0xD && (off == 0x100 || off == 0x104 || (decide (0x1000 ≤ off) && decide (off < 0x1030)) ||
    (decide (0x1100 ≤ off) && decide (off < 0x1164)) || (decide (0x1200 ≤ off) && decide (off < 0x1260)))

/-- An unlock register in the live view, or in the staged view, where an access acts at the offset less 0x4000 (R48). -/
def unlockReg (page off : Nat) : Bool := unlockLive page off || (decide (0x4100 ≤ off) && unlockLive page (off - 0x4000))

/-- R53: the class may access at all: DBG on a locked die reads the DIE and ERR pages and reaches the unlock registers;
LDR ends at release; a HOST request names an active domain of kind host. -/
def State.classOk (s : State) (a : Acc) (page off : Nat) (write : Bool) : Bool :=
  match a.cls with
  | .mp => true
  | .host => s.hostDomain a.dom
  | .dbg => s.unlocked || (!write && (page == 0 || page == 5)) || unlockReg page off
  | .ldr => !s.released

/-- The `SEC_HOSTMASK` bit of a page is set (R456). -/
def State.masked (s : State) (page : Nat) : Bool :=
  if page ≤ 0xD then bitOf (s.get Fld.SEC_SEC_HOSTMASK_PAGES) page
  else if blkOf page = 0x10 then s.get Fld.SEC_SEC_HOSTMASK_CLUSTER == 1
  else if blkOf page = 0x40 then s.get Fld.SEC_SEC_HOSTMASK_CORE == 1
  else bitOf (s.get Fld.SEC_SEC_HOSTMASK_LNK_PTR_RTE) (page - 0x100)

/-- R454: the mask removes HOST from a page, but not from the DSP windows of its own domain, nor from the MBX page. -/
def State.maskOk (s : State) (a : Acc) (page : Nat) (sp : Spot) : Bool :=
  a.cls != .host || !s.masked page || page == 7 ||
    (page == 8 && match sp with
      | .reg (i + 1) _ _ => s.get Fld.DSP_Q_CFG_DOMAIN i == a.dom
      | _ => false)

/-- Mailbox buffers are read by their owner and the local surveyor core (R443). -/
def State.mbOwner (s : State) (a : Acc) (i : Nat) : Bool :=
  a.loc || (s.get Fld.MBX_MB_STATE_STATE i != 0 && s.get Fld.MBX_MB_STATE_OWNER i == clsCode a.cls &&
    (a.cls != .host || s.get Fld.MBX_MB_STATE_DOMAIN i == a.dom))

/-- R54: the read limits: HOST reads of another domain's queue window (R309), and mailbox buffers, `MB_REQ` and `MB_RSP` (R443, R457). -/
def State.readOk (s : State) (a : Acc) (page : Nat) (sp : Spot) : Bool :=
  match sp with
  | .reg (i + 1) off _ =>
    if page = 8 then a.cls != .host || s.get Fld.DSP_Q_CFG_DOMAIN i == a.dom
    else if page = 7 ∧ 0x100 ≤ off ∧ off < 0x300 then s.mbOwner a i
    else true
  | _ => true

/-- R54: the pages each class may write. -/
def State.pageWrite (s : State) (a : Acc) (page off : Nat) : Bool :=
  match a.cls with
  | .mp => page != 0xD
  | .host => (decide (7 ≤ page) && decide (page ≤ 0xC)) || page == 4 || page == 5
  | .dbg => s.unlocked || unlockReg page off
  | .ldr => page != 0xD

/-- A write of `v` under `mask` would change the bits [lo + len - 1 : lo] of the word (R55). -/
def changes (old v mask lo len : Nat) : Bool :=
  bitsAt mask lo len != 0 && bitsAt old lo len != bitsAt v lo len

/-- The pages whose HOST writes R55 limits: DSP, XLT, TRV and SCL. -/
def hostPage (page : Nat) : Bool := page == 8 || page == 9 || page == 0xB || page == 0xC

/-- R55: the registers that a HOST may write on the DSP, XLT, TRV and SCL pages; on every page only its own `CHSEL`. -/
def State.hostWrite (s : State) (a : Acc) (page inst off v : Nat) : Bool :=
  let old := (s.word (regKey page inst off)).toNat
  if a.cls ≠ .host then true
  else if page = 8 then
    if inst = 0 then
      if off < 0x30 then off == 0x10 || off == 0x24
      else if off = 0x108 then s.get Fld.DSP_Q_CFG_DOMAIN (v % 65536) == a.dom
      else if 0x1000 ≤ off ∧ off < 0x2000 then
        bitsAt (s.word (regKey 8 0 (0x2000 + (off - 0x1000) / 16 * 4))).toNat ((off - 0x1000) / 4 % 4 * 8) 8 == a.dom
      else decide (0x2400 ≤ off) && decide (off < 0x2800) && (off - 0x2400) / 4 == a.dom
    else s.get Fld.DSP_Q_CFG_DOMAIN (inst - 1) == a.dom && !(off == 0 && changes old v (2 ^ 32 - 1) 8 8)
  else if page = 9 then inst == 0 && (off == 0x10 || off == 0x24)
  else if page = 0xB then
    if inst = 0 then
      if off < 0x30 then off == 0x10 || off == 0x24
      else decide (0x1000 ≤ off) && decide (off < 0x2000) &&
        s.get Fld.TRV_SQ_CFG_DOMAIN 0 ((off - 0x1000) / 0x40) == a.dom &&
        !(off % 0x40 == Fld.TRV_SQ_CFG_DOMAIN.off % 0x40 && changes old v (2 ^ 32 - 1) Fld.TRV_SQ_CFG_DOMAIN.lo 8)
    else s.get Fld.TRV_CH_CFG_DOMAIN (inst - 1) == a.dom &&
      !(off == Fld.TRV_CH_CFG_DOMAIN.off && changes old v (2 ^ 32 - 1) Fld.TRV_CH_CFG_DOMAIN.lo 8)
  else if page = 0xC then
    if inst = 0 then off == 0x10 || off == 0x24
    else s.get Fld.SCL_SLOT_CFG_OWNER (inst - 1) == a.dom &&
      !(off == 0 && changes old v (2 ^ 32 - 1) Fld.SCL_SLOT_CFG_OWNER.lo 8)
  else true

/-- R56: a class writes only its own `CHSEL`. -/
def chselOk (a : Acc) (inst off : Nat) : Bool :=
  !(inst == 0 && decide (0x20 ≤ off) && decide (off < 0x30)) || (off - 0x20) / 4 == clsCode a.cls

/-! ### Completions -/

/-- Complete a control access with a code of R364 and its data. -/
def State.done (s : State) (code data : Nat) : State := { s with ctl := { code := code, data := data } }

/-- Refuse a control access with "protection" and set `ACCESS_REFUSED` (R53-R56). -/
def State.refuse (s : State) (page : Nat) : State := (s.raise page (2 ^ 30)).done 1 0

/-- Whether a page offset is that of a register pair that the block marks as 64-bit (R48, R49, R52), in the live or the staged view, of
the page or of a window, whatever its `CHSEL` holds. -/
def pairAt (page off : Nat) : Bool :=
  let pair (win : Bool) (o : Nat) : Bool := match regWord (blkOf page) win o with
    | some w => w.pair
    | none => false
  if 0x100 ≤ off ∧ off < 0x4000 then pair false off
  else if 0x4100 ≤ off ∧ off < 0x8000 then pair false (off - 0x4000)
  else if 0x8000 ≤ off ∧ off < 0xC000 then instCount page != 0 && pair true (off % 0x800)
  else false

/-- The access size is one R52 takes. -/
def sizeOk (page off size : Nat) : Bool :=
  if size = 4 then off % 4 == 0
  else if size = 8 then off % 8 == 0 && pairAt page off
  else false

/-! ### The header -/

/-- `PAGE_STATUS.STAGED_PENDING` (R50). -/
def State.stagedPending (s : State) (page : Nat) : Bool := bitOf (s.word (regKey page 0 0xC)).toNat 0
/-- `PAGE_CTRL.COMMIT_BUSY` (R50). -/
def State.commitBusy (s : State) (page : Nat) : Bool := bitOf (s.word (regKey page 0 0x10)).toNat 2

/-- The access comes from the owner of the staging copy: its class, and for HOST its domain (R58). -/
def State.ownsStage (s : State) (a : Acc) (page : Nat) : Bool :=
  let w := (s.word (regKey page 0 0xC)).toNat
  bitsAt w 1 2 == clsCode a.cls && (a.cls != .host || bitsAt w 8 8 == a.dom)

/-- The staging copy is empty again, and no COMMIT runs (R60, R61). -/
def State.clearStage (s : State) (page : Nat) : State :=
  let s : State := { s with staged := tkeep (fun k => k / 2 ^ 32 != page) s.staged }
  (s.setWord (regKey page 0 0xC) 0).setWord (regKey page 0 0x10) 0

/-- What a register that nothing has staged holds in the staging copy. -/
def noStage : Nat → Staged := fun _ => { val := 0, mask := 0 }

/-- COMMIT (R60, R61). -/
def State.doCommit (s : State) (a : Acc) (page : Nat) : State :=
  if !s.stagedPending page then (s.raise page (2 ^ 24)).done 0 0
  else if !s.ownsStage a page then (s.raise page (2 ^ 26)).done 3 0
  else if s.commitBusy page then s.done 0 0
  else (s.setWord (regKey page 0 0x10) 4).done 0 0

/-- DISCARD (R61). -/
def State.doDiscard (s : State) (a : Acc) (page : Nat) : State :=
  if !s.stagedPending page then (s.raise page (2 ^ 25)).done 0 0
  else if !(s.ownsStage a page || a.cls == .mp || (a.cls == .dbg && s.unlocked)) then (s.raise page (2 ^ 26)).done 3 0
  else if s.commitBusy page then (s.raise page (2 ^ 27)).done 4 0
  else ((s.clearStage page).raise page (2 ^ 25)).done 0 0

/-- A write to a common header register (R50, R56, R61, R64, R65). -/
def State.headerWrite (s : State) (a : Acc) (page off v : Nat) : State :=
  let k := regKey page 0 off
  match off with
  | 0x10 => if bitOf v 1 then s.doDiscard a page else if bitOf v 0 then s.doCommit a page else s.done 0 0
  | 0x14 => (s.setWord k (s.word k &&& ~~~(BitVec.ofNat 32 (v % 2 ^ 31)))).done 0 0
  | 0x18 =>
    let b0 := s.activeBits page false
    let c0 := s.activeBits page true
    let s := s.setWord k (BitVec.ofNat 32 v)
    let s := if b0 == 0 && s.activeBits page false != 0 then s.signal page 0 (s.groupDest page false) else s
    let s := if c0 == 0 && s.activeBits page true != 0 then s.signal page 0 (s.groupDest page true) else s
    s.done 0 0
  | 0x1C =>
    let b0 := s.groupDest page false
    let c0 := s.groupDest page true
    let s := s.setWord k (BitVec.ofNat 32 (v % 65536))
    let added (old new : Nat) := new &&& (15 - old)
    let s := if s.activeBits page false != 0 then s.signal page 0 (added b0 (s.groupDest page false)) else s
    let s := if s.activeBits page true != 0 then s.signal page 0 (added c0 (s.groupDest page true)) else s
    s.done 0 0
  | 0x20 => (s.setWord k (BitVec.ofNat 32 (v % 65536))).done 0 0
  | 0x24 => (s.setWord k (BitVec.ofNat 32 (v % 65536))).done 0 0
  | 0x28 => (s.setWord k (BitVec.ofNat 32 (v % 65536))).done 0 0
  | 0x2C => (s.setWord k (BitVec.ofNat 32 (v % 65536))).done 0 0
  | _ => s.done 0 0

/-- A read of a common header register (R50, R69); `LAT_ADD` of a core page is 1 while any bypass is in use (R97, R107). -/
def State.headerRead (s : State) (page off : Nat) : Nat :=
  match off with
  | 0x0 => blockCode page + 256 * (if blkOf page = 0x10 then page - 0x10 else if blkOf page = 0x40 then page - 0x40 else 0)
  | 0x4 => 0x0100 + Config.stepping * 2 ^ 16 + (if page = 8 then 2 ^ 24 else 0)
  | 0x8 => instCount page % 65536 + (if hasStaged (blkOf page) then 2 ^ 16 else 0) + capsBits (blkOf page) +
      (if page = 4 then s.fuses.opCeil % 2 * 2 ^ 17 else 0) +
      (if blkOf page = 0x40 ∧ s.word (Fld.CORE_SPARE_MAP_BYROW0.key (page - 0x40) 0) ≠ 0xFFFFFFFF#32 then 2 ^ 17 else 0)
  | 0xC => (s.word (regKey page 0 0xC)).toNat + (if s.retiredPage page then 8 else 0)
  | 0x10 => (s.word (regKey page 0 0x10)).toNat
  | o => if o < 0x30 then (s.word (regKey page 0 o)).toNat else 0

/-! ### Register words -/

/-- Stage the staged bits of a word (R58). -/
def State.stage (s : State) (a : Acc) (page k mask v : Nat) : State :=
  let w := (s.word (regKey page 0 0xC)).toNat
  let s := if bitOf w 0 then s
    else s.setWord (regKey page 0 0xC) (BitVec.ofNat 32 (1 + 2 * clsCode a.cls + (if a.cls = .host then a.dom % 256 * 256 else 0)))
  let old := tget noStage k s.staged
  let m := BitVec.ofNat 32 mask
  { s with staged := tset noStage k { val := (old.val &&& ~~~m) ||| (BitVec.ofNat 32 v &&& m), mask := old.mask ||| m } s.staged }

/-- How a staged write meets the staging copy (R58, R61): 0 accepted, 3 stage conflict, 4 stage locked. -/
def State.stageTest (s : State) (a : Acc) (page : Nat) : Nat :=
  if !s.stagedPending page then 0
  else if !s.ownsStage a page then 3
  else if s.commitBusy page then 4
  else 0

/-- Write the RW and W1C bits of one register word (R51). -/
def State.plainWrite (s : State) (k v : Nat) (w : RegW) : State :=
  let old := s.word k
  let rw := BitVec.ofNat 32 w.rw
  let x := BitVec.ofNat 32 v
  s.setWord k (((old &&& ~~~rw) ||| (x &&& rw)) &&& ~~~(x &&& BitVec.ofNat 32 w.w1c))

/-- Write one register word as its access codes say (R51, R58). -/
def State.wordWrite (s : State) (a : Acc) (page inst off v : Nat) : State :=
  match regWord (blkOf page) (inst != 0) off with
  | none => s.done 0 0
  | some w =>
    let k := regKey page inst off
    if w.ws = 0 then (s.plainWrite k v w).done 0 0
    else match s.stageTest a page with
      | 3 => (s.raise page (2 ^ 26)).done 3 0
      | 4 => (s.raise page (2 ^ 27)).done 4 0
      | _ => ((s.plainWrite k v w).stage a page k w.ws v).done 0 0

/-- The live value of a word as a read returns it: WO and reserved bits read 0 (R51). -/
def RegW.readMask (w : RegW) : Nat := w.rw ||| w.ro ||| w.ws ||| w.w1c ||| w.rc

/-- Read one register word in the live or the staged view (R51, R59); an RC field clears, but not for DBG (R51). -/
def State.wordRead (s : State) (a : Acc) (page inst off : Nat) (staged : Bool) : State × Nat :=
  match regWord (blkOf page) (inst != 0) off with
  | none => (s, 0)
  | some w =>
    let k := regKey page inst off
    let live := s.word k
    let st := tget noStage k s.staged
    let v := if staged then (live &&& ~~~st.mask) ||| (st.val &&& st.mask) else live
    let s := if w.rc ≠ 0 ∧ a.cls ≠ .dbg then s.setWord k (live &&& ~~~(BitVec.ofNat 32 w.rc)) else s
    (s, (v &&& BitVec.ofNat 32 w.readMask).toNat)

/-! ### Accesses -/

/-- What a register with an effect of its own does at a write: the class and page checks are past; the arguments are
the accessor, page, instance (0 for a page register, else the window instance plus 1), offset and value. -/
abbrev RegAct := State → Acc → Nat → Nat → Nat → Nat → Option State

/-- What a register that other state computes reads as: page, instance, offset. -/
abbrev RegView := State → Nat → Nat → Nat → Option Nat

/-- Write one word at a spot that has passed the checks. -/
def State.putSpot (act : RegAct) (s : State) (a : Acc) (page inst off v : Nat) : State :=
  if inst = 0 ∧ off < 0x30 then s.headerWrite a page off v
  else match act s a page inst off v with
    | some t => t
    | none => s.wordWrite a page inst off v

/-- An offset among a page's block registers, in the live or the staged view (R48). -/
def blockOff (off : Nat) : Bool := (decide (0x100 ≤ off) && decide (off < 0x4000)) || (decide (0x4100 ≤ off) && decide (off < 0x8000))

/-- Something holds the die in reset. -/
def Aon.held (a : Aon) : Bool := a.pinLow || a.railOut || a.refOut || a.tripped || a.noVaon

/-- The die is in the VAON-powered bypass of both chains (R477): in reset, with a rail out, or held after a trip. -/
def State.bypassed (s : State) : Bool := s.aon.held || s.get Fld.BOOT_BOOT_STATE_PHASE == 0

/-- An access of the DBG class finds the control segment of the test port open (R53, R476); one of another class needs none. -/
def State.portOpen (s : State) (a : Acc) : Bool := a.cls != .dbg || (bitOf s.tap.segments 0 && !s.bypassed)

/-- The checks that come before the register is known (R42, R52, R53, R69): none when they pass. A write through a closed segment does
nothing, and a read there returns zeros (R476). DESIGN CHOICE (log entry 79): an access that fails several ends as the first of these, in
this order; the page's write limits come after them. -/
def State.entryCheck (s : State) (a : Acc) (page off size : Nat) (write : Bool) : Option State :=
  if !s.portOpen a then some (s.done 0 0)
  else if !populated page then some ((s.bump Fld.ERR_ERR_UNPOP_COUNT).done 0 0)
  else if !sizeOk page off size then some (s.done 2 0)
  else if !s.classOk a page off write then some (s.refuse page)
  else if !s.maskOk a page (s.spot a.cls page off) then some (s.refuse page)
  else if s.retiredPage page && blockOff off then some (s.done 6 0)
  else none

/-- A write to the register at instance `inst` and offset `off`, its checks and effect (R51, R54-R56). -/
def State.writeReg (act : RegAct) (s : State) (a : Acc) (page inst off size v : Nat) : State :=
  if !(s.pageWrite a page off && s.hostWrite a page inst off v && chselOk a inst off) then s.refuse page
  else if size = 8 then
    let t := s.putSpot act a page inst off (v % 2 ^ 32)
    if t.ctl.code = 0 then t.putSpot act a page inst (off + 4) (v / 2 ^ 32 % 2 ^ 32) else t
  else s.putSpot act a page inst off (v % 2 ^ 32)

/-- A control write of `size` bytes to a page offset (R42, R48-R57). A HOST write to a reserved place of a page whose HOST writes R55 limits
is outside those limits. DESIGN CHOICE (log entry 79): a window write whose `CHSEL` is out of
range is ignored as R56 says, for a HOST on the DSP, XLT, TRV and SCL pages too, where R55 has no instance to test. -/
def State.pageOffWrite (act : RegAct) (s : State) (a : Acc) (page off size v : Nat) : State :=
  match s.entryCheck a page off size true with
  | some t => t
  | none =>
    match s.spot a.cls page off with
    | .reserved => if s.pageWrite a page off && !(a.cls == .host && hostPage page) then s.done 0 0 else s.refuse page
    | .foreign => s.refuse page
    | .range => if s.pageWrite a page off then (s.raise page (2 ^ 29)).done 0 0 else s.refuse page
    | .reg inst o _ => s.writeReg act a page inst o size v

/-- A control write to a die-local address (R41): an address outside the aperture is unmapped. -/
def State.ctlWriteBy (act : RegAct) (s : State) (a : Acc) (addr size v : Nat) : State :=
  if addr < 0x40000000 ∨ 0x44000000 ≤ addr then s.done 5 0
  else s.pageOffWrite act a ((addr - 0x40000000) / 0x10000) (addr % 0x10000) size v

/-- One word of a register read (R51). -/
def State.getSpot (view : RegView) (s : State) (a : Acc) (page inst off : Nat) (staged : Bool) : State × Nat :=
  if inst = 0 ∧ off < 0x30 then (s, s.headerRead page off)
  else match view s page inst off with
    | some v => (s, v)
    | none => s.wordRead a page inst off staged

/-- A control read of `size` bytes at a page offset (R42, R48-R57). -/
def State.pageOffRead (view : RegView) (s : State) (a : Acc) (page off size : Nat) : State :=
  match s.entryCheck a page off size false with
  | some t => t
  | none =>
    let sp := s.spot a.cls page off
    if !s.readOk a page sp then s.refuse page
    else match sp with
      | .reserved => s.done 0 0
      | .foreign => s.refuse page
      | .range => (s.raise page (2 ^ 29)).done 0 0
      | .reg inst o st =>
        let lo := s.getSpot view a page inst o st
        if size = 8 then
          let hi := lo.1.getSpot view a page inst (o + 4) st
          hi.1.done 0 (lo.2 + 2 ^ 32 * hi.2)
        else lo.1.done 0 lo.2

/-- A control read of a die-local address (R41). -/
def State.ctlReadBy (view : RegView) (s : State) (a : Acc) (addr size : Nat) : State :=
  if addr < 0x40000000 ∨ 0x44000000 ≤ addr then s.done 5 0
  else s.pageOffRead view a ((addr - 0x40000000) / 0x10000) (addr % 0x10000) size

/-- A write to a register of window instance `i` of a page by its owner's row, as if the class's `CHSEL` named `i`
(R56); `i` in range. -/
def State.ctlWindowBy (act : RegAct) (s : State) (a : Acc) (page i off v : Nat) (size : Nat := 4) : State :=
  if !s.portOpen a then s.done 0 0
  else if !s.classOk a page off true then s.refuse page
  else if !s.maskOk a page (.reg (i + 1) off false) then s.refuse page
  else s.writeReg act a page (i + 1) off size v

end Sys2Proof.Machine
end

