-- ==== Sys2Proof/Machine/Memory.lean ====
section
/-! DEFINITION. Core memory and field memory (R213, R226-R245): the address map, granules and regions, the access checks,
error detection and correction with its counters and records, the retirement triggers that errors pull (R398, R399), and
reads and writes of bytes. -/

namespace Sys2Proof.Machine

/-! ### Statuses of an access (R253) -/

/-- "Address unmapped". -/
def stUnmapped : Nat := 0x02
/-- "Address reserved". -/
def stReserved : Nat := 0x03
/-- "Protection". -/
def stProtection : Nat := 0x04
/-- "Sealed line". -/
def stSealed : Nat := 0x05
/-- "Unit retired". -/
def stRetired : Nat := 0x06
/-- "Translation fault". -/
def stTranslation : Nat := 0x07
/-- "Uncorrectable". -/
def stUncorrectable : Nat := 0x08
/-- "Path down". -/
def stPathDown : Nat := 0x09
/-- "Timeout". -/
def stTimeout : Nat := 0x0A

/-- Who makes a memory access, as its error records say (R439, R440): domain, requester unit, whether it is this die
itself, the requester's die and the tag; and whether it is pass traffic of this core's array (R157), -/
structure Who where
  dom : Nat
  unit : Nat
  own : Bool
  die : Nat
  tag : Nat
  pass : Bool
  deriving DecidableEq, Repr

/-- A requester of this die itself. -/
def Who.self (dom unit : Nat) : Who := { dom := dom, unit := unit, own := true, die := 0, tag := 0, pass := false }

/-! ### The address map (R41, R231) -/

/-- A memory's unit: core memory 0-63, slice 64-71. -/
def memUnit (addr : Nat) : Option Nat :=
  if addr < 0x10000000 then some (addr / 0x400000)
  else if 0x20000000 ≤ addr ∧ addr < 0x38000000 then some (64 + (addr - 0x20000000) / 0x3000000)
  else none

/-- The first address of a unit. -/
def unitBase (u : Nat) : Nat := if u < 64 then u * 0x400000 else 0x20000000 + (u - 64) * 0x3000000

/-- Granule size of a unit (R231). -/
def granSize (u : Nat) : Nat := if u < 64 then 0x10000 else 0x100000

/-- Granules of a unit (R231). -/
def granCount (u : Nat) : Nat := if u < 64 then 64 else 48

/-- The granule of an address within its unit. -/
def granOf (u addr : Nat) : Nat := (addr - unitBase u) / granSize u

/-- The register key of a granule's word: `CM_GRANg` or `SL_GRANg` (R242, R244). -/
def granKey (u g : Nat) : Nat := if u < 64 then Fld.CORE_CM_GRAN_STATE.key u g else Fld.FLD_SL_GRAN_WORD.key (u - 64) g

/-- A granule's word (R242). -/
def State.gran (s : State) (u g : Nat) : Nat := (s.word (granKey u g)).toNat

/-- Replace a granule's word. -/
def State.setGran (s : State) (u g w : Nat) : State := s.setWord (granKey u g) (BitVec.ofNat 32 w)

/-- A granule's state (R233). -/
def State.granState (s : State) (u g : Nat) : Nat := bitsAt (s.gran u g) 0 3
/-- Its class: 1 weight (R242). -/
def State.granClass (s : State) (u g : Nat) : Nat := bitsAt (s.gran u g) 3 1
/-- Sealed. -/
def State.granSealed (s : State) (u g : Nat) : Bool := bitOf (s.gran u g) 4
/-- First granule of its region. -/
def State.granHead (s : State) (u g : Nat) : Bool := bitOf (s.gran u g) 5
/-- Lifetime: 1 domain. -/
def State.granLife (s : State) (u g : Nat) : Nat := bitsAt (s.gran u g) 6 1
/-- Owning domain. -/
def State.granDomain (s : State) (u g : Nat) : Nat := bitsAt (s.gran u g) 8 8
/-- Region length of a head granule. -/
def State.granLen (s : State) (u g : Nat) : Nat := bitsAt (s.gran u g) 16 6 + 1

/-- A granule word of an allocated region (R242). -/
def granWord (state cls sealed head life dom lenM1 : Nat) : Nat :=
  state + 8 * cls + 16 * sealed + 32 * head + 64 * life + 256 * dom + 65536 * lenM1

/-- An address in the control aperture (R41). -/
def inAperture (addr : Nat) : Bool := decide (0x40000000 ≤ addr) && decide (addr < 0x44000000)

/-- The control page of an aperture address. -/
def aperturePage (addr : Nat) : Nat := (addr - 0x40000000) / 0x10000

/-- `ACCESS_REFUSED` of the page that a refused access addressed (R53). -/
def State.apertureRefused (s : State) (addr : Nat) : State :=
  if inAperture addr && populated (aperturePage addr) then s.raise (aperturePage addr) (2 ^ 30) else s

/-- A data access of this die to the control aperture (R42, R53): a page that the map does not populate is counted, reads as 0 and
ignores writes; any other refuses the access. -/
def State.aperture (s : State) (addr : Nat) : State × Nat :=
  if populated (aperturePage addr) then (s.apertureRefused addr, stProtection) else (s.bump Fld.ERR_ERR_UNPOP_COUNT, 0)

/-- A core whose memory is lost: a hole, or one whose retirement is past its quiesce point (R241, R399). -/
def State.coreGone (s : State) (n : Nat) : Bool := s.isHole n || s.get Fld.CORE_CORE_STATE_STATE n == 4

/-- The check of one byte's address, in the order of R42: 0 when the access is allowed. Domains are those of R235; only
pass traffic reaches a sealed line (R157); the control aperture is reached by no data access (R53). -/
def State.checkByte (s : State) (w : Who) (addr : Nat) : Nat :=
  match memUnit addr with
  | none => if inAperture addr && w.own then stProtection else stUnmapped
  | some u =>
    let g := granOf u addr
    if u < 64 ∧ s.coreGone u then stRetired
    else if s.granState u g ≠ 1 ∨ s.granDomain u g ≠ w.dom then stProtection
    else if s.granSealed u g ∧ !w.pass then stSealed
    else 0

/-- The check of an access of `n` bytes that lies within one line. -/
def State.checkAccess (s : State) (w : Who) (addr n : Nat) : Nat :=
  let a := s.checkByte w addr
  if a ≠ 0 then a else if n ≤ 1 then 0 else s.checkByte w (addr + n - 1)

/-! ### Errors: records, counters and retirement -/

/-- Keys of the error marks outside the die-local map (R213). -/
def eccOpBuf (core word : Nat) : Nat := 2 ^ 40 + core * 2 ^ 16 + word
/-- The surveyor core's private memory (R442). -/
def eccSurveyor (word : Nat) : Nat := 2 ^ 56 + word
/-- Scale history entries: slot × 16 + entry (R131). -/
def eccScale (e : Nat) : Nat := 2 ^ 57 + e
/-- Vector registers of a core: byte / 8 (R484). -/
def eccVector (core word : Nat) : Nat := 2 ^ 58 + core * 2 ^ 20 + word

/-- TLB entries, clusters 0-7 and die 8, by page key (R264, R437). -/
def eccTlb (i key : Nat) : Nat := 2 ^ 60 + i * 2 ^ 40 + key
/-- Walk cache entries, by the key of the table they lead to. -/
def eccWalk (key : Nat) : Nat := 2 ^ 61 + key

/-- The flipped bits of a word. -/
def State.flips (s : State) (k : Nat) : Nat := tget (fun _ => 0) k s.ecc

/-- The flipped bits of a word are now `n`. -/
def State.setFlips (s : State) (k n : Nat) : State := { s with ecc := tset (fun _ => 0) k n s.ecc }

/-- The memory error record of R439. -/
def memNote (w : Who) (sysId unit flags loc off : Nat) : Note :=
  { kind := 2
    body := leBytes 1 unit ++ leBytes 1 flags ++ leBytes 1 loc ++ leBytes 1 0 ++ leBytes 8 off ++
      leBytes 2 ((if w.own then sysId + 32768 else w.die) % 65536) ++ leBytes 1 w.unit ++ leBytes 1 (if w.unit = 11 then 0 else w.dom) ++ leBytes 3 w.tag ++
      zeros 1 ++ leBytes 4 0
    tail := [] }

/-- An uncorrectable error's record; it sets `UE_SEEN` (R439, R455). -/
def State.noteUe (s : State) (w : Who) (unit cls loc off : Nat) : State :=
  (s.event Fld.ERR_PAGE_EVENT_UE_SEEN).note (memNote w s.sysId unit (1 + 2 * cls) loc off)

/-- A correctable error's record: a repeat in the same protection unit within `CE_COALESCE` ms of an unread record adds
to its `REPEAT` (R439). -/
def State.noteCe (s : State) (w : Who) (unit cls loc off : Nat) : State :=
  let fresh (s : State) : State :=
    let n := s.get Fld.ERR_FN_WPTR_COUNT
    let t := s.now
    let s := s.note (memNote w s.sysId unit (2 * cls) loc off)
    { s with lastCe := some { recNo := n, unit := unit, loc := loc, off := off, time := t } }
  match s.lastCe with
  | none => fresh s
  | some l =>
    let limit := s.get Fld.ERR_FN_CFG_CE_COALESCE * 100000
    let rp := s.get Fld.ERR_FN_RPTR_COUNT
    let unread := (l.recNo + 2 ^ 32 - rp) % 2 ^ 32 < (s.get Fld.ERR_FN_WPTR_COUNT + 2 ^ 32 - rp) % 2 ^ 32
    if l.unit = unit ∧ l.loc = loc ∧ l.off = off ∧ limit ≠ 0 ∧ s.now ≤ l.time + limit ∧ unread then
      s.bump Fld.ERR_FN 1 0 (l.recNo % 128 * 16 + 5)
    else fresh s

/-- The window index of logical core `n`'s physical core on its cluster page (R404). -/
def State.physIdx (s : State) (n : Nat) : Nat := n / 8 * 9 + s.get Fld.CORE_CORE_STATE_PHYS n

/-- A new plat entry joins the new list and the retained plat; when either is full the entry is stored in neither (R390). -/
def State.platAdd (s : State) (e : Nat) : State :=
  let n := s.get Fld.PLAT_PLAT_NEW_COUNT
  let r := s.get Fld.PLAT_PLAT_COUNTS_RETAINED
  if n < 256 ∧ r < 64 then
    let s := (s.put Fld.PLAT_PLAT_NEW_ENTRY e 0 n).put Fld.PLAT_PLAT_NEW_COUNT (n + 1)
    let s := (s.put Fld.PLAT_PLAT_RET_ENTRY e 0 r).put Fld.PLAT_PLAT_COUNTS_RETAINED (r + 1)
    s.event Fld.PLAT_PAGE_EVENT_NEW_ENTRY
  else s.event Fld.PLAT_PAGE_EVENT_PLAT_FULL

/-- The core-bad plat entry of a physical core (R388). -/
def coreBad (cl phys : Nat) : Nat := 1 + 16 * cl + 256 * phys

/-- The retirement record of R439. -/
def retireNote (ev cl phys logical trig entry : Nat) : Note :=
  { kind := 7
    body := leBytes 1 ev ++ leBytes 1 cl ++ leBytes 1 phys ++ leBytes 1 0 ++ leBytes 1 logical ++ leBytes 1 trig ++ leBytes 2 0 ++
      leBytes 4 entry
    tail := [] }

/-- The failing physical core and the trigger of the retirement of logical core `n` (R439). -/
def State.retirement (s : State) (n : Nat) : Nat × Nat :=
  ((s.boot.retiring.find? (·.1 == n)).map (·.2)).getD (s.get Fld.CORE_CORE_STATE_PHYS n, 2)

/-- The retirement of logical core `n` of physical core `phys` has begun, for trigger `trig` (R439). -/
def State.retiring (s : State) (n phys trig : Nat) : State :=
  { s with boot := { s.boot with retiring := (n, phys, trig) :: s.boot.retiring } }

/-- The retirement of logical core `n` is over. -/
def State.retired (s : State) (n : Nat) : State :=
  { s with boot := { s.boot with retiring := s.boot.retiring.filter (·.1 != n) } }

/-- The memory of logical core `n` is scrubbed: no byte, no flipped bit and nothing to write back is left of it (R241). -/
def State.scrubCore (s : State) (n : Nat) : State :=
  let out (a : Nat) : Bool := decide (a < unitBase n) || decide (unitBase n + 0x400000 ≤ a)
  { s with mem := tkeep out s.mem, ecc := tkeep (fun k => out (k * 8)) s.ecc, fixups := s.fixups.filter (fun k => out (k * 8)) }

/-- A logical core becomes a hole (R399, steps 5 and 6): its granules are OFFLINE, its failed core is scrubbed, and `HOLE_MADE` sets.
`rec` writes the record of the error that led to it, whose kind is lower (R441). -/
def State.makeHole (s : State) (n phys trig : Nat) (rec : State → State := id) : State :=
  let s := s.scrubCore n
  let s := s.put Fld.CL_CL_STATUS_HOLES (s.get Fld.CL_CL_STATUS_HOLES (n / 8) ||| 2 ^ (n % 8)) (n / 8)
  let s := (List.range 64).foldl (fun s g => s.setGran n g 5) s
  let s := s.put Fld.CORE_CORE_STATE_STATE 0 n
  let s := s.event Fld.CL_PAGE_EVENT_HOLE_MADE (n / 8) phys
  (rec s).note (retireNote 2 (n / 8) phys n trig (coreBad (n / 8) phys))

/-- A recovery test failure: the spare is retired too, and the logical core becomes a hole (R399, steps 4 and 5). -/
def State.recoveryFailed (s : State) (cl phys : Nat) (seen rec : State → State := id) : State :=
  let i := cl * 9 + phys
  let n := cl * 8 + s.get Fld.CL_PC_STATE_LOGICAL i
  let s := s.put Fld.CL_PC_STATE_STATE 5 i
  let s := seen (s.platAdd (coreBad cl phys))
  (s.retired n).makeHole n phys 3 rec

/-- A retirement trigger on a physical core (R398-R400): in service it enters QUIESCING and its entry joins the lists;
an idle spare is retired; in recovery it counts as a failed recovery test; otherwise nothing happens. The events of a cluster page
that concern one physical core name its window instance (log entry 81). `seen` and `rec` raise the event and write the record of the
error that triggers it, each before what is of a higher page or kind (R441). -/
def State.retireTrigger (s : State) (cl phys trig : Nat) (seen rec : State → State := id) : State :=
  let i := cl * 9 + phys
  match s.get Fld.CL_PC_STATE_STATE i with
  | 0 =>
    let n := cl * 8 + s.get Fld.CL_PC_STATE_LOGICAL i
    let s := (s.put Fld.CL_PC_STATE_STATE 7 i).put Fld.CORE_CORE_STATE_STATE 2 n
    let s := s.retiring n phys trig
    let s := (seen (s.platAdd (coreBad cl phys))).event Fld.CL_PAGE_EVENT_RETIRE_START cl phys
    (rec s).note (retireNote 0 cl phys n trig (coreBad cl phys))
  | 1 =>
    let s := (s.put Fld.CL_PC_STATE_STATE 5 i).put Fld.CL_CL_STATUS_SPARE_AVAIL 0 cl
    let s := s.put Fld.CL_CL_STATUS_SPARE_PHYS 0xF cl
    let s := (seen (s.platAdd (coreBad cl phys))).event Fld.CL_PAGE_EVENT_SPARE_LOST cl phys
    (rec s).note (retireNote 3 cl phys 0 trig (coreBad cl phys))
  | 6 => s.recoveryFailed cl phys seen rec
  | _ => rec (seen s)

/-- The cores have been numbered since the reset (R395), so that some are in service and may be spares. A second fetch of the image
(`REFETCH`) takes no numbering back. -/
def State.numbered (s : State) : Bool := s.boot.numbered

/-- Count an error of logical core `n`'s operand buffers or core memory for its physical core, and retire the core when
the count reaches its threshold (R398). Before the numbering of R395 no core is in service. -/
def State.countCore (s : State) (n : Nat) (ue : Bool) (seen rec : State → State := id) : State :=
  let i := s.physIdx n
  let cl := n / 8
  let s := if ue then s.bump Fld.CL_PC_ERRS_PC_UE 1 i else s.bump Fld.CL_PC_ERRS_PC_CE 1 i
  let limit := if ue then s.get Fld.CL_CL_CFG_UE_RETIRE cl else s.get Fld.CL_CL_CFG_CE_RETIRE cl
  let have_ := if ue then s.get Fld.CL_PC_ERRS_PC_UE i else s.get Fld.CL_PC_ERRS_PC_CE i
  if s.numbered ∧ limit ≠ 0 ∧ limit ≤ have_ then s.retireTrigger cl (i % 9) (if ue then 0 else 1) seen rec else rec (seen s)

/-- An error in core memory (`opbuf` false) or an operand buffer of logical core `n` at byte `off` (R229, R242). -/
def State.coreError (s : State) (w : Who) (n off cls : Nat) (opbuf ue : Bool) : State :=
  let unit := if opbuf then 0 else 1
  if ue then
    let s := s.bump Fld.CORE_CM_UE_COUNT_COUNT 1 n
    let s := if s.get Fld.CORE_CM_ERR_ADDR_VALID n = 1 then s
      else ((s.put Fld.CORE_CM_ERR_ADDR_OFFSET off n).put Fld.CORE_CM_ERR_ADDR_VALID 1 n).put Fld.CORE_CM_ERR_ADDR_OPBUF (b2n opbuf) n
    s.countCore n true (fun t => t.event Fld.ERR_PAGE_EVENT_UE_SEEN) (fun t => t.note (memNote w t.sysId unit (1 + 2 * cls) n off))
  else (s.bump Fld.CORE_CM_CE_COUNT_COUNT 1 n).countCore n false id (fun t => t.noteCe w unit cls n off)

/-- An error in slice `sl` at byte `off` (R229, R243, R244). -/
def State.sliceError (s : State) (w : Who) (sl off cls : Nat) (ue : Bool) : State :=
  if ue then
    let s := s.bump Fld.FLD_SL_UE_COUNT_COUNT 1 sl
    let s := if s.get Fld.FLD_SL_ERR_ADDR_VALID sl = 1 then s
      else ((s.put Fld.FLD_SL_ERR_ADDR_OFFSET off sl).put Fld.FLD_SL_ERR_ADDR_VALID 1 sl).put Fld.FLD_SL_ERR_ADDR_CLASS cls sl
    ((s.event Fld.ERR_PAGE_EVENT_UE_SEEN).event Fld.FLD_PAGE_EVENT_FLD_UE 0 sl).note (memNote w s.sysId 2 (1 + 2 * cls) sl off)
  else
    let before := s.get Fld.FLD_SL_CE_COUNT_COUNT sl
    let s := s.bump Fld.FLD_SL_CE_COUNT_COUNT 1 sl
    let t := s.get Fld.FLD_FLD_CFG_CE_THRESH
    let s := if t ≠ 0 ∧ before < t ∧ t ≤ s.get Fld.FLD_SL_CE_COUNT_COUNT sl then s.event Fld.FLD_PAGE_EVENT_FLD_CE_THRESH 0 sl else s
    s.noteCe w 2 cls sl off

/-- An error at a die-local address. -/
def State.memError (s : State) (w : Who) (addr : Nat) (ue : Bool) : State :=
  match memUnit addr with
  | none => s
  | some u =>
    let cls := s.granClass u (granOf u addr)
    if u < 64 then s.coreError w u (addr - unitBase u) cls false ue else s.sliceError w (u - 64) (addr - unitBase u) cls ue

/-! ### Protection units (R226) -/

/-- The words of the protection unit that holds a word: one word, or the four of a weight-class half-line. -/
def State.unitWords (s : State) (word : Nat) : List Nat :=
  match memUnit (word * 8) with
  | none => [word]
  | some u => if s.granClass u (granOf u (word * 8)) = 1 then (List.range 4).map (word / 4 * 4 + ·) else [word]

/-- The unit's first word and its size in words. -/
def State.unitOf (s : State) (word : Nat) : Nat × Nat :=
  let ws := s.unitWords word
  (ws.headD word, ws.length)

/-- The flipped bits of the protection unit of a word. -/
def State.unitFlips (s : State) (word : Nat) : Nat :=
  let u := s.unitOf word
  ((List.range u.2).map (fun i => s.flips (u.1 + i))).sum

/-- What reading one protection unit finds: 0 clean, 1 correctable, 2 uncorrectable, 3 delivered wrong. -/
structure UnitRead where
  state : State
  verdict : Nat

/-- Read the protection unit of a word (R226, R228, R229): a correctable error is counted, recorded and waits to be
written back; an uncorrectable one is counted and recorded. Beyond what the class detects the outcome is free. -/
def State.readUnit (s : State) (w : Who) (word : Nat) : UnitRead :=
  let u := s.unitOf word
  let n := s.unitFlips word
  let fix := if u.2 = 1 then 1 else 2
  let addr := u.1 * 8
  let ce (s : State) : State := { (s.memError w addr false) with fixups := if s.fixups.contains u.1 then s.fixups else s.fixups ++ [u.1] }
  if n = 0 then ⟨s, 0⟩
  else if n ≤ fix then
    let t := s.memError w addr false
    ⟨{ t with fixups := if t.fixups.contains u.1 then t.fixups else t.fixups ++ [u.1] }, 1⟩
  else if n = fix + 1 then ⟨s.memError w addr true, 2⟩
  else
    let o := (Config.eccOutcome s.free).toNat
    let s : State := { s with free := s.free + 1 }
    if o = 1 then ⟨ce s, 3⟩
    else if o = 2 then ⟨s, 3⟩
    else ⟨s.memError w addr true, 2⟩

/-- The byte at a die-local address (R41). -/
def State.byteAt (s : State) (addr : Nat) : Byte := tget blankByte addr s.mem

/-- Bytes of core or field memory, as stored. -/
def State.bytesAt (s : State) (addr n : Nat) : Bytes := (List.range n).map (fun i => s.byteAt (addr + i))

/-- Store bytes. -/
def State.storeBytes (s : State) (addr : Nat) (b : Bytes) : State :=
  { s with mem := ((List.range b.length).zip b).foldl (fun m e => tset blankByte (addr + e.1) e.2 m) s.mem }

/-- A unit whose error went undetected or was miscorrected keeps the data that the code made of it, with check bits that fit
(R226): unknown bytes. -/
def State.spoilUnit (s : State) (h : Nat) : State :=
  { s.storeBytes (h * 8) ((List.range (s.unitOf h).2).flatMap fun i => leBytes 8 (Config.eccWord s.free (h + i)).toNat) with free := s.free + 1 }

/-- What a read of bytes gives: the state after it, a status (0 OK) and the bytes. -/
structure Rd where
  state : State
  status : Nat
  bytes : Bytes

/-- The 8-byte words that hold the bytes [addr, addr + n). -/
def wordsOf (addr n : Nat) : List Nat := if n = 0 then [] else (List.range ((addr + n - 1) / 8 - addr / 8 + 1)).map (addr / 8 + ·)

/-- One protection unit of an access: it is read unless `skip` says so or an earlier one was uncorrectable. The status and the units
delivered wrong go with the state. -/
def State.unitStep (w : Who) (skip : State → Nat → Bool) (a : State × Nat × List Nat) (h : Nat) : State × Nat × List Nat :=
  if a.2.1 ≠ 0 || skip a.1 h then a
  else
    let r := a.1.readUnit w h
    (r.state, if r.verdict = 2 then stUncorrectable else 0, if r.verdict = 3 then a.2.2 ++ [h] else a.2.2)

/-- The first words of the protection units that hold some words, each once. -/
def State.headsOf (s : State) (words : List Nat) : List Nat := (words.map (fun x => (s.unitOf x).1)).eraseDups

/-- Decode the protection units of some words in one access (R228, R235), until one is uncorrectable. -/
def State.decodeUnits (s : State) (w : Who) (words : List Nat) : State × Nat × List Nat :=
  (s.headsOf words).foldl (State.unitStep w (fun _ _ => false)) (s, 0, [])

/-- The byte at an address as an access delivers it that found the units of `bad` wrong. -/
def State.decodedByte (s : State) (bad : List Nat) (a : Nat) : Byte :=
  if bad.any (fun h => decide (h ≤ a / 8) && decide (a / 8 < h + (s.unitOf h).2)) then
    (leBytes 8 (Config.eccWord s.free (a / 8)).toNat).getD (a % 8) 0
  else s.byteAt a

/-- The access has drawn its wrong data. -/
def State.drew (s : State) (bad : List Nat) : State := if bad = [] then s else { s with free := s.free + 1 }

/-- Decode up to a line of bytes (R228, R235). DESIGN CHOICE (log entry 95): an access checks the protection units of the bytes it asks for, not
those of the rest of the line that its port moves. -/
def State.decodeLine (s : State) (w : Who) (addr n : Nat) : Rd :=
  let r := s.decodeUnits w (wordsOf addr n)
  if r.2.1 ≠ 0 then ⟨r.1, r.2.1, []⟩
  else ⟨r.1.drew r.2.2, 0, (List.range n).map (fun i => r.1.decodedByte r.2.2 (addr + i))⟩

/-- Read up to a line of bytes (R42, R221): the check, then the bytes. -/
def State.readLine (s : State) (w : Who) (addr n : Nat) : Rd :=
  let c := s.checkAccess w addr n
  if inAperture addr && w.own then ⟨(s.aperture addr).1, (s.aperture addr).2, zeros n⟩
  else if c ≠ 0 then ⟨s, c, []⟩ else s.decodeLine w addr n

/-- The pieces of an access at line boundaries (R221). -/
def lineChunks : Nat → Nat → Nat → List (Nat × Nat)
  | 0, _, _ => []
  | fuel + 1, addr, n =>
    if n = 0 then []
    else
      let k := min n (64 - addr % 64)
      (addr, k) :: lineChunks fuel (addr + k) (n - k)

/-- The lines that an access touches, ascending. -/
def linesOf (addr n : Nat) : List (Nat × Nat) := lineChunks (n / 64 + 2) addr n

/-- Read a run of bytes, line by line in ascending order; the first failure ends it. -/
def State.readMem (s : State) (w : Who) (addr n : Nat) : Rd :=
  (linesOf addr n).foldl (fun (a : Rd) c =>
    if a.status ≠ 0 then a
    else
      let r := a.state.readLine w c.1 c.2
      ⟨r.state, r.status, a.bytes ++ r.bytes⟩) ⟨s, 0, []⟩

/-- Make the protection units of some words ready for one write (R227-R229): a unit that the write does not cover whole is read
first, and the write is not performed when that read is uncorrectable; what that read delivers wrong is written back with the unit.
Whole units take fresh check bits. -/
def State.openUnits (s : State) (w : Who) (words : List Nat) (covers : Nat → Bool) : State × Nat :=
  let heads := s.headsOf words
  let r := heads.foldl (State.unitStep w (fun t h => (List.range ((t.unitOf h).2 * 8)).all (fun i => covers (h * 8 + i)))) (s, 0, [])
  if r.2.1 ≠ 0 then (r.1, r.2.1)
  else
    let s := heads.foldl (fun (s : State) h =>
      let k := (s.unitOf h).2
      { ((List.range k).foldl (fun s i => s.setFlips (h + i) 0) s) with fixups := s.fixups.filter (· != h) }) r.1
    (r.2.2.foldl State.spoilUnit s, 0)

/-- Write up to a line of bytes (R227, R235). -/
def State.writeLine (s : State) (w : Who) (addr : Nat) (b : Bytes) : State × Nat :=
  let n := b.length
  let c := s.checkAccess w addr n
  if inAperture addr && w.own then s.aperture addr
  else if c ≠ 0 then (s, c)
  else
    let u := s.openUnits w (wordsOf addr n) (fun a => decide (addr ≤ a) && decide (a < addr + n))
    if u.2 ≠ 0 then u else (u.1.storeBytes addr b, 0)

/-- Write a run of bytes line by line in ascending order; the first failure ends it, with the lines before it written. -/
def State.writeMem (s : State) (w : Who) (addr : Nat) (b : Bytes) : State × Nat :=
  (linesOf addr b.length).foldl (fun (a : State × Nat) c =>
    if a.2 ≠ 0 then a else a.1.writeLine w c.1 (sub b (c.1 - addr) c.2)) (s, 0)

/-! ### Regions (R231-R241) -/

/-- Granules [g, g + len) of a unit are all FREE. -/
def State.freeRun (s : State) (u g len : Nat) : Bool :=
  decide (g + len ≤ granCount u) && (List.range len).all (fun i => s.granState u (g + i) == 0)

/-- The lowest run of `len` FREE granules of a unit (R234). -/
def State.findRun (s : State) (u len : Nat) : Option Nat := (List.range (granCount u)).find? (fun g => s.freeRun u g len)

/-- What a region request asks (R232, R289). -/
structure Region where
  unit : Nat
  len : Nat
  cls : Nat
  sealed : Bool
  life : Nat
  dom : Nat
  deriving DecidableEq, Repr

/-- What an allocation answers: the region's head granule, or why it is refused. -/
inductive Alloc where
  | ok (unit gran : Nat)
  | noSpace
  | invalid
  | retired
  deriving DecidableEq, Repr

/-- Domain `d` is active in dispatch (R300). -/
def State.domActive (s : State) (d : Nat) : Bool := s.get Fld.DSP_DOM_CFG_STATE 0 d == 1

/-- Whether and where a region fits in its unit (R234). -/
def State.tryRegion (s : State) (r : Region) : Alloc :=
  if r.unit ≥ 64 ∧ r.sealed then .invalid
  else if r.len = 0 ∨ granCount r.unit < r.len then .invalid
  else if r.unit < 64 ∧ s.isHole r.unit then .retired
  else if !s.domActive r.dom then .invalid
  else match s.findRun r.unit r.len with
    | none => .noSpace
    | some g => .ok r.unit g

/-- Mark a region's granules ALLOC (R233, R242). -/
def State.markRegion (s : State) (r : Region) (g : Nat) : State :=
  (List.range r.len).foldl (fun s i =>
    s.setGran r.unit (g + i) (granWord 1 r.cls (b2n r.sealed) (b2n (i == 0)) r.life r.dom (if i = 0 then r.len - 1 else 0))) s

/-- Release the region whose head is granule `g`: its granules become CLOSING together (R236). -/
def State.releaseRegion (s : State) (u g : Nat) : State :=
  (List.range (s.granLen u g)).foldl (fun t i => t.setGran u (g + i) (bitsPut (t.gran u (g + i)) 0 3 2)) s

/-- Release every region of a unit whose head satisfies `p`. -/
def State.releaseWhere (s : State) (u : Nat) (p : State → Nat → Nat → Bool) : State :=
  (List.range (granCount u)).foldl (fun t g =>
    if t.granState u g = 1 ∧ t.granHead u g ∧ p t u g then t.releaseRegion u g else t) s

/-- Zero a granule: its bytes, its check bits and its word (R237). -/
def State.zeroGranule (s : State) (u g : Nat) : State :=
  let lo := unitBase u + g * granSize u
  let out (a : Nat) : Bool := decide (a < lo) || decide (lo + granSize u ≤ a)
  { s with mem := tkeep out s.mem, ecc := tkeep (fun k => out (k * 8)) s.ecc, fixups := s.fixups.filter (fun k => out (k * 8)) }

/-- The head granule of the region that holds granule `g`: the nearest head at or below it. -/
def State.headOf (s : State) (u g : Nat) : Nat := ((List.range (g + 1)).reverse.find? (s.granHead u)).getD g

/-- The granules of a unit in one of the states `p`. -/
def State.countGran (s : State) (u : Nat) (p : Nat → Bool) : Nat := ((List.range (granCount u)).filter (fun g => p (s.granState u g))).length

/-- HELD granules in all core memories and slices (R243). -/
def State.heldCount (s : State) : Nat := ((List.range 72).map (fun u => s.countGran u (· == 4))).sum

/-! ### Meanings of the scratchpad rows -/

/-- `REGION_CLOSE_END` (R236, R238): no accepted access to a CLOSING region is outstanding, since every access is one
step; its granules go to SCRUB together, or to HELD while `SCRUB_HOLD` = 1. -/
def execRegionCloseEnd (unit head : Nat) (s : State) : Res :=
  onUnit "memory" 72 unit <| onUnit "granule" (granCount unit) head <|
    if s.granState unit head = 2 ∧ s.granHead unit head then
      let hold := s.get Fld.FLD_FLD_DBGCTL_SCRUB_HOLD = 1
      let t := (List.range (s.granLen unit head)).foldl (fun t i =>
        if t.granState unit (head + i) = 2 then t.setGran unit (head + i) (bitsPut (t.gran unit (head + i)) 0 3 (if hold then 4 else 3)) else t) s
      .next (if hold then t.event Fld.FLD_PAGE_EVENT_HOLD_PENDING else t)
    else .next s

/-- `SCRUB_COMPLETE` (R237): the granule holds zeros with zero check bits, its sealed lines are unsealed, and it is FREE. -/
def execScrubComplete (unit gran : Nat) (s : State) : Res :=
  onUnit "memory" 72 unit <| onUnit "granule" (granCount unit) gran <|
    if s.granState unit gran = 3 then .next ((s.zeroGranule unit gran).setGran unit gran 0) else .next s

/-- `CORRECTED_WRITEBACK` (R229): the corrected unit is written back, so its flipped bits are gone; a miscorrected unit then
holds what the code made of it (R226). -/
def execCorrectedWriteback (word : Nat) (s : State) : Res :=
  if s.fixups.contains word then
    let k := (s.unitOf word).2
    let s := if s.unitFlips word ≤ (if k = 1 then 1 else 2) then s else s.spoilUnit word
    let t := (List.range k).foldl (fun t i => t.setFlips (word + i) 0) s
    .next { t with fixups := t.fixups.filter (· != word) }
  else .next s

/-- Patrol reads one protection unit, if no accessor but patrol may not: it skips sealed lines and OFFLINE granules, and
corrects in place what it can (R228, R230). -/
def State.patrolUnit (s : State) (word : Nat) : State :=
  match memUnit (word * 8) with
  | none => s
  | some u =>
    let g := granOf u (word * 8)
    if s.granSealed u g ∨ s.granState u g = 5 then s
    else
      let r := s.readUnit (Who.self 0 10) word
      if r.verdict = 1 then
        let h := r.state.unitOf word
        let t := (List.range h.2).foldl (fun t i => t.setFlips (h.1 + i) 0) r.state
        { t with fixups := t.fixups.filter (· != h.1) }
      else r.state

/-- A patrol period in 10 ns periods (R230). -/
def State.patrolSpan (s : State) : Nat := s.get Fld.FLD_FLD_CFG_PATROL_HOURS * 360000000000

/-- `PATROL_PERIOD` (R230): at the end of a period of `PATROL_HOURS` every line that patrol reads has been read once, so it has met every
unit that holds a flipped bit; `PATROL_PASS` sets and the next period begins. `PATROL_HOURS` = 0 turns patrol off. -/
def execPatrolPeriod (s : State) : Res :=
  if s.patrolSpan = 0 ∨ s.now < s.patrolFrom + s.patrolSpan then .next s
  else
    let heads := ((s.ecc.map (·.1)).filter (· < 2 ^ 29)).map (fun k => (s.unitOf k).1)
    let t := heads.eraseDups.foldl State.patrolUnit { s with patrolFrom := s.patrolFrom + s.patrolSpan }
    .next (t.event Fld.FLD_PAGE_EVENT_PATROL_PASS)

end Sys2Proof.Machine
end

