-- ==== Sys2Proof/Machine/Rounds.lean ====
section
/-! DEFINITION. The chain contexts of the traverse unit (R312-R317, R343): the fields of a descriptor, a chain's registers, the
messages of a round, and how a round closes (R314, R336). What a core fault does to a round (R338) uses them too. -/

namespace Sys2Proof.Machine

/-! ### Fields of a traverse descriptor (R317) -/

/-- `OP`. -/
def tdOp (w : Nat) : Nat := bitsAt w 0 4
/-- `ROP`. -/
def tdRop (w : Nat) : Nat := bitsAt w 4 4
/-- `DT`. -/
def tdDt (w : Nat) : Nat := bitsAt w 8 3
/-- `CHAIN`. -/
def tdChain (w : Nat) : Nat := bitsAt w 16 8
/-- `COUNT`. -/
def tdCount (w : Nat) : Nat := bitsAt w 32 32
/-- `SRC`. -/
def tdSrc (w : Nat) : Nat := bitsAt w 64 32
/-- `DST`. -/
def tdDst (w : Nat) : Nat := bitsAt w 96 32
/-- `SHARDS`. -/
def tdShards (w : Nat) : Nat := bitsAt w 128 32
/-- `SHARDS_OLD`. -/
def tdShardsOld (w : Nat) : Nat := bitsAt w 160 32
/-- `POSMAP`. -/
def tdPosmap (w : Nat) : Nat := bitsAt w 192 32
/-- `ARR_SIG`. -/
def tdArr (w : Nat) : Nat := bitsAt w 224 10
/-- `REL_SIG`. -/
def tdRel (w : Nat) : Nat := bitsAt w 240 10
/-- `STEPS`. -/
def tdSteps (w : Nat) : Nat := bitsAt w 256 32

/-! ### Chains -/

/-- Chain context `ch`. -/
def State.chain (s : State) (ch : Nat) : Chain := tget (fun _ => Chain.idle) ch s.chains
/-- Replace it. -/
def State.setChain (s : State) (ch : Nat) (c : Chain) : State := { s with chains := tset (fun _ => Chain.idle) ch c s.chains }
/-- Replace its round. -/
def State.setRound (s : State) (ch : Nat) (r : Round) : State := s.setChain ch { s.chain ch with round := some r }
/-- The chain's length N. -/
def State.chN (s : State) (ch : Nat) : Nat := s.get Fld.TRV_CH_CFG_LEN_M1 ch + 1
/-- This die's position p. -/
def State.chP (s : State) (ch : Nat) : Nat := s.get Fld.TRV_CH_POS_POS ch
/-- The epoch of the next round, or of the round under way. -/
def State.chEpoch (s : State) (ch : Nat) : Nat := s.get Fld.TRV_CH_EPOCH_EPOCH ch
/-- The chain's window in segments. -/
def State.chWin (s : State) (ch : Nat) : Nat := s.get Fld.TRV_CH_WIN_WIN_M1 ch + 1
/-- The chain is enabled: a position above `LEN_M1` leaves it disabled (R343). -/
def State.chOn (s : State) (ch : Nat) : Bool := s.get Fld.TRV_CH_CFG_EN ch == 1 && decide (s.chP ch < s.chN ch)

/-- The descriptor of a round: its contributors agree in what they share. -/
def Round.desc (r : Round) : Nat := match r.contribs with
  | [] => 0
  | c :: _ => c.desc

/-- A new round for a gang. -/
def Round.new (gang now : Nat) : Round :=
  { gang := gang, contribs := [], started := false, shards := [], olds := [], posmap := [], held := [], sentR := 0, sentG := 0, gotR := 0
    gotG := 0, sentTo := [], sent := 0, acked := 0, results := [], permGot := 0, sStep := 1, sOff := 0, rStep := 1, rOff := 0, gStep := 0
    arr0 := 0, rel0 := 0, progress := now }

/-- The first element of shard `k`. -/
def shardOff (l : List Nat) (k : Nat) : Nat := (l.take k).sum
/-- The length of shard `k`. -/
def shardLen (l : List Nat) (k : Nat) : Nat := l.getD k 0

/-- A chain message of this die for its round (R363, R364). -/
def State.chPacket (s : State) (ch typ dest arg : Nat) (w : Nat) : Packet :=
  { pktOf typ with dest := dest, dom := s.get Fld.TRV_CH_CFG_DOMAIN ch, arg := arg, chain := ch, op := tdOp w, rop := tdRop w, dt := tdDt w,
                   epoch := s.chEpoch ch, count := tdCount w }

/-- The successor and the predecessor of this die in a chain. -/
def State.chNext (s : State) (ch : Nat) : Nat := s.get Fld.TRV_CH_NBR_NEXT ch
/-- The predecessor. -/
def State.chPrev (s : State) (ch : Nat) : Nat := s.get Fld.TRV_CH_NBR_PREV ch

/-- The round of epoch `now` has ended OK: no data of it is under way any more (R327). -/
def Peer.ends (now : Nat) (q : Peer) : Peer := if q.epoch = now ∧ !q.old then { q with ok := true } else q

/-- The round of a chain closes with a status (R314, R336): the epoch advances, what waited for its epoch goes, and a status
that is not OK raises `ROUND_FAIL`. Its contributors are the caller's. -/
def State.closeRound (s : State) (ch st : Nat) : State :=
  let now := s.chEpoch ch
  let e := (now + 1) % 2 ^ 32
  let c := s.chain ch
  let c : Chain := { round := none, grants := c.grants.filter (fun g => g.1 != now), steps := c.steps.filter (fun g => g.1 != now)
                     aborts := c.aborts.filter (· != now), early := c.early.filter (fun g => g.1 != now)
                     peers := if st = 0 then c.peers.map (Peer.ends now) else c.peers, before := c.before, astray := false }
  let s := s.setChain ch c
  let s := ((s.put Fld.TRV_CH_EPOCH_EPOCH e ch).put Fld.TRV_CH_STATUS_LAST_STATUS st ch).put Fld.TRV_CH_STATUS_ACTIVE 0 ch
  let s := (s.put Fld.TRV_CH_STATUS_ABORT_PENDING (b2n (!c.aborts.isEmpty)) ch).count Fld.TRV_CH_ROUNDS_COUNT 1 ch
  if st = 0 then s else (s.put Fld.TRV_TRV_LAST_CHAIN ch).event Fld.TRV_PAGE_EVENT_ROUND_FAIL 0 ch

/-- An ABORT for a chain's round goes to its successor and its predecessor (R336). -/
def State.sendAborts (s : State) (ch st : Nat) : State :=
  match (s.chain ch).round with
  | none => s
  | some r =>
    if s.chN ch ≤ 1 then s
    else (s.send (s.chPacket ch 0x34 (s.chNext ch) st r.desc)).send (s.chPacket ch 0x34 (s.chPrev ch) st r.desc)

/-- A kernel instance is over: it holds no scale and has touched no slot (R134, R145). -/
def State.dropScales (s : State) (gang : Nat) : State :=
  { s with held := s.held.filter (fun h => h.gang != gang), touched := s.touched.filter (fun t => t.1 != gang) }

/-- A kernel instance that has no gang of dispatch is over (R102, R338): a round of its chain ends with "aborted by peer". -/
def State.forgetKernel (s : State) (gang : Nat) : State :=
  let s := s.dropScales gang
  (s.chains.map (·.1)).foldl (fun s ch => match (s.chain ch).round with
    | some r => if r.gang = gang then (s.sendAborts ch 8).closeRound ch 8 else s
    | none => s) s

end Sys2Proof.Machine
end

