-- ==== Sys2Proof/Machine/Flags.lean ====
section
/-! DEFINITION. The numeric status word (R176), the numeric event record of a core (R171-R175), and what a core fault does
(R104, R173, R293). -/

namespace Sys2Proof.Machine

/-- Logical core `n` (R70). -/
def State.core (s : State) (n : Nat) : CoreSt := tget (fun _ => CoreSt.init) n s.cores

/-- Replace what core `n` holds. -/
def State.setCore (s : State) (n : Nat) (c : CoreSt) : State := { s with cores := tset (fun _ => CoreSt.init) n c s.cores }

/-! ### The numeric status word (R176) -/

/-- `CVT_OVF`. -/
def nswCvtOvf : Nat := 0
/-- `CVT_UNF`. -/
def nswCvtUnf : Nat := 1
/-- `CVT_NAN`. -/
def nswCvtNan : Nat := 2
/-- `ACC_OVF`. -/
def nswAccOvf : Nat := 3
/-- `NAN_SEEN`. -/
def nswNanSeen : Nat := 4
/-- `BOUND_LAPSED`. -/
def nswLapsed : Nat := 5
/-- `REC_INVALID`. -/
def nswRecInvalid : Nat := 6
/-- `LAPSE_FOLD`. -/
def nswLapseFold : Nat := 8
/-- `LAPSE_LEN`. -/
def nswLapseLen : Nat := 9
/-- `LAPSE_TRAV`. -/
def nswLapseTrav : Nat := 10

/-- Set sticky bits of the kernel's numeric status word. -/
def State.setNsw (s : State) (n bit : Nat) : State :=
  let c := s.core n
  s.setCore n { c with nsw := c.nsw ||| 2 ^ bit }

/-- Set a bit when a condition holds. -/
def State.setNswIf (s : State) (b : Bool) (n bit : Nat) : State := if b then s.setNsw n bit else s

/-! ### The numeric event record (R172, R175) -/

/-- One numeric event: its key fields (R172) and what the record holds (R175). -/
structure NumEv where
  unit : Nat
  cause : Nat
  seq : Nat
  group : Nat
  x : Nat
  y : Nat
  set : Nat
  orgM : Nat
  orgN : Nat
  kblk : Nat
  opa : Nat
  opb : Nat
  scales : Nat
  deriving DecidableEq, Repr

/-- The order of two keys, field by field (R172). -/
def keyLt (a b : Nat × Nat × Nat × Nat) : Bool :=
  if a.1 ≠ b.1 then decide (a.1 < b.1)
  else if a.2.1 ≠ b.2.1 then decide (a.2.1 < b.2.1)
  else if a.2.2.1 ≠ b.2.2.1 then decide (a.2.2.1 < b.2.2.1)
  else decide (a.2.2.2 < b.2.2.2)

/-- The key of an event. -/
def NumEv.key (e : NumEv) : Nat × Nat × Nat × Nat := (e.seq, e.group, e.x, e.y)

/-- The events of one instruction, gathered: how many, and the one with the smallest key. -/
structure EvSum where
  count : Nat
  best : Option NumEv
  deriving DecidableEq, Repr

/-- No event. -/
def EvSum.none : EvSum := { count := 0, best := Option.none }

/-- Add one event; an equal key keeps the one met first (R210). -/
def EvSum.add (a : EvSum) (e : NumEv) : EvSum :=
  { count := a.count + 1
    best := match a.best with
      | Option.none => some e
      | some b => if keyLt e.key b.key then some e else some b }

/-- The key of the record that core `n` holds. -/
def State.nerKey (s : State) (n : Nat) : Nat × Nat × Nat × Nat :=
  let lane := s.get Fld.CORE_NER_INFO_UNIT n = 2
  (s.get Fld.CORE_NER_SEQ_SEQ n, s.get Fld.CORE_NER_GRP_GROUP n,
    if lane then s.get Fld.CORE_NER_ELEM_ELEM n else s.get Fld.CORE_NER_ELEM_ROW n,
    if lane then 0 else s.get Fld.CORE_NER_ELEM_COL n)

/-- Clear core `n`'s numeric event record (R172). -/
def State.clearNer (s : State) (n : Nat) : State :=
  (List.range 16).foldl (fun s i => s.setWord (Fld.CORE_NER_INFO_VALID.key n 0 + 4 * i) 0) s

/-- Write the record (R175). -/
def State.writeNer (s : State) (n : Nat) (e : NumEv) (replaced : Bool) : State :=
  let c := s.core n
  let lane := e.unit = 2
  let s := ((((((s.put Fld.CORE_NER_INFO_VALID 1 n).put Fld.CORE_NER_INFO_REPLACED (b2n replaced) n).put Fld.CORE_NER_INFO_CAUSE e.cause n).put
    Fld.CORE_NER_INFO_UNIT e.unit n).put Fld.CORE_NER_INFO_SET e.set n).put Fld.CORE_NER_INFO_TRAP (b2n c.trap) n)
  let s := (s.put Fld.CORE_NER_DOMAIN_DOMAIN c.dom n).put Fld.CORE_NER_QUEUE_QUEUE c.queue n
  let s := (s.put Fld.CORE_NER_KINST_KINST c.kinst n).put Fld.CORE_NER_SEQ_SEQ e.seq n
  let s := (s.put Fld.CORE_NER_ORG_ORG_M e.orgM n).put Fld.CORE_NER_ORG_ORG_N e.orgN n
  let s := (s.put Fld.CORE_NER_GRP_KBLK e.kblk n).put Fld.CORE_NER_GRP_GROUP e.group n
  let s := ((s.put Fld.CORE_NER_ELEM_ROW (if lane then 0 else e.x) n).put Fld.CORE_NER_ELEM_COL (if lane then 0 else e.y) n).put
    Fld.CORE_NER_ELEM_ELEM (if lane then e.x else 0) n
  let s := s.put Fld.CORE_NER_STATION_STATION s.station n
  ((s.put Fld.CORE_NER_OPA_OPA e.opa n).put Fld.CORE_NER_OPB_OPB e.opb n).setWord (Fld.CORE_NER_SCALES_SA.key n 0) (BitVec.ofNat 32 e.scales)

/-- The field notes record of a numeric event: the 64 bytes of the record's sixteen words (R175, R439). -/
def State.nerNote (s : State) (n : Nat) : Note :=
  let b := (List.range 16).flatMap (fun j => leBytes 4 (s.word (Fld.CORE_NER_INFO_VALID.key n 0 + 4 * j)).toNat)
  { kind := 0, body := sub b 0 40, tail := sub b 48 16 }

/-! ### Core faults (R104) -/

/-- Stop a core's work: nothing further decodes or issues, sets and halves are cleared, the epilogue ends (R104, R212).
Descriptors that engines have accepted go on (R293). DESIGN CHOICE (log entry 91): an epilogue that ends so is not counted in `EPI_DONE`. -/
def State.haltCore (s : State) (n run : Nat) : State :=
  let c := s.core n
  s.setCore n { c with run := run, loops := [], cur := none, mq := [], lq := [], aq := [], vq := [], tq := [], waiting := none,
                       halves := [], loading := [], sets := [], epis := [] }

/-- The gang that a core works for. -/
def State.gang? (s : State) (g : Nat) : Option Gang := s.gangs.find? (fun x => x.gid == g)

/-- Replace a gang. -/
def State.setGang (s : State) (g : Gang) : State := { s with gangs := s.gangs.map (fun x => if x.gid = g.gid then g else x) }

/-- End a gang otherwise than by END (R293): the first reason stands, and every member that still runs stops. -/
def State.stopGang (s : State) (gid : Nat) (why : Stop) : State :=
  match s.gang? gid with
  | none => s
  | some g =>
    if g.stop.isSome then s
    else
      let s := s.setGang { g with stop := some why }
      g.members.foldl (fun s m => if (s.core m).run = 1 ∧ (s.core m).gang = gid then s.haltCore m 3 else s) s

/-- The core fault record of R439. -/
def faultNote (code n seq kinst queue dom : Nat) : Note :=
  { kind := 4
    body := leBytes 1 code ++ leBytes 1 0 ++ leBytes 1 n ++ leBytes 1 0 ++ leBytes 4 seq ++ leBytes 8 kinst ++ leBytes 2 queue ++ leBytes 1 dom
    tail := [] }

/-- A core stops on a fault (R104): the code and sequence number are latched and the work stops. -/
def State.stopOnFault (s : State) (n code seq : Nat) : State :=
  ((s.put Fld.CORE_CORE_FAULT_CODE code n).put Fld.CORE_FAULT_SEQ_SEQ seq n).haltCore n (if (s.core n).test then 0 else 3)

/-- The core fault record of core `n`'s kernel (R439). -/
def State.coreFaultNote (s : State) (n code seq : Nat) : Note :=
  let c := s.core n
  faultNote code n seq c.kinst c.queue c.dom

/-- A core stops on a fault and its records are written in ascending kind (R104, R441): the page event, the core fault record. DESIGN CHOICE
(log entry 95): a numeric event record that has latched is not written to the field notes when another fault stops the core. -/
def State.latchFault (s : State) (n code seq : Nat) : State :=
  ((s.stopOnFault n code seq).event Fld.CORE_PAGE_EVENT_FAULT n).note (s.coreFaultNote n code seq)

/-- The test kernel of core `n`, whose gang number is `gang`, has ended (R102, R134, R145, R338). DESIGN CHOICE (log entry 19): its numeric
event record is not written to the field notes. -/
def State.testOver (s : State) (n gang : Nat) : State := (s.forgetKernel gang).event Fld.CORE_PAGE_EVENT_TEST_DONE n

/-- The kernel that core `n` ran, as `c` says, ends on its fault: dispatch hears of it (R293), or a test kernel ends (R102). -/
def State.faultHeard (s : State) (n : Nat) (c : CoreSt) (code seq : Nat) : State :=
  if c.test then s.testOver n c.gang
  else s.stopGang c.gang { status := if code = 0x0E then 2 else 1, detail := code, member := c.member, seq := seq }

/-- A core fault (R104); a core that runs no kernel has none. -/
def State.coreFault (s : State) (n code seq : Nat) : State :=
  if (s.core n).run ≠ 1 then s else (s.latchFault n code seq).faultHeard n (s.core n) code seq

/-- Several cores fault at one moment (R334, R336), each given as core, gang and sequence number: every one that still runs that
gang's kernel latches its fault before dispatch hears of any; the records of one ck are in ascending kind (R441). -/
def State.coreFaults (s : State) (code : Nat) (l : List (Nat × Nat × Nat)) : State :=
  let live := l.filter (fun x => (s.core x.1).run == 1 && (s.core x.1).gang == x.2.1)
  let live := live.foldl (fun r x => if r.any (fun y => y.1 == x.1) then r else r ++ [x]) []
  let t := live.foldl (fun t x => (t.stopOnFault x.1 code x.2.2).event Fld.CORE_PAGE_EVENT_FAULT x.1) s
  let t := live.foldl (fun t x => t.note (s.coreFaultNote x.1 code x.2.2)) t
  live.foldl (fun t x => t.faultHeard x.1 (s.core x.1) code x.2.2) t

/-- The numeric events of one instruction reach the record, and whether one is the kernel's first (R172). DESIGN CHOICE (log entry 91):
they are detected together, so that the one with the smallest key is the first that latches, and `REPLACED` sets by an event of another
instruction alone. -/
def State.latchEvents (s : State) (n : Nat) (a : EvSum) : State × Bool :=
  match a.best with
  | none => (s, false)
  | some e =>
    let had := s.get Fld.CORE_NER_INFO_VALID n == 1
    let s := (s.bump Fld.CORE_NER_COUNT_COUNT a.count n).setNsw n nswNanSeen
    (if !had then s.writeNer n e false else if keyLt e.key (s.nerKey n) then s.writeNer n e true else s, !had)

/-- The first event of a kernel signals (R172). -/
def State.signalFirst (s : State) (n : Nat) (first : Bool) : State := if first then s.event Fld.CORE_PAGE_EVENT_NUMERIC n else s

/-- The numeric events of one instruction reach the record, and the first signals (R172). -/
def State.recordEvents (s : State) (n : Nat) (a : EvSum) : State := (s.latchEvents n a).1.signalFirst n (s.latchEvents n a).2

/-- A running core stops on a numeric event (R173): the event record, the page events and the core fault record go to the field notes in
ascending kind (R441), and dispatch hears of it. -/
def State.trapFault (s : State) (n seq : Nat) (first : Bool) : State :=
  let t := s.stopOnFault n 0x0E seq
  let t := ((t.note (t.nerNote n)).signalFirst n first).event Fld.CORE_PAGE_EVENT_FAULT n
  (t.note (s.coreFaultNote n 0x0E seq)).faultHeard n (s.core n) 0x0E seq

/-- The numeric events of one instruction are recorded (R172); with `NUM_TRAP` the first event of the kernel faults the core
(R173). -/
def State.numEvents (s : State) (n : Nat) (a : EvSum) : State :=
  match a.best with
  | none => s
  | some e =>
    if (s.core n).trap ∧ (s.core n).run = 1 then (s.latchEvents n a).1.trapFault n e.seq (s.latchEvents n a).2 else s.recordEvents n a

end Sys2Proof.Machine
end

