-- ==== Sys2Proof/Machine/Operands.lean ====
section
/-! DEFINITION. The fields of the 128-bit core instructions and the checks that their decoding makes on the word alone
(R74-R86, R99, R178-R199, R207, R247, R295, R315). A check gives the list of fault codes it finds; the core latches the
lowest (R104). -/

namespace Sys2Proof.Machine

/-- The major opcode (R74). -/
def iMajor (w : Nat) : Nat := bitsAt w 0 8
/-- The minor opcode (R74). -/
def iMinor (w : Nat) : Nat := bitsAt w 8 8

/-- The mask of bits [hi : lo]. -/
def span (hi lo : Nat) : Nat := 2 ^ (hi + 1) - 2 ^ lo

/-- Code 0x02 when a bit outside the used fields is set (R74, R181); the opcodes are always used. -/
def unusedFault (w : Nat) (used : List Nat) : List Nat :=
  if w &&& (2 ^ 128 - 1 - (used.foldl (· ||| ·) 0xFFFF)) = 0 then [] else [0x02]

/-- A code when a condition holds. -/
def codeIf (b : Bool) (c : Nat) : List Nat := if b then [c] else []

/-! ### Formats of the array (R79, R80) -/

/-- Element bits of a format code (R79). -/
def fmtBits (f : Nat) : Nat := match f with
  | 0 => 8 | 1 => 8 | 2 => 6 | 3 => 6 | 4 => 4 | 5 => 8 | 6 => 16 | 7 => 32 | 8 => 64
  | 9 => 4 | 0xA => 2 | 0xB => 2 | 0xC => 4 | 0xD => 2 | _ => 2

/-- The K limit of a format code (R79). -/
def fmtLimit (f : Nat) : Nat := match f with
  | 0 => 992 | 1 => 992 | 5 => 992 | 6 => 512 | 7 => 256 | 8 => 128 | _ => 1024

/-- Metadata bytes of a record per 32 elements: scales of MX formats, group entries of codes 0xC-0xE (R82). -/
def fmtMeta (f : Nat) : Nat := if f ≤ 5 then 1 else if 0xC ≤ f ∧ f ≤ 0xE then 2 else 0

/-- The element and metadata bytes of a record of `k` elements, unpadded (R82). -/
def recordBytes (f k : Nat) : Nat := ceilDiv (k * fmtBits f) 8 + fmtMeta f * ceilDiv k 32

/-- A record padded to a multiple of 64 bytes (R82). -/
def recordSize (f k : Nat) : Nat := ceilDiv (recordBytes f k) 64 * 64

/-- The pairings of R80 for multiply-add. -/
def pairOk (a b : Nat) : Bool :=
  (a == 4 && (b == 4 || (decide (9 ≤ b) && decide (b ≤ 0xE)))) ||
  (decide (a ≤ 4) && decide (b ≤ 4)) ||
  ((a == 0 || a == 1) && (b == 9 || b == 0xC)) ||
  (a == b && decide (5 ≤ a) && decide (a ≤ 8))

/-- The pairings of a mode: semiring modes take codes 0x0-0x6 (R99). -/
def modePairOk (mode a b : Nat) : Bool := pairOk a b && (mode == 0 || (decide (a ≤ 6) && decide (b ≤ 6)))

/-! ### Fields of the matrix class -/

/-- `OPEN`. -/
def mmaOpen (w : Nat) : Bool := bitOf w 16
/-- `CLOSE`. -/
def mmaClose (w : Nat) : Bool := bitOf w 17
/-- `REL_A`. -/
def mmaRelA (w : Nat) : Bool := bitOf w 18
/-- `REL_B`. -/
def mmaRelB (w : Nat) : Bool := bitOf w 19
/-- `A_FMT`. -/
def mmaAFmt (w : Nat) : Nat := bitsAt w 24 4
/-- `B_FMT`. -/
def mmaBFmt (w : Nat) : Nat := bitsAt w 28 4
/-- The A half: 0 A0, 1 A1. -/
def mmaAHalf (w : Nat) : Nat := bitsAt w 32 1
/-- The B half: 2 B0, 3 B1. -/
def mmaBHalf (w : Nat) : Nat := 2 + bitsAt w 33 1
/-- `K`. -/
def mmaK (w : Nat) : Nat := bitsAt w 35 11
/-- `M_M1`. -/
def mmaMM1 (w : Nat) : Nat := bitsAt w 46 7
/-- `N_M1`. -/
def mmaNM1 (w : Nat) : Nat := bitsAt w 53 7
/-- `MASK_SEL`. -/
def mmaMask (w : Nat) : Nat := bitsAt w 60 2
/-- `PD`. -/
def mmaPd (w : Nat) : Nat := bitsAt w 62 4
/-- `WT_SEL`. -/
def mmaWt (w : Nat) : Nat := bitsAt w 66 2
/-- `ORG_M`. -/
def mmaOrgM (w : Nat) : Nat := bitsAt w 68 16
/-- `ORG_N`. -/
def mmaOrgN (w : Nat) : Nat := bitsAt w 84 16
/-- `KBLK`. -/
def mmaKblk (w : Nat) : Nat := bitsAt w 100 16

/-- An MMA's checks (R78-R80, R99). DESIGN CHOICE (log entry 91): a `K` of 0, to which R78 and R104 give no code, has the code of a `K`
above the limit, 0x04. -/
def mmaFaults (w : Nat) : List Nat :=
  codeIf (6 < iMinor w) 1 ++
  unusedFault w [span 19 16, span 33 24, span 115 35] ++
  codeIf (!modePairOk (iMinor w) (mmaAFmt w) (mmaBFmt w)) 3 ++ codeIf (mmaK w == 0) 4

/-- `SRC` of OPLD, PDSET, MSKSET and WTSET, `DESC` of MOVE and TRAV, the destination of GINFO, `SRC` of SPUSH. -/
def iAddr32 (w : Nat) : Nat := bitsAt w 32 32
/-- `ADDR` of vector memory operations, the source of QPOST. -/
def iAddr64 (w : Nat) : Nat := bitsAt w 64 32
/-- OPLD `FMT`. -/
def opldFmt (w : Nat) : Nat := bitsAt w 24 4
/-- The half that an OPLD loads: A0, A1, B0, B1. -/
def opldHalf (w : Nat) : Nat := 2 * (iMinor w % 2) + bitsAt w 28 1
/-- OPLD `K`. -/
def opldK (w : Nat) : Nat := bitsAt w 64 11
/-- OPLD records. -/
def opldCnt (w : Nat) : Nat := bitsAt w 75 7 + 1
/-- OPLD record distance in bytes. -/
def opldStride (w : Nat) : Nat := bitsAt w 96 16 * 64
/-- The first byte after an OPLD's last record. -/
def opldEnd (w : Nat) : Nat := iAddr32 w + (opldCnt w - 1) * opldStride w + recordSize (opldFmt w) (opldK w)

/-- Bytes [lo, hi) lie within core `n`'s window (R41). -/
def inWindow (n lo hi : Nat) : Bool := decide (n * 0x400000 ≤ lo) && decide (hi ≤ (n + 1) * 0x400000)

/-- Bytes [lo, hi) lie within one field memory slice (R41). -/
def inSlice (lo hi : Nat) : Bool :=
  decide (0x20000000 ≤ lo) && decide (hi ≤ 0x38000000) && decide (lo < hi) &&
    (lo - 0x20000000) / 0x3000000 == (hi - 1 - 0x20000000) / 0x3000000

/-- The address `a`, of `n` bytes, is aligned to `al` and lies in this core's window (R74). -/
def windowFault (core a n al : Nat) : List Nat := codeIf (!(a % al == 0 && inWindow core a (a + n))) 9

/-- An OPLD's checks (R81-R83). -/
def opldFaults (core w : Nat) : List Nat :=
  codeIf (1 < iMinor w) 1 ++
  unusedFault w [span 28 24, span 81 32, span 111 96] ++
  codeIf (opldFmt w == 0xF) 3 ++
  codeIf (opldK w == 0 || decide (fmtLimit (opldFmt w) < opldK w) ||
    decide (131072 < recordSize (opldFmt w) (opldK w) * opldCnt w) || decide (opldStride w < recordSize (opldFmt w) (opldK w))) 4 ++
  codeIf (!(iAddr32 w % 64 == 0 && (inWindow core (iAddr32 w) (opldEnd w) || inSlice (iAddr32 w) (opldEnd w)))) 9

/-- The index operand in bits [27:24]. -/
def iSel (w : Nat) : Nat := bitsAt w 24 4

/-- The checks of the matrix class (R77). -/
def matrixFaults (core w : Nat) : List Nat :=
  match iMajor w with
  | 0x20 => mmaFaults w
  | 0x21 => opldFaults core w
  | 0x22 => codeIf (iMinor w != 0) 1 ++ unusedFault w [span 27 24]
  | 0x23 => codeIf (iMinor w != 0) 1 ++ unusedFault w [span 27 24, span 63 32] ++ windowFault core (iAddr32 w) 32 32
  | 0x24 => codeIf (iMinor w != 0) 1 ++ unusedFault w [span 25 24, span 63 32] ++ codeIf (bitsAt w 24 2 == 0) 2 ++
      windowFault core (iAddr32 w) 32 32
  | 0x25 => codeIf (iMinor w != 0) 1 ++ unusedFault w [span 25 24, span 63 32] ++ windowFault core (iAddr32 w) 16 16
  | _ => [1]

/-! ### Control, move, synchronisation and traverse classes -/

/-- LOOP `COUNT`. -/
def loopCount (w : Nat) : Nat := bitsAt w 24 16
/-- LOOP `BODY`. -/
def loopBody (w : Nat) : Nat := bitsAt w 40 12
/-- JUMP's offset in instructions. -/
def jumpOff (w : Nat) : Int := signed 32 (bitsAt w 24 32)
/-- FENCE's unit mask. -/
def fenceMask (w : Nat) : Nat := bitsAt w 24 5
/-- The counter of SIGNAL and SWAIT. -/
def sigCtr (w : Nat) : Nat := bitsAt w 24 10
/-- The increment of SIGNAL, the value of SWAIT. -/
def sigVal (w : Nat) : Nat := bitsAt w 64 32
/-- QPOST's queue. -/
def qpostQueue (w : Nat) : Nat := bitsAt w 24 16
/-- `ALL` of MWAIT and TWAIT. -/
def waitAll (w : Nat) : Bool := bitOf w 28
/-- `CTR` of TRAV and TWAIT. -/
def travCtr (w : Nat) : Nat := bitsAt w 24 2
/-- The stage queue of SPUSH and SPOP. -/
def stageQ (w : Nat) : Nat := bitsAt w 24 6
/-- `CTR` of SPUSH. -/
def spushCtr (w : Nat) : Nat := bitsAt w 30 2
/-- `LEN` of SPUSH. -/
def spushLen (w : Nat) : Nat := bitsAt w 64 32

/-- Die-local bytes that lie in a core window or in field memory of this die (R195, R316). -/
def inMemories (lo hi : Nat) : Bool := decide (hi ≤ 0x10000000) || (decide (0x20000000 ≤ lo) && decide (hi ≤ 0x38000000))

/-- The checks of the control class and FENCE (R76) on the word. -/
def controlFaults (w : Nat) : List Nat :=
  match iMajor w with
  | 0x00 => codeIf (iMinor w != 0) 1 ++ unusedFault w []
  | 0x01 => codeIf (iMinor w != 0) 1 ++ unusedFault w []
  | 0x02 => codeIf (iMinor w != 0) 1 ++ unusedFault w [span 51 24] ++ codeIf (loopCount w == 0 || loopBody w == 0) 0xD
  | 0x03 => codeIf (iMinor w != 0) 1 ++ unusedFault w [span 55 24]
  | 0x50 => codeIf (iMinor w != 0) 1 ++ unusedFault w [span 28 24]
  | _ => [1]

/-- The checks of the move class (R247, R248). -/
def moveFaults (core w : Nat) : List Nat :=
  match iMajor w with
  | 0x10 => codeIf (iMinor w != 0) 1 ++ unusedFault w [span 27 24, span 63 32] ++ windowFault core (iAddr32 w) 64 64
  | 0x11 => codeIf (iMinor w != 0) 1 ++ unusedFault w [span 28 24]
  | _ => [1]

/-- The checks of the synchronisation class (R295) on the word. -/
def syncFaults (core w : Nat) : List Nat :=
  match iMajor w with
  | 0x51 => codeIf (iMinor w != 0) 1 ++ unusedFault w [span 63 32] ++ windowFault core (iAddr32 w) 256 256
  | 0x52 => codeIf (iMinor w != 0) 1 ++ unusedFault w [span 27 24]
  | 0x53 => codeIf (iMinor w != 0) 1 ++ unusedFault w [span 33 24, span 95 64]
  | 0x54 => codeIf (iMinor w != 0) 1 ++ unusedFault w [span 33 24, span 95 64]
  | 0x55 => codeIf (iMinor w != 0) 1 ++ unusedFault w [span 39 24, span 95 64] ++ windowFault core (iAddr64 w) 64 64
  | _ => [1]

/-- The checks of the traverse class (R315, R316) on the word. -/
def travFaults (core w : Nat) : List Nat :=
  match iMajor w with
  | 0x40 => codeIf (iMinor w != 0) 1 ++ unusedFault w [span 25 24, span 63 32] ++ windowFault core (iAddr32 w) 64 64
  | 0x41 => codeIf (iMinor w != 0) 1 ++ unusedFault w [span 25 24, span 28 28]
  | 0x42 => codeIf (iMinor w != 0) 1 ++ unusedFault w [span 95 24] ++
      codeIf (!(iAddr32 w % 64 == 0 && spushLen w != 0 && inMemories (iAddr32 w) (iAddr32 w + spushLen w))) 9
  | 0x43 => codeIf (iMinor w != 0) 1 ++ unusedFault w [span 29 24]
  | _ => [1]

/-! ### Fields of the vector class (R181) -/

/-- `ZM`. -/
def vZm (w : Nat) : Bool := bitOf w 16
/-- `STRICT` of VPERM, `OUT_MODE` of VCST. -/
def vBit17 (w : Nat) : Bool := bitOf w 17
/-- `IMM`, or `PAIR` of VDRN and VCST. -/
def vImm (w : Nat) : Bool := bitOf w 18
/-- `VD`. -/
def vVd (w : Nat) : Nat := bitsAt w 24 4
/-- `VA`. -/
def vVa (w : Nat) : Nat := bitsAt w 28 4
/-- `VB`. -/
def vVb (w : Nat) : Nat := bitsAt w 32 4
/-- `VC`. -/
def vVc (w : Nat) : Nat := bitsAt w 36 4
/-- `VP`. -/
def vVp (w : Nat) : Nat := bitsAt w 40 3
/-- `ET`. -/
def vEt (w : Nat) : Nat := bitsAt w 43 2
/-- `COUNT`. -/
def vCount (w : Nat) : Nat := bitsAt w 46 14
/-- `IMM32`. -/
def vImm32 (w : Nat) : Nat := bitsAt w 64 32
/-- `AUX16`. -/
def vAux16 (w : Nat) : Nat := bitsAt w 96 16
/-- `AUX14`. -/
def vAux14 (w : Nat) : Nat := bitsAt w 112 14
/-- VCST's `SLOT`. -/
def vSlot (w : Nat) : Nat := bitsAt w 28 12

/-- Vector registers that a context may read (R179): the epilogue context reads `V8`-`V15`. -/
def vCanRead (epi : Bool) (r : Nat) : Bool := if epi then decide (8 ≤ r) else decide (r ≤ 11)
/-- Vector registers that a context may write (R179). -/
def vCanWrite (epi : Bool) (r : Nat) : Bool := if epi then decide (12 ≤ r) && decide (r ≤ 15) else decide (r ≤ 11)
/-- Predicates that a context may read (R179). -/
def pCanRead (epi : Bool) (r : Nat) : Bool := r == 0 || (if epi then decide (6 ≤ r) else decide (r ≤ 5))
/-- Predicates that a context may write (R179). -/
def pCanWrite (epi : Bool) (r : Nat) : Bool := r != 0 && (if epi then decide (6 ≤ r) else decide (r ≤ 5))

/-- What a vector instruction's form uses: the fields as masks, the vector registers it reads and writes, the predicates
it reads and writes, the element types allowed as a mask of `ET` values (0 when `ET` is unused), and whether `COUNT`
applies. -/
structure VForm where
  used : List Nat
  reads : List Nat
  writes : List Nat
  preads : List Nat
  pwrites : List Nat
  ets : Nat
  count : Bool

/-- The fields that most forms use: `VP`, `ET`, `COUNT`. -/
def vTail : Nat := span 42 40 ||| span 44 43 ||| span 59 46

/-- Element types allowed for a VALU minor (R185): none for a reserved one. -/
def valuEts (m : Nat) : Option Nat :=
  if m ≤ 0x02 then some 7 else if m ≤ 0x04 then some 3 else if m ≤ 0x0A then some 7
  else match m with
    | 0x0B => some 4
    | 0x0C => some 1
    | 0x0D => some 2
    | 0x0E => some 1
    | 0x16 => some 1
    | _ => if m ≤ 0x15 then some 4 else none

/-- Operands that a VALU minor takes (R185): 1, 2, or 3 with `VC`. -/
def valuArity (m : Nat) : Nat :=
  if m ≤ 0x02 then 2 else if m ≤ 0x04 then 3 else if m ≤ 0x06 then 2 else if m ≤ 0x09 then 1 else if m = 0x0A then 2
  else if m ≤ 0x0E then 1 else if m ≤ 0x11 then 2 else if m = 0x12 then 1 else if m ≤ 0x15 then 2 else 1

/-- The operand b of VALU and VCMP: `IMM32` or `VB` (R181). -/
def vBField (w : Nat) : Nat := if vImm w then span 95 64 else span 35 32

/-- The form of a vector word (R184-R207); none for a reserved opcode. DESIGN CHOICE (log entry 91): VPOP and VPFIRST take no governing
predicate, so that `VP` and `ZM` are unused fields of theirs. -/
def vForm (w : Nat) : Option VForm :=
  let m := iMinor w
  let zm := span 16 16
  let vd := span 27 24
  let va := span 31 28
  let vb := span 35 32
  let regB := if vImm w then [] else [vVb w]
  match iMajor w with
  | 0x30 =>
    match valuEts m with
    | none => none
    | some e =>
      let n := valuArity m
      some { used := [zm, vd, va, vTail] ++ (if 2 ≤ n then [span 18 18, vBField w] else []) ++ (if n = 3 then [span 39 36] else [])
             reads := [vVa w] ++ (if 2 ≤ n then regB else []) ++ (if n = 3 then [vVc w] else [])
             writes := if m = 0x16 then [vVd w, vVd w + 1] else [vVd w]
             preads := [vVp w], pwrites := [], ets := e, count := true }
  | 0x31 =>
    if m ≤ 0x0E then
      some { used := [zm, vd, va, vTail] ++ (if m = 3 then [vb] else []), reads := [vVa w] ++ (if m = 3 then [vVb w] else [])
             writes := [vVd w], preads := [vVp w], pwrites := [], ets := 3, count := true }
    else none
  | 0x32 =>
    if m ≤ 6 then
      some { used := [zm, span 26 24, va, vTail, span 18 18, vBField w], reads := [vVa w] ++ regB, writes := []
             preads := [vVp w], pwrites := [bitsAt w 24 3], ets := if m = 6 then 3 else 7, count := true }
    else none
  | 0x33 =>
    if m ≤ 6 then
      some { used := [vd, va, vTail], reads := [vVa w], writes := [vVd w], preads := [vVp w], pwrites := []
             ets := if m ≤ 2 then 7 else 4, count := true }
    else if 0x10 ≤ m ∧ m ≤ 0x13 then
      some { used := [vd, span 30 28, vTail], reads := [], writes := [vVd w], preads := [vVp w, bitsAt w 28 3], pwrites := []
             ets := 7, count := true }
    else none
  | 0x34 =>
    if m = 0 then
      some { used := [span 17 16, vd, va, vb, vTail], reads := [vVa w, vVb w], writes := [vVd w], preads := [vVp w], pwrites := []
             ets := 7, count := true }
    else none
  | 0x35 =>
    if m ≤ 4 then
      some { used := [zm, vd, vTail, span 95 64] ++ (if m = 1 ∨ m = 3 then [span 111 96] else []) ++ (if m = 2 then [vb] else [])
             reads := if m = 2 then [vVb w] else [], writes := [vVd w], preads := [vVp w], pwrites := [], ets := 7, count := true }
    else none
  | 0x36 =>
    if m ≤ 2 then
      some { used := [va, vTail, span 95 64] ++ (if m = 1 then [span 111 96] else []) ++ (if m = 2 then [vb] else [])
             reads := [vVa w] ++ (if m = 2 then [vVb w] else []), writes := [], preads := [vVp w], pwrites := [], ets := 7, count := true }
    else none
  | 0x37 =>
    if m = 0 then
      some { used := [zm, span 18 18, vd, vTail], reads := [], writes := if vImm w then [vVd w, vVd w + 1] else [vVd w]
             preads := [vVp w], pwrites := [], ets := 1, count := true }
    else none
  | 0x38 =>
    let src := bitOf w 16
    some { used := [span 17 16, span 42 40, span 59 46] ++ (if src && vBit17 w then [] else [span 125 112]) ++ (if src then [] else [vd, span 44 43]) ++
             (if vBit17 w then [] else [span 18 18, span 39 28, span 111 64])
           reads := if src then [] else [vVd w], writes := [], preads := [vVp w], pwrites := [], ets := 7, count := true }
  | 0x39 =>
    match m with
    | 0 => some { used := [], reads := [], writes := [], preads := [], pwrites := [], ets := 0, count := false }
    | 1 => some { used := [span 111 64], reads := [], writes := [], preads := [], pwrites := [], ets := 0, count := false }
    | 2 => some { used := [vd], reads := [], writes := [vVd w], preads := [], pwrites := [], ets := 0, count := false }
    | 3 => some { used := [span 26 24, span 30 28, span 34 32, span 59 46, span 95 64], reads := [], writes := []
                  preads := [bitsAt w 28 3, bitsAt w 32 3], pwrites := [bitsAt w 24 3], ets := 0, count := true }
    | 4 => some { used := [span 26 24, span 59 46, span 95 64], reads := [], writes := [], preads := []
                  pwrites := [bitsAt w 24 3], ets := 0, count := true }
    | _ => none
  | _ => none

/-- An instruction that only the epilogue context may hold: VEEND, VDRN and VCST in output mode (R197, R203, R207). -/
def epiOnly (w : Nat) : Bool :=
  (iMajor w == 0x39 && iMinor w == 0) || iMajor w == 0x37 || (iMajor w == 0x38 && vBit17 w)

/-- The checks of the vector class for a context (R178-R182, R194, R197). -/
def vectorFaults (epi : Bool) (w : Nat) : List Nat :=
  match vForm w with
  | none => [1]
  | some f =>
    codeIf (!epi && epiOnly w) 1 ++ unusedFault w f.used ++
    codeIf (!(f.reads.all (vCanRead epi) && f.writes.all (vCanWrite epi) && f.preads.all (pCanRead epi) &&
      f.pwrites.all (pCanWrite epi))) 2 ++
    codeIf (iMajor w == 0x38 && bitOf w 16 && !vBit17 w) 2 ++
    codeIf (f.ets != 0 && !(iMajor w == 0x38 && bitOf w 16) && !bitOf f.ets (vEt w)) 3 ++
    codeIf (iMajor w == 0x38 && decide (9 < iMinor w)) 3 ++
    codeIf (iMajor w == 0x38 && !vBit17 w && vImm w && !(iMinor w == 6 || iMinor w == 8 || iMinor w == 9)) 3 ++
    codeIf (f.count && (vCount w == 0 || decide (8192 < vCount w))) 4 ++
    codeIf (iMajor w == 0x35 && iMinor w == 3 && vAux16 w == 0) 4

/-- The checks of any core instruction on its word (R75). -/
def wordFaults (core : Nat) (epi : Bool) (w : Nat) : List Nat :=
  let c := iMajor w / 16
  if epi then (if c = 3 then vectorFaults true w else [1])
  else if c = 0 ∨ iMajor w = 0x50 then controlFaults w
  else if c = 1 then moveFaults core w
  else if c = 2 then matrixFaults core w
  else if c = 3 then vectorFaults false w
  else if c = 4 then travFaults core w
  else if c = 5 then syncFaults core w
  else [1]

/-- The lowest code of a list, if any (R104). -/
def lowest (l : List Nat) : Option Nat := l.foldl (fun m c => match m with
  | none => some c
  | some d => some (min c d)) none

/-! ### Handle addresses (R291) -/

/-- Where the address field of a word lies, if it has one: its lowest bit. -/
def addrField (w : Nat) : Option Nat :=
  match iMajor w with
  | 0x21 => some 32
  | 0x23 => some 32
  | 0x24 => some 32
  | 0x25 => some 32
  | 0x10 => some 32
  | 0x51 => some 32
  | 0x55 => some 64
  | 0x40 => some 32
  | 0x42 => some 32
  | 0x35 => some 64
  | 0x36 => some 64
  | 0x38 => if vBit17 w then none else some 64
  | _ => none

/-- An address is a handle address (R291). -/
def isHandle (a : Nat) : Bool := decide (0x10000000 ≤ a) && decide (a < 0x20000000)

/-- The address that a handle address stands for, under the bound handles as (base, length): none when the handle is not
bound or the offset lies at or beyond the region's length (R291). -/
def handleAddr (bound : Nat → Nat × Nat) (a : Nat) : Option Nat :=
  if isHandle a then
    let h := bound (bitsAt a 24 4)
    if bitsAt a 0 24 < h.2 then some (h.1 + bitsAt a 0 24) else none
  else some a

end Sys2Proof.Machine
end

