-- ==== Sys2Proof/Machine/Sequencer.lean ====
section
/-! DEFINITION. The sequencer of a core (R70-R76, R92, R102, R106, R292): kernel start, fetch, decode into the unit queues,
and the control instructions. Decode runs as far as a command needs: it stops at a control or synchronisation
instruction until that one acts, and at a full queue. -/

namespace Sys2Proof.Machine

/-! ### Kernel start -/

/-- What dispatch gives a core at kernel start (R292, R102). -/
structure KStart where
  test : Bool
  gang : Nat
  member : Nat
  dom : Nat
  queue : Nat
  kinst : Nat
  step : Nat
  seed : Nat
  trap : Bool
  spill : Nat
  codeBase : Nat
  codeLen : Nat
  handles : Tbl (Nat × Nat)
  deriving DecidableEq, Repr

/-- Start a kernel on core `n` (R106, R180, R248, R292, R316): tables survive only from a kernel of the same domain. -/
def State.startCore (s : State) (n : Nat) (k : KStart) : State :=
  let c := s.core n
  let same := c.lastDom = some k.dom
  let s := s.setCore n { CoreSt.init with
    run := 1, test := k.test, gang := k.gang, member := k.member, dom := k.dom, lastDom := some k.dom, queue := k.queue, kinst := k.kinst
    step := k.step, seed := k.seed, trap := k.trap, spill := k.spill, codeBase := k.codeBase, codeLen := k.codeLen, pc := k.codeBase
    handles := k.handles, pd := if same then c.pd else [], mr := if same then c.mr else [], wt := if same then c.wt else [] }
  let s : State := { s with ecc := tkeep (fun e => !(decide (eccVector n 0 ≤ e) && decide (e < eccVector (n + 1) 0))) s.ecc }
  let s := (((s.put Fld.CORE_SEQ_NUM_SEQ 0 n).put Fld.CORE_CORE_FAULT_CODE 0 n).put Fld.CORE_FAULT_SEQ_SEQ 0 n).clearNer n
  ((s.put Fld.CORE_VIDX_BASE_BASE 0 n).put Fld.CORE_VEC_IDX_SEQ_SEQ 0 n).setWord (Fld.CORE_VEC_STATUS_IDX_RANGE.key n 0) 0

/-! ### Fetch and decode -/

/-- A core's requester identity (R440). -/
def State.coreWho (s : State) (n unit : Nat) : Who := Who.self (s.core n).dom unit

/-- The fault code of a failed access of a core (R195, R201): sealed 0x0A, uncorrectable 0x0C, otherwise `other`. -/
def accessCode (status other : Nat) : Nat := if status = stSealed then 0x0A else if status = stUncorrectable then 0x0C else other

/-- A fetched instruction: the state after the read, a fault code (0 for none) and the word. -/
structure Fetched where
  state : State
  code : Nat
  word : Nat

/-- Fetch the 16 bytes at `pc` (R71): outside the code region, or outside the permitted memories, is fault 0x0F. -/
def State.fetch (s : State) (n pc : Nat) : Fetched :=
  let c := s.core n
  if !(decide (c.codeBase ≤ pc) && decide (pc + 16 ≤ c.codeBase + c.codeLen)) then ⟨s, 0x0F, 0⟩
  else if !(pc % 16 == 0 && (inWindow n pc (pc + 16) || inSlice pc (pc + 16))) then ⟨s, 0x0F, 0⟩
  else
    let r := s.readMem (s.coreWho n 4) pc 16
    if r.status ≠ 0 then ⟨r.state, accessCode r.status 0x0F, 0⟩ else ⟨r.state, 0, leVal r.bytes⟩

/-- The handles of a core (R291); an unlisted handle is not bound. -/
def CoreSt.handle (c : CoreSt) (h : Nat) : Nat × Nat := tget (fun _ => (0, 0)) h c.handles

/-- Replace a handle address in a word's address field (R291): the word, and 0x09 when the handle gives no address. -/
def CoreSt.resolve (c : CoreSt) (w : Nat) : Nat × List Nat :=
  match addrField w with
  | none => (w, [])
  | some lo =>
    match handleAddr c.handle (bitsAt w lo 32) with
    | none => (w, [9])
    | some a => (bitsPut w lo 32 a, [])

/-- The checks of LOOP and JUMP on the loop levels and the code region (R76). -/
def CoreSt.flowFaults (c : CoreSt) (w : Nat) : List Nat :=
  match iMajor w with
  | 0x02 =>
    let stop := c.pc + 16 + 16 * loopBody w
    codeIf (decide (4 ≤ c.loops.length) || (match c.loops with
      | [] => false
      | e :: _ => decide (e.stop < stop))) 0xD
  | 0x03 =>
    let target : Int := c.pc + 16 * jumpOff w
    codeIf (!c.loops.isEmpty) 0xD ++
      codeIf (!(decide ((c.codeBase : Int) ≤ target) && decide (target + 16 ≤ (c.codeBase + c.codeLen : Nat)))) 0xF
  | _ => []

/-- The next address after the body's last instruction: back to the start while repetitions are left (R76). -/
def wrapLoops : List LoopEnt → Nat → List LoopEnt × Nat
  | [], pc => ([], pc)
  | e :: t, pc =>
    if pc = e.stop then (if 1 < e.left then ({ e with left := e.left - 1 } :: t, e.start) else wrapLoops t pc) else (e :: t, pc)

/-- The unit whose queue takes an instruction (R72, R75, R77, R247, R315). -/
inductive QUnit where
  | sequencer
  | move
  | loader
  | array
  | vector
  | traverse
  deriving DecidableEq, Repr

/-- The queue of a word. -/
def unitOfWord (w : Nat) : QUnit :=
  let c := iMajor w / 16
  if c = 1 then .move
  else if iMajor w = 0x21 then .loader
  else if c = 2 then .array
  else if c = 3 then .vector
  else if c = 4 then .traverse
  else .sequencer

/-- A queue is full (R70). -/
def CoreSt.full (c : CoreSt) : QUnit → Bool
  | .sequencer => false
  | .move => decide (8 ≤ c.mq.length)
  | .loader => decide (4 ≤ c.lq.length)
  | .array => decide (8 ≤ c.aq.length)
  | .vector => decide (16 ≤ c.vq.length)
  | .traverse => decide (4 ≤ c.tq.length)

/-- Put a decoded instruction where it waits. -/
def CoreSt.enqueue (c : CoreSt) (d : Dec) : QUnit → CoreSt
  | .sequencer => { c with cur := some d }
  | .move => { c with mq := c.mq ++ [d] }
  | .loader => { c with lq := c.lq ++ [d] }
  | .array => { c with aq := c.aq ++ [d] }
  | .vector => { c with vq := c.vq ++ [d] }
  | .traverse => { c with tq := c.tq ++ [d] }

/-- Decode is stopped: by a control or synchronisation instruction, by MWAIT, TWAIT or SPOP in its queue (R76, R247,
R315), or with no kernel running. -/
def CoreSt.stalled (c : CoreSt) : Bool :=
  c.run != 1 || c.cur.isSome || c.mq.any (fun d => iMajor d.word == 0x11) ||
    c.tq.any (fun d => iMajor d.word == 0x41 || iMajor d.word == 0x43)

/-- Decode one instruction (R72, R74, R104); nothing happens while decode is stalled. An instruction that faults at fetch or decode
has the next sequence number, and `SEQ_NUM`, which shows the last decoded one, does not count it (DESIGN CHOICE, log 86). -/
def State.decode1 (s : State) (n : Nat) : State :=
  let c := s.core n
  if c.stalled then s
  else
    let f := s.fetch n c.pc
    if f.code ≠ 0 then f.state.coreFault n f.code c.nextSeq
    else
      let r := c.resolve f.word
      match lowest (wordFaults n false r.1 ++ r.2 ++ c.flowFaults r.1) with
      | some code => f.state.coreFault n code c.nextSeq
      | none =>
        let u := unitOfWord r.1
        if c.full u then s
        else
          let c := f.state.core n
          let l := wrapLoops c.loops (c.pc + 16)
          let t := f.state.setCore n (CoreSt.enqueue { c with loops := l.1, pc := l.2, nextSeq := (c.nextSeq + 1) % 2 ^ 32 }
            { seq := c.nextSeq, word := r.1 } u)
          t.put Fld.CORE_SEQ_NUM_SEQ c.nextSeq n

/-- Decode until the core satisfies `p` or decode can go no further; 64 instructions fill every queue. -/
def State.decodeUntil (p : CoreSt → Bool) (n : Nat) : Nat → State → State
  | 0, s => s
  | k + 1, s => if p (s.core n) then s else State.decodeUntil p n k (s.decode1 n)

/-- Decode until the sequencer holds an instruction of its own. -/
def State.forSequencer (s : State) (n : Nat) : State := State.decodeUntil (fun c => c.cur.isSome) n 64 s
/-- Decode until the move queue holds an instruction. -/
def State.forMove (s : State) (n : Nat) : State := State.decodeUntil (fun c => !c.mq.isEmpty) n 64 s
/-- Decode until the loader queue holds an instruction. -/
def State.forLoader (s : State) (n : Nat) : State := State.decodeUntil (fun c => !c.lq.isEmpty) n 64 s
/-- Decode until the array queue holds an instruction. -/
def State.forArray (s : State) (n : Nat) : State := State.decodeUntil (fun c => !c.aq.isEmpty) n 64 s
/-- Decode until the vector queue holds an instruction. -/
def State.forVector (s : State) (n : Nat) : State := State.decodeUntil (fun c => !c.vq.isEmpty) n 64 s
/-- Decode until the traverse queue holds an instruction. -/
def State.forTraverse (s : State) (n : Nat) : State := State.decodeUntil (fun c => !c.tq.isEmpty) n 64 s

/-- The sequencer's instruction of core `n` is of major opcode `maj`: run `f` on it; otherwise nothing happens but the
decode that led here. -/
def State.sequencerRow (s : State) (n maj : Nat) (f : State → CoreSt → Dec → State) : Res :=
  onUnit "core" 64 n <|
    let t := s.forSequencer n
    match (t.core n).cur with
    | some d => if iMajor d.word = maj then .next (f t (t.core n) d) else .next t
    | none => .next t

/-! ### Idle units -/

/-- A set's state; an unlisted set is IDLE (R93). -/
def CoreSt.set (c : CoreSt) (u : Nat) : AccSet := tget (fun _ => AccSet.idle) u c.sets

/-- Every set is IDLE. -/
def CoreSt.setsIdle (c : CoreSt) : Bool := c.sets.isEmpty

/-- The move unit is idle: its queue is empty and every descriptor has completed (R248). -/
def CoreSt.moveIdle (c : CoreSt) : Bool := c.mq.isEmpty && c.mvCnt.all (· == 0)
/-- The loader is idle. -/
def CoreSt.loaderIdle (c : CoreSt) : Bool := c.lq.isEmpty && c.loading.isEmpty
/-- The array is idle, both sets included (R76). -/
def CoreSt.arrayIdle (c : CoreSt) : Bool := c.aq.isEmpty && c.setsIdle
/-- The waiting MMAs that will close a parcel with an epilogue: their descriptor has `END` = 1 (R202), or a PDSET of its entry that
stands ahead of them may set it. `set` lists the entries with such a PDSET. -/
def CoreSt.finalCloses (c : CoreSt) : List Nat → List Dec → List Dec
  | _, [] => []
  | set, d :: t =>
    if iMajor d.word = 0x23 then c.finalCloses (iSel d.word :: set) t
    else if iMajor d.word = 0x20 ∧ mmaClose d.word ∧ (set.contains (mmaPd d.word) ∨ bitOf (tget (fun _ => 0) (mmaPd d.word) c.pd) 1) then
      d :: c.finalCloses set t
    else c.finalCloses set t

/-- The vector unit is idle, with the epilogues of every earlier closing MMA ended (R205); while an MMA that closes a parcel with
an epilogue still waits to issue, that epilogue has not ended. -/
def CoreSt.vectorIdle (c : CoreSt) : Bool :=
  c.vq.isEmpty && c.epis.isEmpty && (c.finalCloses [] c.aq).isEmpty && !c.sets.any (fun e => e.2.closeSeq.isSome && bitOf e.2.desc 1)
/-- The traverse unit is idle (R316). -/
def CoreSt.traverseIdle (c : CoreSt) : Bool := c.tq.isEmpty && c.tvCnt.all (· == 0)

/-- The units of a FENCE mask are idle (R76). -/
def CoreSt.fenced (c : CoreSt) (mask : Nat) : Bool :=
  (!bitOf mask 0 || c.moveIdle) && (!bitOf mask 1 || c.loaderIdle) && (!bitOf mask 2 || c.arrayIdle) &&
    (!bitOf mask 3 || c.vectorIdle) && (!bitOf mask 4 || c.traverseIdle)

/-- A pass is open: an ACTIVE set whose closing MMA has not issued (R93, R106). -/
def CoreSt.passOpen (c : CoreSt) : Bool := c.sets.any (fun e => e.2.state == 3 && e.2.closeSeq.isNone)

/-! ### Meanings of the control rows -/

/-- `NOP` (R76). -/
def execNop (c : Nat) (s : State) : Res :=
  s.sequencerRow c 0x00 fun s k _ => s.setCore c { k with cur := none }

/-- `END` (R76): decode stops; with a pass left open and no MMA left to close it, fault 0x06 (R106). -/
def execEndInstr (c : Nat) (s : State) : Res :=
  s.sequencerRow c 0x01 fun s k d =>
    if k.passOpen && !k.aq.any (fun e => iMajor e.word == 0x20) then s.coreFault c 0x06 d.seq
    else s.setCore c { k with waiting := some d.seq }

/-- `KERNEL_COMPLETION` (R76): after END, once every unit, set and drain is idle, the core has ended; a test kernel's end
sets `TEST_DONE` (R102). -/
def execKernelCompletion (c : Nat) (s : State) : Res :=
  onUnit "core" 64 c <|
    let k := s.core c
    match k.waiting with
    | none => .next s
    | some seq =>
      if k.run ≠ 1 ∨ !(k.cur.any (fun d => iMajor d.word == 0x01)) then .next s
      else if k.moveIdle && k.loaderIdle && k.aq.isEmpty && k.vq.isEmpty && k.epis.isEmpty && k.traverseIdle then
        if k.setsIdle then
          if k.test then .next ((s.haltCore c 0).testOver c k.gang) else .next (s.haltCore c 2)
        else if k.passOpen then .next (s.coreFault c 0x06 seq)
        else .next s
      else .next s

/-- `LOOP` (R76). -/
def execLoop (c : Nat) (s : State) : Res :=
  s.sequencerRow c 0x02 fun s k d =>
    s.setCore c { k with cur := none, loops := { start := k.pc, stop := k.pc + 16 * loopBody d.word, left := loopCount d.word } :: k.loops }

/-- `JUMP` (R76): decode continues at the target; decode stopped at the instruction after the JUMP. -/
def execJump (c : Nat) (s : State) : Res :=
  s.sequencerRow c 0x03 fun s k d => s.setCore c { k with cur := none, pc := ((k.pc : Int) - 16 + 16 * jumpOff d.word).toNat }

/-- `FENCE` (R76): decode resumes once every named unit is idle. -/
def execFence (c : Nat) (s : State) : Res :=
  s.sequencerRow c 0x50 fun s k d => if k.fenced (fenceMask d.word) then s.setCore c { k with cur := none } else s

/-- Decode everything that the queues take (R92). -/
def State.decodeAll (s : State) (n : Nat) : State := State.decodeUntil (fun _ => false) n 64 s

/-- Decode is stalled as R92 says: behind a full array or loader queue, at an END, or at a FENCE that names the loader or
the array. -/
def State.deadStall (s : State) (n : Nat) : Bool :=
  let c := s.core n
  match c.cur with
  | some d => iMajor d.word == 0x01 || (iMajor d.word == 0x50 && (bitOf (fenceMask d.word) 1 || bitOf (fenceMask d.word) 2))
  | none =>
    !c.stalled && (let f := s.fetch n c.pc
      f.code == 0 && ((c.full .array && unitOfWord f.word == .array) || (c.full .loader && unitOfWord f.word == .loader)))

/-- `CORE_TEST` `ENTER` (R102): the core enters TEST when in service without a kernel, else `TEST_REFUSED`. -/
def State.testEnter (s : State) (n : Nat) : State :=
  if s.get Fld.CORE_CORE_STATE_STATE n = 1 ∧ (s.core n).run = 0 then s.put Fld.CORE_CORE_STATE_STATE 3 n
  else s.event Fld.CORE_PAGE_EVENT_TEST_REFUSED n

/-- `CORE_TEST` `START` (R102): the test kernel, not after a die-fatal error, which stops issue until a reset (R437; log entry 97). It has no
gang; the model gives it a kernel number of its own, by which its held scales, touched slots and rounds are known. The spec gives it no seed,
step, trap mode or spill interval: it runs with 0, 0, propagate and V = 1 (DESIGN CHOICE, log 19). -/
def State.testStart (s : State) (n : Nat) : State :=
  let d := s.get Fld.CORE_CORE_TEST_TEST_DOM n
  if s.get Fld.CORE_CORE_STATE_STATE n = 3 ∧ (s.core n).run = 0 ∧ s.domActive d ∧ !s.fatal then
    ({ s with nextGang := s.nextGang + 1 } : State).startCore n
      { test := true, gang := s.nextGang, member := 0, dom := d, queue := 0, kinst := 0, step := 0, seed := 0, trap := false, spill := 0
        codeBase := s.get Fld.CORE_TEST_PC_ADDR n, codeLen := s.get Fld.CORE_TEST_LEN_LEN n, handles := [] }
  else s.event Fld.CORE_PAGE_EVENT_TEST_REFUSED n

/-- The split of a core page is dropped (R101). -/
def State.dropSplit (s : State) (n : Nat) : State := (s.put Fld.CORE_CORE_CFG_ACC_SPLIT 0 n).put Fld.CORE_CORE_CFG_SPLIT_BARE 0 n

/-- `CORE_TEST` `LEAVE` (R102): the split is dropped, the state of R106 zeroed, and the core returns to SERVICE. -/
def State.testLeave (s : State) (n : Nat) : State :=
  if s.get Fld.CORE_CORE_STATE_STATE n = 3 ∧ (s.core n).run = 0 then
    let s := (s.dropSplit n).setCore n CoreSt.init
    (s.clearNer n).put Fld.CORE_CORE_STATE_STATE 1 n
  else s.event Fld.CORE_PAGE_EVENT_TEST_REFUSED n

end Sys2Proof.Machine
end

