-- ==== Sys2Proof/Machine/Conv.lean ====
section
/-! DEFINITION. Conversion to the output formats (R109, R124-R130, R142), the scale history (R131-R136) with the moments it
is touched at (R145), and packing (R111, R198). -/

namespace Sys2Proof.Machine

/-! ### Packing (R111) -/

/-- Pack codes of `w` bits into bytes, eight codes to `w` bytes; the last byte is filled with zero bits (R111, R198). -/
def packBits (w : Nat) : List Nat → Bytes
  | a :: b :: c :: d :: e :: f :: g :: h :: t =>
    leBytes w (a + 2 ^ w * (b + 2 ^ w * (c + 2 ^ w * (d + 2 ^ w * (e + 2 ^ w * (f + 2 ^ w * (g + 2 ^ w * h))))))) ++ packBits w t
  | l => leBytes (ceilDiv (l.length * w) 8) (l.foldr (fun c acc => c + 2 ^ w * acc) 0)

/-- The `w`-bit element `i` of a packed stream (R111). -/
def unpackAt (b : Bytes) (w i : Nat) : Nat := bitsAt (leAt b (i * w / 8) ((i * w % 8 + w + 7) / 8)) (i * w % 8) w

/-- Groups of `k` elements, the last one short (R127); `fuel` is the list's length. -/
def groupsOf {α : Type} (k : Nat) : Nat → List α → List (List α)
  | 0, _ => []
  | fuel + 1, l => if l.isEmpty then [] else l.take k :: groupsOf k fuel (l.drop k)

/-! ### The scale history (R131-R136) -/

/-- The slot's class is gradient, which rounds stochastically (R125). -/
def State.slotStochastic (s : State) (slot : Nat) : Bool := s.get Fld.SCL_SLOT_CFG_CLASS slot == 2

/-- A history condition sets in the slot's status and on the SCL page, naming the slot (R132, R133, R143). -/
def State.sclFlag (s : State) (slot : Nat) (status page : Fld) : State :=
  (((s.put status 1 slot).put Fld.SCL_SCL_LAST_SLOT_SLOT slot).event page 0 slot)

/-- A kernel instance has recorded into or selected from a slot (R145). -/
def State.touch (s : State) (gang slot : Nat) : State :=
  if s.touched.contains (gang, slot) then s else { s with touched := s.touched ++ [(gang, slot)] }

/-- `READ` of an entry. -/
def State.entryRead (s : State) (slot e : Nat) : Bool := bitOf (s.get Fld.SCL_SLOT_STATUS_READ slot) e

/-- Set or clear `READ` of an entry. -/
def State.setEntryRead (s : State) (slot e : Nat) (b : Bool) : State :=
  s.put Fld.SCL_SLOT_STATUS_READ (bitsPut (s.get Fld.SCL_SLOT_STATUS_READ slot) e 1 (b2n b)) slot

/-- An entry is looked at: a correctable error in it is corrected and recorded (R435), and an uncorrectable one takes its `VALID` and
writes a memory error record (R436, R484). -/
def State.checkEntry (s : State) (w : Who) (slot e : Nat) : State :=
  let n := s.flips (eccScale (slot * 16 + e))
  if n = 0 then s
  else
    let t := s.setFlips (eccScale (slot * 16 + e)) 0
    if n = 1 then t.noteCe w 5 0 0 (slot * 16 + e) else (t.put Fld.SCL_ENTRY_VALID 0 slot e).noteUe w 5 0 0 (slot * 16 + e)

/-- Record a magnitude into a slot at step `t` (R132). -/
def State.record (s : State) (w : Who) (slot t : Nat) (m : Val) : State :=
  let e := t % 16
  let s := s.checkEntry w slot e
  let old := s.get Fld.SCL_ENTRY_STEP slot e
  let d := (t + 2 ^ 32 - old % 2 ^ 32) % 2 ^ 32
  let s := if s.get Fld.SCL_ENTRY_VALID slot e = 0 ∨ (1 ≤ d ∧ d ≤ 2 ^ 31 - 1) then
      ((((s.put Fld.SCL_ENTRY_VALID 1 slot e).put Fld.SCL_ENTRY_STEP t slot e).put Fld.SCL_ENTRY_AMAX 0 slot e).setEntryRead slot e false)
    else s
  if s.get Fld.SCL_ENTRY_STEP slot e = t % 2 ^ 32 then
    let a := s.get Fld.SCL_ENTRY_AMAX slot e
    let up := roundUp32 m
    let later := vlt (fB32.dec a) up
    let s := if later && s.entryRead slot e then s.sclFlag slot Fld.SCL_SLOT_STATUS_LATE_RECORD Fld.SCL_PAGE_EVENT_LATE_RECORD else s
    if later then s.put Fld.SCL_ENTRY_AMAX (fB32.enc up) slot e else s
  else s.sclFlag slot Fld.SCL_SLOT_STATUS_STALE_RECORD Fld.SCL_PAGE_EVENT_STALE_RECORD

/-- The largest magnitude of the non-NaN values, if any (R132). -/
def magMax (l : List Val) : Option Val :=
  l.foldl (fun m v => if v.isNan then m else match m with
    | none => some (vabs v)
    | some x => some (vmax x (vabs v))) none

/-- Record a block (R132): a block whose inputs are all NaN records nothing. -/
def State.recordBlock (s : State) (w : Who) (slot t : Nat) (l : List Val) : State :=
  match magMax l with
  | none => s
  | some m => s.record w slot t m

/-- EMAX of an MX target (R133). -/
def targetEmax (t : Nat) : Int := match t with
  | 0 => 8 | 1 => 15 | 2 => 4 | 3 => 2 | 4 => 2 | _ => 0

/-- SCALE(A) of R133. -/
def scaleOf (a : Val) (emax : Int) (margin init : Nat) : Nat :=
  if a.isZero then init
  else if a.isInf then 0xFE
  else (min (max (vlog2 a - emax + margin + 127) 0) 0xFE).toNat

/-- The history window of R133, from entry `k` on: the state with `READ` bits set, the largest `AMAX`, and how many
entries were found. -/
def State.window (s : State) (who : Who) (slot t : Nat) : State × Val × Nat :=
  let h := s.get Fld.SCL_SLOT_CFG_HIST_LEN slot
  let g := s.get Fld.SCL_SLOT_CFG_LAG_M1 slot + 1
  (List.range h).foldl (fun (a : State × Val × Nat) k =>
    let w := (t + 2 ^ 32 - g - k) % 2 ^ 32
    let a : State × Val × Nat := (a.1.checkEntry who slot (w % 16), a.2)
    if a.1.get Fld.SCL_ENTRY_VALID slot (w % 16) = 1 ∧ a.1.get Fld.SCL_ENTRY_STEP slot (w % 16) = w then
      (a.1.setEntryRead slot (w % 16) true, vmax a.2.1 (fB32.dec (a.1.get Fld.SCL_ENTRY_AMAX slot (w % 16))), a.2.2 + 1)
    else a) (s, vzero, 0)

/-- Select a scale for an MX target (R133): history, fixed or current block. DESIGN CHOICE (log entry 95): the largest magnitude of a block
without a finite element is 0. -/
def State.chooseScale (s : State) (who : Who) (slot target t : Nat) (block : List Val) : State × Nat :=
  let emax := targetEmax target
  let margin := s.get Fld.SCL_SLOT_CFG_MARGIN slot
  let init := s.get Fld.SCL_SLOT_CFG_INIT_SCALE slot
  match s.get Fld.SCL_SLOT_CFG_SEL_MODE slot with
  | 1 => (s, init)
  | 2 =>
    let a := block.foldl (fun m v => if v.isNan || v.isInf then m else vmax m (vabs v)) vzero
    (s, scaleOf a emax margin init)
  | _ =>
    let w := s.window who slot t
    let s := if w.2.2 < s.get Fld.SCL_SLOT_CFG_HIST_LEN slot then
        w.1.sclFlag slot Fld.SCL_SLOT_STATUS_HIST_SHORT Fld.SCL_PAGE_EVENT_HIST_SHORT
      else w.1
    (s, scaleOf w.2.1 emax margin init)

/-- The scale of a block: in history and fixed modes a kernel instance holds its first choice (R134). -/
def State.selectScale (s : State) (who : Who) (gang slot target t : Nat) (block : List Val) : State × Nat :=
  let same (h : HeldScale) : Bool := h.gang == gang && h.slot == slot && h.target == target
  let current := s.get Fld.SCL_SLOT_CFG_SEL_MODE slot = 2
  match if current then none else s.held.find? same with
  | some h => (s, h.scale)
  | none =>
    let r := s.chooseScale who slot target t block
    let s := r.1.put Fld.SCL_SLOT_STATUS_LAST_SCALE r.2 slot
    (if current then s else { s with held := s.held ++ [{ gang := gang, slot := slot, target := target, scale := r.2 }] }, r.2)

/-! ### Elements (R125-R129) -/

/-- The format of an output target (R109); MXINT8 has its own rules. -/
def targetFmt (t : Nat) : Fmt := match t with
  | 0 => fE4M3 | 1 => fE5M2 | 2 => fE3M2 | 3 => fE2M3 | 4 => fE2M1 | 6 => fBF16 | 7 => fB16 | 8 => fB32 | _ => fB64

/-- Bits of one element of a target (R109). -/
def targetBits (t : Nat) : Nat := if t = 5 then 8 else (targetFmt t).bits

/-- The largest finite element value M of a target (R128). -/
def targetMax (t : Nat) : Val := if t = 5 then .fin 127 (-6) else (targetFmt t).maxFin

/-- The conversion flags met (R130). -/
structure CvFlags where
  ovf : Bool
  unf : Bool
  nan : Bool
  deriving DecidableEq, Repr

/-- No flag. -/
def CvFlags.none : CvFlags := { ovf := false, unf := false, nan := false }

/-- Both. -/
def CvFlags.or (a b : CvFlags) : CvFlags := { ovf := a.ovf || b.ovf, unf := a.unf || b.unf, nan := a.nan || b.nan }

/-- Convert to a format without block scale (R126): the rounded value and its flags. `sr` holds the random bits of a
stochastic rounding, none for round to nearest (R125). -/
def convPlain (f : Fmt) (v : Val) (sr : Option Nat) : Val × CvFlags :=
  match v with
  | .nan => (.nan, { CvFlags.none with nan := true })
  | .inf b => (.inf b, CvFlags.none)
  | .fin m _ =>
    let r := match sr with
      | none => f.rne v
      | some b => f.sr v b
    (r, { CvFlags.none with ovf := r.isInf, unf := decide (m ≠ 0) && r.isZero })

/-- Round a value within an MX element grid (R127, R128). -/
def mxRound (t : Nat) (v : Val) (sr : Option Nat) : Val :=
  if t = 5 then
    match v with
    | .fin m e =>
      let k := match sr with
        | none => rneMag m.natAbs e (-6)
        | some b => srMag m.natAbs e (-6) b
      .fin (if m < 0 then -(k : Int) else k) (-6)
    | x => x
  else match sr with
    | none => (targetFmt t).rneIn v
    | some b => (targetFmt t).srIn v b

/-- The code of a value on an MX element grid (R113-R115). -/
def mxCode (t : Nat) (v : Val) : Nat :=
  if t = 5 then
    match v with
    | .fin m e => unsigned 8 (if -6 ≤ e then m * 2 ^ (e + 6).toNat else m / 2 ^ (-6 - e).toNat)
    | _ => 0
  else (targetFmt t).enc v

/-- One element of an MX block with scale `x` (R128, R129): E4M3 and E5M2 have codes for what does not fit. -/
def mxElem (t x : Nat) (v : Val) (sr : Option Nat) : Nat × CvFlags :=
  match v with
  | .nan => (mxCode t .nan, { CvFlags.none with nan := true })
  | .inf b => if t = 1 then (mxCode t (.inf b), CvFlags.none) else (mxCode t .nan, { CvFlags.none with nan := true })
  | .fin m _ =>
    let mx := targetMax t
    if vlt (vscale mx 127) (vabs v) then
      (if t = 1 then mxCode t (.inf (decide (m < 0))) else mxCode t .nan, { CvFlags.none with ovf := true })
    else
      let w := vscale v (127 - (x : Int))
      if vlt mx (vabs w) then (mxCode t (if m < 0 then vneg mx else mx), { CvFlags.none with ovf := true })
      else
        let r := mxRound t w sr
        (mxCode t r, { CvFlags.none with unf := decide (m ≠ 0) && r.isZero })

/-- One lane of a conversion: its value, none for an inactive lane (R200), and its element index (R138). -/
structure Lane where
  val : Option Val
  index : Nat

/-- The random bits of a lane, for a gradient-class slot (R125, R137). -/
def laneBits (stoch : Bool) (seed slot : Nat) (l : Lane) : Option Nat := if stoch then some (srBits seed slot l.index) else none

/-- The codes of one MX block with scale `x`: the scale byte, the codes and the flags (R128, R129, R200). A target without
NaN makes the whole block NaN; the flags of its elements stand as they are (log 17). -/
def mxBlock (t x : Nat) (stoch : Bool) (seed slot : Nat) (lanes : List Lane) : Nat × List Nat × CvFlags :=
  let vals := lanes.filterMap (·.val)
  let special := vals.any (fun v => v.isNan || v.isInf)
  let large := vals.any (fun v => match v with
    | .fin _ _ => vlt (vscale (targetMax t) 127) (vabs v)
    | _ => false)
  let r := lanes.map (fun l => match l.val with
    | none => (0, CvFlags.none)
    | some v => mxElem t x v (laneBits stoch seed slot l))
  let flags := r.foldl (fun f e => f.or e.2) CvFlags.none
  if 2 ≤ t ∧ (special || large) then (0xFF, lanes.map (fun _ => 0), flags) else (x, r.map (·.1), flags)

/-- What converting one row or segment gives: the pieces of bytes to write, at offsets from its start, and the flags. -/
structure Converted where
  state : State
  pieces : List (Nat × Bytes)
  flags : CvFlags

/-- The conversion that R123-R130 and R142 describe for one segment: kernel instance `gang`, step and seed, slot, target,
pair form, lanes. Each block is recorded, then its scale selected (R136); the slot is touched when one of them happens (R145). The
pieces of a target without block scale are its elements. -/
def State.convert (s : State) (who : Who) (gang step seed slot target : Nat) (pair : Bool) (lanes : List Lane) : Converted :=
  let stoch := s.slotStochastic slot
  let s := if target ≤ 5 ∨ (magMax (lanes.filterMap (·.val))).isSome then s.touch gang slot else s
  if target ≤ 5 then
    let blocks := groupsOf 32 lanes.length lanes
    let r := blocks.foldl (fun (a : State × List Nat × List Nat × CvFlags) b =>
      let vals := b.filterMap (·.val)
      let sel := (a.1.recordBlock who slot step vals).selectScale who gang slot target step vals
      let o := mxBlock target sel.2 stoch seed slot b
      (sel.1, a.2.1 ++ [o.1], a.2.2.1 ++ o.2.1, a.2.2.2.or o.2.2)) (s, [], [], CvFlags.none)
    ⟨r.1, [(0, packBits (targetBits target) r.2.2.1 ++ r.2.1.map (BitVec.ofNat 8))], r.2.2.2⟩
  else
    let f := targetFmt target
    let size := f.bits / 8 * (if pair then 2 else 1)
    let s := s.recordBlock who slot step (lanes.filterMap (·.val))
    let one (v : Val) (l : Lane) : Bytes × CvFlags :=
      let h := convPlain f v (laneBits stoch seed slot l)
      let hi := leBytes (f.bits / 8) (f.enc h.1)
      let lo := if h.1.isInf || h.1.isNan then vzero else f.rne (vsub v h.1)
      (if pair then hi ++ leBytes (f.bits / 8) (f.enc lo) else hi, h.2)
    let outs := lanes.map (fun l => l.val.map (fun v => one v l))
    let pieces := ((List.range outs.length).zip outs).filterMap (fun e => e.2.map (fun o => (e.1 * size, o.1)))
    ⟨s, pieces, outs.foldl (fun a o => match o with
      | none => a
      | some x => a.or x.2) CvFlags.none⟩

/-- Conversion flags reach the slot and the kernel's numeric status word (R130). -/
def State.cvFlags (s : State) (n slot : Nat) (f : CvFlags) : State :=
  let s := if f.ovf then (s.put Fld.SCL_SLOT_STATUS_CVT_OVF 1 slot).setNsw n nswCvtOvf else s
  let s := if f.unf then (s.put Fld.SCL_SLOT_STATUS_CVT_UNF 1 slot).setNsw n nswCvtUnf else s
  if f.nan then (s.put Fld.SCL_SLOT_STATUS_CVT_NAN 1 slot).setNsw n nswCvtNan else s

/-! ### Writes of a core (R303) -/

/-- A member of a replay group may write the bytes [lo, hi) (R303): its gang-lifetime regions and the group's staging. -/
def State.groupMayWrite (s : State) (n lo hi : Nat) : Bool :=
  let c := s.core n
  match if c.test then none else s.gang? c.gang with
  | none => true
  | some g => !g.group || g.writable.any (fun r => decide (r.1 ≤ lo) && decide (hi ≤ r.1 + r.2))

/-- A write of the core's own units (R195, R303): the status is 0 when the bytes are written. -/
def State.coreWrite (s : State) (n unit addr : Nat) (b : Bytes) : State × Nat :=
  if s.groupMayWrite n addr (addr + b.length) then s.writeMem (s.coreWho n unit) addr b else (s, stProtection)

/-- The fault code of one element that a core's unit would write at `a`, aligned to `align` (R195, R303): 0 when it may be written. -/
def State.elemCode (s : State) (n unit align : Nat) (e : Int × Bytes) : Nat :=
  let a := e.1.toNat
  if e.1 < 0 ∨ a % align ≠ 0 ∨ !inMemories a (a + e.2.length) ∨ !s.groupMayWrite n a (a + e.2.length) then 9
  else
    let c := s.checkAccess (s.coreWho n unit) a e.2.length
    if c = 0 then 0 else accessCode c 9

/-- Write the elements of one instruction that lie in line `line`, in ascending order, as one access (R227). -/
def State.putLine (s : State) (n unit line : Nat) (els : List (Nat × Bytes)) : State × Nat :=
  let mine := els.filter (fun e => e.1 / 64 == line)
  let u := s.openUnits (s.coreWho n unit) (mine.flatMap (fun e => wordsOf e.1 e.2.length))
    (fun a => mine.any (fun e => decide (e.1 ≤ a) && decide (a < e.1 + e.2.length)))
  if u.2 ≠ 0 then u else (mine.foldl (fun s e => s.storeBytes e.1 e.2) u.1, 0)

/-- Write the elements of one instruction (R195, R227): up to the first that may not be written, those that fall in one line in one
access. The second part is a fault code. -/
def State.putElems (s : State) (n unit align : Nat) (els : List (Int × Bytes)) : State × Nat :=
  let good := els.takeWhile (fun e => s.elemCode n unit align e == 0)
  let code := match els.drop good.length with
    | [] => 0
    | e :: _ => s.elemCode n unit align e
  let l := good.map (fun e => (e.1.toNat, e.2))
  let r := ((l.map (fun e => e.1 / 64)).eraseDups).foldl (fun (a : State × Nat) line =>
    if a.2 ≠ 0 then a else a.1.putLine n unit line l) (s, 0)
  (r.1, if r.2 ≠ 0 then accessCode r.2 9 else code)

/-! ### `CLEAR` of a slot (R136, R144) -/

/-- Every entry of the slot becomes empty, and `READ` clears. -/
def State.clearSlot (s : State) (slot : Nat) : State :=
  ((List.range 16).foldl (fun s e => (s.setWord (Fld.SCL_ENTRY_AMAX.key slot e) 0).put Fld.SCL_ENTRY_STEP 0 slot e) s).put
    Fld.SCL_SLOT_STATUS_READ 0 slot

end Sys2Proof.Machine
end

