-- ==== Sys2Proof/Machine/Paging.lean ====
section
/-! DEFINITION. Stack memory and its paging (R255-R273): the frame space, the pool and its frame states, page tables, MAP
and UNMAP, TLBs and walks, and the requests that the die sends to stack memory. The bytes of stack memory are the base dies'. -/

namespace Sys2Proof.Machine

/-! ### Frame space and pool -/

/-- Frames of the frame space: N × C / 4 KiB (R255). -/
def State.frameSpace (s : State) : Nat := s.get Fld.XLT_XLT_GEOM_STACKS * (s.get Fld.XLT_XLT_GEOM_STACK_FRAMES_K * 1024)

/-- First frame of the pool (R257). -/
def State.poolBase (s : State) : Nat := s.get Fld.XLT_POOL_BASE_FRAME

/-- Frames of the pool, clipped to the frame space (R257). -/
def State.poolCount (s : State) : Nat := min (s.get Fld.XLT_POOL_COUNT_COUNT) (s.frameSpace - s.poolBase)

/-- Frames of the cadastre (R258). -/
def State.cadFrames (s : State) : Nat := min (ceilDiv s.poolCount 16384) s.poolCount

/-- First pool frame outside the cadastre. -/
def State.poolLo (s : State) : Nat := s.poolBase + s.cadFrames
/-- First frame after the pool. -/
def State.poolHi (s : State) : Nat := s.poolBase + s.poolCount

/-- An unlisted frame: PENDING and unmapped (R258). -/
def pendingFrame : Nat → Frame := fun _ => { code := 2, mapped := false }

/-- A frame of the pool. -/
def State.frame (s : State) (f : Nat) : Frame := tget pendingFrame f s.frames

/-- Replace a frame's state. -/
def State.setFrame (s : State) (f code : Nat) (mapped : Bool) : State :=
  { s with frames := tset pendingFrame f { code := code, mapped := mapped } s.frames }

/-- The frames of the pool that are not PENDING: before the release, those that a warm reset of the same pool keeps (R258). -/
def State.poolFrames (s : State) : Tbl Frame :=
  if s.released ∨ s.poolKept = some (s.get Fld.XLT_POOL_BASE_FRAME, s.get Fld.XLT_POOL_COUNT_COUNT) then s.frames else []

/-- FREE frames (R277). -/
def State.freeFrames (s : State) : Nat := (s.poolFrames.filter (fun e => e.2.code == 0)).length
/-- PENDING frames that are not mapped (R277). -/
def State.pendingFrames (s : State) : Nat := s.poolHi - s.poolLo - s.poolFrames.length

/-- `SCRUB_HOLD` (R273). -/
def State.scrubHold (s : State) : Bool := s.get Fld.FLD_FLD_DBGCTL_SCRUB_HOLD == 1

/-- Set `POOL_LOW` when the frames that can be allocated fell below the threshold (R277). -/
def State.poolLowCheck (s : State) (before : Nat) : State :=
  let limit := s.get Fld.XLT_XLT_CFG_POOL_LOW * 4096
  if limit ≤ before ∧ s.freeFrames + s.pendingFrames < limit then s.event Fld.XLT_PAGE_EVENT_POOL_LOW else s

/-- The first multiple of `n` at or above `a`. -/
def alignUp (a n : Nat) : Nat := ceilDiv a n * n

/-- The scrubber has started a frame and not finished it: no MAP may take it (R272). -/
def State.scrubs (s : State) (f : Nat) : Bool := s.zeroing.any (fun z => z.frame == f && z.scrub)

/-- Frames [a, a + n) lie in the pool outside the cadastre, satisfy `p`, and are not under the scrubber. -/
def State.runOf (s : State) (p : Frame → Bool) (a n : Nat) : Bool :=
  decide (s.poolLo ≤ a) && decide (a + n ≤ s.poolHi) && (List.range n).all (fun i => p (s.frame (a + i)) && !s.scrubs (a + i))

/-- The smallest number of a list. -/
def least : List Nat → Option Nat
  | [] => none
  | a :: t => match least t with
    | none => some a
    | some b => some (min a b)

/-- The lowest run of `n` frames aligned to `n` (R261): of FREE frames, else of FREE and PENDING frames; no PENDING frame
while `SCRUB_HOLD` = 1 (R273). A lowest run starts at a listed FREE frame, or at the first aligned place after the
cadastre, after a frame that does not fit or after one under the scrubber. -/
def State.findFrames (s : State) (n : Nat) : Option Nat :=
  let free (f : Frame) := f.code == 0
  let open_ (f : Frame) := f.code == 0 || (f.code == 2 && !f.mapped)
  let starts := (s.frames.map (·.1)).filter (fun a => a % n == 0)
  match least (starts.filter (fun a => s.runOf free a n)) with
  | some a => some a
  | none =>
    if s.scrubHold then none
    else
      let after := alignUp s.poolLo n :: ((s.frames.filter (fun e => !open_ e.2)).map (fun e => alignUp (e.1 + 1) n)) ++ (s.zeroing.map (fun z => alignUp (z.frame + 1) n))
      least (after.filter (fun a => s.runOf open_ a n))

/-- Take the lowest fitting run for a data page, or with `hw` for a table (R258, R261, R271): a data frame that was PENDING
stays so until it has been zeroed. -/
def State.takeFrames (s : State) (n : Nat) (hw : Bool) : Option (State × Nat) :=
  match s.findFrames n with
  | none => none
  | some a =>
    some ((List.range n).foldl (fun t i => t.setFrame (a + i) (if (t.frame (a + i)).code = 2 ∧ !hw then 2 else 1) true) s, a)

/-- Give frames back: they become PENDING, a BAD one stays BAD (R267, R269). -/
def State.giveFrames (s : State) (fs : List Nat) : State :=
  fs.foldl (fun t f => t.setFrame f (if (t.frame f).code = 3 then 3 else 2) false) s

/-! ### Pages and tables -/

/-- Bytes of a page size code. -/
def pageBytes (size : Nat) : Nat := if size = 0 then 4096 else if size = 1 then 65536 else 2097152

/-- Frames of a page size code. -/
def pageFrames (size : Nat) : Nat := pageBytes size / 4096

/-- The key of the page that starts at virtual address `va`. -/
def pageKey (dom va : Nat) : Nat := dom * 2 ^ 30 + va / 4096

/-- The page that starts at `va`. -/
def State.pageAt (s : State) (dom va : Nat) : Page := tget (fun _ => Page.none) (pageKey dom va) s.pages

/-- The page that holds `va`, with its first address; one that waits for its FCACKs counts as mapped (R261). -/
def State.pageOf (s : State) (dom va : Nat) : Option (Nat × Page) :=
  ([0, 1, 2].map (fun z => (z, va / pageBytes z * pageBytes z))).findSome? (fun e =>
    let p := s.pageAt dom e.2
    if p.size = e.1 then some (e.2, p) else none)

/-- The pages of a domain that overlap [lo, hi), as (first address, page). -/
def State.pagesIn (s : State) (dom lo hi : Nat) : List (Nat × Page) :=
  (s.pages.filter (fun e => e.1 / 2 ^ 30 == dom && decide (lo < hi) && decide (e.1 % 2 ^ 30 * 4096 < hi) &&
    decide (lo < e.1 % 2 ^ 30 * 4096 + pageBytes e.2.size))).map (fun e => (e.1 % 2 ^ 30 * 4096, e.2))

/-- The key of a table frame: level 0 the root's frames 0-7, level 1 by 1 GiB span, level 2 by 2 MiB span (R259). -/
def tableKey (dom level i : Nat) : Nat := dom * 2 ^ 24 + level * 2 ^ 22 + i

/-- What an unlisted table reads as. -/
def noTable : Nat → Nat := fun _ => 2 ^ 30

/-- The frame of a table, 2^30 when there is none. -/
def State.tableFrame (s : State) (k : Nat) : Nat := tget noTable k s.tables

/-- The table keys that a page of size code `z` at `va` needs below the root. -/
def tablesOf (dom z va : Nat) : List Nat := tableKey dom 1 (va / 2 ^ 30) :: (if z < 2 then [tableKey dom 2 (va / 2 ^ 21)] else [])

/-- A table still holds a mapping. -/
def State.tableUsed (s : State) (k : Nat) : Bool :=
  let dom := k / 2 ^ 24
  let i := k % 2 ^ 22
  match k / 2 ^ 22 % 4 with
  | 1 => !(s.pagesIn dom (i * 2 ^ 30) ((i + 1) * 2 ^ 30)).isEmpty
  | 2 => (s.pagesIn dom (i * 2 ^ 21) ((i + 1) * 2 ^ 21)).any (fun e => decide (e.2.size < 2))
  | _ => true

/-- Release the tables of a domain that hold no mapping (R259, R267), their walk cache entries with them. -/
def State.pruneTables (s : State) (dom : Nat) : State :=
  let gone := (s.tables.filter (fun e => e.1 / 2 ^ 24 == dom && !s.tableUsed e.1))
  let t := s.giveFrames (gone.map (·.2))
  let t : State := { t with tables := tkeep (fun k => !(gone.any (fun e => e.1 == k))) t.tables
                            walkCache := t.walkCache.filter (fun k => !(gone.any (fun e => e.1 == k))) }
  t.put Fld.XLT_DOM_USED_FRAMES (t.get Fld.XLT_DOM_USED_FRAMES dom - gone.length) dom

/-- Place pages and then tables (R261): none when the pool has no fitting frames. -/
def State.placePages (s : State) (dom z cls : Nat) (write live : Bool) (vas : List Nat) : Option State :=
  let page (a : Option State) (va : Nat) : Option State := a.bind fun s =>
    (s.takeFrames (pageFrames z) false).map fun r =>
      { r.1 with pages := tset (fun _ => Page.none) (pageKey dom va) { size := z, frame := r.2, write := write, cls := cls, live := live } r.1.pages }
  let table (a : Option State) (k : Nat) : Option State := a.bind fun s =>
    (s.takeFrames 1 true).map fun r => { r.1 with tables := tset noTable k r.2 r.1.tables }
  let need := ((vas.map (fun va => tablesOf dom z va)).flatten.eraseDups).filter (fun k => s.tableFrame k == 2 ^ 30)
  let levels := need.filter (fun k => k / 2 ^ 22 % 4 == 1) ++ need.filter (fun k => k / 2 ^ 22 % 4 == 2)
  levels.foldl table (vas.foldl page (some s))

/-- MAP (R261): the status and the state; the caller has checked the descriptor. -/
def State.mapRange (s : State) (dom va len z cls : Nat) (write live : Bool) : State × Nat :=
  let vas := (List.range (len / pageBytes z)).map (fun i => va + i * pageBytes z)
  let need := ((vas.map (fun a => tablesOf dom z a)).flatten.eraseDups).filter (fun k => s.tableFrame k == 2 ^ 30)
  let frames := vas.length * pageFrames z + need.length
  if !(s.pagesIn dom va (va + len)).isEmpty then (s, 0x0C)
  else if s.get Fld.XLT_DOM_LIMIT_FRAMES dom < s.get Fld.XLT_DOM_USED_FRAMES dom + frames then (s, 0x0B)
  else match s.placePages dom z cls write live vas with
    | none => (s.event Fld.XLT_PAGE_EVENT_MAP_REFUSED, 0x0B)
    | some t =>
      ((t.put Fld.XLT_DOM_USED_FRAMES (s.get Fld.XLT_DOM_USED_FRAMES dom + frames) dom).poolLowCheck (s.freeFrames + s.pendingFrames), 0)

/-- Drop TLB entries of pages (R264). -/
def State.dropTlb (s : State) (p : Nat → Bool) : State :=
  { s with tlbs := (s.tlbs.map (fun e => (e.1, e.2.filter (fun k => !p k)))).filter (fun e => !e.2.isEmpty) }

/-- The first half of UNMAP (R267): the pages stop translating; the frames they held are the answer's second part. -/
def State.unmapRange (s : State) (dom lo hi : Nat) : State × List Nat :=
  let ps := s.pagesIn dom lo hi
  let gone (k : Nat) : Bool := ps.any (fun e => pageKey dom e.1 == k)
  let t : State := { s with pages := tkeep (fun k => !gone k) s.pages }
  (t.dropTlb gone, (ps.map (fun e => (List.range (pageFrames e.2.size)).map (e.2.frame + ·))).flatten)

/-- The second half (R267): the frames become PENDING, and the tables that hold nothing are released. -/
def State.unmapDone (s : State) (dom : Nat) (fs : List Nat) : State :=
  let t := s.giveFrames fs
  (t.put Fld.XLT_DOM_USED_FRAMES (t.get Fld.XLT_DOM_USED_FRAMES dom - fs.length) dom).pruneTables dom

/-- Allocate a domain's root (R259, R260): 8 frames. -/
def State.allocRoot (s : State) (dom : Nat) : Option State :=
  let step (a : Option State) (i : Nat) : Option State := a.bind fun s =>
    (s.takeFrames 1 true).map fun r => { r.1 with tables := tset noTable (tableKey dom 0 i) r.2 r.1.tables }
  ((List.range 8).foldl step (some s)).map fun t => (t.put Fld.XLT_DOM_USED_FRAMES 8 dom).poolLowCheck (s.freeFrames + s.pendingFrames)

/-- Unmap a domain's whole space and release its root (R273). -/
def State.freeDomain (s : State) (dom : Nat) : State :=
  let u := s.unmapRange dom 0 (2 ^ 42)
  let t := u.1.giveFrames u.2
  let mine := t.tables.filter (fun e => e.1 / 2 ^ 24 == dom)
  let t := t.giveFrames (mine.map (·.2))
  let t : State := { t with tables := tkeep (fun k => k / 2 ^ 24 != dom) t.tables, walkCache := t.walkCache.filter (fun k => k / 2 ^ 24 != dom)
                            walks := t.walks.filter (fun w => w.dom != dom) }
  (t.dropTlb (fun k => k / 2 ^ 30 == dom)).put Fld.XLT_DOM_USED_FRAMES 0 dom

/-! ### Stack requests (R255, R256, R275) -/

/-- The record of an error response (R439). -/
def errNote (status unit loc addr resp dom tag : Nat) : Note :=
  { kind := 3
    body := leBytes 1 status ++ leBytes 1 unit ++ leBytes 1 loc ++ leBytes 1 0 ++ leBytes 8 addr ++ leBytes 2 resp ++ leBytes 1 0 ++
      leBytes 1 dom ++ leBytes 3 tag
    tail := [] }

/-- The stack entry of a frame (R255). -/
def State.stackOf (s : State) (f : Nat) : Nat := f % s.get Fld.XLT_XLT_GEOM_STACKS
/-- The stack address of a frame (R255). -/
def State.stackAddr (s : State) (f : Nat) : Nat := f / s.get Fld.XLT_XLT_GEOM_STACKS * 4096

/-- A packet of type `t` for byte `off` of a frame: the base die of its stack entry is the destination (R255, R256). -/
def State.stackPkt (s : State) (t f off dom : Nat) : Packet :=
  { pktOf t with dest := s.stackOf f, dkind := 1, dom := dom, addr := s.stackAddr f + off }

/-- A read of `n` bytes of a frame, within one 256-byte block (R364). -/
def State.stackRead (s : State) (f off n dom : Nat) : Packet := { s.stackPkt 0x01 f off dom with arg := n }

/-- A write of bytes of a frame: a whole aligned 256-byte piece on the bulk write channel, else on the request channel (R275). -/
def State.stackWrite (s : State) (f off dom : Nat) (b : Bytes) : Packet :=
  { s.stackPkt (if b.length = 256 then 0x20 else 0x02) f off dom with data := b }

/-- The frame that a stack request of this die addresses. -/
def State.frameOf (s : State) (p : Packet) : Nat := p.addr / 4096 * s.get Fld.XLT_XLT_GEOM_STACKS + p.dest

/-- A memory request of this die to a frame of this list has no reply yet. -/
def State.framesAsked (s : State) (fs : List Nat) : Bool :=
  s.reqs.any (fun r => r.pkt.dkind == 1 && (r.pkt.vc == 0 || r.pkt.vc == 2) && fs.contains (s.frameOf r.pkt))

/-- Send a request, or hear at once that it has no path (R29). -/
def State.tryRequest (s : State) (p : Packet) (o : ReqOwner) : State × Bool :=
  if s.reachable p.dest p.dkind (pktKey p) then (s.request p o, true) else (s, false)

/-! ### Zero writes (R271, R272) -/

/-- Start the zero writes of a frame: 4 KiB as 16 pieces on the bulk write channel. -/
def State.startZero (s : State) (f dom : Nat) (waiters : List Nat) (scrub : Bool) : State :=
  let step (a : State × Nat × Nat) (i : Nat) : State × Nat × Nat :=
    let r := a.1.tryRequest (a.1.stackWrite f (i * 256) dom (zeros 256)) (.zero f)
    (r.1, if r.2 then (a.2.1 + 1, a.2.2) else (a.2.1, stPathDown))
  let r := (List.range 16).foldl step (s, 0, 0)
  { r.1 with zeroing := r.1.zeroing ++ [{ frame := f, waiters := waiters, left := r.2.1, status := r.2.2, scrub := scrub, first := none }] }

/-- A zero write of a frame has its reply: the last one ends a scrub, and the frame is FREE if every write was performed. -/
def State.zeroReply (s : State) (f st : Nat) : State :=
  match s.zeroing.find? (fun z => z.frame == f) with
  | none => s
  | some z =>
    let z' : ZeroSt := { z with left := z.left - 1, status := if z.status = 0 then st else z.status }
    if z.scrub ∧ z.left ≤ 1 then
      let s : State := { s with zeroing := s.zeroing.filter (fun y => y.frame != f) }
      if z'.status = 0 ∧ s.frame f = { code := 2, mapped := false } then s.setFrame f 0 false else s
    else { s with zeroing := s.zeroing.map (fun y => if y.frame = f then z' else y) }

/-! ### Translation (R264-R266) -/

/-- Fill a TLB or the walk cache: the oldest entry makes room. -/
def fillCache (cap key : Nat) (l : List Nat) : List Nat :=
  if l.contains key then l else (l ++ [key]).drop (l.length + 1 - cap)

/-- TLB `i`: clusters 0-7, die 8. -/
def State.tlb (s : State) (i : Nat) : List Nat := tget (fun _ => []) i s.tlbs

/-- Fill TLB `i` with a page. -/
def State.fillTlb (s : State) (i key : Nat) : State :=
  { s with tlbs := tset (fun _ => []) i (fillCache (if i = 8 then 32768 else 2048) key (s.tlb i)) s.tlbs }

/-- Capture a domain's first fault (R266). -/
def State.domFault (s : State) (dom status va : Nat) : State :=
  if s.get Fld.XLT_DOM_FAULT_VALID dom = 1 then s
  else ((s.put Fld.XLT_DOM_FAULT_STATUS status dom).put Fld.XLT_DOM_FAULT_VALID 1 dom).put Fld.XLT_DOM_FAULT_VA_VA va dom

/-- What the domain's mappings say to an access now (R263, R266): a status, its frame, and the offset in it. -/
def State.lookup (s : State) (dom va : Nat) (write : Bool) : Nat × Nat × Nat :=
  match s.pageOf dom va with
  | none => (stTranslation, 0, 0)
  | some (base, p) =>
    if !p.live then (stTranslation, 0, 0)
    else if write && !p.write then (stProtection, 0, 0)
    else (0, p.frame + (va - base) / 4096, va % 4096)

/-- An access ends with a translation fault, or goes on to its frame (R266). -/
def State.landed (s : State) (dom va : Nat) (r : Nat × Nat × Nat) : State × Except Nat (Nat × Nat) :=
  if r.1 = 0 then (s, .ok r.2) else (s.domFault dom r.1 va, .error r.1)

/-- What a page says to an access, once it has been looked up (R266): its frame and the offset in it, or a status. -/
def State.pageAccess (s : State) (dom va : Nat) (write : Bool) : State × Except Nat (Nat × Nat) := s.landed dom va (s.lookup dom va write)

/-- An access whose walk has ended takes the translation of the ck in which it was accepted (R263), unless the frame has been lost to a
BAD table since (R269). -/
def State.landLate (s : State) (dom va : Nat) (r : Nat × Nat × Nat) : State × Except Nat (Nat × Nat) :=
  s.landed dom va (if r.1 = 0 ∧ (!(s.frame r.2.1).mapped ∨ s.condemned.contains r.2.1) then (stTranslation, 0, 0) else r)

/-- Entries of the TLBs and of the walk cache that hold flipped bits are dropped (R437): the die walks again. -/
def State.dropErrors (s : State) : State :=
  if s.ecc.all (fun e => decide (e.1 < eccTlb 0 0)) then s
  else { s with
    tlbs := (s.tlbs.map (fun e => (e.1, e.2.filter (fun k => s.flips (eccTlb e.1 k) == 0)))).filter (fun e => !e.2.isEmpty)
    walkCache := s.walkCache.filter (fun k => s.flips (eccWalk k) == 0)
    ecc := tkeep (fun k => decide (k < eccTlb 0 0)) s.ecc }

/-- The page of a lookup: its key when a TLB of the requester holds it (R264). -/
def State.tlbHit (s : State) (dom va cl : Nat) : Option Nat :=
  match s.pageOf dom va with
  | none => none
  | some (base, _) =>
    let k := pageKey dom base
    if (s.tlb 8).contains k || (decide (cl < 8) && (s.tlb cl).contains k) then some k else none

/-- Count one walk (R277, R278). -/
def State.countWalk (s : State) (dom : Nat) : State := (s.count Fld.XLT_XLT_WALKS_COUNT).count Fld.XLT_DOM_WALKS_COUNT 1 dom

/-- An uncorrectable error in a table read (R269): the frame is BAD, and what it maps stops translating. The frames become PENDING when
no access to them is in flight. -/
def State.badTable (s : State) (dom k : Nat) : State :=
  let f := s.tableFrame k
  let i := k % 2 ^ 22
  let span := match k / 2 ^ 22 % 4 with
    | 0 => (i * 2 ^ 39, (i + 1) * 2 ^ 39)
    | 1 => (i * 2 ^ 30, (i + 1) * 2 ^ 30)
    | _ => (i * 2 ^ 21, (i + 1) * 2 ^ 21)
  let t := (s.event Fld.ERR_PAGE_EVENT_UE_SEEN).event Fld.XLT_PAGE_EVENT_TABLE_BAD
  let t := t.note (memNote (Who.self dom 6) s.sysId 3 1 (s.stackOf f) (s.stackAddr f))
  let t := t.setFrame f 3 true
  let u := t.unmapRange dom span.1 span.2
  let t : State := { u.1 with condemned := u.1.condemned ++ u.2 }
  (t.put Fld.XLT_DOM_USED_FRAMES (t.get Fld.XLT_DOM_USED_FRAMES dom - u.2.length) dom).pruneTables dom

/-- Condemned frames with no access in flight become PENDING. -/
def State.freeCondemned (s : State) : State :=
  let ok (f : Nat) : Bool := !s.framesAsked [f]
  { s.giveFrames (s.condemned.filter ok) with condemned := s.condemned.filter (fun f => !ok f) }

/-- The tables below the root on the way to `va`: the second level's and the third level's (R259). -/
def lowerTables (dom va : Nat) : List Nat := [tableKey dom 1 (va / 2 ^ 30), tableKey dom 2 (va / 2 ^ 21)]

/-- The table reads of a walk for `va` (R264, R265), root first: one entry of the root unless the walk cache holds it, one of the second
level unless the cache holds it, one of the third. The walk ends at the first entry that leads to no table: the entry of a 2 MiB page, one
that maps nothing, or the third level's. The cache holds only entries that lead to a table, so a walk reads at least that last one. A BAD
frame is not read. -/
def State.walkReads (s : State) (dom va : Nat) : List Nat :=
  let there (k : Nat) : Bool := s.tableFrame k != 2 ^ 30 && (s.frame (s.tableFrame k)).code != 3
  let levels := (tableKey dom 0 (va / 2 ^ 39) :: lowerTables dom va).zip ((lowerTables dom va).map s.walkCache.contains ++ [false])
  ((levels.filter (fun l => !l.2)).map (·.1)).filter there

/-- The byte offset in a table frame of the entry for virtual page number `vpn`. DEDUCED (log entry 12): an entry has 8 bytes, since a
frame of any level holds 512 (R259). -/
def tableEntry (k vpn : Nat) : Nat := (match k / 2 ^ 22 % 4 with
  | 0 => vpn / 2 ^ 18
  | 1 => vpn / 2 ^ 9
  | _ => vpn) % 512 * 8

/-- Replace the walk for a domain and virtual page number. -/
def State.setWalk (s : State) (x : Walk) : State := { s with walks := s.walks.map (fun w => if w.dom = x.dom ∧ w.vpn = x.vpn then x else w) }

/-- A walk goes on (R265): it sends the read of its next table. -/
def State.walkNext (s : State) (w : Walk) : State :=
  match w.reads with
  | [] => s.setWalk { w with tag := none }
  | k :: _ =>
    let r := (s.setWalk { w with tag := some s.nextTag }).tryRequest (s.stackRead (s.tableFrame k) (tableEntry k w.vpn) 8 w.dom) (.walk w.dom w.vpn)
    if r.2 then r.1 else s.setWalk { w with reads := [], tag := none, bad := some (k, stPathDown) }

/-- The reply to a table read (R265, R269): dependent reads follow one another; a failure ends the walk. -/
def State.walkReply (s : State) (dom vpn tag st : Nat) : State :=
  match s.walks.find? (fun w => w.dom == dom && w.vpn == vpn && w.tag == some tag) with
  | none => s
  | some w =>
    if st ≠ 0 then s.setWalk { w with reads := [], tag := none, bad := w.reads.head?.map (fun k => (k, st)) }
    else s.walkNext { w with reads := w.reads.tail.filter (fun k => s.tableFrame k != 2 ^ 30) }

/-- A walk ends (R264, R269): the state, and 0 or the status of the read that failed. A walk that finds the page unmapped fills
nothing. -/
def State.endWalk (s : State) (w : Walk) (va : Nat) : State × Nat :=
  match w.bad with
  | some (k, st) => (if st = stUncorrectable ∧ s.tableFrame k ≠ 2 ^ 30 then s.badTable w.dom k else s, st)
  | none =>
    match s.pageOf w.dom va with
    | none => (s, 0)
    | some (base, p) =>
      if !p.live then (s, 0)
      else
        let met := (lowerTables w.dom va).filter (fun k => s.tableFrame k != 2 ^ 30)
        let t : State := { s with walkCache := met.foldl (fun l k => fillCache 4096 k l) s.walkCache }
        (((8 :: w.cls.filter (· < 8)).eraseDups).foldl (fun t i => t.fillTlb i (pageKey w.dom base)) t, 0)

/-- `FRAME_SCRUB` (R272): the scrubber starts the zero writes of a PENDING frame that is not mapped, unless `SCRUB_RATE` is 0,
`SCRUB_HOLD` is 1 (R273) or its stack cannot be reached; the last acknowledgement makes the frame FREE (`State.zeroReply`). -/
def execFrameScrub (frame : Nat) (s : State) : Res :=
  if s.poolLo ≤ frame ∧ frame < s.poolHi ∧ s.frame frame = { code := 2, mapped := false } ∧ s.get Fld.XLT_XLT_CFG_SCRUB_RATE ≠ 0 ∧
      !s.scrubHold ∧ !s.zeroing.any (fun z => z.frame == frame) ∧
      (List.range 16).all (fun i => s.reachable (s.stackOf frame) 1 (pktKey (s.stackWrite frame (i * 256) 0 (zeros 256)))) then
    .next (s.startZero frame 0 [] true)
  else .next s

end Sys2Proof.Machine
end

