-- ==== Sys2Proof/Machine/Moves.lean ====
section
/-! DEFINITION. The move engines (R246-R254), their accesses to this die, other dies and stack memory (R250, R275), and
MOVE and MWAIT. An engine makes one access of a descriptor at a time, in the order of R253, so that no write above a failed
one is ever performed. The accesses of dispatch to stack memory run in the same way, in slots of their own. -/

namespace Sys2Proof.Machine

/-! ### Fields of a descriptor (R249) -/

/-- `OP`. -/
def mvOp (w : Nat) : Nat := bitsAt w 0 8
/-- `SKIND`. -/
def mvSKind (w : Nat) : Nat := bitsAt w 8 2
/-- `DKIND`. -/
def mvDKind (w : Nat) : Nat := bitsAt w 10 2
/-- `ORDER`. -/
def mvOrder (w : Nat) : Bool := bitOf w 12
/-- `PGSZ`. -/
def mvPgsz (w : Nat) : Nat := bitsAt w 14 2
/-- `WRITE`. -/
def mvWrite (w : Nat) : Bool := bitOf w 16
/-- `CLASS`. -/
def mvClass (w : Nat) : Nat := bitsAt w 17 1
/-- `ROWLEN`. -/
def mvRowLen (w : Nat) : Nat := bitsAt w 32 32
/-- `SRC`. -/
def mvSrc (w : Nat) : Nat := bitsAt w 64 64
/-- `DST`. -/
def mvDst (w : Nat) : Nat := bitsAt w 128 64
/-- `ROWS_M1`. -/
def mvRowsM1 (w : Nat) : Nat := bitsAt w 192 32
/-- `PATTERN`. -/
def mvPattern (w : Nat) : Nat := bitsAt w 224 32
/-- `SSTRIDE`. -/
def mvSStride (w : Nat) : Nat := bitsAt w 256 32
/-- `DSTRIDE`. -/
def mvDStride (w : Nat) : Nat := bitsAt w 288 32
/-- `TAG`. -/
def mvTag (w : Nat) : Nat := bitsAt w 384 64

/-- The bits that an `OP` uses (R251); `OP`, `ORDER` and `TAG` are used by each. None for a reserved `OP`. -/
def mvUsed (op : Nat) : Option Nat :=
  let base := span 7 0 ||| span 12 12 ||| span 447 384
  match op with
  | 0 => some base
  | 1 => some (base ||| span 11 8 ||| span 63 32 ||| span 223 64 ||| span 319 256)
  | 2 => some (base ||| span 11 10 ||| span 63 32 ||| span 255 128 ||| span 319 288)
  | 3 => some (base ||| span 11 10 ||| span 17 14 ||| span 63 32 ||| span 191 128)
  | 4 => some (base ||| span 11 10 ||| span 63 32 ||| span 191 128)
  | 5 => some (base ||| span 11 10 ||| span 63 32 ||| span 191 128)
  | _ => none

/-- An address as the overlap check compares it (R252): its kind and value, a global address of this die reduced. -/
def mvSpace (sysId kind a : Nat) : Nat × Nat :=
  if kind = 1 ∧ a / 2 ^ 52 = sysId ∧ bitsAt a 32 20 = 0 then (0, a % 2 ^ 32) else (kind, a)

/-- The source and destination rows of a COPY overlap (R252). DESIGN CHOICE (log entry 92): the ranges are compared row by row, so that
rows that interleave do not overlap. -/
def mvOverlap (sysId w : Nat) : Bool :=
  let a := mvSpace sysId (mvSKind w) (mvSrc w)
  let b := mvSpace sysId (mvDKind w) (mvDst w)
  let n := mvRowLen w
  let r := mvRowsM1 w
  if a.1 ≠ b.1 then false
  else if a.2 + r * mvSStride w + n ≤ b.2 ∨ b.2 + r * mvDStride w + n ≤ a.2 then false
  else (List.range (r + 1)).any (fun i => (List.range (r + 1)).any (fun j =>
    decide (a.2 + i * mvSStride w < b.2 + j * mvDStride w + n) && decide (b.2 + j * mvDStride w < a.2 + i * mvSStride w + n)))

/-- An engine's check of a descriptor (R252) for a domain that is active or not. DESIGN CHOICE (log entry 92): a COPY or FILL with
`ROWLEN` 0, which R249 rules out and R252 does not list, is an invalid descriptor. -/
def mvInvalid (sysId w : Nat) (active : Bool) : Bool :=
  match mvUsed (mvOp w) with
  | none => true
  | some used =>
    let al := if mvOp w = 3 then pageBytes (mvPgsz w) else 4096
    decide (w &&& (2 ^ 512 - 1 - used) ≠ 0) || mvSKind w == 3 || mvDKind w == 3 ||
    (decide (3 ≤ mvOp w) && (mvDKind w != 2 || (mvOp w == 3 && mvPgsz w == 3) || mvDst w % al != 0 || mvRowLen w % al != 0 || !active)) ||
    ((mvOp w == 1 || mvOp w == 2) && (mvRowLen w == 0 || decide (2 ^ 40 < mvRowLen w * (mvRowsM1 w + 1)))) ||
    (mvOp w == 1 && mvOverlap sysId w)

/-! ### Slots -/

/-- The descriptor in slot `k`. -/
def State.move (s : State) (k : Nat) : MoveJob := tget (fun _ => MoveJob.none) k s.moves
/-- Replace it. -/
def State.setMove (s : State) (k : Nat) (j : MoveJob) : State := { s with moves := tset (fun _ => MoveJob.none) k j s.moves }
/-- Slot `k` holds a descriptor. -/
def State.moveHeld (s : State) (k : Nat) : Bool := thas k s.moves
/-- The engine of a slot: 0-15 of the clusters, 16-31 of the die (R246). -/
def moveEngine (k : Nat) : Nat := k / 64
/-- The cluster whose TLB a slot's engine uses, 8 for a die engine (R264). -/
def moveCluster (k : Nat) : Nat := if moveEngine k < 16 then moveEngine k / 2 else 8
/-- Requester unit of a slot's engine (R440). -/
def moveUnit (k : Nat) : Nat := if moveEngine k < 16 then 0 else if moveEngine k < 32 then 1 else 7

/-- The core or engine that a record of this descriptor names (R439). -/
def MoveJob.loc (j : MoveJob) (k : Nat) : Nat := match j.owner with
  | .core n _ _ _ => n
  | .item _ _ _ => moveEngine k - 16
  | .dispatch (.post c _) => c
  | .dispatch _ => 0

/-- The first free slot of engines [lo, hi). -/
def State.freeSlot (s : State) (lo hi : Nat) : Option Nat := ((List.range ((hi - lo) * 64)).map (lo * 64 + ·)).find? (fun k => !s.moveHeld k)

/-- An engine accepts a descriptor: what its check refuses ends at once (R252). -/
def State.acceptMove (s : State) (k w dom stream : Nat) (o : MoveOwner) : State :=
  let bad := mvInvalid s.sysId w (s.domActive dom)
  let s := s.setMove k { MoveJob.none with w := w, dom := dom, owner := o, stream := stream, order := s.nextMove, status := if bad then some 1 else none }
  { s with nextMove := s.nextMove + 1 }

/-- `ORDER` (R249): an earlier descriptor of the stream has not completed, be it one of an earlier item that is not submitted yet
(R285; the count of a list is bits 159-128 of its item). Those of a queue come in the order of its items and their lists, whichever an
engine accepted first. -/
def State.moveBlocked (s : State) (j : MoveJob) : Bool :=
  mvOrder j.w && (match j.owner with
    | .item q serial pos =>
      s.moves.any (fun e => match e.2.owner with
        | .item q' serial' pos' => q' == q && (decide (serial' < serial) || (serial' == serial && decide (pos' < pos)))
        | _ => false) ||
      s.items.any (fun i => i.queue == q && decide (i.serial < serial) && (i.w % 16 == 2 || i.w % 16 == 6) && decide (i.next < bitsAt i.w 128 32))
    | _ => s.moves.any (fun e => e.2.stream == j.stream && decide (e.2.order < j.order)))

/-- End a descriptor with a status. -/
def State.endMove (s : State) (k st : Nat) : State := s.setMove k { s.move k with status := some st, wait := .run }

/-- The descriptor waits. -/
def State.waitMove (s : State) (k : Nat) (w : MoveWait) : State := s.setMove k { s.move k with wait := w }

/-! ### Walks (R264) -/

/-- A walk serves virtual address `va`: the same page, or the same 4 KiB of unmapped space. -/
def State.walkFor (s : State) (w : Walk) (dom va : Nat) : Bool :=
  w.dom == dom && (match s.pageOf dom va with
    | none => w.vpn == va / 4096
    | some (base, p) => decide (base ≤ w.vpn * 4096) && decide (w.vpn * 4096 < base + pageBytes p.size))

/-- Ask for a walk: one in progress for the page is joined, else a free walker takes it; false when all 32 are busy. -/
def State.askWalk (s : State) (dom va cl : Nat) : State × Bool :=
  if s.walks.any (fun w => s.walkFor w dom va) then
    ({ (s.count Fld.XLT_XLT_TLB_MISS_COUNT) with
        walks := s.walks.map (fun w => if s.walkFor w dom va ∧ !w.cls.contains cl then { w with cls := w.cls ++ [cl] } else w) }, true)
  else if s.walks.length < 32 then
    let w : Walk := { dom := dom, vpn := va / 4096, cls := [cl], reads := s.walkReads dom va, tag := none, bad := none }
    (({ ((s.count Fld.XLT_XLT_TLB_MISS_COUNT).countWalk dom) with walks := s.walks ++ [w] } : State).walkNext w, true)
  else (s, false)

/-! ### COPY and FILL -/

/-- Where an address of a descriptor leads (R250). -/
inductive Place where
  | here (a : Nat)
  | die (id a : Nat)
  | virt (va : Nat)

/-- Resolve an address of a kind (R40, R250). -/
def State.place (s : State) (kind a : Nat) : Except Nat Place :=
  if kind = 2 then (if 2 ^ 42 ≤ a then .error stReserved else .ok (.virt a))
  else if kind = 1 then
    if bitsAt a 32 20 ≠ 0 then .error stReserved
    else if a / 2 ^ 52 = s.sysId then .ok (.here (a % 2 ^ 32))
    else .ok (.die (a / 2 ^ 52) (a % 2 ^ 32))
  else if 2 ^ 32 ≤ a then .error stReserved
  else .ok (.here a)

/-- What one access of an engine gives: bytes read or the write done, a failure, or a wait that is already entered. -/
inductive Step1 where
  | done (b : Bytes)
  | fail (st : Nat)
  | wait

/-- Translate for the descriptor in slot `k`: the mappings of the ck in which the access is accepted decide (R263), also where it then
waits for a walk; the walk it waited for answers this once. -/
def State.moveXlate (s : State) (k va : Nat) (write : Bool) : State × Option (Except Nat (Nat × Nat)) :=
  let s := s.dropErrors
  let j := s.move k
  let said := j.xlat.getD (s.lookup j.dom va write)
  let fresh := match j.walked with
    | some (vpn, st) => if vpn = va / 4096 then some st else none
    | none => none
  match fresh with
  | some 0 =>
    let r := (s.setMove k { j with walked := none, xlat := none }).landLate j.dom va said
    (r.1, some r.2)
  | some st => (s.setMove k { j with walked := none, xlat := none }, some (.error st))
  | none =>
    match s.tlbHit j.dom va (moveCluster k) with
    | some key =>
      let s := if moveCluster k < 8 then s.fillTlb (moveCluster k) key else s
      let r := (s.setMove k { j with xlat := none }).landLate j.dom va said
      (r.1, some r.2)
    | none => (((s.setMove k { j with xlat := some said }).askWalk j.dom va (moveCluster k)).1.waitMove k (.walk va), none)

/-- The requester of a slot's accesses on this die. -/
def State.moveWho (s : State) (k : Nat) : Who := Who.self (s.move k).dom (moveUnit k)

/-- Send a request for slot `k` (R275); with no path it ends at once (R29). -/
def State.moveRequest (s : State) (k : Nat) (p : Packet) : State × Step1 :=
  let r := (s.waitMove k (.reply s.nextTag)).tryRequest p (.move k)
  if r.2 then (r.1, .wait) else (s, .fail stPathDown)

/-- An access of slot `k` to frame `f` waits behind its zero writes, or behind the first write that follows them (R271). -/
def State.zeroBars (s : State) (k f : Nat) : Bool := s.zeroing.any (fun z => z.frame == f && z.first != some k)

/-- Slot `k` waits behind the zero writes of frame `f` (R271). -/
def State.waitZero (s : State) (k f off : Nat) : State :=
  { (s.waitMove k (.zero f off)) with zeroing := s.zeroing.map (fun z => if z.frame = f then { z with waiters := z.waiters ++ [k] } else z) }

/-- Read `n` bytes of a frame that has been translated (R271): a PENDING frame reads as zero without any stack access; behind zero
writes the access waits. -/
def State.moveFrameRead (s : State) (k f off n : Nat) : State × Step1 :=
  if s.zeroBars k f then (s.waitZero k f off, .wait)
  else if (s.frame f).code = 2 then (s, .done (zeros n))
  else s.moveRequest k (s.stackRead f off n (s.move k).dom)

/-- Write bytes to a frame that has been translated: the first write to a PENDING frame starts its zero writes, others wait
behind them (R271). -/
def State.moveFrameWrite (s : State) (k f off : Nat) (b : Bytes) : State × Step1 :=
  if s.zeroBars k f then (s.waitZero k f off, .wait)
  else if (s.frame f).code = 2 then ((s.waitMove k (.zero f off)).startZero f (s.move k).dom [k] false, .wait)
  else s.moveRequest k (s.stackWrite f off (s.move k).dom b)

/-- Read `n` bytes at an address; `tr` is a translation that the access already holds. -/
def State.moveRead (s : State) (k kind a n : Nat) (tr : Option (Nat × Nat)) : State × Step1 :=
  match s.place kind a with
  | .error e => (s, .fail e)
  | .ok (.here a) =>
    let r := s.readMem (s.moveWho k) a n
    (r.state, if r.status = 0 then .done r.bytes else .fail r.status)
  | .ok (.die id a) => s.moveRequest k { pktOf 0x01 with dest := id, dom := (s.move k).dom, arg := n, addr := a }
  | .ok (.virt va) =>
    match tr with
    | some (f, off) => s.moveFrameRead k f off n
    | none => match s.moveXlate k va false with
      | (t, none) => (t, .wait)
      | (t, some (.error e)) => (t, .fail e)
      | (t, some (.ok (f, off))) => t.moveFrameRead k f off n

/-- The gang limit of R303 forbids a write at an address. -/
def State.moveBarred (s : State) (k : Nat) (p : Place) (n : Nat) : Bool :=
  match (s.move k).owner with
  | .item _ _ _ => false
  | .dispatch _ => false
  | .core c _ _ g => (s.core c).gang == g && (match p with
    | .here a => !s.groupMayWrite c a (a + n)
    | _ => !s.groupMayWrite c 0 (2 ^ 64))

/-- Write bytes at an address: whole aligned 256-byte pieces go as BWR, others as WR (R275). -/
def State.movePut (s : State) (k kind a : Nat) (b : Bytes) (tr : Option (Nat × Nat)) : State × Step1 :=
  match s.place kind a with
  | .error e => (s, .fail e)
  | .ok p =>
    if s.moveBarred k p b.length then (s, .fail stProtection)
    else match p with
      | .here a =>
        let r := s.writeMem (s.moveWho k) a b
        (r.1, if r.2 = 0 then .done [] else .fail r.2)
      | .die id a =>
        s.moveRequest k { pktOf (if b.length = 256 then 0x20 else 0x02) with dest := id, dom := (s.move k).dom, addr := a, data := b }
      | .virt va =>
        match tr with
        | some (f, off) => s.moveFrameWrite k f off b
        | none => match s.moveXlate k va true with
          | (t, none) => (t, .wait)
          | (t, some (.error e)) => (t, .fail e)
          | (t, some (.ok (f, off))) => t.moveFrameWrite k f off b

/-- `n` bytes of the pattern from byte `off` of a row (R249). -/
def patBytes (pat off n : Nat) : Bytes := (List.range n).map (fun i => (leBytes 4 pat).getD ((off + i) % 4) 0)

/-- Advance a descriptor past `n` written bytes. -/
def MoveJob.advance (j : MoveJob) (n : Nat) : MoveJob :=
  if j.off + n ≥ mvRowLen j.w then { j with row := j.row + 1, off := 0, got := [] } else { j with off := j.off + n, got := [] }

/-- Bytes of the next piece to write: up to the row's end and the next 256-byte boundary of the destination (R275); a FILL
that leaves the die cuts a whole 256-byte piece in two, since it goes as WR (R275, R364). -/
def State.movePiece (s : State) (j : MoveJob) : Nat :=
  let dst := (mvDst j.w + j.row * mvDStride j.w + j.off) % 2 ^ 64
  let n := min (mvRowLen j.w - j.off) (256 - dst % 256)
  let far : Bool := match s.place (mvDKind j.w) dst with
    | .ok (.here _) => false
    | .ok _ => true
    | _ => false
  if mvOp j.w = 2 ∧ far ∧ n = 256 then 128 else n

/-- One access of a COPY or FILL; true while the engine can go on. -/
def State.moveStep (s : State) (k : Nat) (tr : Option (Nat × Nat)) : State × Bool :=
  let j := s.move k
  if j.status.isSome then (s, false)
  else if mvRowsM1 j.w < j.row then (s.endMove k 0, false)
  else
    let n := s.movePiece j
    let dst := (mvDst j.w + j.row * mvDStride j.w + j.off) % 2 ^ 64
    if mvOp j.w = 1 ∧ j.got.length < n then
      let src := (mvSrc j.w + j.row * mvSStride j.w + j.off + j.got.length) % 2 ^ 64
      match s.moveRead k (mvSKind j.w) src (min (n - j.got.length) (256 - src % 256)) tr with
      | (t, .done b) => (t.setMove k { t.move k with got := j.got ++ b }, true)
      | (t, .fail st) => (t.endMove k st, false)
      | (t, .wait) => (t, false)
    else
      match s.movePut k (mvDKind j.w) dst (if mvOp j.w = 1 then j.got else patBytes (mvPattern j.w) j.off n) tr with
      | (t, .done _) => (t.setMove k ((t.move k).advance n), true)
      | (t, .fail st) => (t.endMove k st, false)
      | (t, .wait) => (t, false)

/-- Run a COPY or FILL until it waits or ends. -/
def State.moveLoop (k : Nat) : Nat → State → Option (Nat × Nat) → State
  | 0, s, _ => s
  | fuel + 1, s, tr =>
    let r := s.moveStep k tr
    if r.2 then State.moveLoop k fuel r.1 none else r.1

/-! ### Accesses of dispatch -/

/-- `OP` of an access of dispatch that reads; a descriptor with this code is invalid (R251). -/
def opRead : Nat := 6
/-- `OP` of one that writes. -/
def opWrite : Nat := 7

/-- The bytes of the next access of dispatch from offset `off` of its range: up to a 256-byte boundary (R364). -/
def MoveJob.chunk (j : MoveJob) : Nat := min (mvRowLen j.w - j.off) (256 - (mvDst j.w + j.off) % 256)

/-- Dispatch goes on with an access of its own: it reads or writes up to the next 256-byte boundary. -/
def State.dispatchStep (s : State) (k : Nat) (tr : Option (Nat × Nat)) : State × Bool :=
  let j := s.move k
  if j.status.isSome then (s, false)
  else if mvRowLen j.w ≤ j.off then (s.endMove k 0, false)
  else
    let r := if mvOp j.w = opRead then s.moveRead k 2 (mvDst j.w + j.off) j.chunk tr
      else s.movePut k 2 (mvDst j.w + j.off) (sub j.data j.off j.chunk) tr
    match r with
    | (t, .done b) => (t.setMove k { t.move k with off := j.off + j.chunk, data := if mvOp j.w = opRead then j.data ++ b else j.data }, true)
    | (t, .fail st) => (t.endMove k st, false)
    | (t, .wait) => (t, false)

/-- Run an access of dispatch until it waits or ends. -/
def State.dispatchLoop (k : Nat) : Nat → State → Option (Nat × Nat) → State
  | 0, s, _ => s
  | fuel + 1, s, tr =>
    let r := s.dispatchStep k tr
    if r.2 then State.dispatchLoop k fuel r.1 none else r.1

/-- Dispatch starts an access of `n` bytes at a virtual address, which it reads, or writes with `data`. -/
def State.dispatchAccess (s : State) (u : VUse) (dom va n : Nat) (data : Option Bytes) : State :=
  let k := 2048 + s.nextMove
  let w := (if data.isSome then opWrite else opRead) + 2 ^ 32 * n + 2 ^ 128 * va
  let s : State := { s with nextMove := s.nextMove + 1 }
  State.dispatchLoop k 8 (s.setMove k { MoveJob.none with w := w, dom := dom, owner := .dispatch u, stream := 2 ^ 32, order := k, started := true
                                                          data := data.getD [] }) none

/-- An access of dispatch of this use is under way. -/
def State.accessing (s : State) (u : VUse) : Bool := s.moves.any (fun e => decide (e.2.owner = .dispatch u) && !e.2.dead)

/-- Give up accesses of dispatch: one that waits for a reply stays until it has it. -/
def State.dropAccess (s : State) (p : VUse → Bool) : State :=
  let mine (j : MoveJob) : Bool := match j.owner with
    | .dispatch u => p u
    | _ => false
  { s with moves := (s.moves.map (fun e => (e.1, if mine e.2 then { e.2 with dead := true } else e.2))).filter (fun e => match e.2.wait with
      | .reply _ => true
      | _ => !mine e.2) }

/-- Enough accesses for a whole descriptor. -/
def moveFuel (w : Nat) : Nat := (mvRowsM1 w + 1) * (mvRowLen w / 128 + 3) * 4 + 1

/-! ### TOUCH -/

/-- Walk the pages of a TOUCH from its position on as many walkers as are free (R251): pages that the die TLB holds are
passed over. It ends when every page has been filled or found unmapped. -/
def State.touchLoop (k : Nat) : Nat → State → State
  | 0, s => s
  | fuel + 1, s =>
    let j := s.move k
    let s := s.dropErrors
    let va := mvDst j.w + j.off
    if mvRowLen j.w ≤ j.off then (if j.held.isEmpty then s.endMove k 0 else s.waitMove k (.walk va))
    else
      let next := match s.pageOf j.dom va with
        | none => va + 4096
        | some (base, p) => base + pageBytes p.size
      if (s.tlbHit j.dom va 8).isSome then State.touchLoop k fuel (s.setMove k { j with off := next - mvDst j.w })
      else
        let r := s.askWalk j.dom va 8
        if r.2 then State.touchLoop k fuel (r.1.setMove k { j with off := next - mvDst j.w, held := j.held ++ [va / 4096] })
        else r.1.waitMove k (.walk va)

/-! ### Going on -/

/-- Go on with a started descriptor of slot `k`. -/
def State.resumeMove (s : State) (k : Nat) (tr : Option (Nat × Nat)) : State :=
  let j := s.move k
  if j.status.isSome ∨ j.dead then s
  else
    let s := s.setMove k { j with wait := .run }
    if 2048 ≤ k then State.dispatchLoop k 8 s tr
    else if mvOp j.w = 5 then State.touchLoop k (mvRowLen j.w / 4096 + 2) s
    else if mvOp j.w = 1 ∨ mvOp j.w = 2 then State.moveLoop k (moveFuel j.w) s tr
    else s

/-- The accesses `l` that waited behind a frame's zero writes go on in their order of arrival (R271). -/
def State.zeroGo (s : State) (l : List Nat) : State :=
  l.foldl (fun t k => match (t.move k).wait with
    | .zero f off => t.resumeMove k (some (f, off))
    | _ => t) s

/-- The first write to a frame after its zero writes, which slot `k` makes, has ended: the accesses behind it go on (R271). -/
def State.firstDone (s : State) (k : Nat) : State :=
  let mine := s.zeroing.filter (fun z => z.first == some k)
  if mine.isEmpty then s
  else ({ s with zeroing := s.zeroing.filter (fun z => z.first != some k) } : State).zeroGo (mine.flatMap (·.waiters))

/-- The reply to a request of slot `k` (R253, R367): a status, and the bytes of a read. -/
def State.moveReply (s : State) (k tag st : Nat) (data : Bytes) : State :=
  let s := if (s.move k).wait = .reply tag then s.firstDone k else s
  let j := s.move k
  let write : Bool := !(mvOp j.w == opRead || (mvOp j.w == 1 && decide (j.got.length < s.movePiece j)))
  if j.wait ≠ .reply tag then s
  else if st ≠ 0 then s.endMove k st
  else if j.dead then s.endMove k 0
  else if 2048 ≤ k then
    (s.setMove k { j with off := j.off + j.chunk, data := if write then j.data else j.data ++ fit data j.chunk }).resumeMove k none
  else
    let n := s.movePiece j
    let src := (mvSrc j.w + j.row * mvSStride j.w + j.off + j.got.length) % 2 ^ 64
    (s.setMove k (if write then j.advance n else { j with got := j.got ++ fit data (min (n - j.got.length) (256 - src % 256)) })).resumeMove k none

/-- One FCACK of a weight-class MAP, or the end of its wait (R270, R364, R374), with its status: 0 applied, 1 not offered, which sets
`CODE_DOWNGRADE`; another status is a command without an FCACK. When all have been acknowledged the pages translate; a MAP with a command
that was not ends with that status, and its pages do not translate (log entry 80). -/
def State.moveCode (s : State) (k st : Nat) : State :=
  let s := if st = 1 then s.event Fld.XLT_PAGE_EVENT_CODE_DOWNGRADE else s
  let j := s.move k
  match j.wait with
  | .codes left bad =>
    let bad := if st ≤ 1 ∨ bad ≠ 0 then bad else st
    if 1 < left then s.waitMove k (.codes (left - 1) bad)
    else if bad ≠ 0 then s.endMove k bad
    else
      let t : State := { s with pages := s.pages.map (fun e => if j.held.contains e.1 then (e.1, { e.2 with live := true }) else e) }
      t.endMove k 0
  | _ => s

/-! ### Meanings -/

/-- A MOVE heads the move queue of core `n`, and its counter can count it (R247). -/
def State.moveReady (s : State) (n : Nat) : Bool := match (s.core n).mq with
  | d :: _ => iMajor d.word == 0x10 && (s.core n).mvCnt.getD (iSel d.word) 0 != 255
  | [] => false

/-- The engines of a cluster take MOVE instructions from its cores round-robin (R246): no other core with one comes before core `c`. -/
def State.moveTurn (s : State) (c : Nat) : Bool :=
  let place (n : Nat) : Nat := (n % 8 + 7 - tget (fun _ => 7) (c / 8) s.moveLast) % 8
  ((List.range 8).map (c / 8 * 8 + ·)).all (fun n => n == c || !s.moveReady n || decide (place c < place n))

/-- `MOVE` (R246-R248): in its core's turn the descriptor is read, the counter counts it, and an engine of the cluster accepts it. -/
def execMove (c : Nat) (s : State) : Res :=
  onUnit "core" 64 c <|
    let t := s.forMove c
    let k := t.core c
    match k.mq with
    | [] => .next t
    | d :: rest =>
      let ctr := iSel d.word
      if iMajor d.word ≠ 0x10 ∨ k.mvCnt.getD ctr 0 = 255 ∨ !t.moveTurn c then .next t
      else match t.freeSlot (c / 8 * 2) (c / 8 * 2 + 2) with
        | none => .next t
        | some slot =>
          let r := t.readMem (t.coreWho c 0) (iAddr32 d.word) 64
          if r.status ≠ 0 then .next (r.state.coreFault c (accessCode r.status 0x09) d.seq)
          else
            let u := r.state.setCore c { r.state.core c with mq := rest, mvCnt := k.mvCnt.set ctr (k.mvCnt.getD ctr 0 + 1) }
            let u : State := { u with moveLast := tset (fun _ => 7) (c / 8) (c % 8) u.moveLast }
            .next (u.acceptMove slot (leVal r.bytes) k.dom (c * 16 + ctr) (.core c ctr d.seq k.gang))

/-- `MWAIT` (R247): decode goes on once the counter, or every counter, is 0. -/
def execMwait (c : Nat) (s : State) : Res :=
  onUnit "core" 64 c <|
    let t := s.forMove c
    let k := t.core c
    match k.mq with
    | [] => .next t
    | d :: rest =>
      if iMajor d.word = 0x11 ∧ (if waitAll d.word then k.mvCnt.all (· == 0) else k.mvCnt.getD (iSel d.word) 0 == 0) then
        .next (t.setCore c { k with mq := rest })
      else .next t

/-- Start the descriptor in slot `k` when it is of operation `op` and may start, and run `f` on it. -/
def State.moveRow (s : State) (k op : Nat) (f : State → MoveJob → State) : Res :=
  onUnit "move slot" 2048 k <|
    let j := s.move k
    if !s.moveHeld k ∨ j.status.isSome ∨ mvOp j.w ≠ op ∨ j.dead ∨ (!j.started ∧ s.moveBlocked j) then .next s
    else .next (f (s.setMove k { j with started := true }) j)

/-- `MOVE_NOP` (R251). -/
def execMoveNop (k : Nat) (s : State) : Res := s.moveRow k 0 fun s _ => s.endMove k 0

/-- A descriptor that waits for nothing, or for a walker, goes on. -/
def State.moveGo (s : State) (k : Nat) : State := match (s.move k).wait with
  | .run => s.resumeMove k none
  | .walk va => if s.walks.any (fun w => s.walkFor w (s.move k).dom va) then s else s.resumeMove k none
  | _ => s

/-- `MOVE_COPY` (R251, R253, R275). -/
def execMoveCopy (k : Nat) (s : State) : Res := s.moveRow k 1 fun s _ => s.moveGo k

/-- `MOVE_FILL` (R251, R253). -/
def execMoveFill (k : Nat) (s : State) : Res := s.moveRow k 2 fun s _ => s.moveGo k

/-- Another MAP or UNMAP of the domain is under way (R263). -/
def State.xltBusy (s : State) (k : Nat) (j : MoveJob) : Bool :=
  s.moves.any (fun e => e.1 != k && e.2.dom == j.dom && (mvOp e.2.w == 3 || mvOp e.2.w == 4) && e.2.started && e.2.status.isNone)

/-- The base die of a frame, the partner of the memory module that its commands take, offers no stronger code (R270). -/
def State.plainCode (s : State) (f : Nat) (p : Packet) : Bool := match s.routeModule (16 + s.stackOf f) (pktKey p) with
  | none => false
  | some m => s.get Fld.LNK_MOD_CFG_MOD_ROLE m == 1 && !bitOf (s.get Fld.LNK_MOD_FEAT_COMMON m) 2

/-- Ask the base dies of a MAP's frames for the stronger code (R270): how many commands were sent, and whether a frame keeps
the standard code because its base die offers none. A command with no path is dropped (R29) and ends in its timeout. -/
def State.askCodes (s : State) (k : Nat) (frames : List Nat) : State × Nat × Bool :=
  frames.foldl (fun (a : State × Nat × Bool) f =>
    let p : Packet := { a.1.stackPkt 0x53 f 0 (a.1.move k).dom with arg := 1 }
    if a.1.plainCode f p then (a.1, a.2.1, true) else (a.1.request p (.frameCode k), a.2.1 + 1, a.2.2)) (s, 0, false)

/-- A virtual range leaves the 42-bit space (R250). -/
def mvBeyond (w : Nat) : Bool := decide (2 ^ 42 ≤ mvDst w) || decide (2 ^ 42 < mvDst w + mvRowLen w)

/-- `MOVE_MAP` (R250, R252, R261, R263, R270): a weight-class page translates once every frame-code command is answered. -/
def execMoveMap (k : Nat) (s : State) : Res :=
  if (s.move k).started ∨ s.xltBusy k (s.move k) then onUnit "move slot" 2048 k (.next s)
  else s.moveRow k 3 fun s j =>
    let va := mvDst j.w
    if mvBeyond j.w then s.endMove k stReserved
    else if !s.domActive j.dom then s.endMove k 1
    else
      let r := s.mapRange j.dom va (mvRowLen j.w) (mvPgsz j.w) (mvClass j.w) (mvWrite j.w) (mvClass j.w = 0)
      if r.2 ≠ 0 then r.1.endMove k r.2
      else if mvClass j.w = 0 then r.1.endMove k 0
      else
        let ps := r.1.pagesIn j.dom va (va + mvRowLen j.w)
        let t := r.1.setMove k { r.1.move k with held := ps.map (fun e => pageKey j.dom e.1) }
        let q := t.askCodes k (ps.map (fun e => (List.range (pageFrames e.2.size)).map (e.2.frame + ·))).flatten
        let t := if q.2.2 then q.1.event Fld.XLT_PAGE_EVENT_CODE_DOWNGRADE else q.1
        if q.2.1 = 0 then (t.waitMove k (.codes 1 0)).moveCode k 0 else t.waitMove k (.codes q.2.1 0)

/-- `MOVE_UNMAP` (R267): the pages of the range stop translating. -/
def execMoveUnmap (k : Nat) (s : State) : Res :=
  if (s.move k).started ∨ s.xltBusy k (s.move k) then onUnit "move slot" 2048 k (.next s)
  else s.moveRow k 4 fun s j =>
    if mvBeyond j.w then s.endMove k stReserved
    else if !s.domActive j.dom then s.endMove k 1
    else
      let r := s.unmapRange j.dom (mvDst j.w) (mvDst j.w + mvRowLen j.w)
      r.1.setMove k { r.1.move k with held := r.2, wait := .drain }

/-- Accesses that were translated before are in flight to one of these frames: a request without a reply, or a descriptor that waits
behind zero writes or for the walk of an access that was accepted before. -/
def State.framesBusy (s : State) (fs : List Nat) : Bool := s.framesAsked fs || s.moves.any (fun e => !e.2.dead && (match e.2.wait with
  | .zero f _ => fs.contains f
  | .walk _ => e.2.xlat.any (fun r => r.1 == 0 && fs.contains r.2.1)
  | _ => false))

/-- `UNMAP_COMPLETE` (R267): once every access translated before has ended, the frames become PENDING and the tables that
hold nothing are released. -/
def execUnmapComplete (k : Nat) (s : State) : Res :=
  onUnit "move slot" 2048 k <|
    let j := s.move k
    if j.wait = .drain ∧ !s.framesBusy j.held then .next ((s.unmapDone j.dom j.held).endMove k 0) else .next s

/-- `MOVE_TOUCH` (R251). -/
def execMoveTouch (k : Nat) (s : State) : Res := s.moveRow k 5 fun s j =>
  if mvBeyond j.w then s.endMove k stReserved
  else if j.started ∧ !j.held.isEmpty then s
  else s.resumeMove k none

/-- After a walk with outcome `st` for `va`: a COPY or FILL that waited for that page takes the outcome; a TOUCH strikes its
pages off; everything that waits for a walker tries again. -/
def State.afterWalk (s : State) (dom va st : Nat) (same : Nat → Bool) : State :=
  (s.moves.map (·.1)).foldl (fun t k =>
    let j := t.move k
    match j.wait with
    | .walk w =>
      let mine := j.dom == dom && same (w / 4096)
      if mvOp j.w = 5 then
        (t.setMove k { j with held := if j.dom = dom then j.held.filter (fun v => !same v && v != va / 4096) else j.held }).resumeMove k none
      else (t.setMove k { j with walked := if mine then some (w / 4096, st) else j.walked }).resumeMove k none
    | _ => t) s

/-- What waits behind the zero writes of a condemned frame is translated anew: it finds its page gone (R269). -/
def State.detach (s : State) : State :=
  let hit (z : ZeroSt) : Bool := s.condemned.contains z.frame
  let ks := (s.zeroing.filter hit).flatMap (·.waiters)
  ks.foldl (fun t k => match (t.move k).wait with
    | .zero _ _ => t.resumeMove k none
    | _ => t) { s with zeroing := s.zeroing.map (fun z => if hit z then { z with waiters := [] } else z) }

/-- The zero writes before a first write have ended (R271): if they were performed the frame is MAPPED and the first write goes out, whose
end lets the accesses behind it go on; else the first write ends with their status and the others start anew. A frame that a teardown has
unmapped meanwhile stays PENDING (R273). -/
def State.zeroDone (s : State) (z : ZeroSt) : State :=
  let s : State := { s with zeroing := s.zeroing.filter (fun y => y.frame != z.frame) }
  let u := if z.status = 0 ∧ s.frame z.frame = { code := 2, mapped := true } then s.setFrame z.frame 1 true else s
  match z.waiters with
  | [] => u
  | k :: rest =>
    if z.status = 0 then
      let t := ({ u with zeroing := u.zeroing ++ [{ z with waiters := rest, first := some k }] } : State).zeroGo [k]
      match (t.move k).wait with
      | .reply _ => t
      | _ => t.firstDone k
    else (u.endMove k z.status).zeroGo rest

/-- Descriptors that have ended wait behind no zero writes any more, and nothing waits behind a first write of theirs (R273). -/
def State.dropWaiters (s : State) : State :=
  let ended (k : Nat) : Bool := (s.move k).status.isSome || !s.moveHeld k
  { s with zeroing := (s.zeroing.map (fun z => { z with waiters := z.waiters.filter (fun k => !ended k) })).filter (fun z => !z.first.any ended) }

end Sys2Proof.Machine
end

