-- ==== Sys2Proof/Machine/Traverse.lean ====
section
/-! DEFINITION. The traverse unit (R312-R344): TRAV and TWAIT, rounds of chains with their messages, and the signal
counters (R296). A die sends as far as its windows allow whenever a round starts, a message arrives or its row asks. -/

namespace Sys2Proof.Machine

/-! ### Signal counters (R296) -/

/-- The domain that owns a signal counter. -/
def State.sigOwner (s : State) (c : Nat) : Nat := bitsAt (s.word (regKey 8 0 (0x2000 + c / 4 * 4))).toNat (c % 4 * 8) 8

/-- A signal counter. -/
def State.sig (s : State) (c : Nat) : Nat := s.get Fld.DSP_SIG_VALUE 0 c

/-- Add to a signal counter, modulo 2^32 (R295). -/
def State.sigAdd (s : State) (c n : Nat) : State := s.put Fld.DSP_SIG_VALUE (s.sig c + n) 0 c

/-- A counter has reached a value (R283, R295). -/
def State.sigReached (s : State) (c v : Nat) : Bool := decide ((s.sig c + 2 ^ 32 - v % 2 ^ 32) % 2 ^ 32 < 2 ^ 31)

/-! ### What a descriptor allows (R317, R318) -/

/-- The bits that an operation uses (R317, R318). -/
def tdUsed (op : Nat) : Nat :=
  let base := span 10 0 ||| span 23 16 ||| span 95 32
  match op with
  | 1 => base ||| span 159 96
  | 2 => base ||| span 159 96
  | 3 => base ||| span 159 96
  | 4 => base ||| span 223 96
  | 5 => base ||| span 159 96 ||| span 233 224 ||| span 239 239 ||| span 249 240 ||| span 255 255 ||| span 287 256
  | 6 => base ||| span 159 128 ||| span 287 256
  | _ => 0

/-- The `DT` and `ROP` pairs that an operation allows (R318). -/
def tdAllowed (op rop dt : Nat) : Bool :=
  match op with
  | 1 => decide (dt ≤ 4) && (decide (rop ≤ 2) || (decide (rop ≤ 5) && dt == 4))
  | 2 => decide (dt ≤ 4) && (decide (rop ≤ 2) || (decide (rop ≤ 5) && dt == 4))
  | 3 => decide (dt ≤ 4) && rop == 0
  | 4 => decide (dt ≤ 4) && rop == 0
  | 5 => decide (dt ≤ 4) && rop == 0
  | 6 => dt == 0 && rop == 1
  | _ => false

/-- Element bytes of a `DT` (R318). -/
def dtSize (dt : Nat) : Nat := if dt = 3 then 8 else if dt = 1 ∨ dt = 2 then 2 else 4

/-- The format of a floating `DT`. -/
def dtFmt (dt : Nat) : Fmt := match dt with
  | 1 => fBF16
  | 2 => fB16
  | 3 => fB64
  | _ => fB32

/-- The running value is a compensated pair (R321). -/
def isPair (rop dt : Nat) : Bool := rop == 0 && decide (dt ≤ 3)

/-- Bytes of a running value on the wire (R321, R326). -/
def wireSize (rop dt : Nat) : Nat := if isPair rop dt then (if dt = 3 then 16 else 8) else dtSize dt

/-- The operation combines values (R313). -/
def opReduces (op : Nat) : Bool := op == 1 || op == 2 || op == 6
/-- The operation gathers results round the chain (R324). -/
def opGathers (op : Nat) : Bool := op == 1 || op == 3 || op == 6

/-! ### Combining (R321, R323) -/

/-- The identity of a reduction as a wire code (R191, R321). -/
def redIdentity (rop dt : Nat) : Nat :=
  match rop with
  | 1 => if dt = 4 then 2 ^ 31 else (dtFmt dt).enc (.inf true)
  | 2 => if dt = 4 then 2 ^ 31 - 1 else (dtFmt dt).enc (.inf false)
  | 3 => 2 ^ 32 - 1
  | _ => 0

/-- Combine one element into a running value; the flags say that opposite infinities met, and that a finite sum became infinite
(R154, R169). -/
def redCombine (rop dt acc x : Nat) : Nat × Bool × Bool :=
  if isPair rop dt then
    let f := if dt = 3 then fB64 else fB32
    let r := addComp f (f.dec (acc % 2 ^ f.bits)) (f.dec (acc / 2 ^ f.bits)) ((dtFmt dt).dec x)
    (f.enc r.s + 2 ^ f.bits * f.enc r.c, r.opp, r.ovf)
  else if dt = 4 then
    ((match rop with
      | 0 => (acc + x) % 2 ^ 32
      | 1 => if signed 32 acc < signed 32 x then x else acc
      | 2 => if signed 32 x < signed 32 acc then x else acc
      | 3 => acc &&& x
      | 4 => acc ||| x
      | _ => Nat.xor acc x), false, false)
  else
    let f := dtFmt dt
    (f.enc (if rop = 1 then vmax (f.dec acc) (f.dec x) else vmin (f.dec acc) (f.dec x)), false, false)

/-- The result of a running value in `DT`; the flag says that rounding a finite pair gave infinity (R323). -/
def redResult (rop dt acc : Nat) : Nat × Bool :=
  if isPair rop dt then
    let f := if dt = 3 then fB64 else fB32
    let v := vadd (f.dec (acc % 2 ^ f.bits)) (f.dec (acc / 2 ^ f.bits))
    let r := (dtFmt dt).rne v
    ((dtFmt dt).enc r, r.isInf && !v.isInf)
  else (acc, false)

/-- Codes of `w` bytes as bytes. -/
def codesBytes (w : Nat) (l : List Nat) : Bytes := (l.map (leBytes w)).flatten

/-- The codes of `w` bytes in a run of bytes. -/
def bytesCodes (w : Nat) (b : Bytes) : List Nat := (List.range (b.length / w)).map (fun i => leAt b (i * w) w)

/-! ### Grants and ends of a round -/

/-- The two dies take `GRANT_BATCH` (R354): the module toward the die says so. -/
def State.batches (s : State) (die ch : Nat) : Bool :=
  match s.routeModule (s.routeEntry die 0) ch with
  | none => false
  | some m => bitOf (s.get Fld.LNK_MOD_FEAT_COMMON m) 3

/-- The core fault that a round status raises (R336). -/
def roundFault (st : Nat) : Nat := match st with
  | 1 => 0x02
  | 3 => 0x0A
  | 4 => 0x0C
  | _ => 0x09

/-- The round status of a failed access (R336). -/
def roundAccess (st : Nat) : Nat := if st = stSealed then 3 else if st = stUncorrectable then 4 else 2

/-- TRAVs or SPUSHes of cores complete with a status (R316, R336), each given as core, counter, gang and sequence number: those of
kernels that still run leave their counters, and a status that is not OK faults each of their cores. -/
def State.travsDone (s : State) (l : List (Nat × Nat × Nat × Nat)) (st : Nat) : State :=
  let t := l.foldl (fun s x =>
    let c := s.core x.1
    if c.gang ≠ x.2.2.1 then s else s.setCore x.1 { c with tvCnt := c.tvCnt.set x.2.1 (c.tvCnt.getD x.2.1 0 - 1) }) s
  if st = 0 then t else t.coreFaults (roundFault st) (l.map (fun x => (x.1, x.2.2.1, x.2.2.2)))

/-- The round of a chain ends with a status (R314, R327, R336): its TRAVs complete and the epoch advances. -/
def State.endRound (s : State) (ch st : Nat) : State :=
  match (s.chain ch).round with
  | none => s
  | some r => (s.closeRound ch st).travsDone (r.contribs.map (fun x => (x.core, x.ctr, r.gang, x.seq))) st

/-- This die finds that a round fails (R336): an ABORT goes both ways. -/
def State.failRound (s : State) (ch st : Nat) : State := (s.sendAborts ch st).endRound ch st

/-- Grant a die `n` more segments (R326, R354); a die that cannot be reached fails the round (R336). -/
def State.grantSegs (s : State) (ch die n : Nat) (w : Nat) : State :=
  let b := if s.batches die ch then 16 else 1
  if !s.reachable die 0 ch then s.failRound ch 5
  else (List.range (ceilDiv n b)).foldl (fun s i => s.send (s.chPacket ch 0x32 die (min b (n - i * b)) w)) s

/-- A message of a peer differs from this die's tables or descriptors (R319, R336): the round ends here, and the die that sent it
learns of it even when it is no neighbour (R328). -/
def State.failFrom (s : State) (ch src : Nat) : State :=
  let t := if src = s.chNext ch ∨ src = s.chPrev ch then s
    else match (s.chain ch).round with
      | none => s
      | some r => s.send (s.chPacket ch 0x34 src 7 r.desc)
  t.failRound ch 7

/-! ### Accesses of a round -/

/-- The core that stands for a round's accesses: its first contributor. -/
def Round.core (r : Round) : Nat := match r.contribs with
  | [] => 0
  | c :: _ => c.core

/-- Read for a round (R317): the status is that of R336. -/
def State.rndRead (s : State) (ch a n : Nat) : Rd :=
  let r := s.readMem (Who.self (s.get Fld.TRV_CH_CFG_DOMAIN ch) 5) a n
  ⟨r.state, if r.status = 0 then 0 else roundAccess r.status, r.bytes⟩

/-- Write for a round (R303, R317). -/
def State.rndWrite (s : State) (ch core a : Nat) (b : Bytes) : State × Nat :=
  if !s.groupMayWrite core a (a + b.length) then (s, 2)
  else
    let r := s.writeMem (Who.self (s.get Fld.TRV_CH_CFG_DOMAIN ch) 5) a b
    (r.1, if r.2 = 0 then 0 else roundAccess r.2)

/-- Elements [off, off + n) of shard `k` of a contributor's input, as codes of `DT`: of memory, or for HMERGE the `AMAX` of
each slot's entry that holds the step; an entry with an uncorrectable error is not valid (R329, R436). -/
def State.rndInput (s : State) (ch : Nat) (r : Round) (x : Contrib) (k off n : Nat) : State × Nat × List Nat :=
  let w := x.desc
  let e := shardOff r.shards k + off
  if tdOp w = 6 then
    let t := tdSteps w
    let r := (List.range n).foldl (fun (a : State × List Nat) i =>
      let slot := tdSrc w % 4096 + e + i
      let s := a.1.checkEntry (Who.self (a.1.get Fld.TRV_CH_CFG_DOMAIN ch) 5) slot (t % 16)
      (s, a.2 ++ [if s.get Fld.SCL_ENTRY_VALID slot (t % 16) = 1 ∧ s.get Fld.SCL_ENTRY_STEP slot (t % 16) = t then
        s.get Fld.SCL_ENTRY_AMAX slot (t % 16) else 0])) (s, [])
    (r.1, 0, r.2)
  else
    let z := dtSize (tdDt w)
    let d := s.rndRead ch (tdSrc w + e * z) (n * z)
    (d.state, d.status, bytesCodes z d.bytes)

/-- Set a bit of the numeric status word of every contributor's core. -/
def State.rndNsw (s : State) (r : Round) (bit : Nat) : State :=
  r.contribs.foldl (fun s x => if (s.core x.core).gang = r.gang then s.setNsw x.core bit else s) s

/-- Combine every local contribution into running values of shard `k` from element `off` (R321); a finite sum that becomes infinite sets `ACC_OVF` (R169). -/
def State.rndCombine (s : State) (ch : Nat) (r : Round) (k off : Nat) (acc : List Nat) : State × Nat × List Nat :=
  let w := r.desc
  let step (a : State × Nat × List Nat) (x : Contrib) : State × Nat × List Nat :=
    if a.2.1 ≠ 0 then a
    else
      let i := a.1.rndInput ch r x k off acc.length
      if i.2.1 ≠ 0 then (i.1, i.2.1, a.2.2)
      else
        let v := (a.2.2.zip i.2.2).map (fun e => redCombine (tdRop w) (tdDt w) e.1 e.2)
        let s := if v.any (·.2.1) then i.1.put Fld.TRV_CH_STATUS_NAN_MADE 1 ch else i.1
        let s := if v.any (·.2.2) then s.rndNsw r nswAccOvf else s
        (s.count Fld.TRV_TRV_ELEMS_COUNT v.length, 0, v.map (·.1))
  r.contribs.foldl step (s, 0, acc)

/-- Write results of shard `k` from element `off` where the operation puts them (R324, R325, R329); a merged slot is touched by the
kernel that merges it (R145). -/
def State.rndDeliver (s : State) (ch : Nat) (r : Round) (k off : Nat) (codes : List Nat) : State × Nat :=
  let w := r.desc
  let z := dtSize (tdDt w)
  if tdOp w = 6 then
    (((List.range codes.length).zip codes).foldl (fun s e =>
      let slot := tdSrc w % 4096 + shardOff r.shards k + off + e.1
      (s.touch r.gang slot).recordBlock (Who.self (s.get Fld.TRV_CH_CFG_DOMAIN ch) 5) slot (tdSteps w) [fB32.dec e.2]) s, 0)
  else
    let at_ (d : Nat) : Nat := d + (if tdOp w = 2 then off else shardOff r.shards k + off) * z
    (r.contribs.map (fun x => tdDst x.desc)).eraseDups.foldl (fun (a : State × Nat) d =>
      if a.2 ≠ 0 then a else a.1.rndWrite ch r.core (at_ d) (codesBytes z codes)) (s, 0)

/-! ### Sending -/

/-- Elements per segment of the reduce phase (R326). -/
def segReduce (w : Nat) : Nat := 4096 / wireSize (tdRop w) (tdDt w)
/-- Elements per segment of the gather phase. -/
def segGather (w : Nat) : Nat := 4096 / dtSize (tdDt w)

/-- The segments of the shards that satisfy `p`, ascending, as (shard, element offset) (R327). -/
def segList (l : List Nat) (z : Nat) (p : Nat → Bool) : List (Nat × Nat) :=
  ((idx l.length p).map (fun k => (List.range (ceilDiv (shardLen l k) z)).map (fun i => (k, i * z)))).flatten

/-- The segments that a die sends in the reduce phase: of every shard but its own (R321, R327). -/
def sendsReduce (w n p : Nat) (l : List Nat) : List (Nat × Nat) :=
  if opReduces (tdOp w) && decide (1 < n) then segList l (segReduce w) (· != p) else []

/-- The segments that it sends in the gather phase: of every shard but its successor's (R324). -/
def sendsGather (w n p : Nat) (l : List Nat) : List (Nat × Nat) :=
  if opGathers (tdOp w) && decide (1 < n) then segList l (segGather w) (· != (p + 1) % n) else []

/-- The segments it receives in the reduce phase: of every shard but the one it starts. -/
def gotsReduce (w n p : Nat) (l : List Nat) : Nat :=
  if opReduces (tdOp w) && decide (1 < n) then (segList l (segReduce w) (· != (p + n - 1) % n)).length else 0

/-- The segments it receives in the gather phase: of every shard but its own. -/
def gotsGather (w n p : Nat) (l : List Nat) : Nat :=
  if opGathers (tdOp w) && decide (1 < n) then (segList l (segGather w) (· != p)).length else 0

/-- Segments that `die` has granted for the round under way. -/
def State.granted (s : State) (ch die : Nat) : Nat :=
  (((s.chain ch).grants.filter (fun g => g.1 == s.chEpoch ch && g.2.1 == die)).map (·.2.2)).sum

/-- Send one segment to the successor. -/
def State.sendSeg (s : State) (ch : Nat) (r : Round) (phase k off : Nat) (data : Bytes) (step : Nat) : State :=
  s.send { s.chPacket ch 0x30 (s.chNext ch) (r.sent % 65536 + step * 65536) r.desc with
    phase := phase, shard := k, shardLen := shardLen r.shards k, elemOff := off, data := data }

/-- The segment of a phase that waits in the chain buffer. -/
def Round.find (r : Round) (phase k off : Nat) : Option InSeg := r.held.find? (fun h => h.phase == phase && h.shard == k && h.off == off)

/-- What one try of the engine does: the state, and whether it moved on. -/
abbrev Tried := State × Bool

/-- Send the next segment of the reduce phase, if it is at hand and the window allows (R326, R327). -/
def State.tryReduce (s : State) (ch : Nat) (r : Round) : Tried :=
  let w := r.desc
  let n := s.chN ch
  let p := s.chP ch
  match (sendsReduce w n p r.shards).drop r.sentR with
  | [] => (s, false)
  | (k, off) :: _ =>
    if s.granted ch (s.chNext ch) ≤ r.sent then (s, false)
    else if !s.reachable (s.chNext ch) 0 ch then (s.failRound ch 5, false)
    else
      let cnt := min (segReduce w) (shardLen r.shards k - off)
      let go (s : State) (acc : List Nat) (r : Round) (free : Bool) : Tried :=
        let c := s.rndCombine ch r k off acc
        if c.2.1 ≠ 0 then (c.1.failRound ch c.2.1, false)
        else
          let t := c.1.sendSeg ch r 0 k off (codesBytes (wireSize (tdRop w) (tdDt w)) c.2.2) 0
          let t := t.setRound ch { r with sentR := r.sentR + 1, sent := r.sent + 1 }
          (if free then t.grantSegs ch (t.chPrev ch) 1 w else t, true)
      if k = (p + n - 1) % n then go s (List.replicate cnt (redIdentity (tdRop w) (tdDt w))) r false
      else match r.find 0 k off with
        | none => (s, false)
        | some h =>
          let d := s.rndRead ch (s.get Fld.TRV_CH_BUF_ADDR ch + h.slot * 4096) h.len
          if d.status ≠ 0 then (d.state.failRound ch d.status, false)
          else go d.state (bytesCodes (wireSize (tdRop w) (tdDt w)) d.bytes) { r with held := r.held.filter (· != h) } true

/-- Send the next segment of the gather phase. -/
def State.tryGather (s : State) (ch : Nat) (r : Round) : Tried :=
  let w := r.desc
  let p := s.chP ch
  let z := dtSize (tdDt w)
  match (sendsGather w (s.chN ch) p r.shards).drop r.sentG with
  | [] => (s, false)
  | (k, off) :: _ =>
    if s.granted ch (s.chNext ch) ≤ r.sent then (s, false)
    else if !s.reachable (s.chNext ch) 0 ch then (s.failRound ch 5, false)
    else
      let cnt := min (segGather w) (shardLen r.shards k - off)
      let go (s : State) (data : Bytes) (r : Round) (free : Bool) : Tried :=
        let t := s.sendSeg ch r 1 k off data 0
        let t := t.setRound ch { r with sentG := r.sentG + 1, sent := r.sent + 1 }
        (if free then t.grantSegs ch (t.chPrev ch) 1 w else t, true)
      if k = p then
        if opReduces (tdOp w) then
          (if r.results.length < off + cnt then (s, false) else go s (codesBytes z ((r.results.drop off).take cnt)) r false)
        else
          let d := s.rndRead ch (tdSrc w + off * z) (cnt * z)
          if d.status ≠ 0 then (d.state.failRound ch d.status, false) else go d.state d.bytes r false
      else match r.find 1 k off with
        | none => (s, false)
        | some h =>
          let d := s.rndRead ch (s.get Fld.TRV_CH_BUF_ADDR ch + h.slot * 4096) h.len
          if d.status ≠ 0 then (d.state.failRound ch d.status, false)
          else go d.state d.bytes { r with held := r.held.filter (· != h) } true

/-- Finish elements of this die's own shard (R321, R323, R324): round them, write them, and hold them for the gather phase. -/
def State.finishElems (s : State) (ch : Nat) (r : Round) (off : Nat) (acc : List Nat) : Tried :=
  let w := r.desc
  let c := s.rndCombine ch r (s.chP ch) off acc
  if c.2.1 ≠ 0 then (c.1.failRound ch c.2.1, false)
  else
    let v := c.2.2.map (redResult (tdRop w) (tdDt w))
    let t := if v.any (·.2) then c.1.rndNsw r nswCvtOvf else c.1
    let d := t.rndDeliver ch r (s.chP ch) off (v.map (·.1))
    if d.2 ≠ 0 then (d.1.failRound ch d.2, false)
    else (d.1.setRound ch { r with results := r.results ++ v.map (·.1) }, true)

/-- With one position, the whole reduction is local. -/
def State.tryLocal (s : State) (ch : Nat) (r : Round) : Tried :=
  let w := r.desc
  if s.chN ch = 1 ∧ opReduces (tdOp w) ∧ r.results.length < shardLen r.shards 0 then
    let off := r.results.length
    s.finishElems ch r off (List.replicate (min (segReduce w) (shardLen r.shards 0 - off)) (redIdentity (tdRop w) (tdDt w)))
  else (s, false)

/-! ### PERMUTE (R328) -/

/-- The elements [lo, hi) that old shard `a` and new shard `b` share. -/
def permRun (olds news : List Nat) (a b : Nat) : Nat × Nat :=
  (max (shardOff olds a) (shardOff news b), min (shardOff olds a + shardLen olds a) (shardOff news b + shardLen news b))

/-- The number of shared elements. -/
def permLen (olds news : List Nat) (a b : Nat) : Nat := (permRun olds news a b).2 - (permRun olds news a b).1

/-- The position that has data left for a granted window, if any. -/
def State.permNext (s : State) (ch : Nat) (r : Round) : Option Nat :=
  let z := segGather r.desc
  (List.range (s.chN ch)).find? (fun k => k != s.chP ch &&
    decide (tget (fun _ => 0) k r.sentTo < ceilDiv (permLen r.olds r.shards (s.chP ch) k) z) &&
    decide (tget (fun _ => 0) k r.sentTo < s.granted ch (r.posmap.getD k 0)))

/-- Send the next run of a PERMUTE. -/
def State.tryPermute (s : State) (ch : Nat) (r : Round) : Tried :=
  let w := r.desc
  if tdOp w ≠ 4 then (s, false)
  else match s.permNext ch r with
    | none => (s, false)
    | some k =>
      let z := dtSize (tdDt w)
      let run := permRun r.olds r.shards (s.chP ch) k
      let i := tget (fun _ => 0) k r.sentTo
      let g := run.1 + i * segGather w
      let cnt := min (segGather w) (run.2 - g)
      let d := s.rndRead ch (tdSrc w + (g - shardOff r.olds (s.chP ch)) * z) (cnt * z)
      if d.status ≠ 0 then (d.state.failRound ch d.status, false)
      else
        let p : Packet := { d.state.chPacket ch 0x31 (r.posmap.getD k 0) (r.sent % 65536) w with
          phase := 1, shard := k, shardLen := shardLen r.shards k, elemOff := g, data := d.bytes }
        if !d.state.reachable p.dest 0 ch then (d.state.failRound ch 5, false)
        else ((d.state.send p).setRound ch { r with sent := r.sent + 1, sentTo := tset (fun _ => 0) k (i + 1) r.sentTo }, true)

/-! ### RPASS (R330, R331) -/

/-- The shard that arrives at step `t`. -/
def rpShard (n p t : Nat) : Nat := (p + n - t % n) % n
/-- Bytes of a ring slot. -/
def rpSlot (w : Nat) (l : List Nat) : Nat := ceilDiv (l.foldl max 0 * dtSize (tdDt w)) 64 * 64

/-- Grant the predecessor the next step when R331 allows. -/
def State.tryRingGrant (s : State) (ch : Nat) (r : Round) : Tried :=
  let w := r.desc
  let t := r.gStep + 1
  if tdOp w ≠ 5 ∨ tdSteps w < t then (s, false)
  else if (t ≤ 2 ∨ t - 2 ≤ (s.sig (tdRel w) + 2 ^ 32 - r.rel0) % 2 ^ 32) ∧ (t ≤ 2 ∨ t - 1 < r.sStep) then
    if !s.reachable (s.chPrev ch) 0 ch then (s.failRound ch 5, false)
    else ((s.send (s.chPacket ch 0x32 (s.chPrev ch) (t * 65536) w)).setRound ch { r with gStep := t }, true)
  else (s, false)

/-- Send the next segment of a ring pass: step 1 from `SRC`, step t from the slot of step t − 1. -/
def State.tryRingSend (s : State) (ch : Nat) (r : Round) : Tried :=
  let w := r.desc
  let n := s.chN ch
  let t := r.sStep
  if tdOp w ≠ 5 ∨ tdSteps w < t ∨ r.rStep < t then (s, false)
  else
    let k := rpShard n (s.chP ch) (t - 1)
    let len := shardLen r.shards k
    if len ≤ r.sOff then (s.setRound ch { r with sStep := t + 1, sOff := 0 }, true)
    else if !(s.chain ch).steps.any (fun g => g.1 == s.chEpoch ch && decide (t ≤ g.2)) then (s, false)
    else if !s.reachable (s.chNext ch) 0 ch then (s.failRound ch 5, false)
    else
      let z := dtSize (tdDt w)
      let cnt := min (segGather w) (len - r.sOff)
      let base := if t = 1 then tdSrc w else tdDst w + (t - 1) % 2 * rpSlot w r.shards
      let d := s.rndRead ch (base + r.sOff * z) (cnt * z)
      if d.status ≠ 0 then (d.state.failRound ch d.status, false)
      else
        let u := d.state.sendSeg ch r 1 k r.sOff d.bytes t
        let done := decide (len ≤ r.sOff + cnt)
        (u.setRound ch { r with sent := r.sent + 1, sStep := if done then t + 1 else t, sOff := if done then 0 else r.sOff + cnt }, true)

/-- A step whose block is empty has arrived as soon as it is granted. -/
def State.tryRingEmpty (s : State) (ch : Nat) (r : Round) : Tried :=
  let w := r.desc
  if tdOp w = 5 ∧ r.rStep ≤ tdSteps w ∧ r.rStep ≤ r.gStep ∧ shardLen r.shards (rpShard (s.chN ch) (s.chP ch) r.rStep) = 0 then
    ((s.sigAdd (tdArr w) 1).setRound ch { r with rStep := r.rStep + 1, rOff := 0 }, true)
  else (s, false)

/-! ### Running a round -/

/-- One thing that a started round can do now. -/
def State.chainTry (s : State) (ch : Nat) : Tried :=
  let first (l : List (State → Nat → Round → Tried)) (r : Round) : Tried :=
    l.foldl (fun (a : Tried) f => match (a.1.chain ch).round with
      | none => a
      | some _ => if a.2 then a else f a.1 ch r) (s, false)
  match (s.chain ch).round with
  | none => (s, false)
  | some r =>
    if !r.started then (s, false)
    else first [State.tryLocal, State.tryReduce, State.tryGather, State.tryPermute, State.tryRingGrant, State.tryRingEmpty, State.tryRingSend] r

/-- Repeat until nothing more can be done. -/
def State.chainLoop (ch : Nat) : Nat → State → State
  | 0, s => s
  | fuel + 1, s => let t := s.chainTry ch; if t.2 then State.chainLoop ch fuel t.1 else t.1

/-- Let a round go as far as its data and windows allow: no more than a segment per element, step and phase. -/
def State.chainRun (s : State) (ch : Nat) : State :=
  match (s.chain ch).round with
  | none => s
  | some r => State.chainLoop ch (tdCount r.desc * 4 + (s.chN ch + 2) * 8 + tdSteps r.desc * 4) s

/-! ### Starting a round (R319, R320) -/

/-- The distance of an epoch from the epoch of the next round, or of the round under way: 0, 1 ahead, 2^32 - 1 behind. -/
def State.epochAhead (s : State) (ch e : Nat) : Nat := (e + 2 ^ 32 - s.chEpoch ch) % 2 ^ 32

/-- The round has data left that `src` must still grant (R327, R328, R331): until then `src` cannot end its own round of this epoch. -/
def State.owes (s : State) (ch : Nat) (r : Round) (src : Nat) : Bool :=
  let w := r.desc
  let n := s.chN ch
  let p := s.chP ch
  if tdOp w = 4 then (idx n (fun k => k != p && r.posmap.getD k 0 == src)).any (fun k =>
    decide (tget (fun _ => 0) k r.sentTo < ceilDiv (permLen r.olds r.shards p k) (segGather w)))
  else src == s.chNext ch && (if tdOp w = 5 then decide (r.sStep ≤ tdSteps w)
    else decide (r.sentR < (sendsReduce w n p r.shards).length) || decide (r.sentG < (sendsGather w n p r.shards).length))


/-- The contributors that a round needs (R313, R318). -/
def State.contributors (s : State) (ch op : Nat) : Nat := if op = 1 ∨ op = 2 then s.get Fld.TRV_CH_CFG_LOCAL_M1 ch + 1 else 1

/-- What a descriptor shows on its own (R317, R318, R329, R330). -/
def State.tdInvalid (s : State) (ch w : Nat) : Bool :=
  let op := tdOp w
  !tdAllowed op (tdRop w) (tdDt w) || decide (w &&& (2 ^ 512 - 1 - tdUsed op) ≠ 0) ||
    decide (tdCount w = 0) || decide (2 ^ 31 < tdCount w) || decide (tdShards w % 4 ≠ 0) || decide (tdShardsOld w % 4 ≠ 0) ||
    (op == 6 && (decide (4096 < tdCount w) || decide (4096 < tdSrc w + tdCount w) || decide (4096 ≤ tdSrc w))) ||
    (op == 5 && (!bitOf w 239 || !bitOf w 255 || decide (tdSteps w = 0) || decide (s.chN ch ≤ tdSteps w) ||
      s.sigOwner (tdArr w) != s.get Fld.TRV_CH_CFG_DOMAIN ch || s.sigOwner (tdRel w) != s.get Fld.TRV_CH_CFG_DOMAIN ch))

/-- A shard table: equal shards for address 0, else N entries read from memory (R319). -/
def State.shardTable (s : State) (ch a count : Nat) : State × Nat × List Nat :=
  let n := s.chN ch
  if a = 0 then (s, 0, (List.range n).map (fun k => count / n + (if k < count % n then 1 else 0)))
  else
    let d := s.rndRead ch a (n * 4)
    (d.state, d.status, bytesCodes 4 d.bytes)

/-- The contributors' descriptors agree (R320). -/
def Round.agree (r : Round) : Bool := r.contribs.all (fun x =>
  tdOp x.desc == tdOp r.desc && tdRop x.desc == tdRop r.desc && tdDt x.desc == tdDt r.desc && tdCount x.desc == tdCount r.desc &&
    tdShards x.desc == tdShards r.desc && tdShardsOld x.desc == tdShardsOld r.desc)

/-- The contribution count of a reducing round (R313, R323): this die's, one of each other position, and what those give
beyond it, which this die does not hold; it belongs to the chain's shape (R9, R314), and so does not vary from round to round. -/
def State.contributionCount (s : State) (ch local_ : Nat) : Nat :=
  let n := s.chN ch
  local_ + (n - 1) + (if n = 1 then 0 else Config.peerContributions ch n (s.chP ch) local_ % (63 * (n - 1) + 1))

/-- The round starts (R320, R323, R326, R328, R330), with its tables read. -/
def State.openRound (s : State) (ch : Nat) (r : Round) : State :=
  let w := r.desc
  let p := s.chP ch
  let n := s.chN ch
  let z := dtSize (tdDt w)
  let r : Round := { r with started := true, progress := s.now, arr0 := s.sig (tdArr w), rel0 := s.sig (tdRel w) }
  let s := (s.put Fld.TRV_CH_STATUS_ACTIVE 1 ch).setRound ch r
  let s := if (tdOp w = 1 ∨ tdOp w = 2) ∧ 1024 < s.contributionCount ch r.contribs.length then
      (((s.rndNsw r nswLapsed).rndNsw r nswLapseTrav).put Fld.TRV_CH_STATUS_LAPSED 1 ch |>.put Fld.TRV_TRV_LAST_CHAIN ch).event Fld.TRV_PAGE_EVENT_LAPSE 0 ch
    else s
  match tdOp w with
  | 3 =>
    let d := s.rndRead ch (tdSrc w) (shardLen r.shards p * z)
    if d.status ≠ 0 then d.state.failRound ch d.status
    else
      let u := d.state.rndWrite ch r.core (tdDst w + shardOff r.shards p * z) d.bytes
      if u.2 ≠ 0 then u.1.failRound ch u.2 else if 1 < n then u.1.grantSegs ch (u.1.chPrev ch) (u.1.chWin ch) w else u.1
  | 4 =>
    let run := permRun r.olds r.shards p p
    let cnt := run.2 - run.1
    let d := s.rndRead ch (tdSrc w + (run.1 - shardOff r.olds p) * z) (cnt * z)
    if cnt ≠ 0 ∧ d.status ≠ 0 then d.state.failRound ch d.status
    else
      let u := if cnt = 0 then (s, 0) else d.state.rndWrite ch r.core (tdDst w + (run.1 - shardOff r.shards p) * z) d.bytes
      if u.2 ≠ 0 then u.1.failRound ch u.2
      else (idx n (fun k => k != p && decide (permLen r.olds r.shards k p ≠ 0))).foldl (fun s k =>
        s.grantSegs ch (r.posmap.getD k 0) (s.chWin ch) w) (u.1.setRound ch { r with permGot := cnt })
  | 5 => s
  | _ => if 1 < n then s.grantSegs ch (s.chPrev ch) (s.chWin ch) w else s

/-- GRANTs of this round that came before it started name its `OP`, `ROP`, `DT` and `COUNT` (R336). -/
def State.earlyAgree (s : State) (ch w : Nat) : Bool :=
  (s.chain ch).early.all (fun g => s.epochAhead ch g.1 != 0 || g.2.2 == (tdOp w, tdRop w, tdDt w, tdCount w))

/-- A die that owes grants to the round that starts has granted a later one (R344): its epoch is another. -/
def State.epochDiffers (s : State) (ch : Nat) (r : Round) : Bool :=
  (s.chain ch).early.any (fun g => let a := s.epochAhead ch g.1; decide (0 < a) && decide (a < 2 ^ 31) && s.owes ch r g.2.1)

/-- All contributors have issued: check the round and start it, or end it (R319, R320, R328, R336). -/
def State.startRound (s : State) (ch : Nat) (r : Round) : State :=
  let w := r.desc
  let p := s.chP ch
  let n := s.chN ch
  let z := dtSize (tdDt w)
  if (s.chain ch).aborts.contains (s.chEpoch ch) then s.endRound ch 8
  else if (s.chain ch).astray || !s.earlyAgree ch w then s.failRound ch 7
  else if r.contribs.any (fun x => s.tdInvalid ch x.desc) then s.failRound ch 1
  else if !r.agree then s.failRound ch 7
  else if 1 < n ∧ !(s.reachable (s.chNext ch) 0 ch && s.reachable (s.chPrev ch) 0 ch) then s.failRound ch 5
  else
    let a := s.shardTable ch (tdShards w) (tdCount w)
    if a.2.1 ≠ 0 then a.1.failRound ch a.2.1
    else if a.2.2.sum ≠ tdCount w then a.1.failRound ch 7
    else if tdOp w ≠ 4 then
      let r : Round := { r with shards := a.2.2 }
      if a.1.epochDiffers ch r then a.1.failRound ch 7 else (a.1.openRound ch r).chainRun ch
    else
      let b := a.1.shardTable ch (tdShardsOld w) (tdCount w)
      if b.2.1 ≠ 0 then b.1.failRound ch b.2.1
      else if b.2.2.sum ≠ tdCount w then b.1.failRound ch 7
      else
        let m := b.1.rndRead ch (tdPosmap w) (n * 2)
        if m.status ≠ 0 then m.state.failRound ch m.status
        else
          let map := (bytesCodes 2 m.bytes).map (· % 4096)
          let src := (tdSrc w, tdSrc w + shardLen b.2.2 p * z)
          let dst := (tdDst w, tdDst w + shardLen a.2.2 p * z)
          if map.getD p 0 ≠ s.sysId ∨ map.getD ((p + 1) % n) 0 ≠ (if n = 1 then s.sysId else s.chNext ch) ∨
              map.getD ((p + n - 1) % n) 0 ≠ (if n = 1 then s.sysId else s.chPrev ch) then m.state.failRound ch 7
          else if src.1 < src.2 ∧ dst.1 < dst.2 ∧ src.1 < dst.2 ∧ dst.1 < src.2 then m.state.failRound ch 1
          else if !((idx n (· != p)).all (fun k => m.state.reachable (map.getD k 0) 0 ch)) then m.state.failRound ch 5
          else
            let r : Round := { r with shards := a.2.2, olds := b.2.2, posmap := map }
            if m.state.epochDiffers ch r then m.state.failRound ch 7 else (m.state.openRound ch r).chainRun ch

/-! ### Meanings of the core's rows -/

/-- Take the head of the traverse queue. -/
def State.popTrav (s : State) (n : Nat) : State :=
  let c := s.core n
  s.setCore n { c with tq := c.tq.tail }

/-- The head of the traverse queue is accepted and counts in a counter (R316). -/
def State.takeTrav (s : State) (n ctr : Nat) : State :=
  let t := s.popTrav n
  let c := t.core n
  t.setCore n { c with tvCnt := c.tvCnt.set ctr (c.tvCnt.getD ctr 0 + 1) }

/-- A TRAV names a chain that is not enabled here or is of another domain (R336): its status shows, and no round ends, for none of the
chain's was the kernel's (DEDUCED, log 88). -/
def State.noChain (s : State) (ch : Nat) : State :=
  ((s.put Fld.TRV_CH_STATUS_LAST_STATUS 1 ch).put Fld.TRV_TRV_LAST_CHAIN ch).event Fld.TRV_PAGE_EVENT_ROUND_FAIL 0 ch

/-- A round with one more contribution, in the order of the members. -/
def Round.joined (r : Round) (x : Contrib) (now : Nat) : Round :=
  { r with contribs := r.contribs.filter (fun y => decide (y.member < x.member)) ++ [x] ++ r.contribs.filter (fun y => decide (x.member < y.member))
           progress := now }

/-- The chain's round as a new contribution or a COMMIT leaves it, not started yet (R320, R336, R339): it ends when its chain no longer
takes it or its contributions differ, and starts when none is missing. -/
def State.joinRound (s : State) (ch : Nat) (r : Round) : State :=
  let s := s.setRound ch r
  if !s.chOn ch ∨ s.get Fld.TRV_CH_CFG_DOMAIN ch ≠ (s.core r.core).dom ∨ r.contribs.any (fun x => decide (s.get Fld.TRV_CH_CFG_LOCAL_M1 ch < x.member)) then
    s.failRound ch 1
  else if !r.agree then s.failRound ch 7
  else if s.contributors ch (tdOp r.desc) ≤ r.contribs.length then s.startRound ch r
  else s

/-- `TRAV` (R315, R316, R320): the counter counts it, the descriptor is read, and the contribution enters the chain's round;
it waits at the head of the queue until the round can accept it. -/
def execTrav (c : Nat) (s : State) : Res :=
  onUnit "core" 64 c <|
    let t := s.forTraverse c
    let k := t.core c
    match k.tq with
    | [] => .next t
    | d :: _ =>
      let ctr := travCtr d.word
      if iMajor d.word ≠ 0x40 ∨ k.tvCnt.getD ctr 0 = 255 then .next t
      else
        let r := t.readMem (t.coreWho c 5) (iAddr32 d.word) 64
        if r.status ≠ 0 then .next (r.state.coreFault c (accessCode r.status 0x09) d.seq)
        else
          let w := leVal r.bytes
          let ch := tdChain w
          let u := r.state
          let x : Contrib := { member := k.member, core := c, seq := d.seq, ctr := ctr, desc := w }
          if !u.chOn ch ∨ u.get Fld.TRV_CH_CFG_DOMAIN ch ≠ k.dom then .next (((u.popTrav c).noChain ch).coreFault c 0x02 d.seq)
          else if u.get Fld.TRV_CH_CFG_LOCAL_M1 ch < k.member then .next ((u.popTrav c).coreFault c 0x02 d.seq)
          else
            let rd := (u.chain ch).round.getD (Round.new k.gang u.now)
            if rd.started ∨ rd.gang ≠ k.gang ∨ rd.contribs.any (fun x => x.member == k.member) then .next u
            else if rd.contribs = [] ∧ u.contributors ch (tdOp w) ≤ k.member then .next ((u.popTrav c).coreFault c 0x02 d.seq)
            else .next ((u.takeTrav c ctr).joinRound ch (rd.joined x u.now))

/-- `TWAIT` (R315): decode goes on once the counter, or all four, are 0. -/
def execTwait (c : Nat) (s : State) : Res :=
  onUnit "core" 64 c <|
    let t := s.forTraverse c
    let k := t.core c
    match k.tq with
    | [] => .next t
    | d :: _ =>
      if iMajor d.word = 0x41 ∧ (if waitAll d.word then k.tvCnt.all (· == 0) else k.tvCnt.getD (travCtr d.word) 0 == 0) then
        .next (t.popTrav c)
      else .next t

/-! ### Meanings of the rounds' rows -/

/-- A started round of operation `op` on chain `ch` goes on as far as it can. -/
def State.chainRow (s : State) (ch op : Nat) : Res :=
  onUnit "chain" 256 ch <|
    match (s.chain ch).round with
    | some r => if r.started && tdOp r.desc == op then .next (s.chainRun ch) else .next s
    | none => .next s

/-- `ALLREDUCE` (R321, R324). -/
def execAllreduce (ch : Nat) (s : State) : Res := s.chainRow ch 1
/-- `REDSCAT` (R321, R324). -/
def execRedscat (ch : Nat) (s : State) : Res := s.chainRow ch 2
/-- `ALLGATHER` (R325). -/
def execAllgather (ch : Nat) (s : State) : Res := s.chainRow ch 3
/-- `PERMUTE` (R328). -/
def execPermute (ch : Nat) (s : State) : Res := s.chainRow ch 4
/-- `RPASS` (R330, R331). -/
def execRpass (ch : Nat) (s : State) : Res := s.chainRow ch 5
/-- `HMERGE` (R329). -/
def execHmerge (ch : Nat) (s : State) : Res := s.chainRow ch 6

/-- Everything of a round is sent, acknowledged, received and written (R327, R328, R331). -/
def State.roundDone (s : State) (ch : Nat) (r : Round) : Bool :=
  let w := r.desc
  let n := s.chN ch
  let p := s.chP ch
  r.started && r.acked == r.sent &&
    (match tdOp w with
    | 4 => r.permGot == shardLen r.shards p && (idx n (· != p)).all (fun k =>
        tget (fun _ => 0) k r.sentTo == ceilDiv (permLen r.olds r.shards p k) (segGather w))
    | 5 => decide (tdSteps w < r.rStep) && decide (tdSteps w < r.sStep)
    | op => r.sentR == (sendsReduce w n p r.shards).length && r.sentG == (sendsGather w n p r.shards).length &&
        r.gotR == gotsReduce w n p r.shards && r.gotG == gotsGather w n p r.shards &&
        (!opReduces op || r.results.length == shardLen r.shards p))

/-- `ROUND_COMPLETE` (R327): the TRAVs complete and the epoch advances. -/
def execRoundComplete (ch : Nat) (s : State) : Res :=
  onUnit "chain" 256 ch <|
    match (s.chain ch).round with
    | some r => if s.roundDone ch r then .next (s.endRound ch 0) else .next s
    | none => .next s

/-- `ROUND_TIMEOUT` (R336): no segment, grant or local TRAV for `RND_TIMEOUT` ms. -/
def execRoundTimeout (ch : Nat) (s : State) : Res :=
  onUnit "chain" 256 ch <|
    let limit := s.get Fld.TRV_TRV_CFG_RND_TIMEOUT * 100000
    match (s.chain ch).round with
    | some r => if limit ≠ 0 ∧ r.progress + limit ≤ s.now then .next (s.failRound ch 6) else .next s
    | none => .next s

/-- The rounds of a kernel that ends for another reason than END (R338). -/
def State.endRounds (s : State) (p : Nat → Round → Bool) : State :=
  (s.chains.map (·.1)).foldl (fun s ch => match (s.chain ch).round with
    | some r => if p ch r then s.failRound ch 8 else s
    | none => s) s

/-! ### Messages (R326, R336, R337) -/

/-- Count a refused or ignored message (R336, R337). -/
def State.trvRefused (s : State) : State := s.bump Fld.TRV_TRV_REFUSED_COUNT

/-- A chain message that this die refuses (R337): all but a CREFUSE is answered with one. -/
def State.refuseChain (s : State) (p : Packet) : State :=
  let s := ((s.put Fld.TRV_TRV_LAST_CHAIN p.chain).trvRefused).event Fld.TRV_PAGE_EVENT_PEER_REFUSED 0 p.chain
  if p.typ = 0x35 then s
  else s.send { pktOf 0x35 with dest := p.src, dkind := p.skind, dom := p.dom, chain := p.chain, op := p.op, rop := p.rop, dt := p.dt
                                phase := p.phase, epoch := p.epoch, count := p.count }

/-- The chain of a message is enabled here, and of its domain; hubs and guests take part in none (R312). -/
def State.chainTakes (s : State) (p : Packet) : Bool :=
  decide (p.chain < 256) && p.skind == 0 && s.chOn p.chain && s.get Fld.TRV_CH_CFG_DOMAIN p.chain == p.dom

/-- The message's operation and count are those of the round (R336). -/
def Round.opOk (r : Round) (p : Packet) : Bool :=
  p.op == tdOp r.desc && p.rop == tdRop r.desc && p.dt == tdDt r.desc && p.count == tdCount r.desc

/-- The message's operation and sizes are those of the round (R319, R336). -/
def Round.shapeOk (r : Round) (p : Packet) : Bool :=
  r.opOk p && decide (p.shard < r.shards.length) && p.shardLen == shardLen r.shards p.shard

/-- Epoch `a` comes before epoch `b`. -/
def epochBefore (a b : Nat) : Bool := let d := (b + 2 ^ 32 - a) % 2 ^ 32; decide (0 < d) && decide (d < 2 ^ 31)

/-- How the epoch of a peer's message stands to this die's (R336, R344): it fits; it is of a round that is over here, or of an epoch before
the chain's last COMMIT; or it shows that the peer's epochs are others. -/
inductive Stand where
  | fits
  | late
  | astray
  deriving DecidableEq, Repr

/-- A chain's messages from one die come in the order in which it sent them (R372, R373), so that one of an earlier epoch than the last
heard shows a die whose epochs have begun anew (R344). Of a round that ended OK here no data can come any more (R327; `data` says that the
message is of data); what else is behind is late. Ahead is what the epochs before the last COMMIT left under way, until the die has been
heard after it (log entry 87). -/
def State.stand (s : State) (p : Packet) (data : Bool) : Stand :=
  let c := s.chain p.chain
  let q := c.peers.find? (fun q => q.die == p.src && !q.old)
  let a := s.epochAhead p.chain p.epoch
  if a < 2 ^ 31 then (if a ≠ 0 ∧ q.isNone ∧ c.before.any (epochBefore p.epoch) then .late else .fits)
  else if q.any (fun q => epochBefore p.epoch q.epoch || (q.epoch == p.epoch && q.ok && data)) then .astray
  else .late

/-- The chain has heard from the sender of a message that fits. -/
def State.heardFrom (s : State) (p : Packet) : State :=
  let c := s.chain p.chain
  s.setChain p.chain { c with peers := c.peers.filter (fun q => q.die != p.src) ++ [{ die := p.src, epoch := p.epoch, ok := false, old := false }] }

/-- A peer's epochs are others than this die's (R344): the round under way meets "shape mismatch", else the next one does. -/
def State.strayFrom (s : State) (ch src : Nat) : State :=
  let next := s.setChain ch { s.chain ch with astray := true }
  match (s.chain ch).round with
  | some r => if r.started then s.failFrom ch src else next
  | none => next

/-- Run `f` on the started round that a message of data belongs to. With no started round, or late, the message is ignored and counted; a
peer whose epoch or operation differs meets "shape mismatch" (R336, R344). -/
def State.withRound (s : State) (p : Packet) (f : State → Round → State) : State :=
  if !s.chainTakes p then s.refuseChain p
  else match s.stand p true with
    | .late => s.trvRefused
    | .astray => s.strayFrom p.chain p.src
    | .fits =>
      let s := s.heardFrom p
      match (s.chain p.chain).round with
      | some r =>
        if !r.started then s.trvRefused
        else if s.chEpoch p.chain ≠ p.epoch ∨ !r.opOk p then s.failFrom p.chain p.src
        else f s r
      | none => s.trvRefused

/-- Acknowledge one segment. -/
def State.ackSeg (s : State) (p : Packet) (w : Nat) : State := s.send (s.chPacket p.chain 0x33 p.src 1 w)

/-- A free slot of the chain buffer. -/
def State.bufSlot (s : State) (ch : Nat) (r : Round) : Option Nat :=
  (List.range (s.chWin ch)).find? (fun i => !r.held.any (fun h => h.slot == i))

/-- A ring pass segment lands in its ring slot (R330); the last byte of a block raises `ARR_SIG`. -/
def State.ringSeg (s : State) (p : Packet) (r : Round) : State :=
  let w := r.desc
  let ch := p.chain
  let z := dtSize (tdDt w)
  let t := p.arg / 65536
  if t ≠ r.rStep ∨ p.shard ≠ rpShard (s.chN ch) (s.chP ch) t ∨ p.elemOff ≠ r.rOff ∨ r.gStep < t then s.failFrom ch p.src
  else
    let u := s.rndWrite ch r.core (tdDst w + t % 2 * rpSlot w r.shards + r.rOff * z) p.data
    if u.2 ≠ 0 then u.1.failRound ch u.2
    else if !u.1.reachable p.src 0 ch then u.1.failRound ch 5
    else
      let cnt := p.data.length / z
      let done := decide (shardLen r.shards p.shard ≤ r.rOff + cnt)
      let s := u.1.ackSeg p w
      let s := if done then s.sigAdd (tdArr w) 1 else s
      (s.setRound ch { r with rStep := if done then t + 1 else t, rOff := if done then 0 else r.rOff + cnt, progress := s.now }).chainRun ch

/-- A segment of the reduce or gather phase lands in the chain buffer, is acknowledged, and is finished, written or held to be
sent on (R321, R324, R326). -/
def State.chainSeg (s : State) (p : Packet) (r : Round) : State :=
  let w := r.desc
  let ch := p.chain
  let me := s.chP ch
  let n := s.chN ch
  match s.bufSlot ch r with
  | none => s.trvRefused
  | some slot =>
    let b := s.writeMem (Who.self (s.get Fld.TRV_CH_CFG_DOMAIN ch) 5) (s.get Fld.TRV_CH_BUF_ADDR ch + slot * 4096) p.data
    if b.2 ≠ 0 then b.1.failRound ch (roundAccess b.2)
    else if !b.1.reachable p.src 0 ch then b.1.failRound ch 5
    else
      let s := b.1.ackSeg p w
      let h : InSeg := { slot := slot, phase := p.phase, shard := p.shard, off := p.elemOff, len := p.data.length }
      let r : Round := { r with progress := s.now }
      if p.phase = 0 then
        let r : Round := { r with gotR := r.gotR + 1 }
        if p.shard = me then
          let f := s.finishElems ch r p.elemOff (bytesCodes (wireSize (tdRop w) (tdDt w)) p.data)
          if f.2 then (f.1.grantSegs ch (f.1.chPrev ch) 1 w).chainRun ch else f.1
        else (s.setRound ch { r with held := r.held ++ [h] }).chainRun ch
      else
        let d := s.rndDeliver ch r p.shard p.elemOff (bytesCodes (dtSize (tdDt w)) p.data)
        if d.2 ≠ 0 then d.1.failRound ch d.2
        else
          let r : Round := { r with gotG := r.gotG + 1 }
          if p.shard = (me + 1) % n then ((d.1.setRound ch r).grantSegs ch (d.1.chPrev ch) 1 w).chainRun ch
          else (d.1.setRound ch { r with held := r.held ++ [h] }).chainRun ch

/-- A SEG at this die (R326). -/
def State.gotSeg (s : State) (p : Packet) : State := s.withRound p fun s r =>
  if p.src ≠ s.chPrev p.chain then s.trvRefused
  else if !r.shapeOk p ∨ tdOp r.desc = 4 then s.failFrom p.chain p.src
  else if tdOp r.desc = 5 then s.ringSeg p r
  else s.chainSeg p r

/-- A PERM at this die (R328): the run is written on arrival. -/
def State.gotPerm (s : State) (p : Packet) : State := s.withRound p fun s r =>
  let w := r.desc
  let me := s.chP p.chain
  let z := dtSize (tdDt w)
  if !r.shapeOk p ∨ tdOp w ≠ 4 ∨ p.shard ≠ me ∨ p.elemOff < shardOff r.shards me ∨
      shardOff r.shards me + shardLen r.shards me < p.elemOff + p.data.length / z then s.failFrom p.chain p.src
  else
    let u := s.rndWrite p.chain r.core (tdDst w + (p.elemOff - shardOff r.shards me) * z) p.data
    if u.2 ≠ 0 then u.1.failRound p.chain u.2
    else if !u.1.reachable p.src 0 p.chain then u.1.failRound p.chain 5
    else
      let s := (u.1.ackSeg p w).grantSegs p.chain p.src 1 w
      (s.setRound p.chain { r with permGot := r.permGot + p.data.length / z, progress := s.now }).chainRun p.chain

/-- A GRANT differs from the round under way (R336, R344): in its operation, or as one of a later round while its sender still owes grants to
this one, and so cannot have ended it. -/
def State.grantDiffers (s : State) (p : Packet) (r : Round) : Bool :=
  let a := s.epochAhead p.chain p.epoch
  if a = 0 then !r.opOk p else decide (a < 2 ^ 31) && s.owes p.chain r p.src

/-- A GRANT at this die (R326, R331): held for its epoch, which may not have started here yet; one that comes after its round's end is of
no more use. -/
def State.gotGrant (s : State) (p : Packet) : State :=
  if !s.chainTakes p then s.refuseChain p
  else match s.stand p false with
  | .late => s
  | .astray => s.strayFrom p.chain p.src
  | .fits =>
    let s := s.heardFrom p
    let c := s.chain p.chain
    let started : Bool := match c.round with
      | some r => r.started && s.grantDiffers p r
      | none => false
    if started then s.failFrom p.chain p.src
    else
      let c : Chain := { c with grants := if p.arg % 65536 = 0 then c.grants else c.grants ++ [(p.epoch, p.src, p.arg % 65536)]
                                steps := if p.arg / 65536 = 0 then c.steps else c.steps ++ [(p.epoch, p.arg / 65536)]
                                early := (c.early ++ [(p.epoch, p.src, p.op, p.rop, p.dt, p.count)]).eraseDups
                                round := c.round.map (fun r => if s.chEpoch p.chain = p.epoch then { r with progress := s.now } else r) }
      (s.setChain p.chain c).chainRun p.chain

/-- A CACK at this die (R327). -/
def State.gotCack (s : State) (p : Packet) : State := s.withRound p fun s r =>
  s.setRound p.chain { r with acked := min (r.acked + p.arg % 65536) r.sent }

/-- The status that an ABORT gives the round (R319, R336): "aborted by peer", or "shape mismatch" when its sender found the difference in
data of this die. -/
def State.abortStatus (s : State) (p : Packet) (r : Round) : Nat :=
  let sentIt : Bool := if tdOp r.desc = 4 then
      (idx (s.chN p.chain) (fun k => r.posmap.getD k 0 == p.src)).any (fun k => decide (0 < tget (fun _ => 0) k r.sentTo))
    else p.src == s.chNext p.chain && decide (0 < r.sent)
  if p.arg = 7 ∧ sentIt then 7 else 8

/-- An ABORT goes on in its direction as "aborted by peer"; one that a die sends past its neighbours does not (R319, R336). -/
def State.passAbort (s : State) (p : Packet) : State :=
  let go (d : Nat) : State := s.send { pktOf 0x34 with dest := d, dom := p.dom, arg := 8, chain := p.chain, op := p.op, rop := p.rop, dt := p.dt
                                                       phase := p.phase, epoch := p.epoch, count := p.count }
  if p.src = s.chPrev p.chain then go (s.chNext p.chain) else if p.src = s.chNext p.chain then go (s.chPrev p.chain) else s

/-- An ABORT at this die (R336, R339): it ends the round of its epoch, waits for a round that has not started, or is ignored for one
that has completed, or that has written its last result. -/
def State.gotAbort (s : State) (p : Packet) : State :=
  if !s.chainTakes p then s.refuseChain p
  else
    let ch := p.chain
    let ahead := s.epochAhead ch p.epoch
    match s.stand p false with
    | .late => s.trvRefused
    | .astray => s.strayFrom ch p.src
    | .fits =>
      let s := s.heardFrom p
      let wait (s : State) : State :=
        (s.setChain ch { s.chain ch with aborts := (s.chain ch).aborts ++ [p.epoch] }).put Fld.TRV_CH_STATUS_ABORT_PENDING 1 ch
      match (s.chain ch).round with
      | some r =>
        if r.started ∧ ahead = 0 ∧ s.roundDone ch r then (s.endRound ch 0).trvRefused
        else if r.started ∧ ahead = 0 then (s.passAbort p).endRound ch (s.abortStatus p r)
        else wait (s.passAbort p)
      | none => wait (s.passAbort p)

/-- A CREFUSE at this die (R336, R337). -/
def State.gotCrefuse (s : State) (p : Packet) : State :=
  if !s.chainTakes p then s.refuseChain p
  else match (s.chain p.chain).round with
    | some r => if r.started && s.chEpoch p.chain == p.epoch then s.failRound p.chain 9 else s.trvRefused
    | none => s.trvRefused

end Sys2Proof.Machine
end

