-- ==== Sys2Proof/Machine/Stages.lean ====
section
/-! DEFINITION. Stage queues (R332-R339, R344): SPUSH and SPOP, the messages of the stage channel, and how an end opens, closes
and fails. An end whose other end is on this die hands its messages over at once. -/

namespace Sys2Proof.Machine

/-! ### An end -/

/-- Stage queue end `q`. -/
def State.stageEnd (s : State) (q : Nat) : Stage := tget (fun _ => Stage.idle) q s.stages
/-- Replace it. -/
def State.setStage (s : State) (q : Nat) (x : Stage) : State := { s with stages := tset (fun _ => Stage.idle) q x s.stages }
/-- `ROLE`: 1 producer, 2 consumer. -/
def State.sqRole (s : State) (q : Nat) : Nat := s.get Fld.TRV_SQ_CFG_ROLE 0 q
/-- `STATE`: 0 disabled, 1 opening, 2 open, 3 error. -/
def State.sqState (s : State) (q : Nat) : Nat := s.get Fld.TRV_SQ_STATE_STATE 0 q
/-- The system die ID of the other end. -/
def State.sqDie (s : State) (q : Nat) : Nat := s.get Fld.TRV_SQ_CFG_PEER_DIE 0 q
/-- The queue's number at the other end. -/
def State.sqPeer (s : State) (q : Nat) : Nat := s.get Fld.TRV_SQ_CFG_PEER_Q 0 q
/-- The queue's domain. -/
def State.sqDomain (s : State) (q : Nat) : Nat := s.get Fld.TRV_SQ_CFG_DOMAIN 0 q
/-- Slots. -/
def State.sqDepth (s : State) (q : Nat) : Nat := s.get Fld.TRV_SQ_GEOM_DEPTH_M1 0 q + 1
/-- Bytes of a slot. -/
def State.sqSlot (s : State) (q : Nat) : Nat := s.get Fld.TRV_SQ_GEOM_SLOT_64K 0 q * 65536
/-- The shape as OPEN carries it (R364). -/
def State.sqShape (s : State) (q : Nat) : Nat := s.get Fld.TRV_SQ_GEOM_DEPTH_M1 0 q + 256 * s.get Fld.TRV_SQ_GEOM_SLOT_64K 0 q
/-- The credit or arrival counter. -/
def State.sqSig (s : State) (q : Nat) : Nat := s.get Fld.TRV_SQ_SIG_SIG 0 q

/-- A message of end `q` to its other end (R363, R364). -/
def State.sqPacket (s : State) (q typ arg push : Nat) : Packet :=
  { pktOf typ with dest := s.sqDie q, dom := s.sqDomain q, arg := arg, sq := s.sqPeer q, push := push }

/-- The message comes from the die and domain of end `q`'s other end; or from a guest, whose packets reach every end of its
restricted domain (R357). -/
def State.fromPeer (s : State) (q : Nat) (p : Packet) : Bool := ((p.src == s.sqDie q && p.skind == 0) || p.skind == 3) && p.dom == s.sqDomain q

/-- The queue's messages can leave: its other end is here or has a route with a usable module (R374). -/
def State.sqReach (s : State) (q : Nat) : Bool := s.sqDie q == s.sysId || (s.routeModule (s.routeEntry (s.sqDie q) 0) (s.sqPeer q)).isSome

/-! ### The error state (R339) -/

/-- An end enters the error state: outstanding pushes end with it, and their cores fault (R334, R339). -/
def State.sqError (s : State) (q cause : Nat) : State :=
  if s.sqState q = 0 ∨ s.sqState q = 3 then s
  else
    let x := s.stageEnd q
    let s := (s.setStage q { x with pushes := [], got := 0 }).put Fld.TRV_SQ_STATE_STATE 3 0 q
    let s : State := { s with reqs := s.reqs.filter (fun r => r.owner != .stage q) }
    let s := ((s.put Fld.TRV_SQ_STATE_CAUSE cause 0 q).put Fld.TRV_TRV_LAST_SQ q).event Fld.TRV_PAGE_EVENT_SQ_ERROR 0
    s.travsDone (x.pushes.map (fun p => (p.core, p.ctr, p.gang, p.seq))) 2

/-- A SERR at this die (R339). -/
def State.gotSerr (s : State) (p : Packet) : State :=
  if s.sqState p.sq ≠ 0 ∧ s.fromPeer p.sq p then s.sqError p.sq (p.arg % 256) else s.trvRefused

/-- Hand a message to the other end: at once by `here` on this die, else on the stage channel; without a route the end fails with
"path down" (R374). -/
def State.sqSend (s : State) (q : Nat) (p : Packet) (here : State → Packet → State) : State :=
  if p.dest = s.sysId ∧ p.dkind = 0 then here s { p with src := s.sysId, skind := 0 }
  else if (s.routeModule (s.routeEntry p.dest p.dkind) p.sq).isSome then s.send p
  else s.sqError q 5

/-- An end fails and says so to its other end. -/
def State.sqFail (s : State) (q cause : Nat) : State :=
  if s.sqState q = 0 ∨ s.sqState q = 3 then s
  else (s.sqError q cause).sqSend q (s.sqPacket q 0x44 cause 0) State.gotSerr

/-- A stage message that no end of this die takes: the sender's end is told (R339), and the message counts as refused. -/
def State.sqRefuse (s : State) (p : Packet) : State :=
  let s := s.trvRefused.event Fld.TRV_PAGE_EVENT_PEER_REFUSED 0
  if p.typ = 0x44 ∨ p.skind ≠ 0 then s else s.send { pktOf 0x44 with dest := p.src, dom := p.dom, arg := 9, sq := p.sq }

/-! ### Opening (R333) -/

/-- The producer compares an OPEN's shape with its own. -/
def State.sqCompare (s : State) (q shape : Nat) : State :=
  if shape = s.sqShape q then
    let s := (s.put Fld.TRV_SQ_STATE_STATE 2 0 q).put Fld.DSP_SIG_VALUE (s.sqDepth q) 0 (s.sqSig q)
    if s.sqDie q = s.sysId ∧ s.sqState (s.sqPeer q) = 1 then s.put Fld.TRV_SQ_STATE_STATE 2 0 (s.sqPeer q) else s
  else s.sqFail q 7

/-- Who sent an OPEN, as an end holds it: a die, or a guest (R357). -/
def openFrom (p : Packet) : Nat := p.src + 4096 * p.skind

/-- An OPEN at this die: an end that is not opening holds it, one from each sender and domain, until its COMMIT. A guest's reaches only an
end of its restricted domain (R357). -/
def State.gotSopen (s : State) (p : Packet) : State :=
  let q := p.sq
  let x := s.stageEnd q
  if s.sqRole q = 1 ∧ s.sqState q = 1 ∧ s.fromPeer q p then s.sqCompare q (p.arg % 2 ^ 24)
  else if p.skind = 3 ∧ p.dom ≠ s.sqDomain q then s.sqRefuse p
  else s.setStage q { x with opened := x.opened.filter (fun o => !(o.1 == openFrom p && o.2.1 == p.dom)) ++ [(openFrom p, p.dom, p.arg % 2 ^ 24)] }

/-- An end whose fields a COMMIT has just applied closes and opens again (R333, R344): role 3 acts as disabled with `SQ_ERROR`, and a
slot size of 0 leaves the end disabled. A counter that the queue's domain does not own, or a missing route, leaves it in error. -/
def State.sqApply (s : State) (q : Nat) : State :=
  let old := (s.stageEnd q).opened
  let s := s.setStage q Stage.idle
  let s := (s.setWord (Fld.TRV_SQ_STATE_STATE.key 0 q) 0).put Fld.TRV_SQ_MOVED_COUNT 0 0 q |>.put Fld.TRV_SQ_POPPED_COUNT 0 0 q
  let s := if s.sqRole q = 3 then
      ((s.put Fld.TRV_SQ_CFG_ROLE 0 0 q).put Fld.TRV_TRV_LAST_SQ q).event Fld.TRV_PAGE_EVENT_SQ_ERROR 0
    else s
  if s.sqRole q = 0 ∨ s.sqSlot q = 0 then s
  else
    let s := s.put Fld.TRV_SQ_STATE_STATE 1 0 q
    if s.sigOwner (s.sqSig q) ≠ s.sqDomain q then s.sqError q 1
    else
      let s := s.put Fld.DSP_SIG_VALUE 0 0 (s.sqSig q)
      if !s.sqReach q then s.sqError q 5
      else if s.sqRole q = 2 then s.sqSend q (s.sqPacket q 0x42 (s.sqShape q) 0) State.gotSopen
      else match old.find? (fun o => (o.1 == s.sqDie q || o.1 / 4096 == 3) && o.2.1 == s.sqDomain q) with
        | some o => s.sqCompare q o.2.2
        | none => s

/-! ### Deliveries (R332-R334) -/

/-- An acknowledgement at the producer: the oldest pushes complete. One that comes after its push's timeout is counted (R374). -/
def State.gotSack (s : State) (p : Packet) : State :=
  let q := p.sq
  if s.sqRole q ≠ 1 ∨ !s.fromPeer q p then s.sqRefuse p
  else if s.sqState q = 3 ∧ s.get Fld.TRV_SQ_STATE_CAUSE 0 q = 6 then s.bump Fld.LNK_LNK_LATE_RSP_COUNT
  else if s.sqState q ≠ 2 then s
  else
    let x := s.stageEnd q
    let n := p.arg
    let left := s.reqs.filter (fun r => r.owner == .stage q)
    let s : State := { s.setStage q { x with pushes := x.pushes.drop n } with
      reqs := s.reqs.filter (fun r => r.owner != .stage q || !(left.take n).any (fun l => l.tag == r.tag)) }
    s.travsDone ((x.pushes.take n).map (fun u => (u.core, u.ctr, u.gang, u.seq))) 0

/-- A credit at the producer. -/
def State.gotScredit (s : State) (p : Packet) : State :=
  let q := p.sq
  if s.sqRole q ≠ 1 ∨ !s.fromPeer q p then s.sqRefuse p
  else if s.sqState q ≠ 2 then s
  else (s.sigAdd (s.sqSig q) p.arg).count Fld.TRV_SQ_POPPED_COUNT p.arg 0 q

/-- Data at the consumer: written in its slot; with the last byte the push is performed, counted and acknowledged. -/
def State.gotSdata (s : State) (p : Packet) : State :=
  let q := p.sq
  if s.sqRole q ≠ 2 ∨ s.sqState q = 0 ∨ !s.fromPeer q p then s.sqRefuse p
  else if s.sqState q = 3 then s
  else
    let s := s.put Fld.TRV_SQ_STATE_STATE 2 0 q
    let m := s.get Fld.TRV_SQ_MOVED_COUNT 0 q
    let x := s.stageEnd q
    if p.push ≠ m ∨ p.arg ≠ x.got ∨ p.total < p.arg + p.data.length ∨ s.sqSlot q < p.total then s.sqFail q 7
    else
      let w := s.writeMem (Who.self (s.sqDomain q) 5) (s.get Fld.TRV_SQ_BASE_ADDR 0 q / 65536 * 65536 + m % s.sqDepth q * s.sqSlot q + p.arg) p.data
      if w.2 ≠ 0 then w.1.sqFail q (roundAccess w.2)
      else if p.arg + p.data.length < p.total then w.1.setStage q { x with got := p.arg + p.data.length }
      else
        let s := (w.1.setStage q { x with got := 0 }).count Fld.TRV_SQ_MOVED_COUNT 1 0 q
        (s.sigAdd (s.sqSig q) 1).sqSend q { s.sqPacket q 0x41 1 m with dest := p.src, dkind := p.skind } State.gotSack

/-- The pieces of a push. -/
def State.sqPieces (s : State) (q m : Nat) (b : Bytes) : List Packet :=
  (List.range (ceilDiv b.length 4096)).map (fun i =>
    { s.sqPacket q 0x40 (i * 4096) m with total := b.length, data := sub b (i * 4096) 4096 })

/-! ### Meanings of the core's rows -/

/-- `SPUSH` (R303, R316, R334). -/
def execSpush (c : Nat) (s : State) : Res :=
  onUnit "core" 64 c <|
    let t := s.forTraverse c
    let k := t.core c
    match k.tq with
    | [] => .next t
    | d :: _ =>
      let ctr := spushCtr d.word
      let q := stageQ d.word
      let m := t.get Fld.TRV_SQ_MOVED_COUNT 0 q
      if iMajor d.word ≠ 0x42 ∨ k.tvCnt.getD ctr 0 = 255 then .next t
      else if t.sqDomain q ≠ k.dom ∨ t.sqRole q ≠ 1 ∨ t.sqState q ≠ 2 ∨ t.sqSlot q < spushLen d.word then
        .next ((t.popTrav c).coreFault c 0x09 d.seq)
      else if !(t.groupMayWrite c 0 (2 ^ 64)) then .next ((t.popTrav c).coreFault c 0x09 d.seq)
      else if !(t.sigReached (t.sqSig q) (m + 1)) then .next t
      else
        let r := t.readMem (t.coreWho c 5) (iAddr32 d.word) (spushLen d.word)
        if r.status ≠ 0 then .next ((r.state.popTrav c).coreFault c (accessCode r.status 0x09) d.seq)
        else
          let u := r.state.takeTrav c ctr
          let x := u.stageEnd q
          let u := (u.setStage q { x with pushes := x.pushes ++ [{ num := m, core := c, ctr := ctr, gang := k.gang, seq := d.seq }] }).count
            Fld.TRV_SQ_MOVED_COUNT 1 0 q
          let l := u.sqPieces q m r.bytes
          let f := u.freshTag
          let u : State := if u.sqDie q = u.sysId then u
            else { f.1 with reqs := u.reqs ++ [{ tag := f.2, pkt := u.sqPacket q 0x40 0 m, owner := .stage q, due := none }] }
          .next (l.foldl (fun s p => if s.sqState q = 2 then s.sqSend q p State.gotSdata else s) u)

/-- `SPOP` (R315, R333, R334). -/
def execSpop (c : Nat) (s : State) : Res :=
  onUnit "core" 64 c <|
    let t := s.forTraverse c
    let k := t.core c
    match k.tq with
    | [] => .next t
    | d :: _ =>
      let q := stageQ d.word
      if iMajor d.word ≠ 0x43 ∨ !(k.moveIdle && k.vectorIdle) then .next t
      else
        let u := t.popTrav c
        if t.sqDomain q ≠ k.dom ∨ t.sqRole q ≠ 2 ∨ t.sqState q ≠ 2 ∨ t.get Fld.TRV_SQ_POPPED_COUNT 0 q = t.get Fld.TRV_SQ_MOVED_COUNT 0 q then
          .next (u.coreFault c 0x09 d.seq)
        else
          .next ((u.count Fld.TRV_SQ_POPPED_COUNT 1 0 q).sqSend q (u.sqPacket q 0x43 1 0) State.gotScredit)

/-- Ends without a route fail with "path down" (R374). -/
def State.sqPaths (s : State) : State :=
  (List.range 64).foldl (fun s q => if s.sqState q ≠ 0 ∧ !s.sqReach q then s.sqError q 5 else s) s

/-- The stage queues of a domain that is torn down (R338). -/
def State.sqTeardown (s : State) (dom : Nat) : State :=
  (List.range 64).foldl (fun s q => if s.sqDomain q = dom then s.sqFail q 8 else s) s

end Sys2Proof.Machine
end

