-- ==== Sys2Proof/Machine/Queues.lean ====
section
/-! DEFINITION. Dispatch (R280-R311): queues and doorbells, work items, placement of gangs and regions, kernel ends, completion
and event records, replay groups, and domains. The rings and lists lie in stack memory, so a row that needs bytes of them first starts
their read, and acts when they are there. A row starts an item only where R283 and R288 let that item start next. -/

namespace Sys2Proof.Machine

/-! ### Queues (R280-R282) -/

/-- What queue `q` holds beside its registers. -/
def State.queueSt (s : State) (q : Nat) : QueueSt := tget (fun _ => QueueSt.idle) q s.queues
/-- Replace it. -/
def State.setQueue (s : State) (q : Nat) (x : QueueSt) : State := { s with queues := tset (fun _ => QueueSt.idle) q x s.queues }
/-- A domain is being torn down (R301). -/
def State.domDying (s : State) (d : Nat) : Bool := s.get Fld.DSP_DOM_CFG_STATE 0 d == 2
/-- A doorbell (R281, R282), and whether it is refused with "protection". -/
def State.ring (s : State) (q tail : Nat) : State × Bool :=
  let n := s.qSize q
  let head := s.get Fld.DSP_Q_PTRS_HEAD q
  match s.qState q with
  | 4 => (s, true)
  | 1 | 2 =>
    if n ≤ tail ∨ (tail + n - head) % n < (s.get Fld.DSP_Q_PTRS_TAIL q + n - head) % n then (s.event Fld.DSP_PAGE_EVENT_DOORBELL_BAD, false)
    else (s.put Fld.DSP_Q_PTRS_TAIL tail q, false)
  | _ => (s.event Fld.DSP_PAGE_EVENT_DOORBELL_BAD, false)

/-- Release the staging regions of a group (R302): they are zeroed as they are released (R236). -/
def State.releaseStaging (s : State) (g : Group) : State :=
  g.staging.foldl (fun s r => if s.granState r.2.1 r.2.2.1 = 1 ∧ s.granHead r.2.1 r.2.2.1 then s.releaseRegion r.2.1 r.2.2.1 else s) s

/-- What dispatch has read of the queue's next item, or is reading, is dropped. -/
def State.dropFetch (s : State) (q : Nat) : State :=
  let s := s.dropAccess (fun u => u == .item q || u == .reqs q)
  s.setQueue q { s.queueSt q with head := none, reqs := none }

/-- Nothing of the queue waits, and an open group is dropped. -/
def State.clearQueue (s : State) (q : Nat) : State :=
  let s := match (s.queueSt q).group with
    | some g => s.releaseStaging g
    | none => s
  (s.dropFetch q).setQueue q QueueSt.idle

/-- A DRAINING queue with nothing in flight becomes DISABLED (R281). -/
def State.drained (s : State) (q : Nat) : State :=
  if s.get Fld.DSP_Q_STATE_STATE q = 3 ∧ (s.inFlight q).isEmpty then (s.put Fld.DSP_Q_STATE_STATE 0 q).clearQueue q else s

/-- A write to `Q_CTL` (R281, R299): the lowest command bit acts, and one that does not fit the state is ignored. -/
def State.qControl (s : State) (q v : Nat) : State :=
  let st := s.qState q
  if bitOf v 0 then
    let n := s.get Fld.DSP_Q_RING_LOG2 q
    if st = 0 ∧ 1 ≤ n ∧ n ≤ 16 ∧ s.domActive (s.qDom q) then
      let s := ((s.clearQueue q).put Fld.DSP_Q_STATE_STATE 1 q).setWord (Fld.DSP_Q_PTRS_HEAD.key q 0) 0
      (s.setWord (Fld.DSP_Q_CMPL_CTAIL.key q 0) 0).put Fld.DSP_Q_SERIAL_SERIAL 0 q
    else s.event Fld.DSP_PAGE_EVENT_Q_ENABLE_REFUSED 0 q
  else if bitOf v 1 then
    if st = 1 ∨ st = 2 then (s.put Fld.DSP_Q_STATE_STATE 3 q).drained q else s
  else if bitOf v 2 then
    if st = 2 then s.put Fld.DSP_Q_STATE_STATE 1 q else s
  else if bitOf v 3 then
    if st = 2 then ((s.clearQueue q).put Fld.DSP_Q_PTRS_HEAD (s.get Fld.DSP_Q_PTRS_TAIL q) q).put Fld.DSP_Q_STATE_STATE 1 q else s
  else s

/-- A write of `CHEAD` (R310). -/
def State.setChead (s : State) (q v : Nat) : State :=
  let n := s.qSize q
  let head := s.get Fld.DSP_Q_CMPL_CHEAD q
  let st := s.qState q
  if (st = 1 ∨ st = 2 ∨ st = 3) ∧ v < n ∧ (v + n - head % n) % n ≤ s.qUnread q then s.put Fld.DSP_Q_CMPL_CHEAD v q
  else s.event Fld.DSP_PAGE_EVENT_CHEAD_BAD 0 q

/-! ### Records (R297, R298) -/

/-- The fields of a completion record that an item's end gives. -/
structure Rec where
  status : Nat
  detail : Nat
  member : Nat
  nsw : Nat
  info : Nat
  faultSeq : Nat
  elapsed : Nat
  firstCore : Nat
  gang : Nat

/-- A record with a status alone. -/
def Rec.of (status detail : Nat) : Rec :=
  { status := status, detail := detail, member := 0, nsw := 0, info := 0, faultSeq := 0, elapsed := 0, firstCore := 0xFF, gang := 0 }

/-- The 32 bytes of a completion record. -/
def Rec.bytes (r : Rec) (it : Item) : Bytes :=
  leBytes 1 (it.w % 16) ++ leBytes 1 r.status ++ leBytes 1 r.detail ++ leBytes 1 r.member ++ leBytes 4 r.nsw ++ leBytes 8 r.info ++
    leBytes 2 it.ring ++ leBytes 2 it.queue ++ leBytes 4 r.faultSeq ++ leBytes 4 (min r.elapsed (2 ^ 32 - 1)) ++ leBytes 1 r.firstCore ++
    leBytes 1 r.gang ++ leBytes 2 0

/-- The 32 bytes of an event record. -/
def EvRec.bytes (r : EvRec) : Bytes :=
  leBytes 1 0xF ++ leBytes 1 r.status ++ leBytes 1 r.detail ++ leBytes 1 r.member ++ leBytes 4 0 ++ leBytes 8 r.info ++ leBytes 8 r.station ++ leBytes 8 0

/-- The completion notice of a record (R309, R483). -/
def State.notify (s : State) (q i : Nat) : State :=
  if s.get Fld.DSP_Q_CFG_NOTIFY q = 1 then
    { s with hostMsgs := s.hostMsgs ++ [{ payload := leBytes 2 8 ++ leBytes 1 (s.get Fld.DSP_Q_CFG_VEC q) ++ leBytes 1 1 ++ zeros 4 ++
                                                     leBytes 2 q ++ leBytes 2 i ++ zeros 4 }] }
  else s

/-- An ENABLED queue enters ERROR and keeps the status and detail that took it there (R298, R299, R309). A queue that is in ERROR
already, or that drains, goes on as it is. -/
def State.qError (s : State) (q status detail : Nat) : State :=
  if s.get Fld.DSP_Q_STATE_STATE q = 1 then
    (((s.put Fld.DSP_Q_STATE_ERR_STATUS status q).put Fld.DSP_Q_STATE_ERR_DETAIL detail q).put Fld.DSP_Q_STATE_STATE 2 q).event
      Fld.DSP_PAGE_EVENT_QUEUE_ERROR 0 q
  else s

/-- `SIG_ADD` of an item (R284, R295): its counter belongs to the queue's domain, or the item is invalid (R286). -/
def State.itemSignal (s : State) (it : Item) : State :=
  let c := bitsAt it.w 400 10
  if bitOf it.w 415 && s.sigOwner c == s.qDom it.queue then s.sigAdd c 1 else s

/-- Start the write of the queue's next record at `CTAIL` (R297), unless one is being written: records of a queue go in completion
order. -/
def State.pumpRecords (s : State) (q : Nat) : State :=
  if s.accessing (.record q) then s
  else match s.records.find? (fun r => r.queue == q) with
    | none => s
    | some r => s.dispatchAccess (.record q) (s.qDom q) (s.get Fld.DSP_Q_CMPL_BASE_VA q * 4096 + s.get Fld.DSP_Q_CMPL_CTAIL q * 32) 32 (some r.bytes)

/-- An item ends (R283, R293, R297): its queue enters ERROR as the status says, and its record goes to the completion ring; the item
completes when that is written. The queue of a domain that is torn down gets no record and no `SIG_ADD` (R301), nor does any after a
die-fatal error (R437). -/
def State.complete (s : State) (it : Item) (r : Rec) : State :=
  let q := it.queue
  if s.fatal then s
  else if s.qState q = 4 then { s with items := s.items.filter (fun i => !(i.queue == q && i.serial == it.serial)) }
  else
    let s := if r.status = 0 ∨ r.status = 9 then s else s.qError q r.status r.detail
    let items := if s.items.any (fun i => i.queue == q && i.serial == it.serial) then s.items else s.items ++ [it]
    ({ s with items := items, records := s.records ++ [{ queue := q, item := some it, bytes := r.bytes it, status := r.status, detail := r.detail }] } : State).pumpRecords q

/-- The write of a queue's first record has ended with a status (R283, R297): `CTAIL` advances and the item completes, with its notice
and its `SIG_ADD`; a failed write is a ring fault. After a die-fatal error nothing completes (R437). -/
def State.recordDone (s : State) (q st : Nat) : State :=
  if s.fatal then s
  else match s.records.find? (fun r => r.queue == q) with
  | none => s
  | some r =>
    let i := s.get Fld.DSP_Q_CMPL_CTAIL q
    let s : State := { s with records := s.records.erase r }
    let s := if st = 0 then (s.put Fld.DSP_Q_CMPL_CTAIL ((i + 1) % s.qSize q) q).count Fld.DSP_Q_DONE_COUNT 1 q else s.qError q 8 st
    let s := match r.item with
      | none => if st = 0 then s else s.bump Fld.DSP_EVQ_LOST_COUNT
      | some it =>
        let s := if st = 0 then s.notify q i else s
        let s : State := { s with items := s.items.filter (fun i => !(i.queue == q && i.serial == it.serial)) }
        (s.itemSignal it).drained q
    s.pumpRecords q

/-! ### Fields of a work item (R284) -/

/-- `KIND`. -/
def wiKind (w : Nat) : Nat := bitsAt w 0 4
/-- `NUM_TRAP`. -/
def wiTrap (w : Nat) : Bool := bitOf w 4
/-- `AFTER`. -/
def wiAfter (w : Nat) : Bool := bitOf w 5
/-- `PLACE`. -/
def wiPlace (w : Nat) : Nat := bitsAt w 6 2
/-- `SPILL_IVL_M1`. -/
def wiSpill (w : Nat) : Nat := bitsAt w 8 8
/-- The gang size. -/
def wiGang (w : Nat) : Nat := bitsAt w 16 6 + 1
/-- `REQ_COUNT`. -/
def wiReqs (w : Nat) : Nat := bitsAt w 24 5
/-- `STEP`. -/
def wiStep (w : Nat) : Nat := bitsAt w 32 32
/-- `SR_SEED`. -/
def wiSeed (w : Nat) : Nat := bitsAt w 64 64
/-- `CODE_BASE`, `COUNT`, `TARGET` or `BASE`. -/
def wiBase (w : Nat) : Nat := bitsAt w 128 32
/-- `CODE_LEN`. -/
def wiLen (w : Nat) : Nat := bitsAt w 160 32
/-- `REGREQ`, `LIST` or `REQ`. -/
def wiReq (w : Nat) : Nat := bitsAt w 192 64
/-- `ARG`. -/
def wiArg (w : Nat) : Nat := bitsAt w 256 64
/-- `VSTRIDE` or `LEVELS`. -/
def wiStride (w : Nat) : Nat := bitsAt w 320 32
/-- `TIMEOUT`. -/
def wiTimeout (w : Nat) : Nat := bitsAt w 352 32

/-- The bits that a kind uses (R284). -/
def wiUsed (kind : Nat) (group : Bool) : Nat :=
  let all := span 3 0 ||| span 5 5 ||| span 393 384 ||| span 399 399 ||| span 409 400 ||| span 415 415 ||| span 447 416
  match kind with
  | 1 => all ||| span 21 4 ||| span 28 24 ||| span 191 32 ||| span 319 192 ||| span 383 352 ||| (if group then span 351 320 else 0)
  | 2 => all ||| span 159 128 ||| span 255 192
  | 3 => all ||| span 159 128 ||| span 255 192
  | 4 => all ||| span 159 128
  | 5 => all ||| span 28 24 ||| span 159 128 ||| span 255 192 ||| span 323 320
  | 6 => all ||| span 159 128 ||| span 255 192
  | _ => all

/-- The unit and granule at which a die-local address starts. -/
def granAt (a : Nat) : Option (Nat × Nat) := match memUnit a with
  | none => none
  | some u => if (a - unitBase u) % granSize u = 0 then some (u, granOf u a) else none

/-- The domain-lifetime region of a domain whose first granule is at `a` (R285, R286). -/
def State.regionAt (s : State) (dom a : Nat) : Option (Nat × Nat) := (granAt a).filter (fun e =>
  s.granState e.1 e.2 == 1 && s.granHead e.1 e.2 && s.granLife e.1 e.2 == 1 && s.granDomain e.1 e.2 == dom)

/-- The list of a move or RGEND, or the code and requests of a kernel, are malformed (R284). -/
def wiShape (w : Nat) : Bool :=
  match wiKind w with
  | 1 => wiPlace w == 3 || (wiPlace w == 1 && decide (8 < wiGang w)) || (wiPlace w == 2 && wiGang w % 8 != 0) || wiBase w % 16 != 0 ||
      wiLen w == 0 || wiLen w % 16 != 0 || decide (16 < wiReqs w) || (wiReqs w != 0 && wiReq w % 8 != 0)
  | 2 => wiBase w == 0 || decide (4096 < wiBase w) || wiReq w % 64 != 0
  | 5 => decide (16 < wiReqs w) || (wiReqs w != 0 && wiReq w % 8 != 0) || decide (bitsAt w 322 2 < bitsAt w 320 2)
  | 6 => wiBase w == 0 || decide (4096 < wiBase w) || wiReq w % 64 != 0
  | _ => false

/-- An item is invalid as it stands (R286, R287, R302); its requests are checked when they have been read. -/
def State.itemInvalid (s : State) (q w : Nat) : Bool :=
  let dom := s.qDom q
  let g := (s.queueSt q).group
  decide (6 < wiKind w) || decide (w &&& (2 ^ 512 - 1 - wiUsed (wiKind w) g.isSome) ≠ 0) ||
    (bitOf w 399 && s.sigOwner (bitsAt w 384 10) != dom) || (bitOf w 415 && s.sigOwner (bitsAt w 400 10) != dom) || wiShape w ||
    (wiKind w == 4 && (s.regionAt dom (wiBase w)).isNone) ||
    (match g with
      | none => wiKind w == 6
      | some g => !(wiKind w == 6 || (wiKind w == 1 && decide (g.members.length < 64))))

/-! ### Starting an item (R283, R288) -/

/-- The next member of an open group that a replay runs again. -/
def State.rerun (s : State) (q : Nat) : Option Member := (s.queueSt q).group.bind (fun g => g.members[g.pos]?)

/-- A kernel of the queue's replay group runs, or the record of a member is still to be written: the member has not completed (R297,
R303). -/
def State.groupBusy (s : State) (q : Nat) : Bool := s.gangs.any (fun g => g.group && g.queue == q) ||
  (s.queueSt q).group.any (fun g => (s.inFlight q).any (fun i => g.members.any (fun m => m.serial == i.serial)))

/-- An item of another queue of at least this class waits for cores (R288). -/
def State.classBlocked (s : State) (q : Nat) : Bool :=
  s.queues.any (fun e => e.1 != q && e.2.forCores && s.qState e.1 == 1 && decide (s.get Fld.DSP_Q_CFG_PRIO q ≤ s.get Fld.DSP_Q_CFG_PRIO e.1))

/-- The queue may start an item, but for what the item itself says (R283, R288). -/
def State.mayStart (s : State) (q : Nat) : Bool :=
  !s.fatal && s.qState q == 1 && decide ((s.inFlight q).length < s.get Fld.DSP_Q_CFG_INFLIGHT_M1 q + 1) && s.qFree q && !s.classBlocked q && !s.groupBusy q

/-- `AFTER` and `WAIT_EN` of an item (R283): the previous item of the queue has completed. -/
def State.itemReady (s : State) (q w : Nat) : Bool :=
  (!wiAfter w || !(s.inFlight q).any (fun i => i.serial + 1 == s.get Fld.DSP_Q_SERIAL_SERIAL q)) && (!bitOf w 399 || s.sigReached (bitsAt w 384 10) (bitsAt w 416 32))

/-- The class of a queue (R280). -/
def State.qPrio (s : State) (q : Nat) : Nat := s.get Fld.DSP_Q_CFG_PRIO q

/-- The queue has an item that could start now: one that dispatch has read, or a member that a replay runs again. An item that waits
for space holds back no other queue. -/
def State.qReady (s : State) (q : Nat) : Bool :=
  s.mayStart q && (s.queueSt q).since.isNone && ((s.rerun q).isSome || (match (s.queueSt q).head with
    | some (0, w) => !s.itemInvalid q w && s.itemReady q w
    | _ => false))

/-- The place of a queue in its class's round, which starts after the queue that last started an item (R288). -/
def State.qPlace (s : State) (q : Nat) : Nat := (q + 65536 - (tget (fun _ => 65535) (s.qPrio q) s.classLast + 1)) % 65536

/-- No ready queue comes before this one (R288): none of a higher class, and none earlier in the round of its class. -/
def State.qTurn (s : State) (q : Nat) : Bool :=
  (s.queues.map (·.1)).all (fun p => p == q || !s.qReady p || decide (s.qPrio p < s.qPrio q) ||
    (s.qPrio p == s.qPrio q && decide (s.qPlace q < s.qPlace p)))

/-- Take the head item from the ring: it is accepted with the next serial (R292). -/
def State.takeItem (s : State) (q w : Nat) : State × Item :=
  let head := s.get Fld.DSP_Q_PTRS_HEAD q
  let serial := s.get Fld.DSP_Q_SERIAL_SERIAL q
  let it : Item := { queue := q, ring := head, serial := serial, w := w, started := s.now, next := 0, left := 0, bad := none, tag := 0, group := none }
  let x := s.queueSt q
  let s := (s.setQueue q { QueueSt.idle with group := x.group }).put Fld.DSP_Q_PTRS_HEAD ((head + 1) % s.qSize q) q
  ({ s.put Fld.DSP_Q_SERIAL_SERIAL (serial + 1) q with classLast := tset (fun _ => 65535) (s.qPrio q) q s.classLast }, it)

/-- The head item ends at once; one that ends without running leaves its class's round as it was. -/
def State.endItem (s : State) (q w status detail : Nat) : State :=
  let t := s.takeItem q w
  ({ t.1 with classLast := if status = 0 then t.1.classLast else s.classLast } : State).complete t.2 (Rec.of status detail)

/-- The virtual address of the queue's next item. -/
def State.headVa (s : State) (q : Nat) : Nat := s.get Fld.DSP_Q_RING_BASE_VA q * 4096 + s.get Fld.DSP_Q_PTRS_HEAD q * 64

/-- Dispatch takes up an access that has ended with a status, but for those of a list and of a QPOST (R283, R297). -/
def State.takeUp (s : State) (u : VUse) (st : Nat) (data : Bytes) : State :=
  match u with
  | .item q => s.setQueue q { s.queueSt q with head := some (st, leVal data) }
  | .reqs q => s.setQueue q { s.queueSt q with reqs := some (st, data) }
  | .record q => s.recordDone q st
  | _ => s

/-- An access of dispatch that has ended, of those in `p`. -/
def State.endedAccess (s : State) (p : VUse → Bool) : Option (Nat × VUse × MoveJob) :=
  s.moves.findSome? (fun e => match e.2.owner with
    | .dispatch u => if (e.2.status.isSome || (e.2.dead && decide (e.2.wait = .run))) && p u then some (e.1, u, e.2) else none
    | _ => none)

/-- Read the queue's next item, unless that is under way (R283). -/
def State.fetchItem (s : State) (q : Nat) : State := if s.accessing (.item q) then s else s.dispatchAccess (.item q) (s.qDom q) (s.headVa q) 64 none

/-- The head item waits for space (R290): the limit in force when the wait starts stands (R311). -/
def State.waitSpace (s : State) (q : Nat) : State :=
  let x := s.queueSt q
  match x.since with
  | some _ => s.setQueue q { x with forCores := false }
  | none => s.setQueue q { x with since := some s.now, limit := s.get Fld.DSP_DSP_CFG_PLACE_LIMIT * 100000, forCores := false }

/-- The head item waits for cores (R288). -/
def State.waitCores (s : State) (q : Nat) : State := s.setQueue q { s.queueSt q with forCores := true }

/-! ### Regions (R289, R290) -/

/-- A request entry. -/
structure Req1 where
  mem : Nat
  sealed : Bool
  cls : Nat
  staging : Bool
  len : Nat
  handle : Nat
  bad : Bool

/-- Read a request entry (R289). -/
def req1 (e : Nat) : Req1 :=
  { mem := bitsAt e 0 2, sealed := bitOf e 2, cls := bitsAt e 3 1, staging := bitOf e 4, len := bitsAt e 8 6 + 1, handle := bitsAt e 16 4
    bad := bitsAt e 5 3 != 0 || bitsAt e 14 2 != 0 || bitsAt e 20 44 != 0 || bitsAt e 0 2 == 3 }

/-- The slices from `first`, then the others in ascending order (R234), as units. -/
def sliceOrder (first : Nat) : List Nat := (64 + first) :: ((List.range 8).filter (· != first)).map (64 + ·)

/-- Allocate a region in the first of these units that has room: the state and its unit and head, or the status of R298. -/
def State.allocIn (s : State) (us : List Nat) (r : Region) : State × Except Nat (Nat × Nat) :=
  us.foldl (fun (a : State × Except Nat (Nat × Nat)) u => match a.2 with
    | .error 5 => match a.1.tryRegion { r with unit := u } with
      | .ok u g => (a.1.markRegion { r with unit := u } g, .ok (u, g))
      | .noSpace => a
      | .invalid => (a.1, .error 4)
      | .retired => (a.1, .error 6)
    | _ => a) (s, .error 5)

/-- A region placed for a request: its handle, the member whose own it is, unit, head granule and granules. -/
structure Placed where
  handle : Nat
  member : Option Nat
  unit : Nat
  gran : Nat
  len : Nat
  deriving DecidableEq, Repr

/-- The base address of a region. -/
def Placed.base (p : Placed) : Nat := unitBase p.unit + p.gran * granSize p.unit
/-- Its bytes. -/
def Placed.bytes (p : Placed) : Nat := p.len * granSize p.unit

/-- Allocate requests in list order, per-member ones member by member (R290): all of them, or the status that stops them, with what they
took released (R236). `first` is the slice a search starts at, `only` the slice that `MEM` = 1 names. -/
def State.allocAll (s : State) (dom : Nat) (members : List Nat) (first only : Nat) (l : List Req1) : State × Except Nat (List Placed) :=
  let one (a : State × List Placed × Option Nat) (r : Req1) (m : Option Nat) (us : List Nat) : State × List Placed × Option Nat :=
    if a.2.2.isSome then a
    else match a.1.allocIn us { unit := 0, len := r.len, cls := r.cls, sealed := r.sealed, life := 0, dom := dom } with
      | (t, .ok (u, g)) => (t, a.2.1 ++ [{ handle := r.handle, member := m, unit := u, gran := g, len := r.len }], none)
      | (t, .error e) => (t, a.2.1, some e)
  let got := l.foldl (fun a r =>
    if r.mem = 0 then (List.range members.length).foldl (fun a i => one a r (some i) [members.getD i 0]) a
    else one a r none (if r.mem = 1 then [64 + only] else sliceOrder first)) (s, [], none)
  match got.2.2 with
  | none => (got.1, .ok got.2.1)
  | some e => (got.2.1.foldl (fun t p => t.releaseRegion p.unit p.gran) got.1, .error e)

/-- The request list of an item: the entries, or the status that ends it (R283, R286); none while dispatch still reads it. -/
def State.readReqs (s : State) (q w : Nat) : State × Option (Except Nat (List Req1)) :=
  let n := wiReqs w
  if n = 0 then (s, some (.ok []))
  else match (s.queueSt q).reqs with
    | none => (if s.accessing (.reqs q) then s else s.dispatchAccess (.reqs q) (s.qDom q) (wiReq w) (8 * n) none, none)
    | some (st, b) =>
      if st ≠ 0 then (s, some (.error 8))
      else
        let l := (List.range n).map (fun i => req1 (leAt b (8 * i) 8))
        let stage := wiKind w == 5
        if l.any (fun e => e.bad || e.staging != stage || (stage && e.mem == 0)) ∨ (l.map (·.handle)).eraseDups.length ≠ n then (s, some (.error 4))
        else (s, some (.ok l))

/-! ### Gangs (R287) -/

/-- A logical core is free (R287). -/
def State.coreFree (s : State) (n : Nat) : Bool := s.get Fld.CORE_CORE_STATE_STATE n == 1 && (s.core n).run == 0 && !s.isHole n

/-- The cores that `PLACE` chooses among those that satisfy `p`. -/
def pickCores (p : Nat → Bool) (place size : Nat) : Option (List Nat) :=
  let of_ (c : Nat) : List Nat := ((List.range 8).map (c * 8 + ·)).filter p
  match place with
  | 0 => let l := idx 64 p; if size ≤ l.length then some (l.take size) else none
  | 1 => ((List.range 8).find? (fun c => decide (size ≤ (of_ c).length))).map (fun c => (of_ c).take size)
  | _ =>
    let l := (List.range 8).filter (fun c => decide ((of_ c).length = 8))
    if size ≤ l.length * 8 then some ((l.take (size / 8)).map (fun c => (List.range 8).map (c * 8 + ·))).flatten else none

/-- The code address of an item's kernel on a core, a handle address replaced (R291): none when the handle gives none. -/
def codeAddr (h : Tbl (Nat × Nat)) (a : Nat) : Option Nat := handleAddr (fun i => tget (fun _ => (0, 0)) i h) a

/-- The handles of member `i` (R291). -/
def handlesOf (l : List Placed) (i : Nat) : Tbl (Nat × Nat) :=
  l.foldl (fun t p => if p.member = none ∨ p.member = some i then tset (fun _ => (0, 0)) p.handle (p.base, p.bytes) t else t) []

/-- The time limit of a kernel in 10 ns periods (R293). -/
def State.kernelLimit (s : State) (q w : Nat) : Nat :=
  if wiTimeout w ≠ 0 then wiTimeout w * 100
  else if s.get Fld.DSP_Q_TIMEOUT_US q ≠ 0 then s.get Fld.DSP_Q_TIMEOUT_US q * 100
  else s.get Fld.DSP_DSP_CFG_KTIMEOUT * 100000

/-- Start a gang that has its cores and regions (R292, R303). -/
def State.startGang (s : State) (it : Item) (cores : List Nat) (own : List Placed) (grp : Option Group) : State :=
  let q := it.queue
  let w := it.w
  let dom := s.qDom q
  let shared := match grp with
    | some g => g.staging.map (fun r => ({ handle := r.1, member := none, unit := r.2.1, gran := r.2.2.1, len := r.2.2.2 } : Placed))
    | none => []
  let kinst := q * 2 ^ 48 + it.serial % 2 ^ 40 * 256 + (match grp with
    | some g => g.attempt % 256
    | none => 0)
  let code := match grp with
    | some g => (wiBase w + (g.level - g.first) * wiStride w) % 2 ^ 32
    | none => wiBase w
  let gid := s.nextGang
  let s : State := { s with
    nextGang := gid + 1
    items := s.items ++ [it]
    gangs := s.gangs ++ [{ gid := gid, queue := q, ring := it.ring, members := cores, dom := dom, kinst := kinst, step := wiStep w, arg := wiArg w
                           group := grp.isSome, level := (match grp with
                             | some g => g.level
                             | none => 0)
                           regions := own.map (fun p => (p.unit, p.gran)), writable := (own ++ shared).map (fun p => (p.base, p.bytes))
                           started := s.now, limit := s.kernelLimit q w, sigAdd := none, stop := none }] }
  let s := s.count Fld.DSP_DSP_KSTART_COUNT
  (List.range cores.length).foldl (fun s i =>
    let n := cores.getD i 0
    let h := handlesOf (own ++ shared) i
    let base := codeAddr h code
    let s := s.startCore n { test := false, gang := gid, member := i, dom := dom, queue := q, kinst := kinst, step := wiStep w, seed := wiSeed w
                             trap := wiTrap w, spill := wiSpill w, codeBase := base.getD 0, codeLen := wiLen w, handles := h }
    if base.isSome then s else s.coreFault n 0x09 0) s

/-- Place and start a kernel item (R287-R293), or let it wait, or end it. `first` runs it for the first time. -/
def State.placeKernel (s : State) (q w : Nat) (again : Option Member) : State :=
  let grp := (s.queueSt q).group
  let stop (s : State) (status : Nat) : State := match again with
    | none => s.endItem q w status 0
    | some _ => match grp with
      | none => s
      | some g => (s.setQueue q { QueueSt.idle with group := some { g with aborted := true, pos := g.members.length } }).qError q status 0
  if grp.any (·.aborted) then stop s 0xA
  else
    let l := s.readReqs q w
    match l.2 with
    | none => l.1
    | some (.error e) => stop l.1 e
    | some (.ok reqs) =>
      if reqs.any (fun r => grp.any (fun g => g.staging.any (fun x => x.1 == r.handle))) then stop l.1 4
      else match pickCores l.1.coreFree (wiPlace w) (wiGang w) with
        | none => if (pickCores (fun n => !l.1.isHole n) (wiPlace w) (wiGang w)).isNone then stop l.1 6 else l.1.waitCores q
        | some cores =>
          let slice := cores.headD 0 / 8
          let a := l.1.allocAll (l.1.qDom q) cores slice slice reqs
          match a.2 with
          | .error 5 => a.1.waitSpace q
          | .error e => stop a.1 e
          | .ok own =>
            match again with
            | some m =>
              let t := a.1.setQueue q { QueueSt.idle with group := grp }
              let t : State := { t with classLast := tset (fun _ => 65535) (t.qPrio q) q t.classLast }
              t.startGang { queue := q, ring := m.ring, serial := m.serial, w := w, started := t.now, next := 0, left := 0, bad := none, tag := 0
                            group := none } cores own grp
            | none =>
              let t := a.1.takeItem q w
              let u := match grp with
                | none => t.1
                | some g => t.1.setQueue q { t.1.queueSt q with
                    group := some { g with members := g.members ++ [Member.mk t.2.ring t.2.serial w false] } }
              u.startGang t.2 cores own grp

/-! ### Descriptors of items, and accesses that end -/

/-- Replace an item in flight. -/
def State.setItem (s : State) (it : Item) : State :=
  { s with items := s.items.map (fun i => if i.queue = it.queue ∧ i.serial = it.serial then it else i) }

/-- The first descriptor in list order that did not end OK. -/
def firstBad (a : Option (Nat × Nat × Nat)) (b : Nat × Nat × Nat) : Option (Nat × Nat × Nat) := match a with
  | none => some b
  | some x => if b.1 < x.1 then some b else some x

/-- Every descriptor of a move or RGEND has completed: its record (R285, R304, R305). -/
def State.endMoves (s : State) (it : Item) : State :=
  let el := s.now - it.started
  if wiKind it.w = 6 then
    match it.group with
    | none => s.complete it (Rec.of 0 0)
    | some g =>
      let s := s.releaseStaging g
      let st := if it.bad.isSome then 7 else if g.exhausted then 9 else 0
      s.complete it { Rec.of st (match it.bad with
        | some (_, st, _) => st
        | none => g.level) with member := g.attempt % 256, nsw := g.nsw, elapsed := el }
  else match it.bad with
    | some (_, st, tag) => s.complete it { Rec.of 7 st with info := tag, elapsed := el }
    | none => s.complete it { Rec.of 0 0 with info := it.tag, elapsed := el }

/-- An item with descriptors goes on (R246, R285): dispatch reads the next one while a die engine has room for it; the item ends when
every one has completed. -/
def State.fillMoves (s : State) (it : Item) : State :=
  let s := s.setItem it
  if wiBase it.w ≤ it.next then (if it.left = 0 ∧ !s.records.any (fun r => r.item.any (fun i => i.queue == it.queue && i.serial == it.serial)) then s.endMoves it else s)
  else if s.accessing (.list it.queue it.serial it.next) ∨ (s.freeSlot 16 32).isNone then s
  else s.dispatchAccess (.list it.queue it.serial it.next) (s.qDom it.queue) (wiReq it.w + 64 * it.next) 64 none

/-- A descriptor of an item's list has been read: an engine accepts it; a failed read ends the list with that status. -/
def State.takeDescriptor (s : State) (q serial pos st : Nat) (data : Bytes) : State :=
  match s.items.find? (fun i => i.queue == q && i.serial == serial), s.freeSlot 16 32 with
  | some it, some k =>
    if it.next ≠ pos then s
    else if st ≠ 0 then s.fillMoves { it with next := wiBase it.w, bad := firstBad it.bad (pos, st, 0) }
    else
      let d := leVal data
      let t := s.acceptMove k d (s.qDom q) (2 ^ 16 + q) (.item q serial pos)
      t.fillMoves { it with next := pos + 1, left := it.left + 1, tag := if pos + 1 = wiBase it.w then mvTag d else it.tag }
  | _, _ => s

/-- The access of a core's QPOST has ended (R295): the queue is rung and decode resumes, or the core faults. -/
def State.postDone (s : State) (c seq st : Nat) : State :=
  let k := s.core c
  match k.cur with
  | none => s
  | some d =>
    if d.seq ≠ seq ∨ iMajor d.word ≠ 0x55 ∨ k.run ≠ 1 then s
    else if st ≠ 0 then s.coreFault c (accessCode st 0x09) seq
    else
      let q := qpostQueue d.word
      let t := (s.ring q ((s.get Fld.DSP_Q_PTRS_TAIL q + 1) % s.qSize q)).1
      t.setCore c { t.core c with cur := none, waiting := none }

/-- Dispatch takes up, one after another, the accesses that have ended (R283-R297); a descriptor waits while no engine has room. -/
def State.settleLoop : Nat → State → State
  | 0, s => s
  | fuel + 1, s =>
    let room := (s.freeSlot 16 32).isSome
    match s.endedAccess (fun u => match u with
      | .list _ _ _ => room
      | _ => true) with
    | none => s
    | some (k, u, j) =>
      let s : State := { s with moves := tdel k s.moves }
      let st := j.status.getD 0
      State.settleLoop fuel (if j.dead then s else match u with
        | .list q serial pos => s.takeDescriptor q serial pos st j.data
        | .post c seq => s.postDone c seq st
        | _ => s.takeUp u st j.data)

/-- What follows from replies and walks that ended: condemned frames are given back, and dispatch goes on. -/
def State.settle (s : State) : State := State.settleLoop 8192 s.freeCondemned

/-- A die engine has a free slot again: every item with descriptors left goes on, those of a stopped queue apart (R246, R273, R285). -/
def State.refill (s : State) : State :=
  (s.items.foldl (fun t i => match t.items.find? (fun x => x.queue == i.queue && x.serial == i.serial) with
    | some x => if (wiKind x.w = 2 ∨ wiKind x.w = 6) ∧ x.next < wiBase x.w ∧ t.qState x.queue ≠ 4 then t.fillMoves x else t
    | none => t) s).settle

/-! ### Meanings of the items' rows -/

/-- The row of an item of kind `kind`: the queue's next item is read first; an unreadable or invalid one ends, and one of this kind
that is ready, and whose turn it is, goes to `run`. -/
def State.itemRow (s : State) (q kind : Nat) (run : State → Nat → State) : Res :=
  onUnit "queue" 65536 q <|
    if !s.mayStart q then .next s
    else match s.rerun q with
      | some m => if kind = 1 ∧ s.qTurn q then .next (run s m.w).settle else .next s
      | none =>
        if s.get Fld.DSP_Q_PTRS_HEAD q = s.get Fld.DSP_Q_PTRS_TAIL q then .next s
        else match (s.queueSt q).head with
          | none => .next (s.fetchItem q).settle
          | some (st, w) =>
            if st ≠ 0 then .next (s.endItem q 0 8 st).settle
            else if s.itemInvalid q w then .next (s.endItem q w 4 0).settle
            else if wiKind w = kind ∧ s.itemReady q w ∧ s.qTurn q then .next (run s w).settle
            else .next s

/-- `ITEM_NOP` (R285). -/
def execItemNop (q : Nat) (s : State) : Res := s.itemRow q 0 fun s w => s.endItem q w 0 0

/-- `ITEM_KERNEL` (R287-R292, R303): a member of an open group that a replay runs again comes before the ring's next item. -/
def execItemKernel (q : Nat) (s : State) : Res := s.itemRow q 1 fun s w => s.placeKernel q w (s.rerun q)

/-- Start a list of descriptors; an RGEND takes the group with it, which ends there (R302, R304). -/
def State.startMoves (s : State) (q w : Nat) : State :=
  let t := s.takeItem q w
  let it : Item := { t.2 with group := if wiKind w = 6 then (s.queueSt q).group else none }
  let t : State := if wiKind w = 6 then t.1.setQueue q QueueSt.idle else t.1
  ({ t with items := t.items ++ [it] } : State).fillMoves it

/-- `ITEM_MOVE` (R285). -/
def execItemMove (q : Nat) (s : State) : Res := s.itemRow q 2 fun s w => s.startMoves q w

/-- The core fault of a move status (R253). -/
def moveFault (st : Nat) : Nat := if st = 1 then 0x02 else if st = stSealed then 0x0A else if st = stUncorrectable then 0x0C else 0x09

/-- `MOVE_COMPLETE` (R248, R253, R254, R285): the descriptor in slot `k` has ended; its submitter hears of it and the slot is
free for the next descriptor of any item that still has some. -/
def execMoveComplete (k : Nat) (s : State) : Res :=
  onUnit "move slot" 2048 k <|
    let j := s.move k
    match j.status with
    | none => .next s
    | some st =>
      let t : State := { s with moves := tdel k s.moves }
      match j.owner with
      | .core n ctr seq gang =>
        let c := t.core n
        if c.gang ≠ gang then .next t
        else
          let t := t.setCore n { c with mvCnt := c.mvCnt.set ctr (c.mvCnt.getD ctr 0 - 1) }
          .next (if st = 0 then t else t.coreFault n (moveFault st) seq)
      | .item q serial pos =>
        match t.items.find? (fun i => i.queue == q && i.serial == serial) with
        | none => .next t.refill
        | some it =>
          .next (if t.qState q = 4 then t
            else t.fillMoves { it with left := it.left - 1, bad := if st = 0 then it.bad else firstBad it.bad (pos, st, mvTag j.w) }).refill
      | .dispatch _ => .next s

/-- One region of domain lifetime (R285, R289, R290). -/
def State.ralloc (s : State) (q w : Nat) : State :=
  let r := req1 (wiReq w)
  if r.bad ∨ r.staging then s.endItem q w 4 0
  else
    let us := if r.mem = 0 then [wiBase w % 64] else if r.mem = 1 then [64 + wiBase w % 8] else sliceOrder 0
    match s.allocIn us { unit := 0, len := r.len, cls := r.cls, sealed := r.sealed, life := 1, dom := s.qDom q } with
    | (_, .error 5) => s.waitSpace q
    | (_, .error e) => s.endItem q w e 0
    | (t, .ok (u, g)) =>
      let x := t.takeItem q w
      x.1.complete x.2 { Rec.of 0 0 with info := unitBase u + g * granSize u }

/-- `ITEM_RALLOC` (R285, R289, R290). -/
def execItemRalloc (q : Nat) (s : State) : Res := s.itemRow q 3 fun s w => s.ralloc q w

/-- `ITEM_RFREE` (R285, R236). -/
def execItemRfree (q : Nat) (s : State) : Res := s.itemRow q 4 fun s w =>
  match s.regionAt (s.qDom q) (wiBase w) with
  | none => s.endItem q w 4 0
  | some (u, g) => (s.releaseRegion u g).endItem q w 0 0

/-- Open a replay group with its staging regions (R302). -/
def State.beginGroup (s : State) (q w : Nat) : State :=
  let l := s.readReqs q w
  match l.2 with
  | none => l.1
  | some (.error e) => l.1.endItem q w e 0
  | some (.ok reqs) =>
    let a := l.1.allocAll (l.1.qDom q) [] 0 (wiBase w % 8) reqs
    match a.2 with
    | .error 5 => a.1.waitSpace q
    | .error e => a.1.endItem q w e 0
    | .ok ps =>
      let g : Group := { first := bitsAt w 320 2, last := bitsAt w 322 2, level := bitsAt w 320 2, attempt := 0, members := [], pos := 0
                         staging := ps.map (fun p => (p.handle, p.unit, p.gran, p.len)), nsw := 0, exhausted := false, aborted := false }
      let t := a.1.endItem q w 0 0
      t.setQueue q { t.queueSt q with group := some g }

/-- `RGBEGIN` (R302). -/
def execRgbegin (q : Nat) (s : State) : Res := s.itemRow q 5 fun s w => s.beginGroup q w

/-- `RGEND` (R304, R305): an aborted group ends with "group aborted"; else the commit list runs on the die move engines. -/
def execRgend (q : Nat) (s : State) : Res := s.itemRow q 6 fun s w =>
  match (s.queueSt q).group with
  | none => s
  | some g =>
    if g.aborted then
      let t := s.takeItem q w
      (t.1.clearQueue q).complete t.2 { Rec.of 0xA g.level with member := g.attempt % 256, nsw := g.nsw }
    else s.startMoves q w

/-- An item that waits for space or cores tries again (R288, R290). -/
def State.retryItem (s : State) (q : Nat) : Res :=
  let x := s.queueSt q
  if x.since.isNone ∧ !x.forCores then .next s
  else match s.rerun q with
    | some m => if s.mayStart q ∧ s.qTurn q then .next (s.placeKernel q m.w (some m)).settle else .next s
    | none =>
      let w := ((s.queueSt q).head.map (·.2)).getD 0
      let run (k : Nat) : State → Nat → State := if k = 3 then fun s w => s.ralloc q w else if k = 5 then fun s w => s.beginGroup q w
        else fun s w => s.placeKernel q w none
      s.itemRow q (wiKind w) (run (wiKind w))

/-- `PLACEMENT_RETRY` (R288, R290). -/
def execPlacementRetry (q : Nat) (s : State) : Res := onUnit "queue" 65536 q <| s.retryItem q

/-- `PLACE_LIMIT_EXPIRY` (R290): the item has waited longer than `PLACE_LIMIT` for space. -/
def execPlaceLimitExpiry (q : Nat) (s : State) : Res :=
  onUnit "queue" 65536 q <|
    let x := s.queueSt q
    match x.since with
    | none => .next s
    | some t0 =>
      if x.limit = 0 ∨ s.now ≤ t0 + x.limit ∨ s.qState q ≠ 1 then .next s
      else match s.rerun q, x.group with
        | some _, some g =>
          .next ((s.setQueue q { QueueSt.idle with group := some { g with aborted := true, pos := g.members.length } }).qError q 5 0)
        | _, _ => .next (s.endItem q (((s.queueSt q).head.map (·.2)).getD 0) 5 0).settle

/-! ### Kernel ends (R293) -/

/-- A core waits in an operand stall: an MMA heads its array queue (R15, R92). -/
def CoreSt.operandStall (c : CoreSt) : Bool := c.run == 1 && (match c.aq with
  | d :: _ => iMajor d.word == 0x20
  | [] => false)

/-- `KERNEL_TIMEOUT` (R293): not for a kernel whose members have all ended (R307). A member in an operand stall keeps its halves
and sets as they stood. -/
def execKernelTimeout (g : Nat) (s : State) : Res :=
  match s.gang? g with
  | none => .next s
  | some x =>
    if x.limit = 0 ∨ s.now < x.started + x.limit ∨ x.stop.isSome ∨ x.members.all (fun m => (s.core m).run == 2) then .next s
    else
      let t := s.stopGang g { status := 3, detail := 0, member := 0, seq := 0 }
      .next (x.members.foldl (fun t m =>
        let c := s.core m
        if c.operandStall then t.setCore m { t.core m with halves := c.halves, sets := c.sets } else t) t)

/-- A member waits at a barrier that not every member has reached as often (R295). -/
def State.atBarrier (s : State) (x : Gang) (m : Nat) : Bool :=
  let c := s.core m
  match c.cur with
  | some d => iMajor d.word == 0x52 && c.waiting.isSome &&
      x.members.any (fun o => decide ((s.core o).barriers.getD (bitsAt d.word 24 4) 0 < c.barriers.getD (bitsAt d.word 24 4) 0))
  | none => false

/-- `BARRIER_BROKEN` (R293). -/
def execBarrierBroken (g : Nat) (s : State) : Res :=
  match s.gang? g with
  | none => .next s
  | some x =>
    if x.stop.isNone ∧ x.members.any (fun m => (s.core m).run == 2) ∧ x.members.any (fun m => (s.core m).run == 1) ∧
        x.members.all (fun m => (s.core m).run == 2 || s.atBarrier x m) then
      .next (s.stopGang g { status := 0xB, detail := 0, member := 0, seq := 0 })
    else .next s

/-- The member whose numeric event record has the smallest key, if any holds one (R176). -/
def State.firstNer (s : State) (l : List Nat) : Option Nat :=
  (l.filter (fun m => s.get Fld.CORE_NER_INFO_VALID m == 1)).foldl (fun a m => match a with
    | none => some m
    | some b => if keyLt (s.nerKey m) (s.nerKey b) then some m else some b) none

/-- The numeric status word of a gang (R176). -/
def State.gangNsw (s : State) (x : Gang) : Nat :=
  let w := x.members.foldl (fun a m => a ||| (s.core m).nsw) 0
  match s.firstNer x.members with
  | some m => if bitOf w 4 then bitsPut w 16 8 (s.get Fld.CORE_NER_INFO_CAUSE m) else w
  | none => w

/-- The gang's regions are released, its cores freed, and what its kernel held goes (R134, R290, R293). -/
def State.freeGang (s : State) (x : Gang) : State :=
  let s := x.regions.foldl (fun s r => if s.granState r.1 r.2 = 1 ∧ s.granHead r.1 r.2 then s.releaseRegion r.1 r.2 else s) s
  let s := x.members.foldl (fun s m => let c := s.core m; s.setCore m { c with run := 0, gang := 0, waiting := none, cur := none }) s
  ({ s with gangs := s.gangs.filter (fun y => y.gid != x.gid) } : State).dropScales x.gid

/-- Zero each staging region in place (R237, R304). -/
def State.zeroStaging (s : State) (g : Group) : State :=
  g.staging.foldl (fun s r => (List.range r.2.2.2).foldl (fun s i => s.zeroGranule r.2.1 (r.2.2.1 + i)) s) s

/-- A replay (R304): staging is zeroed, the replay is recorded, and the group goes back to its first member. -/
def State.replay (s : State) (q nsw : Nat) (g : Group) : State :=
  let first := q * 2 ^ 48 + (match g.members with
    | m :: _ => m.serial % 2 ^ 40
    | [] => 0) * 256 + g.attempt % 256
  let s := s.zeroStaging g
  let s := (s.count Fld.DSP_DSP_REPLAYS_COUNT).event Fld.DSP_PAGE_EVENT_REPLAY 0 q
  let s := s.note { kind := 5, tail := []
                    body := leBytes 1 g.level ++ leBytes 1 (g.level + 1) ++ leBytes 1 g.pos ++ leBytes 1 0 ++ leBytes 8 first ++ leBytes 2 q ++ leBytes 2 0 ++
                            leBytes 4 nsw }
  let s := s.waitEvent { queue := s.get Fld.DSP_EVENT_QUEUE_QUEUE, status := 0x43, detail := 0, member := g.level + 1, info := first, station := s.station }
  s.setQueue q { s.queueSt q with group := some { g with level := g.level + 1, attempt := g.attempt + 1, pos := 0, nsw := 0 } }

/-- A member of a group that ends with this status and numeric status word triggers a replay (R304, R305). -/
def Group.triggers (g : Group) (status nsw : Nat) : Bool := status == 0 && (bitOf nsw 0 || bitOf nsw 3) && decide (g.level < g.last)

/-- A member of a replay group has ended (R304, R305). -/
def State.memberEnd (s : State) (q status nsw : Nat) (g : Group) : State :=
  let g : Group := { g with nsw := g.nsw ||| nsw, members := g.members.set g.pos { g.members.getD g.pos ⟨0, 0, 0, false⟩ with recorded := true } }
  if status ≠ 0 then
    (s.releaseStaging g).setQueue q { s.queueSt q with group := some { g with aborted := true, staging := [], pos := g.members.length } }
  else if g.triggers status nsw then s.replay q nsw g
  else s.setQueue q { s.queueSt q with group := some { g with pos := g.pos + 1, exhausted := g.exhausted || bitOf nsw 0 || bitOf nsw 3 } }

/-- The completion record of a kernel (R297); `MEMBER` of one that triggers a replay is its place in the group. -/
def State.kernelRec (s : State) (x : Gang) (nsw : Nat) (g : Option Group) : Rec :=
  let pos := match g with
    | some g => if g.triggers 0 nsw then g.pos else 0
    | none => 0
  let y := x.stop.getD { status := 0, detail := 0, member := pos, seq := 0 }
  { status := y.status, detail := y.detail, member := y.member, nsw := nsw, info := x.kinst, faultSeq := y.seq, elapsed := s.now - x.started
    firstCore := x.members.headD 0xFF, gang := x.members.length }

/-- Every member has stopped, with its descriptors, rounds and pushes (R293). -/
def State.gangQuiet (s : State) (x : Gang) : Bool :=
  x.members.all (fun m => let c := s.core m; c.run != 1 && c.mvCnt.all (· == 0) && c.tvCnt.all (· == 0)) &&
    (x.stop.isSome || x.members.all (fun m => (s.core m).run == 2))

/-- `KERNEL_END` (R173, R293, R304, R338): rounds of a kernel that was stopped end first; once every member is quiet the regions
are released, the cores freed, the record written and `SIG_ADD` applied. -/
def execKernelEnd (g : Nat) (s : State) : Res :=
  match s.gang? g with
  | none => .next s
  | some x =>
    let s := if x.stop.isSome then s.endRounds (fun _ r => r.gang == g) else s
    if !s.gangQuiet x then .next s
    else
      let nsw := s.gangNsw x
      let s := x.members.foldl (fun s m => if s.get Fld.CORE_NER_INFO_VALID m = 1 ∧ !(s.core m).trap then s.note (s.nerNote m) else s) s
      let grp := if x.group then (s.queueSt x.queue).group else none
      let r := s.kernelRec x nsw grp
      let s := s.freeGang x
      match s.items.find? (fun i => i.queue == x.queue && i.serial == x.kinst / 256 % 2 ^ 40) with
      | none => .next s
      | some it =>
        match grp with
        | none => .next (s.complete it r).settle
        | some gr =>
          let first := !(gr.members.getD gr.pos ⟨0, 0, 0, false⟩).recorded
          let t := s.memberEnd x.queue r.status nsw gr
          let t : State := if first then t.complete it r
            else
              let t : State := { t with items := t.items.filter (fun i => i != it) }
              (if r.status = 0 then t else t.qError x.queue r.status r.detail).drained x.queue
          .next t.settle

/-! ### Synchronisation instructions (R295) -/

/-- The gang information block of core `n`. -/
def State.gangBlock (s : State) (n : Nat) : Bytes :=
  let c := s.core n
  let g := if c.test then none else s.gang? c.gang
  let members := (g.map (·.members)).getD [n]
  leBytes 8 c.kinst ++ leBytes 4 c.step ++ leBytes 1 c.member ++ leBytes 1 members.length ++
    leBytes 1 ((g.map (fun x => if x.group then x.level else 0)).getD 0) ++ leBytes 1 c.dom ++ leBytes 2 c.queue ++ zeros 6 ++
    leBytes 8 ((g.map (·.arg)).getD 0) ++ ((List.range 16).map (fun h => leBytes 4 (c.handle h).1)).flatten ++
    ((List.range 16).map (fun h => leBytes 4 (c.handle h).2)).flatten ++
    ((List.range 64).map (fun m => leBytes 1 (members.getD m 0xFF))).flatten ++ zeros 32

/-- The move and vector units are idle (R295). -/
def CoreSt.syncFenced (c : CoreSt) : Bool := c.moveIdle && c.vectorIdle

/-- The instruction is done: decode resumes. -/
def State.resumeDecode (s : State) (n : Nat) : State := s.setCore n { s.core n with cur := none, waiting := none }

/-- `GINFO` (R295). -/
def execGinfo (c : Nat) (s : State) : Res :=
  s.sequencerRow c 0x51 fun s _ d =>
    let w := s.coreWrite c 2 (iAddr32 d.word) (s.gangBlock c)
    if w.2 ≠ 0 then w.1.coreFault c (accessCode w.2 0x09) d.seq else w.1.resumeDecode c

/-- `GBAR` (R295): the core arrives once its units are idle, and goes on when every member has arrived as often. -/
def execGbar (c : Nat) (s : State) : Res :=
  s.sequencerRow c 0x52 fun s k d =>
    let b := bitsAt d.word 24 4
    let s := if k.waiting.isNone ∧ k.syncFenced then
        s.setCore c { k with waiting := some d.seq, barriers := k.barriers.set b (k.barriers.getD b 0 + 1) }
      else s
    let k := s.core c
    let members := if k.test then [c] else ((s.gang? k.gang).map (·.members)).getD [c]
    if k.waiting.isSome ∧ members.all (fun m => decide (k.barriers.getD b 0 ≤ (s.core m).barriers.getD b 0)) then s.resumeDecode c else s

/-- `SIGNAL` (R295). -/
def execSignal (c : Nat) (s : State) : Res :=
  s.sequencerRow c 0x53 fun s k d =>
    if !k.syncFenced then s
    else if s.sigOwner (sigCtr d.word) ≠ k.dom then s.coreFault c 0x09 d.seq
    else (s.sigAdd (sigCtr d.word) (sigVal d.word)).resumeDecode c

/-- `SWAIT` (R295). -/
def execSwait (c : Nat) (s : State) : Res :=
  s.sequencerRow c 0x54 fun s k d =>
    if s.sigOwner (sigCtr d.word) ≠ k.dom then s.coreFault c 0x09 d.seq
    else if s.sigReached (sigCtr d.word) (sigVal d.word) then s.resumeDecode c
    else s

/-- A QPOST to this queue is under way: the next one waits for its `TAIL`. -/
def State.posting (s : State) (q : Nat) : Bool := s.moves.any (fun e => match e.2.owner with
  | .dispatch (.post c _) => !e.2.dead && (match (s.core c).cur with
    | some d => qpostQueue d.word == q
    | none => false)
  | _ => false)

/-- `QPOST` (R282, R295, R303): the write of 64 bytes into the ring at `TAIL` starts; when it is performed the queue is rung and decode
resumes (`State.postDone`). -/
def execQpost (c : Nat) (s : State) : Res :=
  s.sequencerRow c 0x55 fun s k d =>
    let q := qpostQueue d.word
    let tail := s.get Fld.DSP_Q_PTRS_TAIL q
    if !k.syncFenced ∨ s.posting q then s
    else if s.qDom q ≠ k.dom ∨ (s.qState q ≠ 1 ∧ s.qState q ≠ 2) ∨ (tail + 1) % s.qSize q = s.get Fld.DSP_Q_PTRS_HEAD q ∨
        !(s.groupMayWrite c 0 (2 ^ 64)) then s.coreFault c 0x09 d.seq
    else
      let r := s.readMem (s.coreWho c 4) (iAddr64 d.word) 64
      if r.status ≠ 0 then r.state.coreFault c (accessCode r.status 0x09) d.seq
      else
        (r.state.dispatchAccess (.post c d.seq) k.dom (s.get Fld.DSP_Q_RING_BASE_VA q * 4096 + tail * 64) 64 (some r.bytes)).settle

/-! ### Event records (R297) -/

/-- `EVENT_RECORD_POST` (R297): the first waiting record whose queue is ENABLED with a free entry goes to that queue's completion ring,
behind the records that are being written. A write that fails puts the queue in ERROR, and the record is lost. -/
def execEventRecordPost (s : State) : Res :=
  match s.evq.find? (fun r => s.takesEvents r.queue) with
  | none => .next s
  | some r =>
    .next (({ s with evq := s.evq.erase r, records := s.records ++ [{ queue := r.queue, item := none, bytes := r.bytes, status := 0, detail := 0 }] } :
      State).pumpRecords r.queue).settle

/-! ### Domains (R300, R301) -/

/-- Set a domain's state where both pages show it (R278, R308). -/
def State.setDom (s : State) (d st : Nat) : State := (s.put Fld.DSP_DOM_CFG_STATE st 0 d).put Fld.XLT_DOM_STATE_STATE st d

/-- A domain command ends with a result. -/
def State.domResult (s : State) (busy result : Nat) : State :=
  (s.put Fld.DSP_DOM_CMD_STATUS_BUSY busy).put Fld.DSP_DOM_CMD_STATUS_RESULT result

/-! ### Ends of walks and zero writes (R264, R271) -/

/-- `WALK_COMPLETE` (R264, R269): the walk under way for this page has made its table reads, and ends. -/
def execWalkComplete (dom va cluster : Nat) (s : State) : Res :=
  onUnit "domain" 256 dom <| onUnit "requester" 9 cluster <|
    match s.walks.find? (fun w => s.walkFor w dom va && w.cls.contains cluster && w.reads.isEmpty) with
    | none => .next s
    | some w =>
      let same (v : Nat) : Bool := s.walkFor { w with vpn := v } dom va
      let r := ({ s with walks := s.walks.filter (fun x => x != w) } : State).endWalk w va
      .next ((r.1.afterWalk dom va r.2 same).detach).settle

/-- `PENDING_ZERO_WRITE_DONE` (R271): every zero write before a first write has been answered; `ok` says that each was acknowledged, and a
command that says otherwise than the answers did is no event of the frame. -/
def execPendingZeroWriteDone (frame : Nat) (ok : Bool) (s : State) : Res :=
  match s.zeroing.find? (fun z => z.frame == frame && !z.scrub && z.left == 0 && z.first.isNone && (z.status == 0) == ok) with
  | none => .next s
  | some z => .next (s.zeroDone z).settle

/-- Activation once the cadastre stands (R260, R300). -/
def State.activate (s : State) (d kind : Nat) : State :=
  let limit := s.get Fld.XLT_DOM_LIMIT_FRAMES d
  if s.get Fld.DSP_DOM_CFG_STATE 0 d ≠ 0 ∨ kind = 3 ∨ limit = 0 then s.domResult 0 2
  else if limit < 8 then s.domResult 0 1
  else match s.allocRoot d with
    | none => s.domResult 0 1
    | some t => ((t.put Fld.DSP_DOM_CFG_KIND kind 0 d).setDom d 1).domResult 0 0

/-- Test kernels of a domain that is torn down stop (R102). -/
def State.stopTests (s : State) (d : Nat) : State :=
  (List.range 64).foldl (fun s n =>
    let c := s.core n
    if c.test ∧ c.run = 1 ∧ c.dom = d then (s.haltCore n 0).testOver n c.gang else s) s

/-- Teardown steps 1 and 2 (R301, R338): queues stop, kernels end without records, rounds and stage queues end, and descriptors
make no further accesses. -/
def State.tearDown (s : State) (d : Nat) : State :=
  let s := s.setDom d 2
  let mine (q : Nat) : Bool := s.qDom q == d
  let s := s.dropAccess (fun u => match u with
    | .item q => mine q
    | .reqs q => mine q
    | .list q _ _ => mine q
    | .record q => mine q
    | .post c _ => (s.core c).dom == d)
  let s : State := { s with queues := tkeep (fun q => !mine q) s.queues, records := s.records.filter (fun r => !mine r.queue) }
  let s := (s.gangs.filter (fun g => g.dom == d)).foldl (fun s g => s.stopGang g.gid { status := 0xFF, detail := 0, member := 0, seq := 0 }) s
  let s := ((s.stopTests d).endRounds (fun ch _ => s.get Fld.TRV_CH_CFG_DOMAIN ch == d)).sqTeardown d
  let stop (s : State) (k : Nat) : State :=
    let j := s.move k
    if j.dom ≠ d then s
    else
      let held := (match j.wait with
        | .reply _ => true
        | .codes _ _ => true
        | .drain => true
        | _ => false)
      if j.status.isSome then s else if held then s.setMove k { j with dead := true } else s.endMove k 0
  let s := (((s.moves.map (·.1)).filter (· < 2048)).foldl stop s).dropWaiters
  s.domResult 1 0

/-- A `DOM_CMD` that has passed the access checks (R300). -/
def State.domCommand (s : State) (d cmd kind : Nat) : State :=
  if cmd = 0 ∨ cmd = 3 then s
  else if s.get Fld.DSP_DOM_CMD_STATUS_BUSY = 1 then s.put Fld.DSP_DOM_CMD_STATUS_RESULT 3
  else
    let s := s.put Fld.DSP_DOM_CMD_STATUS_DOMAIN d
    if cmd = 1 then (if s.cadastre then s.activate d kind else { s.domResult 1 0 with domWait := some (d, kind) })
    else if s.get Fld.DSP_DOM_CFG_STATE 0 d ≠ 1 then s.domResult 0 2
    else s.tearDown d

/-- `CADASTRE_WRITTEN` (R258, R396): an activation that waited goes on. -/
def execCadastreWritten (s : State) : Res :=
  if !s.released then .next s
  else
    let t : State := { s with cadastre := true, domWait := none }
    match s.domWait with
    | none => .next t
    | some (d, kind) => .next (t.activate d kind)

/-- `TEARDOWN_COMPLETE` (R301): steps 3-6, once kernels and descriptors have ended. -/
def execTeardownComplete (d : Nat) (s : State) : Res :=
  onUnit "domain" 256 d <|
    if !s.domDying d ∨ s.gangs.any (fun g => g.dom == d) ∨ s.moves.any (fun e => e.2.dom == d) then .next s
    else
      let qs := ((s.regs.map (·.1)).filter (fun k => k / 2 ^ 32 == 8 && decide (2 ^ 14 ≤ k % 2 ^ 32))).map (fun k => k / 2 ^ 14 % 2 ^ 18 - 1)
      let mine := qs.eraseDups.filter (fun q => s.qDom q == d)
      let s : State := { s with items := s.items.filter (fun i => s.qDom i.queue != d) }
      let s := (List.range 72).foldl (fun s u => s.releaseWhere u (fun t u g => t.granDomain u g == d)) s
      let s := s.freeDomain d
      let s := ((List.range 1024).filter (fun c => s.sigOwner c == d)).foldl (fun s c => s.put Fld.DSP_SIG_VALUE 0 0 c) s
      let s := mine.foldl (fun s q => s.put Fld.DSP_Q_STATE_STATE 0 q) (s.setDom d 0)
      let s := (s.domResult 0 0).event Fld.DSP_PAGE_EVENT_DOM_DOWN
      .next (s.waitEvent { queue := s.get Fld.DSP_EVENT_QUEUE_QUEUE, status := 0x42, detail := d, member := 0, info := 0, station := s.station })

end Sys2Proof.Machine
end

