-- ==== Sys2Proof/Machine/Links.lean ====
section
/-! DEFINITION. Link modules (R345-R382): states, training, feature exchange and the closure check; routes and their groups;
flits with CRC, replay and credits; packets as bytes; protocol violations; and how a request of this die ends. -/

namespace Sys2Proof.Machine

/-! ### Packets as bytes (R362, R363) -/

/-- The bytes of a packet's extension. -/
def extBytes (p : Packet) : Bytes :=
  let st := leBytes 8 p.station
  let ad := leBytes 8 p.addr
  if p.typ = 0x01 ∨ p.typ = 0x02 ∨ p.typ = 0x20 then ad
  else if 0x30 ≤ p.typ ∧ p.typ ≤ 0x35 then
    st ++ leBytes 1 p.chain ++ leBytes 1 (p.op % 16 + 16 * p.rop) ++ leBytes 1 (p.dt % 8 + 8 * (p.phase % 2)) ++ leBytes 1 0 ++ leBytes 4 p.epoch ++
      leBytes 4 p.count ++ leBytes 2 (p.shard % 4096) ++ leBytes 2 0 ++ leBytes 4 p.shardLen ++ leBytes 4 p.elemOff
  else if 0x40 ≤ p.typ ∧ p.typ ≤ 0x44 then leBytes 1 (p.sq % 64) ++ leBytes 3 0 ++ leBytes 4 p.push ++ leBytes 4 p.total ++ leBytes 4 0
  else if p.typ = 0x50 ∨ p.typ = 0x53 then st ++ ad
  else if 0x51 ≤ p.typ ∧ p.typ ≤ 0x58 then st
  else []

/-- Header, extension and payload before rounding (R359). -/
def rawPacket (p : Packet) : Bytes :=
  leBytes 1 p.typ ++ leBytes 1 (p.vc % 8 + 8 * (p.hop % 8)) ++ leBytes 2 (p.data.length % 8192) ++ leBytes 2 (p.dest % 4096 + 4096 * (p.dkind % 8)) ++
    leBytes 2 (p.src % 4096 + 4096 * (p.skind % 8)) ++ leBytes 1 p.dom ++ leBytes 3 p.tag ++ leBytes 4 p.arg ++ extBytes p ++ p.data

/-- A packet as it stands in the flit stream (R359). -/
def packetBytes (p : Packet) : Bytes := fit (rawPacket p) (ceilDiv (rawPacket p).length 4 * 4)

/-- Extension bytes of a type (R364). -/
def extSize (t : Nat) : Nat :=
  if t = 0x01 ∨ t = 0x02 ∨ t = 0x20 then 8 else if 0x30 ≤ t ∧ t ≤ 0x35 then 32 else if 0x40 ≤ t ∧ t ≤ 0x44 then 16
  else if t = 0x50 ∨ t = 0x53 then 16 else if 0x51 ≤ t ∧ t ≤ 0x58 then 8 else 0

/-- The `ARG` bits that a type uses (R364). -/
def argMask (t : Nat) : Nat :=
  match t with
  | 0x01 => 2 ^ 9 - 1
  | 0x12 => 0xFF
  | 0x30 => 2 ^ 32 - 1
  | 0x31 => 2 ^ 32 - 1
  | 0x32 => 2 ^ 32 - 1
  | 0x33 => 0xFFFF
  | 0x34 => 0xFF
  | 0x40 => 2 ^ 32 - 1
  | 0x41 => 2 ^ 32 - 1
  | 0x42 => 2 ^ 24 - 1
  | 0x43 => 2 ^ 32 - 1
  | 0x44 => 0xFF
  | 0x50 => 0xF
  | 0x51 => 0xFF
  | 0x53 => 1
  | 0x54 => 0xFF
  | 0x55 => 0xF
  | 0x56 => 2 ^ 32 - 1
  | 0x58 => 0xFF
  | _ => 0

/-- `LEN` is in the type's range (R364). -/
def lenOk (t n : Nat) : Bool :=
  match t with
  | 0x02 => decide (1 ≤ n) && decide (n ≤ 255)
  | 0x10 => decide (1 ≤ n) && decide (n ≤ 256)
  | 0x20 => n == 256
  | 0x30 => decide (1 ≤ n) && decide (n ≤ 4096)
  | 0x31 => decide (1 ≤ n) && decide (n ≤ 4096)
  | 0x40 => decide (1 ≤ n) && decide (n ≤ 4096)
  | 0x50 => n == 0 || n == 4 || n == 8
  | 0x51 => n == 0 || n == 4 || n == 8
  | 0x52 => n == 16
  | 0x55 => decide (1 ≤ n) && decide (n ≤ 256)
  | 0x56 => decide (1 ≤ n) && decide (n ≤ 256)
  | 0x57 => n == 64
  | _ => n == 0

/-- Read a packet whose bytes are all at hand: `LEN` says how much payload follows (R362, R363). -/
def readPacket (b : Bytes) : Packet :=
  let w (o n : Nat) := leAt b o n
  let t := w 0 1
  let e := 16 + extSize t
  let coll := 0x30 ≤ t ∧ t ≤ 0x35
  let stage := 0x40 ≤ t ∧ t ≤ 0x44
  let hasAddr := t = 0x01 ∨ t = 0x02 ∨ t = 0x20 ∨ t = 0x50 ∨ t = 0x53
  let ao := if t = 0x50 ∨ t = 0x53 then 24 else 16
  let st := coll ∨ (0x50 ≤ t ∧ t ≤ 0x58)
  let dkind := bitsAt (w 4 2) 12 3
  let top := if dkind = 1 then 40 else 32
  { typ := t, vc := w 1 1 % 8, hop := w 1 1 / 8 % 8, len := w 2 2 % 8192, dest := w 4 2 % 4096, dkind := dkind, src := w 6 2 % 4096
    skind := bitsAt (w 6 2) 12 3, dom := w 8 1, tag := w 9 3, arg := w 12 4
    rsv := decide (w 1 1 / 64 ≠ 0 ∨ w 2 2 / 8192 ≠ 0 ∨ w 4 2 / 32768 ≠ 0 ∨ w 6 2 / 32768 ≠ 0 ∨ w 12 4 &&& (2 ^ 32 - 1 - argMask t) ≠ 0 ∨
      (hasAddr ∧ w ao 8 / 2 ^ top ≠ 0) ∨ (coll ∧ (w 26 1 / 16 ≠ 0 ∨ w 27 1 ≠ 0 ∨ w 36 2 / 4096 ≠ 0 ∨ w 38 2 ≠ 0)) ∨
      (stage ∧ (w 16 1 / 64 ≠ 0 ∨ w 17 3 ≠ 0 ∨ w 28 4 ≠ 0)))
    addr := if hasAddr then w ao 8 % 2 ^ top else 0
    station := if st then w 16 8 else 0
    chain := if coll then w 24 1 else 0, op := if coll then w 25 1 % 16 else 0, rop := if coll then w 25 1 / 16 else 0
    dt := if coll then w 26 1 % 8 else 0, phase := if coll then w 26 1 / 8 % 2 else 0, epoch := if coll then w 28 4 else 0
    count := if coll then w 32 4 else 0, shard := if coll then w 36 2 % 4096 else 0, shardLen := if coll then w 40 4 else 0
    elemOff := if coll then w 44 4 else 0, sq := if stage then w 16 1 % 64 else 0, push := if stage then w 20 4 else 0
    total := if stage then w 24 4 else 0, data := sub b e (w 2 2 % 8192) }

/-- A packet with every field within its width (R362, R363). -/
def Packet.norm (p : Packet) : Packet :=
  { readPacket (rawPacket p) with rsv := p.rsv || (readPacket (rawPacket p)).rsv }

/-! ### Lane sets (R347) -/

/-- The lanes of set `i` of width code `w`. -/
def laneSet (w i : Nat) : Nat := let n := if w = 0 then 16 else if w = 1 then 8 else 4; (2 ^ n - 1) * 2 ^ (n * i)

/-- The widest legal lane set within a map that is no wider than code `lo`, lowest-numbered first (R347, R351): (width, set). -/
def widest (map lo : Nat) (x4 : Bool) : Option (Nat × Nat) :=
  let all : List (Nat × Nat) := [(0, 0), (1, 0), (1, 1)] ++ (if x4 then [(2, 0), (2, 1), (2, 2), (2, 3)] else [])
  all.find? (fun e => decide (lo ≤ e.1) && decide (map &&& laneSet e.1 e.2 = laneSet e.1 e.2))

/-! ### Routes (R370-R373) -/

/-- The modules of entry `e` in its two groups that can ever be used (R388). -/
def State.groupUp (s : State) (e : Nat) (alt : Bool) : Bool :=
  s.anyUsable (if alt then s.get Fld.RTE_RT_ALT_MASK e else s.get Fld.RTE_RT_PRI_MASK e)

/-- The packets queued on any module for an entry whose group changes wait with the others that this die sends there (R373). A boot link's
packets have no route. -/
def State.pullEntry (s : State) (e : Nat) : State :=
  let mine (x : ModSt) (q : Queued) : Bool := !x.boot && s.routeEntry q.pkt.dest q.pkt.dkind == e
  let back := ((List.range 40).map (fun m => ((s.mod m).queue.filter (mine (s.mod m))).map (fun q =>
    ({ entry := e, key := q.key, pkt := q.pkt } : Waiting)))).flatten
  let s := (List.range 40).foldl (fun t m => t.setMod m { t.mod m with queue := (t.mod m).queue.filter (fun q => !mine (t.mod m) q) }) s
  { s with waiting := back ++ s.waiting }

/-- One entry after modules came up or went down: the group in use follows R372; a change holds its packets (R373). -/
def State.routeCheck (s : State) (e : Nat) : State :=
  if s.get Fld.RTE_RT_CTL_VALID e = 0 then s
  else
    let pri := s.groupUp e false
    let up := pri || s.groupUp e true
    let was := s.get Fld.RTE_RT_CTL_ALT_ACTIVE e
    let now := if pri then 0 else if up then 1 else was
    let s := if up = s.routeUp.contains e then s
      else if up then { s with routeUp := s.routeUp ++ [e] }
      else (({ s with routeUp := s.routeUp.filter (· != e) } : State).put Fld.RTE_RTE_LAST_ENTRY e).event Fld.RTE_PAGE_EVENT_PATH_DOWN 0 e
    if now = was then s
    else
      let s := ((s.put Fld.RTE_RT_CTL_ALT_ACTIVE now e).bump Fld.RTE_RT_SWITCHES_COUNT 1 e).put Fld.RTE_RT_CTL_HOLDING 1 e
      let s : State := ({ s with holds := s.holds.filter (fun h => h.1 != e) ++ [(e, s.now)] } : State).pullEntry e
      if now = 1 then (s.put Fld.RTE_RTE_LAST_ENTRY e).event Fld.RTE_PAGE_EVENT_ALT_IN_USE 0 e else s

/-- End the request with a tag, with a status and the bytes of a read (R253, R364, R374): its requester goes on. The
loader, which asks for the image again, has nothing else to do with a timeout. -/
def State.endRequest (s : State) (tag st : Nat) (data : Bytes) : State :=
  match s.reqs.find? (fun r => r.tag == tag) with
  | none => s
  | some r =>
    let s : State := { s with reqs := s.reqs.filter (fun x => x.tag != tag) }
    match r.owner with
    | .move k => (s.moveReply k tag st data).settle
    | .frameCode k => s.moveCode k st
    | .image _ => s
    | .stage q => s.sqFail q 6
    | .walk dom vpn => s.walkReply dom vpn tag st
    | .zero f => s.zeroReply f st
    | .debug => { s with maAccess := s.maAccess.map (fun m => if m.tag = some tag then { m with reply := some (st, data) } else m) }

/-- A message of this die's round that finds no usable module ends that round with "path down" (R336). -/
def State.roundPath (s : State) (p : Packet) : State :=
  match (s.chain p.chain).round with
  | some r => if r.started && s.chEpoch p.chain == p.epoch then s.failRound p.chain 5 else s
  | none => s

/-- A packet that finds no usable module (R29, R366): an easement packet is dropped and counted, and as a request of this die ends in its
timeout (R374); another request of this die ends with "path down", and so does a round whose segment, grant or acknowledgement it is; a
packet of another die is answered so. -/
def State.noPath (s : State) (p : Packet) : State :=
  if p.vc = 5 then { s.markSent [p] with pathDrops := s.pathDrops + 1 }
  else if p.src = s.sysId ∧ p.skind = 0 then
    (if p.vc = 0 ∨ p.vc = 2 then s.endRequest p.tag stPathDown [] else if 0x30 ≤ p.typ ∧ p.typ ≤ 0x33 then s.roundPath p else s)
  else s.send { pktOf 0x12 with dest := p.src, dkind := p.skind, dom := p.dom, tag := p.tag, arg := stPathDown }

/-- Waiting packets whose entry has no usable module and does not hold are handled as R29 says. -/
def State.dropDead (s : State) : State :=
  let dead (w : Waiting) : Bool := (s.routeModule w.entry w.key).isNone && s.get Fld.RTE_RT_CTL_HOLDING w.entry == 0
  (s.waiting.filter dead).foldl (fun t w => t.noPath w.pkt) { s with waiting := s.waiting.filter (fun w => !dead w) }

/-- Modules changed: the groups of every entry follow (R370-R373). -/
def State.routesCheck (s : State) : State := (List.range 64).foldl (fun t e => t.routeCheck e) s

/-- The groups have followed: waiting packets and stage queues do too (R29, R374). -/
def State.routesSettle (s : State) : State := s.dropDead.flushWaiting.sqPaths

/-- Modules changed: groups, waiting packets and stage queues follow (R370-R374). -/
def State.routesChanged (s : State) : State := s.routesCheck.routesSettle

/-- `ROUTE_HOLD_END` (R373). -/
def execRouteHoldEnd (entry : Nat) (s : State) : Res :=
  onUnit "route entry" 64 entry <|
    match s.holds.find? (fun h => h.1 == entry) with
    | none => .next s
    | some h =>
      if s.now < h.2 + s.reqTimeout then .next s
      else .next ((({ s with holds := s.holds.filter (fun x => x.1 != entry) } : State).put Fld.RTE_RT_CTL_HOLDING 0 entry).routesChanged)

/-- `REQUEST_TIMEOUT` (R374): a request that was sent long enough ago ends with "timeout", the end of a stage queue with cause 0x06. -/
def execRequestTimeout (tag : Nat) (s : State) : Res :=
  match s.reqs.find? (fun r => r.tag == tag) with
  | none => .next s
  | some r =>
    if r.due.all (fun d => decide (s.now < d)) then .next s
    else .next (({ s with lateTags := s.lateTags ++ [tag] } : State).endRequest tag stTimeout [])

/-! ### CRC (R358) -/

/-- One bit of the CRC-64, most significant bit first. -/
def crc64Bit (c : Nat) (b : Bool) : Nat :=
  let top := (decide (2 ^ 63 ≤ c)) != b
  let c := c * 2 % 2 ^ 64
  if top then Nat.xor c 0x42F0E1EBA9EA3693 else c

/-- The CRC-64 of bytes, initial value all ones. -/
def crc64 (b : Bytes) : Nat :=
  b.foldl (fun c x => (List.range 8).foldl (fun c i => crc64Bit c (bitOf x.toNat (7 - i))) c) (2 ^ 64 - 1)

/-! ### The fields of a flit (R358) -/

/-- Sequence numbers modulo 4,096. -/
def seqMod : Nat := 4096

/-- Up to three credit returns of 16 bits, and the credits still to return (R358). -/
def takeReturns (x : ModSt) : ModSt × Bytes :=
  let l := (x.retCred.take 3).map (fun e => (e.1, min e.2 1023))
  let y := l.foldl (fun y e => { y with retCred := tset (fun _ => 0) e.1 (tget (fun _ => 0) e.1 y.retCred - e.2) y.retCred
                                        rxHeld := tset (fun _ => 0) e.1 (tget (fun _ => 0) e.1 y.rxHeld - e.2) y.rxHeld }) x
  (y, ((l.map (fun e => leBytes 2 (e.1 / 8 + 8 * (e.1 % 8) + 64 * e.2))) ++ List.replicate (3 - l.length) (leBytes 2 7)).flatten)

/-- The bytes of a flit (R358): sequence number or NULL, acknowledgement, credit returns, `FIRST`, payload and CRC. -/
def flitBytes (x : ModSt) (seq : Option Nat) (cred : Bytes) (first : Nat) (payload : Bytes) : Bytes :=
  let w := (seq.getD 0) % seqMod + 4096 * ((x.rxSeq + seqMod - 1) % seqMod) + (if x.rxAny then 2 ^ 24 else 0) + (if x.nakOwed then 2 ^ 25 else 0) + (if seq.isNone then 2 ^ 26 else 0)
  let b := leBytes 4 w ++ cred ++ leBytes 2 first ++ fit payload 236
  b ++ leBytes 8 (crc64 b)

/-! ### Module states (R348, R349, R361, R376) -/

/-- The link record of R439. -/
def State.linkNote (s : State) (m ev code : Nat) : Note :=
  { kind := 6, tail := []
    body := leBytes 1 ev ++ leBytes 1 m ++ leBytes 1 code ++ leBytes 1 0 ++ leBytes 2 (s.get Fld.LNK_MOD_LANES_OWN_MAP m) ++
      leBytes 2 (s.get Fld.LNK_MOD_LANES_PEER_MAP m) ++ leBytes 1 (s.get Fld.LNK_MOD_STATE_RATE m) ++ leBytes 1 (s.get Fld.LNK_MOD_STATE_WIDTH m) }

/-- A block event of a module, with `LNK_LAST`. -/
def State.lnkEvent (s : State) (f : Fld) (m : Nat) : State := (s.put Fld.LNK_LNK_LAST_MODULE m).event f 0 m

/-- Set a module's state and when it entered it (a held module counts from RETRAIN); `LNK_UP` follows (R378). -/
def State.setModState (s : State) (m st : Nat) : State :=
  let up := s.get Fld.LNK_LNK_UP_ACTIVE
  let s := s.put Fld.LNK_LNK_UP_ACTIVE (if st = 6 then up ||| 2 ^ m else up - (if bitOf up m then 2 ^ m else 0))
  let x := s.mod m
  (s.put Fld.LNK_MOD_STATE_STATE st m).setMod m { x with entered := if x.held ∧ (st = 4 ∨ st = 5) then x.entered else s.now }

/-- Packets that wait in a module's queues go back, ahead of newer ones (R373). -/
def State.requeue (s : State) (m : Nat) : State :=
  let x := s.mod m
  let back := x.queue.map (fun q => ({ entry := s.routeEntry q.pkt.dest q.pkt.dkind, key := q.key, pkt := q.pkt } : Waiting))
  { s.setMod m { x with queue := [] } with waiting := back ++ s.waiting }

/-- The flits that carry the rest of a packet that is being packed (R377): they join the replay buffer, unsent. -/
def ModSt.finishPacking : Nat → ModSt → ModSt
  | 0, x => x
  | fuel + 1, x =>
    if x.stream.isEmpty then x
    else
      let n := min x.stream.length 236
      let y := { x with stream := x.stream.drop n, txSeq := (x.txSeq + 1) % seqMod
                        replay := x.replay ++ [{ seq := x.txSeq, bytes := flitBytes x (some x.txSeq) (takeReturns { x with retCred := [] }).2 0x3F (x.stream.take n), resent := 0
                                                 sent := false, bulk := x.packing.any (fun u => u.pkt.vc != 5) }] }
      ModSt.finishPacking fuel (if n = x.stream.length then { y with unacked := y.unacked ++ y.packing.map (fun u => { u with seq := x.txSeq }), packing := [] } else y)

/-- Discard every unacknowledged flit (R361): the streams of both directions begin anew. Says also whether any was lost; the partner of
a boot link has not received a chunk that was (R396). -/
def State.dropFlits (s : State) (m : Nat) : State × Bool :=
  let x := ModSt.finishPacking 20 (s.mod m)
  let n := x.replay.length
  let chunk := x.unacked.any (fun u => u.pkt.typ == 0x56)
  let t := s.setMod m { x with replay := [], resend := none, unacked := [], packing := [], stream := [], txSeq := 0, txDone := 0, rxSeq := 0, rxSkip := false
                               rxBuf := [], rxHeld := [], retCred := [], nakOwed := false, nakSent := false, ackOwed := 0, lastTx := [], rxAny := false
                               askedChunk := if chunk then x.askedChunk.map (fun a => (0, a.2)) else x.askedChunk }
  if n = 0 then (t, false) else (t.bump Fld.PTR_PT_LOST_COUNT n m, true)

/-- Flits of module `m` were lost (R381). -/
def State.flitsLost (s : State) (m : Nat) : State := (s.put Fld.PTR_PTR_LAST_MODULE m).event Fld.PTR_PAGE_EVENT_FLITS_LOST 0 m

/-- Discard every unacknowledged flit, and say so (R361, R381). -/
def State.loseFlits (s : State) (m : Nat) : State := if (s.dropFlits m).2 then (s.dropFlits m).1.flitsLost m else (s.dropFlits m).1

/-- A module is in a state that is not ACTIVE, its queue goes back, and it holds nothing. -/
def State.stepOut (s : State) (m st : Nat) : State :=
  let s := (s.setModState m st).setMod m { ModSt.finishPacking 20 ((s.setModState m st).mod m) with held := false }
  s.requeue m

/-- A module stops being usable, with its flits kept: its queue and the routes follow. -/
def State.leaveActive (s : State) (m st : Nat) : State := (s.stepOut m st).routesChanged

/-- Modules leave for states, each given with its own, and lose their flits. `ev` raises the events of the LNK page; those of the RTE and
PTR pages follow it in ascending page (R441). What waits on the routes is the caller's (`routesSettle`). -/
def State.leaveAll (s : State) (l : List (Nat × Nat)) (ev : State → State) : State :=
  let r := l.foldl (fun (a : State × List Nat) e =>
    let x := a.1.dropFlits e.1
    (x.1.stepOut e.1 e.2, if x.2 then a.2 ++ [e.1] else a.2)) (s, [])
  r.2.foldl State.flitsLost (ev r.1).routesCheck

/-- A module is DOWN for a cause, and the events of the LNK page say so (R349, R379). -/
def State.fallen (s : State) (m cause : Nat) : State :=
  let s := s.put Fld.LNK_MOD_STATE_DOWN_CAUSE cause m
  let s := if cause = 1 ∨ cause = 2 then s.lnkEvent Fld.LNK_PAGE_EVENT_PARTNER_MISMATCH m else s
  s.lnkEvent Fld.LNK_PAGE_EVENT_MOD_DOWN m

/-- Modules enter DOWN with a cause; the link records follow the page events (R349, R441), and the routes' consequences come last. `rec`
writes what records there are beside them. -/
def State.modsDown (s : State) (l : List Nat) (cause : Nat) (rec : State → State := id) : State :=
  let t := s.leaveAll (l.map (·, 8)) (fun t => l.foldl (fun t m => t.fallen m cause) t)
  (rec (l.foldl (fun t m => t.note (t.linkNote m 0 cause)) t)).routesSettle

/-- Enter DOWN with a cause (R349). -/
def State.modDown (s : State) (m cause : Nat) : State := s.modsDown [m] cause

/-- A die-fatal error holds module `m` down: its role is not hub (R437). DEDUCED (log entry 97): the die leaves that state only at a reset,
so that the module does not train before one. -/
def State.shutDown (s : State) (m : Nat) : Bool := s.fatal && s.get Fld.LNK_MOD_CFG_MOD_ROLE m != 3

/-- Enter SBINIT; the replay buffer is kept until EXCHANGE (R361). -/
def State.modSbinit (s : State) (m : Nat) : State :=
  if s.shutDown m then s
  else
  let s := (s.put Fld.LNK_MOD_STATE_DOWN_CAUSE 0 m).leaveActive m 2
  s.setMod m { s.mod m with malformed := false, mismatch := 0 }

/-- Enter QUARANTINE (R376). -/
def State.quarantine (s : State) (m : Nat) : State :=
  let t := s.leaveAll [(m, 9)] (fun t => t.lnkEvent Fld.LNK_PAGE_EVENT_QUARANTINE m)
  (t.note (t.linkNote m 2 (t.get Fld.LNK_MOD_VIOL_LAST_CODE m))).routesSettle

/-- Count a protocol violation (R375). -/
def State.countViolation (s : State) (m code : Nat) : State :=
  let s := (s.bump Fld.LNK_MOD_VIOL_COUNT 1 m).put Fld.LNK_MOD_VIOL_LAST_CODE code m
  let w := s.get Fld.LNK_LNK_QUAR_VIOL_WINDOW
  let x := s.mod m
  let l := (x.violTimes.filter (fun t => decide (s.now < t + (if w = 0 then 1 else w) * 100000))) ++ [s.now]
  s.setMod m { x with violTimes := l }

/-- A module whose violations within the window have just reached the limit enters QUARANTINE (R376). -/
def State.quarCheck (s : State) (m : Nat) : State :=
  let limit := s.get Fld.LNK_LNK_QUAR_VIOL_LIMIT
  let st := s.modState m
  if limit ≠ 0 ∧ limit ≤ (s.mod m).violTimes.length ∧ st ≠ 0 ∧ st ≠ 8 ∧ st ≠ 9 then s.quarantine m else s

/-- The violations that have been counted on a module since the state `s` may lead to quarantine (R376). -/
def State.quarSince (t s : State) (m : Nat) : State := if (t.mod m).violTimes = (s.mod m).violTimes then t else t.quarCheck m

/-- A protocol violation: it is counted, and may lead to quarantine (R375, R376). -/
def State.violation (s : State) (m code : Nat) : State := (s.countViolation m code).quarCheck m

/-! ### Training (R351, R352, R361, R392) -/

/-- The feature `i` is in use (R354). -/
def State.common (s : State) (m i : Nat) : Bool := bitOf (s.get Fld.LNK_MOD_FEAT_COMMON m) i

/-- The rates that both sides allow, highest first (R351); a boot link trains at 16 GT/s (R392). -/
def State.rateList (s : State) (m : Nat) : List Nat :=
  if (s.mod m).boot then [0]
  else
    let lim := min (s.get Fld.LNK_MOD_CFG_MAX_RATE m) (s.mod m).peerRate
    ((if s.common m 0 then [4, 3, 2, 1, 0] else [2, 1, 0])).filter (fun r => decide (r ≤ lim))

/-- Those of a list of rates that the `RATE_CAP` in force allows: a COMMIT during training holds from the next attempt (R377). -/
def State.capped (s : State) (m : Nat) (l : List Nat) : List Nat :=
  if (s.mod m).boot then l else l.filter (fun r => decide (r ≤ s.get Fld.LNK_MOD_TUNE_RATE_CAP m))

/-- Enter MBTRAIN with the rates at or below `top`; none left is DOWN with cause 4. -/
def State.mbtrain (s : State) (m top : Nat) : State :=
  let s := s.setModState m 4
  let l := (s.rateList m).filter (fun r => decide (r ≤ top))
  if (s.capped m l).isEmpty then s.modDown m 4 else s.setMod m { s.mod m with rates := l }

/-- Enter RETRAIN from ACTIVE (R361); with sideband and buffers kept, the rate list starts at the current rate. -/
def State.enterRetrain (s : State) (m : Nat) : State :=
  if s.modState m ≠ 6 then s
  else
    let s := s.setModState m 7
    let top := s.get Fld.LNK_MOD_STATE_RATE m
    let s := s.setMod m { s.mod m with held := true, rates := (s.rateList m).filter (fun r => decide (r ≤ top)) }
    (s.bump Fld.LNK_MOD_RETRAINS_COUNT 1 m).lnkEvent Fld.LNK_PAGE_EVENT_MOD_RETRAIN m

/-- Enter ACTIVE at a rate on a lane set (R351, R361, R378): sending resumes from the last acknowledged flit. -/
def State.modActive (s : State) (m rate width set : Nat) : State :=
  let s := ((s.put Fld.LNK_MOD_STATE_RATE rate m).put Fld.LNK_MOD_STATE_WIDTH width m).put Fld.LNK_MOD_STATE_SET set m
  let s := s.setModState m 6
  let x := s.mod m
  let s := s.setMod m { x with held := false, mismatch := 0, malformed := false, resend := (x.replay.head?).map (·.seq) }
  let s := if width ≠ 0 ∨ rate < s.get Fld.LNK_MOD_CFG_MAX_RATE m then s.lnkEvent Fld.LNK_PAGE_EVENT_WIDTH_DEGRADED m else s
  s.routesChanged

/-- The record under exchange was malformed (R375, code 0x0E): the exchange repeats once, then DOWN with cause 9. The time of a held
module runs on from RETRAIN (R350). -/
def State.badRecord (s : State) (m : Nat) : State :=
  let again := (s.mod m).malformed
  let s := s.setMod m { s.mod m with malformed := true, entered := if (s.mod m).held then (s.mod m).entered else s.now }
  let s := s.violation m 0xE
  if again ∧ s.modState m ≠ 9 then s.modDown m 9 else s

/-- `SBINIT_RETRY` (R348): without an answer the module stays in SBINIT and tries again 1 ms later. -/
def execSbinitRetry (m : Nat) (s : State) : Res :=
  onUnit "module" 40 m <| if s.modState m = 2 then .next (s.setModState m 2) else .next s

/-- This die's PT level (R353): 2.0 on B0, 2.1 on C0. -/
def ownLevel : Nat := if Config.stepping = 0xB0 then 0x20 else 0x21

/-- The credits that the die advertises for each class of a virtual channel (R365). -/
def ownCredits (vc : Nat) : Nat := [32, 64, 64, 72, 72, 8].getD vc 0

/-- The features that this die offers (R354): the extension rates and x4, and on C0 the batched grants. -/
def ownFeatures : Nat := if Config.stepping = 0xB0 then 3 else 11

/-- The feature record that this die sends on module `m` (R353). -/
def State.ownRecord (s : State) (m : Nat) : Bytes :=
  leBytes 1 0 ++ leBytes 1 0 ++ leBytes 2 s.sysId ++ leBytes 1 ownLevel ++ leBytes 1 Config.stepping ++ leBytes 1 1 ++
    leBytes 1 (s.get Fld.LNK_MOD_CFG_MAX_RATE m) ++ leBytes 2 (s.get Fld.BOOT_BOOT_RESETS_RESET_COUNT) ++ leBytes 2 ownFeatures ++
    leBytes 8 (((List.range 6).map (fun v => ownCredits v * 2 ^ (10 * v))).sum) ++ leBytes 8 s.bootNonce ++ zeros 36

/-- What module `m` sends on its sideband. -/
def State.sendSideband (s : State) (m : Nat) (x : Sideband) : State := s.setMod m { s.mod m with sideband := some x }

/-- A quarantined module answers whatever its partner sends on the sideband with "quarantined", and does nothing else (R348). -/
def State.sidebandIn (s : State) (m : Nat) (r : State → Res) : Res :=
  if s.modState m = 9 then .next (s.sendSideband m .quarantined) else r s

/-- `SBINIT_DONE` (R348): the module enters EXCHANGE and sends its feature record (R353). -/
def execSbinitDone (m : Nat) (s : State) : Res :=
  onUnit "module" 40 m <|
    if s.modState m = 2 then .next ((s.setModState m 3).sendSideband m (.feature (BitVec.ofNat 512 (leVal (s.ownRecord m))))) else .next s

/-- Byte field of a feature record (R353). -/
def recAt (r : BitVec 512) (off n : Nat) : Nat := bitsAt r.toNat (off * 8) (n * 8)

/-- A feature record whose codes are reserved or whose zero fields are not 0. -/
def badFeature (r : BitVec 512) : Bool :=
  decide (1 < recAt r 0 1) || decide (3 < recAt r 1 1) || decide (4096 ≤ recAt r 2 2) || decide (4 < recAt r 7 1) || decide (2 ^ 60 ≤ recAt r 12 8) ||
    decide (recAt r 28 36 ≠ 0)

/-- The least credits per class that a partner must advertise for a VC (R365). -/
def minCredits (v : Nat) : Nat := if v = 3 ∨ v = 4 then 65 else 5

/-- The features in use with a partner (R354, R355): the extension rates and x4 only between Lanibry dies (R346). -/
def commonFeatures (vendor level feats : Nat) : Nat :=
  let ext := decide (0x20 ≤ level) && vendor == 0
  (if ext && bitOf feats 0 then 1 else 0) + (if ext && bitOf feats 1 then 2 else 0) + (if bitOf feats 2 then 4 else 0) +
    (if decide (0x21 ≤ level) && bitOf feats 3 then 8 else 0)

/-- The partner's record is taken in (R353-R356): registers, level, features, credits, and whether the replay buffer survives. -/
def State.takeFeature (s : State) (m : Nat) (r : BitVec 512) : State :=
  let x := s.mod m
  let level := if recAt r 4 1 < 0x20 then 0x10 else min ownLevel (recAt r 4 1)
  let same := recAt r 8 2 == s.get Fld.LNK_MOD_FEAT_PEER_RESETS m && recAt r 20 8 == x.peerNonce && recAt r 20 8 != 0
  let s := ((s.put Fld.LNK_MOD_PEER_KIND (recAt r 1 1) m).put Fld.LNK_MOD_PEER_VENDOR (recAt r 0 1) m).put Fld.LNK_MOD_PEER_IDENT (recAt r 2 2) m
  let s := ((s.put Fld.LNK_MOD_PEER_STEPPING (recAt r 5 1) m).put Fld.LNK_MOD_PEER_GEN (recAt r 6 1) m).put Fld.LNK_MOD_FEAT_PEER_RESETS (recAt r 8 2) m
  let s := (s.put Fld.LNK_MOD_FEAT_COMMON (commonFeatures (recAt r 0 1) level (recAt r 10 2)) m).put Fld.LNK_MOD_STATE_LEVEL level m
  let s := if same then s else s.loseFlits m
  let adv := (List.range 6).map (fun v => bitsAt (recAt r 12 8) (10 * v) 10)
  let y := s.mod m
  s.setMod m { y with peerRate := recAt r 7 1, peerNonce := recAt r 20 8, advert := adv, malformed := false
                      txCred := if same then y.txCred else
                        (List.range 48).foldl (fun t i => tset (fun _ => 0) i (adv.getD (i / 8) 0) t) [] }

/-- Module `m` may train (R397): on a die in FAILED only a boot link may. -/
def State.mayTrain (s : State) (m : Nat) : Bool := s.get Fld.BOOT_BOOT_STATE_PHASE != 0xF || (s.mod m).boot

/-- `FEATURE_RECORD` (R356, R392, R397): before the roles hold, a hub or Etzotal die trains as a boot link and any other partner stops
after EXCHANGE; afterwards the checks run in order. -/
def execFeatureRecord (m : Nat) (r : BitVec 512) (s : State) : Res :=
  onUnit "module" 40 m <| s.sidebandIn m fun s =>
    if s.modState m ≠ 3 then .next s
    else if badFeature r then .next (s.badRecord m)
    else
      let t := s.takeFeature m r
      if !s.mayTrain m then .next t
      else if !s.roled then
        if recAt r 1 1 = 2 ∨ recAt r 1 1 = 0 then .next ((t.setMod m { t.mod m with boot := true }).mbtrain m 4) else .next t
      else
        let t := t.setMod m { t.mod m with boot := false }
        let kind := s.get Fld.LNK_MOD_CFG_PARTNER_KIND m
        if recAt r 1 1 ≠ kind ∨ (recAt r 1 1 = 0 ∧ recAt r 0 1 ≠ 0) then .next (t.modDown m 1)
        else if recAt r 2 2 ≠ s.get Fld.LNK_MOD_CFG_PARTNER_ID m then .next (t.modDown m 2)
        else if recAt r 4 1 < 0x10 then .next (t.modDown m 8)
        else if (List.range 6).any (fun v => decide (bitsAt (recAt r 12 8) (10 * v) 10 < minCredits v)) then .next (t.modDown m 7)
        else
          let t := if s.get Fld.LNK_MOD_CFG_MOD_ROLE m = 2 ∧ recAt r 6 1 ≠ 1 then t.lnkEvent Fld.LNK_PAGE_EVENT_GEN_MIXED m else t
          .next (t.mbtrain m 4)

/-- `EXCHANGE_TIMEOUT` (R350): 50 µs without a record counts as a malformed one. A module that stopped after EXCHANGE (R392) has its
record. -/
def execExchangeTimeout (m : Nat) (s : State) : Res :=
  onUnit "module" 40 m <|
    if s.modState m = 3 ∧ (s.mod m).entered + 5000 ≤ s.now ∧ (s.roled ∨ (s.mod m).advert = []) then .next (s.badRecord m) else .next s

/-- `RATE_ATTEMPT` (R351): lanes that the plat marks never pass; when both sides qualify CLOSURE follows, with the die's closure record
(R352), else both step down. A module in RETRAIN goes through MBTRAIN (R348). -/
def execRateAttempt (m ownMap : Nat) (peerOk : Bool) (s : State) : Res :=
  onUnit "module" 40 m <|
    let s := if s.modState m = 7 then s.setModState m 4 else s
    let x := s.mod m
    match (if s.modState m = 4 ∧ s.mayTrain m then s.capped m x.rates else []) with
    | [] => .next (if s.modState m = 4 ∧ s.mayTrain m ∧ !x.rates.isEmpty then s.modDown m 4 else s)
    | r :: rest =>
      let bad := tget (fun _ => 0) m s.laneBad
      let map := ownMap % 65536 &&& (65535 - bad)
      let t := s.put Fld.LNK_MOD_LANES_OWN_MAP map m
      let min := if x.boot then 1 else s.get Fld.LNK_MOD_CFG_MIN_WIDTH m
      match (widest map 0 (s.common m 1 && !x.boot)).filter (fun w => peerOk && decide (w.1 ≤ min)) with
      | some w =>
        let u := (t.setModState m 5).setMod m { (t.setModState m 5).mod m with propRate := r, propWidth := w.1, propSet := w.2 }
        .next (u.sendSideband m (.closure map r w.1 w.2 min (s.get Fld.BOOT_BOOT_RESETS_RESET_COUNT)))
      | none =>
        if rest.isEmpty then .next (t.modDown m 4)
        else .next ((t.setModState m 4).setMod m { (t.setModState m 4).mod m with rates := rest, entered := x.entered })

/-- The settlement of the third consecutive mismatch (R352): rate, width and set, if any. -/
def settle (ownMap peerMap ownW peerW ownR peerR ownMin peerMin : Nat) (x4 : Bool) : Option (Nat × Nat × Nat) :=
  ((widest (ownMap &&& peerMap) (max ownW peerW) x4).filter (fun w => decide (w.1 ≤ ownMin) && decide (w.1 ≤ peerMin))).map
    (fun w => (min ownR peerR, w.1, w.2))

/-- `CLOSURE_RECORD` (R352). -/
def execClosureRecord (m peerMap peerRate peerWidth peerSet peerMin peerResets : Nat) (s : State) : Res :=
  onUnit "module" 40 m <| s.sidebandIn m fun s =>
    if s.modState m ≠ 5 then .next s
    else if 4 < peerRate ∨ 2 < peerWidth ∨ 2 < peerMin ∨ 2 ^ peerWidth ≤ peerSet ∨ 65536 ≤ peerMap ∨ 65536 ≤ peerResets then .next (s.badRecord m)
    else
      let x := s.mod m
      let t := s.put Fld.LNK_MOD_LANES_PEER_MAP peerMap m
      if x.propRate = peerRate ∧ x.propWidth = peerWidth ∧ x.propSet = peerSet then .next (t.modActive m peerRate peerWidth peerSet)
      else
        let t := t.bump Fld.LNK_MOD_CLOSURE_MISMATCHES 1 m
        if x.mismatch + 1 < 3 then .next ((t.setMod m { t.mod m with mismatch := x.mismatch + 1 }).mbtrain m x.propRate)
        else
          let t := t.setMod m { t.mod m with mismatch := 0 }
          let own := if x.boot then 1 else s.get Fld.LNK_MOD_CFG_MIN_WIDTH m
          match settle (s.get Fld.LNK_MOD_LANES_OWN_MAP m) peerMap x.propWidth peerWidth x.propRate peerRate own peerMin (s.common m 1 && !x.boot) with
          | none => .next (t.modDown m 5)
          | some (r, w, i) =>
            let t := (t.bump Fld.LNK_MOD_CLOSURE_SETTLES 1 m).modActive m r w i
            .next ((t.lnkEvent Fld.LNK_PAGE_EVENT_CLOSURE_SETTLED m).note (t.linkNote m 1 0))

/-- `PARTNER_RETRAIN_REQUEST` (R361). -/
def execPartnerRetrainRequest (m : Nat) (s : State) : Res :=
  onUnit "module" 40 m <| s.sidebandIn m fun s => .next (s.enterRetrain m)

/-- `RETRAIN_TIMEOUT` (R348, R349): 1 ms after RETRAIN began the module is not ACTIVE yet. -/
def execRetrainTimeout (m : Nat) (s : State) : Res :=
  onUnit "module" 40 m <|
    let x := s.mod m
    if x.held ∧ (s.modState m = 7 ∨ s.modState m = 4 ∨ s.modState m = 5) ∧ x.entered + 100000 ≤ s.now then .next (s.modDown m 6) else .next s

/-- `SIDEBAND_LOSS` (R348, R377). -/
def execSidebandLoss (m : Nat) (s : State) : Res :=
  onUnit "module" 40 m <|
    let st := s.modState m
    if 3 ≤ st ∧ st ≤ 7 then .next (s.modSbinit m) else .next s

/-- The causes of DOWN that a partner's sideband restart or `RETRAIN` ends (R349). -/
def mayRestart (cause : Nat) (byPartner : Bool) : Bool := decide (4 ≤ cause) && decide (cause ≤ 9) || (cause == 10 && !byPartner)

/-- `PARTNER_SIDEBAND_RESTART` (R349). -/
def execPartnerSidebandRestart (m : Nat) (s : State) : Res :=
  onUnit "module" 40 m <| s.sidebandIn m fun s =>
    let st := s.modState m
    if st = 8 ∧ mayRestart (s.get Fld.LNK_MOD_STATE_DOWN_CAUSE m) true then .next (s.modSbinit m)
    else if 3 ≤ st ∧ st ≤ 7 then .next (s.modSbinit m)
    else .next s

/-- A write to `MOD_CTL` (R377, R379): `TAKE_DOWN` wins over the others; a command that does not fit the state is ignored. A module
that is OFF, or DOWN until die reset, stays so, and a quarantined one leaves only with `UNQUARANTINE` (R376), to DOWN where `TAKE_DOWN`
comes with it. -/
def State.modControl (s : State) (m v : Nat) : State :=
  let st := s.modState m
  let cause := s.get Fld.LNK_MOD_STATE_DOWN_CAUSE m
  if bitOf v 2 then (if st = 0 ∨ (st = 9 ∧ !bitOf v 1) ∨ (st = 8 ∧ 1 ≤ cause ∧ cause ≤ 3) then s else s.modDown m 10)
  else
    let s := if bitOf v 1 ∧ st = 9 then s.modSbinit m else s
    if bitOf v 0 then
      if st = 6 then s.enterRetrain m
      else if st = 2 ∨ (st = 8 ∧ mayRestart cause false) then s.modSbinit m
      else s
    else s

/-! ### Sending flits (R358-R361, R365, R368) -/

/-- The credits that a packet needs (R365). -/
def creditsOf (p : Packet) : Nat := ceilDiv (16 + extSize p.typ + p.data.length) 64

/-- The key of a credit: VC and class. -/
def credKey (p : Packet) : Nat := p.vc % 8 * 8 + p.hop % 8

/-- The first packet of a VC and class that holds its credits, as its place in the queue. -/
def ModSt.ready (x : ModSt) (vc : Nat) : Option Nat :=
  (List.range x.queue.length).find? (fun i => match x.queue[i]? with
    | none => false
    | some q => q.pkt.vc == vc && decide (creditsOf q.pkt ≤ tget (fun _ => 0) (credKey q.pkt) x.txCred) &&
        !((x.queue.take i).any (fun r => credKey r.pkt == credKey q.pkt)))

/-- The VC that sends next (R368): easement first, then round-robin over 0-4 in a slot that takes their traffic (R418, R420). -/
def ModSt.nextVc (x : ModSt) (bulk : Bool) : Option Nat :=
  if (x.ready 5).isSome then some 5
  else if bulk then (((List.range 5).map (fun i => (x.rr + 1 + i) % 5))).find? (fun v => (x.ready v).isSome)
  else none

/-- A packet leaves (R43, R44): a collective or easement packet that this die originates takes the next station number. -/
def stampPacket (st : Nat) (p : Packet) : Nat × Packet :=
  if (p.vc = 3 ∨ p.vc = 5) ∧ p.hop = 0 then (min (st + 1) stationMax, { p with station := min (st + 1) stationMax }) else (st, p)

/-- Start sending the next packet, if any may go: its bytes join the stream and its credits are spent. `st` is the die's station number. -/
def ModSt.startPacket (x : ModSt) (bulk : Bool) (st : Nat) : Option (ModSt × Nat) :=
  match x.nextVc bulk with
  | none => none
  | some v => (x.ready v).bind (fun i => (x.queue[i]?).map (fun q =>
      let p := (stampPacket st q.pkt).2
      ({ x with queue := x.queue.take i ++ x.queue.drop (i + 1), stream := packetBytes p, packing := [{ pkt := p, key := q.key, seq := 0 }]
                rr := if v = 5 then x.rr else v
                txCred := tset (fun _ => 0) (credKey p) (tget (fun _ => 0) (credKey p) x.txCred - creditsOf p) x.txCred }, (stampPacket st q.pkt).1)))

/-- The packet being sent may go on in this slot (R418, R420). -/
def ModSt.mayGoOn (x : ModSt) (bulk : Bool) : Bool := bulk || x.packing.all (fun u => u.pkt.vc == 5)

/-- A flit as it is filled: the module, the die's station number, the payload so far, the offset in words of the first packet that
starts in it, the packets that start in it, and whether it carries traffic of VCs 0-4. -/
structure Packed where
  mod : ModSt
  station : Nat
  bytes : Bytes
  first : Option Nat
  starts : List Packet
  bulk : Bool

/-- Fill a flit's payload. -/
def packFlit (bulk : Bool) : Nat → Packed → Packed
  | 0, a => a
  | fuel + 1, a =>
    let x := a.mod
    if 236 ≤ a.bytes.length then a
    else if x.stream.isEmpty then
      match x.startPacket bulk a.station with
      | none => a
      | some y => packFlit bulk fuel { a with mod := y.1, station := y.2, first := a.first.orElse (fun _ => some (a.bytes.length / 4)),
                                                   starts := a.starts ++ y.1.packing.map (·.pkt) }
    else if !x.mayGoOn bulk then a
    else
      let n := min x.stream.length (236 - a.bytes.length)
      let y := { x with stream := x.stream.drop n }
      let y := if n = x.stream.length then { y with unacked := y.unacked ++ y.packing.map (fun u => { u with seq := y.txSeq }), packing := [] } else y
      packFlit bulk fuel { a with mod := y, bytes := a.bytes ++ x.stream.take n, bulk := a.bulk || x.packing.any (fun u => u.pkt.vc != 5) }

/-- One flit more has been sent since the stream began, counted up to half of the sequence numbers. -/
def sentMore (n : Nat) : Nat := min (n + 1) (seqMod / 2)

/-- Send one flit of module `m`: one to resend, else the next of the packet stream, else a NULL flit. Each carries the
acknowledgement and returns credits; a flit sent again keeps the credit returns of its lost copy, which the partner discarded whole
(R360). `LINK_FRAC` of 16 slots take traffic of VCs 0-4, first sent or resent (R418). Says also whether the flit has now been resent
`REPLAY_LIMIT` times (R361). -/
def State.sendFlit (s : State) (m : Nat) : State × Bool :=
  let bulk := decide ((s.mod m).slot < s.get Fld.PWR_PWR_STATUS_LINK_FRAC)
  let x := { s.mod m with slot := ((s.mod m).slot + 1) % 16 }
  let done (x : ModSt) (b : Bytes) : ModSt := { x with lastTx := b, ackOwed := 0, nakOwed := false }
  let c := takeReturns x
  let again := x.resend.bind (fun q => x.replay.find? (fun f => f.seq == q))
  match again with
  | some f =>
    if f.bulk && !bulk then (s.setMod m (done c.1 (flitBytes c.1 none c.2 0x3F [])), false)
    else
    let b := flitBytes x (some f.seq) (sub f.bytes 4 6) (leAt f.bytes 10 2) (sub f.bytes 12 236)
    let later := (x.replay.dropWhile (fun g => g.seq != f.seq)).tail
    let y := { x with resend := later.head?.map (·.seq), replay := x.replay.map (fun g => if g.seq = f.seq then { g with resent := if g.sent then g.resent + 1 else 0, sent := true } else g)
                      txDone := if f.sent then x.txDone else sentMore x.txDone }
    let s := s.setMod m (done y b)
    let lim := s.get Fld.LNK_MOD_TUNE_REPLAY_LIMIT m
    if f.sent then (s.bump Fld.PTR_PT_REPLAYS_COUNT 1 m, (if lim = 0 then 4 else lim) == f.resent + 1)
    else (s.count Fld.PTR_PT_TX_FLITS_COUNT 1 m, false)
  | none =>
    let a : Packed := { mod := c.1, station := s.station, bytes := [], first := none, starts := [], bulk := false }
    let p := if x.replay.length < 64 then packFlit bulk 64 a else a
    if p.bytes.isEmpty then (s.setMod m (done c.1 (flitBytes c.1 none c.2 0x3F [])), false)
    else
      let y := p.mod
      let s : State := ({ s with station := p.station } : State).markSent p.starts
      let b := flitBytes y (some y.txSeq) c.2 (p.first.getD 0x3F) p.bytes
      let y := { y with replay := y.replay ++ [{ seq := y.txSeq, bytes := b, resent := 0, sent := true, bulk := p.bulk }]
                        txSeq := (y.txSeq + 1) % seqMod, txDone := sentMore y.txDone }
      ((s.setMod m (done y b)).count Fld.PTR_PT_TX_FLITS_COUNT 1 m, false)

/-- A flit that has been resent `REPLAY_LIMIT` times leads to RETRAIN (R361). -/
def State.limitHit (s : State) (m : Nat) : State :=
  ((s.put Fld.PTR_PTR_LAST_MODULE m).event Fld.PTR_PAGE_EVENT_REPLAY_LIMIT_HIT 0 m).enterRetrain m

/-- Send one flit of module `m` alone. -/
def State.txFlit (s : State) (m : Nat) : State :=
  let r := s.sendFlit m
  if r.2 then r.1.limitHit m else r.1

/-- `ACK_DUE` (R360): a flit that carries the acknowledgement is sent; a NULL flit where nothing else may go. -/
def execAckDue (m : Nat) (s : State) : Res :=
  onUnit "module" 40 m <| if s.modState m = 6 ∧ 0 < (s.mod m).ackOwed then .next (s.txFlit m) else .next s

/-! ### Receiving flits (R358-R361, R375) -/

/-- The flit `q` has been sent (R375, code 0x09): it is one of the last `txDone` before the next to be sent. With no valid `ACK`, a NAK of
the first flit names the one before the stream. -/
def ModSt.sentSeq (x : ModSt) (q : Nat) (valid : Bool) : Bool :=
  let next := ((x.replay.find? (fun f => !f.sent)).map (·.seq)).getD x.txSeq
  let back := (next + 2 * seqMod - 1 - q) % seqMod
  decide (back < x.txDone) || (!valid && back == x.txDone)

/-- An acknowledgement of `q` frees the flits up to it (R360). -/
def ModSt.acked (x : ModSt) (q : Nat) : ModSt :=
  if !x.replay.any (fun f => f.seq == q) then x
  else
    let n := (x.replay.takeWhile (fun f => f.seq != q)).length + 1
    let gone := (x.replay.take n).map (·.seq)
    { x with replay := x.replay.drop n, unacked := x.unacked.filter (fun u => !gone.contains u.seq)
             resend := x.resend.filter (fun r => !gone.contains r) }

/-- Apply `ACK`, `NAK` and the credit returns of a flit with a good CRC; its violations count (R375). -/
def State.flitControl (s : State) (m : Nat) (b : Bytes) : State :=
  let w := leAt b 0 4
  let ack := bitsAt w 12 12
  let x := s.mod m
  let s := if bitOf w 24 || bitOf w 25 then
      (if !x.sentSeq ack (bitOf w 24) then s.countViolation m 9
       else
        let y := x.acked ack
        s.setMod m (if bitOf w 25 then { y with resend := y.replay.head?.map (·.seq) } else y))
    else s
  let s := (List.range 3).foldl (fun s i =>
    let c := leAt b (4 + 2 * i) 2
    let vc := c % 8
    if 6 ≤ vc then s
    else
      let x := s.mod m
      let k := vc * 8 + bitsAt c 3 3
      let have_ := tget (fun _ => 0) k x.txCred + bitsAt c 6 10
      let adv := x.advert.getD vc 0
      let s := s.setMod m { x with txCred := tset (fun _ => 0) k (min have_ adv) x.txCred }
      if adv < have_ then s.countViolation m 0xA else s) s
  if bitsAt w 27 5 ≠ 0 ∨ bitsAt (leAt b 10 2) 6 10 ≠ 0 ∨ (List.range 3).any (fun i => leAt b (4 + 2 * i) 2 % 8 == 6) then s.countViolation m 0xB else s

/-- A bad CRC (R360, R361): each is an error with a NAK of its own, a resent flit's too (log entry 89), and RETRAIN when errors within 1 ms
reach `CRC_THRESH`. -/
def State.badCrc (s : State) (m : Nat) : State :=
  let x := s.mod m
  let l := x.crcTimes.filter (fun t => decide (s.now < t + 100000)) ++ [s.now]
  let s := (s.setMod m { x with crcTimes := l, nakOwed := true, nakSent := true }).bump Fld.PTR_PT_CRC_ERR_COUNT 1 m
  let lim := s.get Fld.LNK_MOD_TUNE_CRC_THRESH m
  if lim ≠ 0 ∧ lim ≤ l.length then
    let s := s.setMod m { s.mod m with crcTimes := [] }
    ((s.put Fld.PTR_PTR_LAST_MODULE m).event Fld.PTR_PAGE_EVENT_CRC_THRESH_HIT 0 m).enterRetrain m
  else s

/-- `LEN` fits the type and, for a CREQ, its direction (R364): 0 for a read, 4 or 8 for a write. -/
def lenFits (t n arg : Nat) : Bool := lenOk t n && (t != 0x50 || (bitOf arg 0 == (n != 0)))

/-- Cut packets off a run of stream bytes: the packets, the rest, and the violation that ends the stream, if any (R359, R375). A
zero type where a packet would start is padding to the end of the flit. -/
def cutPackets : Nat → Bytes → List Packet → List Packet × Bytes × Option Nat
  | 0, b, l => (l, b, none)
  | fuel + 1, b, l =>
    if b.isEmpty then (l, [], none)
    else
      let t := leAt b 0 1
      if t = 0 then (l, [], none)
      else if vcOf t = 6 then (l, [], some 1)
      else if b.length < 16 then (l, b, none)
      else
        let n := leAt b 2 2 % 8192
        if !lenFits t n (leAt b 12 4) then (l, [], some 3)
        else
          let size := ceilDiv (16 + extSize t + n) 4 * 4
          if b.length < size then (l, b, none) else cutPackets fuel (b.drop size) (l ++ [readPacket (b.take size)])

/-- A flit reaches an ACTIVE module (R358-R361): the state after its control part, and the packets that it completes. A flit with a bad
CRC or an unexpected `SEQ` is discarded whole; after an acknowledgement, packets that waited for one may go on (R373). The violations that
it shows are counted; their quarantine is the caller's (R44). -/
def State.flitIn (s : State) (m : Nat) (b : Bytes) : State × List Packet :=
  if crc64 (sub b 0 248) ≠ leAt b 248 8 then (s.badCrc m, [])
  else
    let w := leAt b 0 4
    let x := s.mod m
    if !bitOf w 26 ∧ w % 4096 ≠ x.rxSeq then (s.setMod m { x with nakOwed := x.nakOwed || !x.nakSent, nakSent := true }, [])
    else
      let s := (s.flitControl m b).flushWaiting
      if bitOf w 26 ∨ s.modState m ≠ 6 then (s, [])
      else
        let first := leAt b 10 2 % 64
        let x := s.mod m
        let x := { x with rxSeq := (x.rxSeq + 1) % seqMod, nakSent := false, ackOwed := x.ackOwed + 1, rxAny := true }
        let s := s.count Fld.PTR_PT_RX_FLITS_COUNT 1 m
        let pay := sub b 12 236
        if x.rxSkip ∧ first = 0x3F then (s.setMod m { x with rxBuf := [] }, [])
        else
          let stream := if x.rxSkip then pay.drop (first * 4) else x.rxBuf ++ pay
          let c := cutPackets 64 stream []
          let s := s.setMod m { x with rxSkip := c.2.2.isSome, rxBuf := c.2.1 }
          (match c.2.2 with
            | some v => s.countViolation m v
            | none => s, c.1)

end Sys2Proof.Machine
end

