-- ==== Sys2Proof/Machine/Surveyor.lean ====
section
/-! DEFINITION. The field notes' read pointer, die-fatal errors, the surveyor core with its mailboxes, load level, hardware
mirror and watchdog (R437-R446), measured boot, quotes and the debug lock (R447-R452). -/

namespace Sys2Proof.Machine

/-! ### The field notes and die-fatal errors (R437, R438) -/

/-- A write to `FN_RPTR` (R438): a value beyond `FN_WPTR` applies `FN_WPTR`. -/
def State.readNotes (s : State) (v : Nat) : State :=
  let rp := s.get Fld.ERR_FN_RPTR_COUNT
  let wp := s.get Fld.ERR_FN_WPTR_COUNT
  s.put Fld.ERR_FN_RPTR_COUNT (if (wp + 2 ^ 32 - rp) % 2 ^ 32 < (v + 2 ^ 32 - rp) % 2 ^ 32 then wp else v)

/-- `DIE_FATAL` (R437): issue stops, every module but a hub's goes DOWN with cause 10, and the die says so; it serves easement
on its hub modules and answers other requests there with "path down". -/
def execDieFatal (unit : Nat) (s : State) : Res :=
  if unit = 0 ∨ 6 < unit ∨ s.fatal then .next s
  else
    let s := (List.range 64).foldl (fun t c => if (t.core c).run = 1 then t.haltCore c 3 else t) s
    let s : State := { s with gangs := [], touched := [] }
    let s := (s.put Fld.ERR_ERR_FATAL_FATAL 1).put Fld.ERR_ERR_FATAL_UNIT unit
    let s := s.event Fld.ERR_PAGE_EVENT_DIE_FATAL
    let down := (List.range 40).filter (fun m => s.get Fld.LNK_MOD_CFG_MOD_ROLE m != 3 && s.modState m != 0)
    .next (s.modsDown down 10 fun t => t.note { kind := 0xA, body := leBytes 1 unit, tail := [] })

/-! ### Mailboxes (R443) -/

/-- The surveyor core's posts are refused busy: halted, or at level 2 for mailboxes 0-14 (R444, R446). -/
def State.mbClosed (s : State) (i : Nat) : Bool :=
  s.get Fld.MBX_SVY_STATE_STATE == 2 || (s.get Fld.MBX_SVY_STATE_LEVEL == 2 && i != 15)

/-- The accessor owns the mailbox (R443). -/
def State.mbOwns (s : State) (a : Acc) (i : Nat) : Bool :=
  s.get Fld.MBX_MB_STATE_STATE i != 0 && s.get Fld.MBX_MB_STATE_OWNER i == clsCode a.cls &&
    (a.cls != .host || s.get Fld.MBX_MB_STATE_DOMAIN i == a.dom % 256)

/-- The accessor becomes the owner. -/
def State.mbOwnBy (s : State) (a : Acc) (i : Nat) : State :=
  (s.put Fld.MBX_MB_STATE_OWNER (clsCode a.cls) i).put Fld.MBX_MB_STATE_DOMAIN (if a.cls = .host then a.dom else 0) i

/-- A post that is refused: busy, or for protection on mailbox 15 (R443). -/
def State.mbRefused (s : State) (i code : Nat) : State :=
  let s := s.put Fld.MBX_MB_STATE_LAST_POST code i
  if code = 2 then s.event Fld.MBX_PAGE_EVENT_MB_BUSY 0 i else s

/-- A post that is accepted: the request is POSTED (R443). -/
def State.mbAccept (s : State) (a : Acc) (i len : Nat) : State :=
  let s := ((s.mbOwnBy a i).put Fld.MBX_MB_STATE_STATE 2 i).put Fld.MBX_MB_STATE_REQ_LEN len i
  (s.put Fld.MBX_MB_STATE_LAST_POST 1 i).event Fld.MBX_PAGE_EVENT_MB_POSTED 0 i

/-- A window `POST` of `len` bytes (R443). DESIGN CHOICE (log entry 90): a post that would be accepted, with a length outside the 1-256
of R457, posts nothing. -/
def State.mbPost (s : State) (a : Acc) (i len : Nat) : State :=
  if i = 15 ∧ a.cls ≠ .dbg then (s.mbRefused i 3).refuse 7
  else
    let st := s.get Fld.MBX_MB_STATE_STATE i
    let free := st == 0 || ((st == 1 || st == 4) && s.mbOwns a i)
    if s.mbClosed i ∨ !free then (s.mbRefused i 2).done 0 0
    else if len = 0 ∨ 256 < len then s.done 0 0
    else (s.mbAccept a i len).done 0 0

/-- An MSG to a mailbox (R443): its code as a MACK carries it (R364): 0 accepted, 1 busy, 2 protection. -/
def State.mbMessage (s : State) (a : Acc) (i : Nat) (data : Bytes) : State × Nat :=
  if i = 15 then (s.mbRefused i 3, 2)
  else
    let st := s.get Fld.MBX_MB_STATE_STATE i
    if s.mbClosed i ∨ !(st == 0 || (st == 4 && s.mbOwns a i)) then (s.mbRefused i 2, 1)
    else ((s.putBytes Fld.MBX_MB_REQ i 0 (fit data (ceilDiv data.length 4 * 4))).mbAccept a i data.length, 0)

/-- A write of one word of `MB_REQ` (R443): none where the write is to be made as any other, after the mailbox changed. -/
def State.mbFill (s : State) (a : Acc) (i w v : Nat) : State :=
  let st := s.get Fld.MBX_MB_STATE_STATE i
  let store (s : State) := (s.put Fld.MBX_MB_REQ v i w).done 0 0
  if i = 15 ∧ a.cls ≠ .dbg then s.refuse 7
  else if st = 0 then store ((s.mbOwnBy a i).put Fld.MBX_MB_STATE_STATE 1 i)
  else if !s.mbOwns a i then s.refuse 7
  else if st = 1 then store s
  else if st = 4 then store (s.put Fld.MBX_MB_STATE_STATE 1 i)
  else s.done 0 0

/-- A write of one word of `MB_RSP`: the local surveyor core's, in TAKEN (R457). -/
def State.mbReplyWord (s : State) (a : Acc) (i w v : Nat) : State :=
  if a.loc ∧ s.get Fld.MBX_MB_STATE_STATE i = 3 then (s.put Fld.MBX_MB_RSP v i w).done 0 0 else s.refuse 7

/-- `RELEASE` (R443): the owner empties its mailbox. -/
def State.mbRelease (s : State) (a : Acc) (i : Nat) : State :=
  if s.mbOwns a i then
    (((s.put Fld.MBX_MB_STATE_STATE 0 i).put Fld.MBX_MB_STATE_OWNER 0 i).put Fld.MBX_MB_STATE_DOMAIN 0 i).done 0 0
  else s.refuse 7

/-- `TAKE` (R443). -/
def State.mbTake (s : State) (a : Acc) (i : Nat) : State :=
  if !a.loc then s.refuse 7
  else if s.get Fld.MBX_MB_STATE_STATE i = 2 then (s.put Fld.MBX_MB_STATE_STATE 3 i).done 0 0
  else s.done 0 0

/-- A mailbox gets a reply of `len` bytes with a status. -/
def State.mbReplied (s : State) (i len status : Nat) : State :=
  ((s.put Fld.MBX_MB_STATE_STATE 4 i).put Fld.MBX_MB_RSP_INFO_RSP_LEN len i).put Fld.MBX_MB_RSP_INFO_RSP_STATUS status i

/-- `REPLY` (R443). -/
def State.mbReply (s : State) (a : Acc) (i len : Nat) : State :=
  if !a.loc then s.refuse 7
  else if s.get Fld.MBX_MB_STATE_STATE i = 3 then (s.mbReplied i (min len 256) 0).done 0 0
  else s.done 0 0

/-- A write to `MB_CTL` (R457): the lowest bit that is set acts. -/
def State.mbControl (s : State) (a : Acc) (i v : Nat) : State :=
  if bitOf v 0 then s.mbPost a i (bitsAt v 16 9)
  else if bitOf v 1 then s.mbRelease a i
  else if bitOf v 2 then s.mbTake a i
  else if bitOf v 3 then s.mbReply a i (bitsAt v 16 9)
  else s.done 0 0

/-! ### Load, mirror and watchdog (R444-R446) -/

/-- The surveyor record of R439. -/
def State.svyNote (s : State) (ev level : Nat) : Note :=
  { kind := 8, tail := [], body := leBytes 1 ev ++ leBytes 1 level ++ zeros 2 ++ leBytes 4 (s.get Fld.MBX_SVY_RESTARTS_COUNT) }

/-- The level of a load (R444). -/
def loadLevel (percent : Nat) : Nat := if percent < 75 then 0 else if percent < 90 then 1 else 2

/-- `LOAD_WINDOW`: the load of the last 10 ms (R444). A surveyor core that does not run has none. -/
def execLoadWindow (percent : Nat) (s : State) : Res :=
  if s.get Fld.MBX_SVY_STATE_STATE ≠ 0 ∨ 100 < percent then .next s
  else
    let s := s.put Fld.MBX_SVY_STATE_LOAD percent
    let l := loadLevel percent
    if l = s.get Fld.MBX_SVY_STATE_LEVEL then .next s
    else
      let s := s.put Fld.MBX_SVY_STATE_LEVEL l
      .next ((s.event Fld.MBX_PAGE_EVENT_LOAD_LEVEL).note (s.svyNote 3 l))

/-- Bit n: logical core n is a hole (R457). -/
def State.holes (s : State) : Nat := (List.range 8).foldl (fun h c => h + s.get Fld.CL_CL_STATUS_HOLES c * 2 ^ (8 * c)) 0

/-- `MIRROR_SNAPSHOT` (R445). -/
def execMirrorSnapshot (s : State) : Res :=
  let n := s.get Fld.MBX_MIR_SEQ0_SEQ + 1
  let w (page off : Nat) : Nat := (s.word (regKey page 0 off)).toNat
  let copies := [w 1 0x100, w 4 0x110, w 4 0x114, w 4 0x118, w 5 0x110, w 5 0x104, w 7 0x100]
  let t := (s.put Fld.MBX_MIR_SEQ0_SEQ n).put Fld.MBX_MIR_SEQ1_SEQ n
  let t := (List.range 7).foldl (fun t i => t.put Fld.MBX_Mirror_VALUE (copies.getD i 0) 0 i) t
  .next ((t.put Fld.MBX_MIR_LNK_UP_VALUE (s.get Fld.LNK_LNK_UP_ACTIVE)).put Fld.MBX_MIR_HOLES_VALUE s.holes)

/-- A write to `WDT_KICK` (R446, R457). -/
def State.kick (s : State) (a : Acc) (v : Nat) : State :=
  if !a.loc then s.refuse 7
  else if v % 256 = 0xA5 then ({ s with kickedAt := s.now } : State).done 0 0
  else s.done 0 0

/-- Every POSTED or TAKEN mailbox becomes REPLIED with a status and no bytes (R446). -/
def State.mbAbandon (s : State) (status : Nat) : State :=
  (List.range 16).foldl (fun t i =>
    if t.get Fld.MBX_MB_STATE_STATE i = 2 ∨ t.get Fld.MBX_MB_STATE_STATE i = 3 then t.mbReplied i 0 status else t) s

/-- The surveyor core halts until a reset (R446); `rec` writes the record of the error that led to it, whose kind is lower (R441). -/
def State.svyHalt (s : State) (rec : State → State := id) : State :=
  let s := (s.put Fld.MBX_SVY_STATE_STATE 2).mbAbandon 2
  (rec (s.event Fld.MBX_PAGE_EVENT_SVY_HALT)).note (s.svyNote 2 (s.get Fld.MBX_SVY_STATE_LEVEL))

/-- The firmware is restarted for a cause; a third time within 1 s halts the core instead (R446). -/
def State.svyRestart (s : State) (cause : Nat) (rec : State → State := id) : State :=
  let near := s.svyTimes.filter (fun t => decide (s.now < t + 100000000))
  if 2 ≤ near.length then s.svyHalt rec
  else
    let s := rec s
    let s := (s.put Fld.MBX_SVY_STATE_STATE 1).mbAbandon 1
    { s with svyTimes := near ++ [s.now], svyCause := cause, irq := [], svyMem := tkeep (fun k => decide (k < s.svyCode)) s.svyMem
             ecc := tkeep (fun k => !(decide (eccSurveyor (s.svyCode / 8) ≤ k) && decide (k < eccSurveyor (2 ^ 18)))) s.ecc }

/-- `WATCHDOG_EXPIRY`: 100 ms without a kick (R446). -/
def execWatchdogExpiry (s : State) : Res :=
  if s.get Fld.MBX_SVY_STATE_STATE = 0 ∧ s.kickedAt + 10000000 ≤ s.now then .next (s.svyRestart 0) else .next s

/-- `SURVEYOR_MEMORY_ERROR`: an uncorrectable error in private memory (R436, R446). A word in which State holds one flipped bit is
corrected and recorded instead (R435). -/
def execSurveyorMemoryError (addr : Nat) (s : State) : Res :=
  onUnit "surveyor memory" 0x200000 addr <|
    if s.get Fld.MBX_SVY_STATE_STATE ≠ 0 then .next s
    else if s.flips (eccSurveyor (addr / 8)) = 1 then .next ((s.setFlips (eccSurveyor (addr / 8)) 0).noteCe (Who.self 0 8) 4 0 0 addr)
    else
      let rec_ (t : State) : State := t.note (memNote (Who.self 0 8) t.sysId 4 1 0 addr)
      let t := s.event Fld.ERR_PAGE_EVENT_UE_SEEN
      .next (if addr < t.svyCode then t.svyHalt rec_ else t.svyRestart 1 rec_)

/-- The pages of the map (R68), ascending. -/
def allPages : List Nat := (List.range 0x103).filter populated

/-- Some group of a page holds set-and-enabled bits and names the surveyor core (R65). -/
def State.wantsIrq (s : State) (page : Nat) : Bool :=
  (s.activeBits page false != 0 && bitOf (s.groupDest page false) 1) || (s.activeBits page true != 0 && bitOf (s.groupDest page true) 1)

/-- `SURVEYOR_RESTART_END`: the core runs again (R446, steps 3 and 4). -/
def execSurveyorRestartEnd (s : State) : Res :=
  if s.get Fld.MBX_SVY_STATE_STATE ≠ 1 then .next s
  else
    let s : State := { (s.put Fld.MBX_SVY_STATE_STATE 0).bump Fld.MBX_SVY_RESTARTS_COUNT with kickedAt := s.now }
    let s := (s.event Fld.MBX_PAGE_EVENT_SVY_RESTART).note (s.svyNote s.svyCause (s.get Fld.MBX_SVY_STATE_LEVEL))
    .next (allPages.foldl (fun t p => if t.wantsIrq p then t.raiseIrq p else t) s)

/-! ### Measured boot and quotes (R447, R448) -/

/-- Measurement register `i`. -/
def State.meas (s : State) (i : Nat) : Bytes := s.getBytes Fld.SEC_MEAS 0 (12 * i) 12

/-- Set measurement register `i` to 48 bytes. -/
def State.setMeas (s : State) (i : Nat) (b : Bytes) : State := s.putBytes Fld.SEC_MEAS 0 (12 * i) (fit b 48)

/-- Extend measurement register `i` (R447). -/
def State.extend (s : State) (i : Nat) (d : Bytes) : State := s.setMeas i (sha384 (s.meas i ++ d))

/-- A write to `MEAS_CTL` (R447, R456). -/
def State.measControl (s : State) (a : Acc) (v : Nat) : State :=
  if !bitOf v 3 then s.done 0 0
  else if !a.loc then s.refuse 6
  else if v % 8 < 4 then s.done 0 0
  else (s.extend (v % 8) (s.getBytes Fld.SEC_MEAS_DATA 0 0 12)).done 0 0

/-- Bytes 0-23 of a quote (R448). -/
def State.quoteHead (s : State) : Bytes :=
  leBytes 2 1 ++ leBytes 2 576 ++ leBytes 8 (s.get Fld.BOOT_BOOT_SERIAL_SERIAL) ++ leBytes 2 s.sysId ++ leBytes 1 Config.stepping ++ leBytes 1 1 ++
    leBytes 4 (s.get Fld.BOOT_BOOT_IMG_VER_VER) ++ leBytes 1 s.keySlot ++
    leBytes 1 (s.get Fld.SEC_SEC_STATE_DBG_MODE + 4 * s.get Fld.SEC_SEC_STATE_UNLOCKED) ++ leBytes 2 (s.get Fld.BOOT_BOOT_RESETS_RESET_COUNT)

/-- The security record of R439. -/
def secNote (ev code : Nat) : Note := { kind := 9, tail := [], body := leBytes 1 ev ++ leBytes 1 code }

/-- A write to `QUOTE_CTL` (R448): the quote's contents are those of this moment. -/
def State.quoteControl (s : State) (a : Acc) (v : Nat) : State :=
  if !bitOf v 0 then s.done 0 0
  else if a.cls ≠ .mp ∧ a.cls ≠ .dbg then s.refuse 6
  else if s.get Fld.SEC_SEC_STATE_QUOTE_BUSY = 1 then (s.event Fld.SEC_PAGE_EVENT_QUOTE_REFUSED).done 0 0
  else
    let d := s.quoteHead ++ zeros 40 ++ s.getBytes Fld.SEC_QUOTE_NONCE 0 0 8 ++ ((List.range 8).map s.meas).flatten
    ({ (s.put Fld.SEC_SEC_STATE_QUOTE_BUSY 1) with quoteDraft := d } : State).done 0 0

/-- `QUOTE_DONE`: the quote is signed with the monument record's scalar (R448). -/
def execQuoteDone (s : State) : Res :=
  if s.get Fld.SEC_SEC_STATE_QUOTE_BUSY = 0 then .next s
  else
    let d := s.quoteDraft.take 24 ++ leBytes 8 s.station ++ s.quoteDraft.drop 32
    let t := (s.putBytes Fld.SEC_QUOTE 0 0 (d ++ ecdsaSign s.fuses.idScalar d)).put Fld.SEC_SEC_STATE_QUOTE_BUSY 0
    .next ((({ t with quoteDraft := [] } : State).event Fld.SEC_PAGE_EVENT_QUOTE_DONE).note (secNote 2 0))

/-! ### The debug lock (R449-R452) -/

/-- A fresh `DBG_CHAL` from the entropy source (R450). -/
def State.freshChallenge (s : State) : State :=
  { s with chal := drawChallenge s.free, free := s.free + 6 }

/-- A domain of kind host or restricted is active or tearing down (R451). -/
def State.jobDomain (s : State) : Bool :=
  (List.range 256).any (fun d => s.get Fld.DSP_DOM_CFG_STATE 0 d != 0 && s.get Fld.DSP_DOM_CFG_KIND 0 d != 2)

/-- The first test of R451 that a submission fails, 0 for none. -/
def State.unlockTest (s : State) : Nat :=
  let pub := (s.getBytes Fld.DBG_DBG_PUB 0 0 25).take 97
  if 3 ≤ s.refusals then 6
  else if s.get Fld.SEC_SEC_STATE_DBG_MODE ≠ 1 then 1
  else if sha384 pub ≠ s.fuses.dbgKeyHash then 2
  else if s.jobDomain then 3
  else if !ecdsaVerify pub (s.getBytes Fld.DBG_DBG_TOKEN 0 0 24)
      (leBytes 8 (s.get Fld.BOOT_BOOT_SERIAL_SERIAL) ++ s.chal) then 4
  else 0

/-- A submission of a token (R450, R451). -/
def State.submitToken (s : State) : State :=
  let code := s.unlockTest
  let s := s.put Fld.DBG_DBG_STATUS_UNLOCK_CODE code
  let s :=
    if code = 0 then
      let s := s.extend 3 (sha384 (s.chal ++ s.getBytes Fld.DBG_DBG_TOKEN 0 0 24))
      ((s.put Fld.SEC_SEC_STATE_UNLOCKED 1).event Fld.SEC_PAGE_EVENT_UNLOCKED).note (secNote 0 0)
    else
      let s : State := { s with refusals := s.refusals + 1 }
      (s.event Fld.SEC_PAGE_EVENT_UNLOCK_REFUSED).note (secNote 1 code)
  s.freshChallenge

/-- A memory access of the DBG page starts (R452). The access to a stack frame leaves as a request to its base die (R255), or is
refused; the line of a memory of the die is read or written at the access's end. -/
def State.maStart (s : State) (write : Bool) : State :=
  let s := s.put Fld.DBG_DBG_STATUS_MA_BUSY 1
  let a := s.get Fld.DBG_DBG_MA_ADDR_ADDR
  let f := bitsAt a 32 30
  let off := a % 4096 / 64 * 64
  let fr := s.frame f
  let ends (st : Nat) : State := { s with maAccess := some { write := write, tag := none, reply := some (st, []) } }
  let hw := s.tables.any (fun e => e.2 == f) || !(decide (s.poolLo ≤ f) && decide (f < s.poolHi))
  if !bitOf a 63 then { s with maAccess := some { write := write, tag := none, reply := none } }
  else if hw ∨ !(fr.code == 1 || (fr.code == 2 && !write && s.scrubHold)) then ends stProtection
  else
    let p := if write then s.stackWrite f off 0 (s.getBytes Fld.DBG_DBG_MA_DATA 0 0 16) else s.stackRead f off 64 0
    let r := ({ s with maAccess := some { write := write, tag := some s.nextTag, reply := none } } : State).tryRequest p .debug
    if r.2 then r.1 else ends stPathDown

/-- A write to `DBG_CTL` (R451, R452, R458): the memory access needs an unlocked die; while one is under way another is
not started. -/
def State.dbgControl (s : State) (v : Nat) : State :=
  if (bitOf v 1 || bitOf v 2) && !s.unlocked then s.refuse 0xD
  else
    let s := if bitOf v 0 then s.submitToken else s
    let s := if (bitOf v 1 || bitOf v 2) && s.get Fld.DBG_DBG_STATUS_MA_BUSY == 0 then s.maStart (!bitOf v 1) else s
    s.done 0 0

/-- The die holds the image stream in field memory slice 0, from its first byte on (R392): what a line of that memory reads as. -/
def State.overStream (s : State) (addr : Nat) (b : Bytes) : Bytes :=
  let n := s.boot.stream.length
  let i := addr - unitBase 64
  if unitBase 64 ≤ addr ∧ i < n then sub s.boot.stream i (min b.length (n - i)) ++ b.drop (min b.length (n - i)) else b

/-- The line of a memory access to core or field memory (R452): its status, and the bytes of a read. -/
def State.maMemory (s : State) (addr : Nat) (write : Option Bytes) : State × Nat × Bytes :=
  match memUnit addr with
  | none => (s, stUnmapped, [])
  | some u =>
    let g := granOf u addr
    let st := s.granState u g
    let w : Who := { Who.self (s.granDomain u g) 11 with pass := true }
    if st = 5 then (s, stUnmapped, [])
    else if s.granSealed u g then (s, stSealed, [])
    else match write with
      | some b => if st = 1 then let r := s.writeLine w addr b; (r.1, r.2, []) else (s, stProtection, [])
      | none =>
        if st = 1 then let r := s.readLine w addr 64; (r.state, r.status, r.bytes)
        else if st = 0 ∨ st = 4 then let r := s.decodeLine (Who.self 0 11) addr 64; (r.state, r.status, s.overStream addr r.bytes)
        else (s, stProtection, [])

/-- `MA_COMPLETE` (R452): the line that `DBG_MA_ADDR` names has been read or written; one of a stack frame once its base die has
answered. -/
def execMaComplete (s : State) : Res :=
  match s.maAccess with
  | none => .next s
  | some m =>
    let data := if m.write then some (s.getBytes Fld.DBG_DBG_MA_DATA 0 0 16) else none
    let a := s.get Fld.DBG_DBG_MA_ADDR_ADDR
    if m.tag.isSome ∧ m.reply.isNone then .next s
    else
      let r : State × Nat × Bytes := match m.reply with
        | some (st, b) => (s, st, fit b 64)
        | none => s.maMemory (a % 2 ^ 32 / 64 * 64) data
      let t := (r.1.put Fld.DBG_DBG_STATUS_MA_BUSY 0).put Fld.DBG_DBG_STATUS_MA_STATUS r.2.1
      let t := if m.write ∨ r.2.1 ≠ 0 then t else t.putBytes Fld.DBG_DBG_MA_DATA 0 0 r.2.2
      .next { t with maAccess := none }

end Sys2Proof.Machine
end

