-- ==== Sys2Proof/Machine/Bringup.lean ====
section
/-! DEFINITION. Resets and what causes them (R30-R33, R383, R426, R463, R471-R473), the bring-up phases up to the numbering of
the cores (R384-R395), the plat (R388-R390), the image stream (R392-R394), role outcomes and release (R396), and retirement in
service (R398-R401). The loader's register accesses are in Machine/Loader.lean. -/

namespace Sys2Proof.Machine

/-! ### Resets (R383) -/

/-- The crystal oscillator of a datum die runs whenever VAON is good, in any reset (R469): what the CLK page says of it. -/
def State.crystal (s : State) : State :=
  (s.put Fld.CLK_CLK_STATUS_SOURCE (b2n s.aon.datumEn)).put Fld.CLK_CLK_STATUS_XTAL_OK (b2n s.aon.datumEn)

/-- Latch the straps (R36, R463): `SYS_ID` takes `DIEPOS` (R36), the crystal runs on a datum die (R469). -/
def State.latch (s : State) : State :=
  let a := s.aon
  let s : State := { s with aon := { a with latched := true } }
  let s := ((s.put Fld.CLK_CLK_AON_DATUM_EN (b2n a.datumEn)).put Fld.CLK_CLK_AON_CFG_MASTER (b2n a.cfgMaster)).put Fld.CLK_CLK_AON_DIEPOS a.diepos
  s.crystal.put Fld.DIE_DIE_ID_SYS_ID (s.get Fld.DIE_DIE_CFG_PKG * 16 + a.diepos)

/-- Copy a register field from another state. -/
def State.keep (s old : State) (f : Fld) (e : Nat := 0) : State := s.put f (old.get f 0 e) 0 e

/-- A warm reset with its cause (R383): everything returns to reset but the station number, `RESET_COUNT`, the retained plat, the
always-on status, the cadastre and the stacks, which lie outside the die; a new challenge is drawn (R450), the straps are open again
(R31), and bring-up stands at the FUSE phase. -/
def State.warmReset (s : State) (cause count : Nat) : State :=
  let r := State.reset
  let t : State := { r with
    pending := s.pending, free := s.free, station := s.station, bootNonce := s.bootNonce, fuses := s.fuses, poolKept := s.poolKept
    frames := s.frames.filterMap (fun e => if e.2.code = 1 ∨ e.2.code = 2 then none else some (e.1, { e.2 with mapped := false })), aon := { s.aon with latched := false }, tap := s.tap, regs := [] }
  let t := [Fld.CLK_CLK_AON_REF_LOST, Fld.CLK_CLK_AON_PLL_LOST, Fld.PWR_PWR_STATUS_TRIP_SEEN, Fld.PLAT_PLAT_COUNTS_RETAINED].foldl (fun t f => t.keep s f) t
  let t := (List.range 64).foldl (fun t i => t.keep s Fld.PLAT_PLAT_RET_ENTRY i) t
  let t := t.put Fld.BOOT_BOOT_RESETS_RESET_COUNT (s.get Fld.BOOT_BOOT_RESETS_RESET_COUNT + count)
  ((t.put Fld.BOOT_BOOT_STATE_PHASE 1).put Fld.BOOT_BOOT_STATE_RESET_CAUSE cause).crystal.freshChallenge

/-- The levels at the strap pins, which the package sets, stand through every reset and loss of power (R462). -/
def Aon.pinsOf (a : Aon) : Aon := { Aon.init with datumEn := a.datumEn, cfgMaster := a.cfgMaster, diepos := a.diepos }

/-- The die as VAON comes or goes (R353, R383, R450): all state is new, and a fresh `BOOT_NONCE` and challenge are drawn. -/
def State.powerUp (s : State) : State :=
  ({ State.reset with pending := s.pending, free := s.free + 1, fuses := s.fuses, bootNonce := (Config.entropy s.free).toNat
                      tap := { Tap.init with presIn := s.tap.presIn }, aon := s.aon.pinsOf } : State).freshChallenge

/-- `COLD_POWER_UP` (R353, R383): VAON has risen above 0.70 V (R465, R471). Bring-up starts at the AON phase, and a datum die's crystal runs
(R469). -/
def execColdPowerUp (s : State) : Res := .next s.powerUp.crystal

/-- The AON phase is not over (R384). -/
def State.inAon (s : State) : Bool := s.get Fld.BOOT_BOOT_STATE_PHASE == 0

/-- A warm reset by pin (R383), or nothing but the wait in a die whose AON phase is not over (R471). A command's reset in the same ck is
the same reset (R472): no ck has passed since it. -/
def State.pinReset (s : State) : State :=
  let same := s.get Fld.BOOT_BOOT_STATE_PHASE == 1 && s.get Fld.BOOT_BOOT_STATE_RESET_CAUSE == 2 && s.now == 0
  if s.inAon then s else s.warmReset 1 (if same then 0 else 1)

/-- A rail is out, as is a VSRAM that lies below VCORE (R383, R471). -/
def State.railLost (s : State) : State :=
  let t := s.pinReset
  { t with aon := { t.aon with railOut := true } }

/-- `WARM_RESET_BY_PIN` (R383, R471): `RST_N` falls, or the named rail other than VAON is removed. -/
def execWarmResetByPin (rail : Option Nat) (s : State) : Res :=
  match rail with
  | none => let t := s.pinReset; .next { t with aon := { t.aon with pinLow := true } }
  | some r => onUnit "rail" 4 r <| .next s.railLost

/-- `VSRAM_BELOW_VCORE` (R471). -/
def execVsramBelowVcore (s : State) : Res := .next s.railLost

/-- What held the die has changed: a die that it held and nothing holds any more latches the straps, its AON phase being over (R463,
R471). -/
def State.holdChanged (s old : State) : State := if old.aon.held ∧ !s.aon.held ∧ !s.inAon then s.latch else s

/-- `RAILS_VALID` (R471): every rail is within its band again; a die that leaves its reset here latches the straps (R463). -/
def execRailsValid (s : State) : Res := .next (({ s with aon := { s.aon with railOut := false } } : State).holdChanged s)

/-- `VAON_LOSS` (R471): all state is lost until a cold power-up. -/
def execVaonLoss (s : State) : Res :=
  .next { s.powerUp with aon := { s.aon.pinsOf with noVaon := true } }

/-- A sample of VAON, rail 4, on a die that has lost it: above 0.70 V for the detection time of 1 µs it is a cold power-up (R465, R471). -/
def State.vaonSample (s : State) (milliVolt : Nat) : State :=
  let x := s.rail 4
  let n := if 700 < milliVolt then x.high + 1 else 0
  if 100 ≤ n then s.powerUp.crystal else { s with rails := tset (fun _ => RailSt.init) 4 { x with high := n } s.rails }

/-- `RAIL_SAMPLE` (R407): a rail's voltage and current are measured; one that stays below its reset threshold is removed, and VAON with
all state (R465, R471). Without VAON nothing runs but its own detection. -/
def execRailSample (rail milliVolt current : Nat) (s : State) : Res :=
  onUnit "rail" 5 rail <|
    if s.aon.noVaon then .next (if rail = 4 then s.vaonSample milliVolt else s)
    else
    let t := s.railSample rail milliVolt current
    if !t.railRemoved rail then .next t
    else if rail = 4 then execVaonLoss t
    else .next (if t.aon.railOut then t else t.railLost)

/-- `RST_N_DEASSERT` (R426, R463, R471): the straps are latched unless the AON phase has yet to end or something else holds the die; after
a trip the die leaves the held state only below 100 °C. -/
def execRstNDeassert (datumEn cfgMaster : Bool) (diepos : Nat) (s : State) : Res :=
  let cool := decide (s.aon.tj < 400)
  let a := { s.aon with pinLow := false, datumEn := datumEn, cfgMaster := cfgMaster, diepos := diepos % 16
                        tripPending := s.aon.tripPending || (s.aon.tripped && cool), tripped := s.aon.tripped && !(s.aon.pinLow && cool) }
  .next (({ s with aon := a } : State).holdChanged s)

/-- `REFERENCE_GLITCH` (R32). -/
def execReferenceGlitch (s : State) : Res :=
  .next ((s.bump Fld.CLK_CLK_GLITCHES_COUNT).event Fld.CLK_PAGE_EVENT_REF_GLITCH)

/-- The die resets for want of a reference (R32, R472): while `RST_N` is low the reset by pin stands, and the AON phase waits for the
reference (R384). -/
def State.refReset (s : State) : State :=
  let t := if s.aon.pinLow ∨ s.inAon then s else s.warmReset 3 1
  { t with aon := { t.aon with refOut := true } }

/-- `REFERENCE_LOST` (R32). -/
def execReferenceLost (s : State) : Res := .next ((s.put Fld.CLK_CLK_AON_REF_LOST 1).refReset)

/-- `PLL_LOST` (R479): as for a lost reference. -/
def execPllLost (island : Nat) (s : State) : Res := onUnit "island" 6 island <| .next ((s.put Fld.CLK_CLK_AON_PLL_LOST 1).refReset)

/-- `REFERENCE_RETURN` (R32): bring-up runs from the FUSE phase, whose start latches the straps (R463). -/
def execReferenceReturn (s : State) : Res :=
  .next (({ s with aon := { s.aon with refOut := false } } : State).holdChanged s)

/-- `SECOND_REFERENCE_SEEN` (R31): only a datum die runs from its crystal. -/
def execSecondReferenceSeen (s : State) : Res :=
  if s.get Fld.CLK_CLK_AON_DATUM_EN = 0 ∨ s.get Fld.CLK_CLK_STATUS_SECOND_REF_SEEN = 1 then .next s
  else .next ((s.put Fld.CLK_CLK_STATUS_SECOND_REF_SEEN 1).event Fld.CLK_PAGE_EVENT_SECOND_REF)

/-- `THERMAL_TRIP` (R426): everything stops, `TRIP_SEEN` sets, `THERMTRIP_N` is low while the island is tripped (R473), and the
die holds itself in reset. The trip counts no reset: the pin reset that ends it does. -/
def execThermalTrip (sensor : Nat) (s : State) : Res :=
  onUnit "sensor" 96 sensor <|
    let t := (s.warmReset (s.get Fld.BOOT_BOOT_STATE_RESET_CAUSE) 0).put Fld.PWR_PWR_STATUS_TRIP_SEEN 1
    .next { t with aon := { t.aon with tripped := true, tj := max t.aon.tj 472 } }

/-- A write of `BOOT_CTL.WARM_RESET` by the MP or DBG class (R383); the straps are latched at the start of FUSE (R463). With `RST_N` low
the reset is the one by pin (R472). -/
def State.commandReset (s : State) : State := if s.aon.pinLow then s else (s.warmReset 2 1).latch

/-! ### Phases (R384-R387) -/

/-- Go to a phase; the phase left reports its time in µs (R384, R402). -/
def State.toPhase (s : State) (p : Nat) : State :=
  let old := s.get Fld.BOOT_BOOT_STATE_PHASE
  let s := if old < 8 then s.put Fld.BOOT_BOOT_PH_US ((s.now - s.boot.phaseAt) / 100) 0 old else s
  { (s.put Fld.BOOT_BOOT_STATE_PHASE p) with boot := { s.boot with phaseAt := s.now } }

/-- The die is FAILED with a code (R397). -/
def State.fail (s : State) (code : Nat) : State :=
  ((s.toPhase 0xF).put Fld.BOOT_BOOT_STATE_ERR code).event Fld.BOOT_PAGE_EVENT_BOOT_FAIL

/-- The die is in phase `p`, and nothing holds it in reset. -/
def State.inPhase (s : State) (p : Nat) : Bool := s.get Fld.BOOT_BOOT_STATE_PHASE == p && !s.aon.held

/-- `AON_PHASE` ends: VAON, every rail and the reference are stable (R384, R471). With `RST_N` high the straps are latched now
(R463). -/
def execAonPhase (s : State) : Res :=
  if s.get Fld.BOOT_BOOT_STATE_PHASE ≠ 0 ∨ s.aon.railOut ∨ s.aon.refOut ∨ s.aon.tripped ∨ s.aon.noVaon then .next s
  else .next (if s.aon.pinLow then s.toPhase 1 else (s.toPhase 1).latch)

/-- The entries of a fuse plat list, up to its end entry, whose other bits are 0 (R388). -/
def fuseList (l : List (BitVec 32)) : List (BitVec 32) := (l.take 128).takeWhile (fun e => e != 0#32)

/-- `FUSE_PHASE` (R385, R447-R449): identity, options, trims, the fuse plat, `MEAS0`, and the bring-up
clock of 1.0 GHz at its trimmed VCORE (R467). An identity key that does not match its fused hash is not served. -/
def execFusePhase (s : State) : Res :=
  if !s.inPhase 1 then .next s
  else if s.fuses.bad then .next (s.fail 1)
  else
    let f := { s.fuses with dbgMode := if s.fuses.written then s.fuses.dbgMode else 0 }
    let s := (s.put Fld.BOOT_BOOT_SERIAL_SERIAL f.serial).put Fld.SEC_SEC_STATE_DBG_MODE f.dbgMode
    let s := s.put Fld.SEC_SEC_STATE_UNLOCKED (b2n (f.dbgMode == 0))
    let l := fuseList f.plat
    let s := (s.put Fld.PLAT_PLAT_COUNTS_FUSE l.length)
    let s := (List.range l.length).foldl (fun t i => t.put Fld.PLAT_PLAT_FUSE_ENTRY (l.getD i 0).toNat 0 i) s
    let s := if sha384 f.idPub = f.idKeyHash then s.putBytes Fld.SEC_IDKEY_PUB 0 0 (fit f.idPub 100) else s
    let s := s.setMeas 0 (sha384 (f.identity ++ f.options))
    let s := ((s.put Fld.CLK_CLK_FREQ_MHZ 1000).put Fld.CLK_CLK_STATUS_ISL_LOCK 0x3F).askVcore (f.vcore.getD 6 0)
    let s : State := { s with trims := [f.pllTrim, f.thermTrim, f.sramTrim] }
    .next (((List.range 64).foldl (fun t n => t.put Fld.CORE_CORE_STATE_STATE 3 n) s).toPhase 2)

/-! ### The plat (R388-R390) -/

/-- The fields of a plat entry are in range and its unused bits are 0 (R388). -/
def platOk (e : Nat) : Bool :=
  let core := decide (bitsAt e 4 4 < 8) && decide (bitsAt e 8 4 < 9)
  match e % 16 with
  | 1 => core && decide (e < 2 ^ 12)
  | 2 => core && decide (bitsAt e 12 8 < 130) && decide (e < 2 ^ 20)
  | 3 => core && decide (bitsAt e 12 8 < 130) && decide (e < 2 ^ 20)
  | 4 => core && decide (bitsAt e 18 13 < 8192) && decide (e < 2 ^ 31)
  | 5 => core && decide (e < 2 ^ 18)
  | 6 => decide (bitsAt e 9 15 < 24576) && decide (e < 2 ^ 24)
  | 7 => decide (bitsAt e 7 6 < 48) && decide (e < 2 ^ 13)
  | 8 => decide (bitsAt e 4 6 < 40) && decide (e < 2 ^ 14)
  | 9 => decide (bitsAt e 4 6 < 40) && decide (e < 2 ^ 10)
  | _ => false

/-- The entries of a list that act; an end entry does nothing outside a fuse plat, and any other bad one sets `PLAT_RSV` (R388). -/
def platGood (l : List Nat) : List Nat := l.filter platOk
/-- A list holds an entry that is handled as a reserved kind. -/
def platHasRsv (l : List Nat) : Bool := l.any (fun e => e != 0 && !platOk e)

/-- The entries of the fuse plat, of the retained plat, and of the field plat, as their registers show them. -/
def State.fusePlat (s : State) : List Nat := (List.range (s.get Fld.PLAT_PLAT_COUNTS_FUSE)).map (fun i => s.get Fld.PLAT_PLAT_FUSE_ENTRY 0 i)
/-- The retained plat. -/
def State.retPlat (s : State) : List Nat := (List.range (s.get Fld.PLAT_PLAT_COUNTS_RETAINED)).map (fun i => s.get Fld.PLAT_PLAT_RET_ENTRY 0 i)
/-- The field plat. -/
def State.fieldPlat (s : State) : List Nat := (List.range (s.get Fld.PLAT_PLAT_COUNTS_FIELD)).map (fun i => s.get Fld.PLAT_PLAT_FIELD_ENTRY 0 i)

/-- An entry of a kind says what a BIST code says of its core (R388, R404): a core-bad entry any code, a row or column entry code 1, a
memory row or granule entry code 4. -/
def bistSays (kind code : Nat) : Bool :=
  kind == 1 || (code == 1 && (kind == 2 || kind == 3)) || (code == 4 && (kind == 4 || kind == 5))

/-- The findings of BIST as plat entries (R387): those it named, and the core-bad entry of each physical core whose code says that it
failed in a unit of which no named entry tells (log entry 66). -/
def bistFindings (named : List (BitVec 32)) (codes : List Nat) : List (BitVec 32) :=
  let covered (i : Nat) : Bool := named.any (fun e => bistSays (e.toNat % 16) (codes.getD i 0) && e.toNat / 16 % 256 == i / 9 + 16 * (i % 9))
  named ++ ((List.range 72).filter (fun i => codes.getD i 0 != 0 && codes.getD i 0 != 6 && !covered i)).map (fun i => BitVec.ofNat 32 (coreBad (i / 9) (i % 9)))

/-- `BIST`: what it found, as plat entries, the `BIST` code of each physical core, and whether a unit without repair failed
(R387, R404). Every memory of the die is left at zero, with zero check bits. -/
def execBist (findings : List (BitVec 32)) (codes : List Nat) (fatal : Bool) (s : State) : Res :=
  if !s.inPhase 2 then .next s
  else
    let s := (List.range 64).foldl (fun t n => t.put Fld.CORE_CORE_STATE_STATE 0 n) s
    let s := (List.range 72).foldl (fun t i => t.put Fld.CL_PC_STATE_BIST (codes.getD i 0) i) s
    let s : State := { s with mem := [], ecc := [], fixups := [], svyMem := [], cores := [], boot := { s.boot with findings := bistFindings findings codes } }
    .next (if fatal then s.fail 2 else s.toPhase 3)

/-- Lane marks and module disables of plat entries (R388): they act before any training (R390). -/
def State.markLinks (s : State) (l : List Nat) : State :=
  l.foldl (fun t e =>
    let m := bitsAt e 4 6
    if e % 16 = 8 then
      let b := tget (fun _ => 0) m t.laneBad
      { t with laneBad := tset (fun _ => 0) m (if bitOf b (bitsAt e 10 4) then b else b + 2 ^ bitsAt e 10 4) t.laneBad }
    else if e % 16 = 9 then
      ({ t with modBad := if t.modBad.contains m then t.modBad else t.modBad.filter (· < m) ++ m :: t.modBad.filter (m < ·) } : State).put Fld.LNK_MOD_STATE_STATE 0 m
    else t) s

/-- `RECONCILE` (R384, R388, R390): the lane marks and module disables of the fuse plat, BIST and the retained plat act before any
training. -/
def execReconcile (s : State) : Res :=
  if !s.inPhase 3 then .next s
  else
    let found := s.boot.findings.map (·.toNat)
    let t := if platHasRsv s.fusePlat || platHasRsv found then s.event Fld.PLAT_PAGE_EVENT_PLAT_RSV else s
    .next ((t.markLinks (platGood s.fusePlat ++ platGood found ++ platGood s.retPlat)).toPhase 4)

/-- Findings that no plat records, the field plat among them, join the new list and the retained plat (R390, log entry 82). -/
def State.newFindings (s : State) : State :=
  let known := s.fusePlat ++ s.retPlat ++ s.fieldPlat
  ((platGood (s.boot.findings.map (·.toNat))).filter (fun e => !known.contains e)).eraseDups.foldl State.platAdd s

/-- `SIDEBAND` (R392): every module that is not disabled runs SBINIT; the phase ends with a boot link ACTIVE or `CFG_MASTER` = 1. -/
def execSideband (s : State) : Res :=
  if !s.inPhase 4 then .next s
  else
    let s := (List.range 40).foldl (fun t m => if t.modState m = 1 then t.modSbinit m else t) s
    if s.get Fld.CLK_CLK_AON_CFG_MASTER = 1 ∨ (List.range 40).any (fun m => s.modState m == 6) then .next (s.toPhase 5) else .next s

/-! ### The image stream (R392-R394) -/

/-- A header field, little-endian. -/
def hdr (b : Bytes) (off n : Nat) : Nat := leAt b off n

/-- Directory entry `i`: kind, `DIEPOS`, offset and length. -/
def dirEntry (b : Bytes) (i : Nat) : Nat × Nat × Nat × Nat :=
  let o := 512 + 16 * i
  (hdr b o 1, hdr b (o + 1) 1, hdr b (o + 4) 4, hdr b (o + 8) 4)

/-- The whole stream's length as its header gives it. -/
def streamLen (b : Bytes) : Nat := hdr b 4 4 + 96 + hdr b 8 4

/-- Bytes [lo, hi) are all 0. -/
def zeroRange (b : Bytes) (lo hi : Nat) : Bool := (sub b lo (hi - lo)).all (· == 0#8)

/-- The sections in the directory that are used. -/
def dirUsed (b : Bytes) : List (Nat × Nat × Nat × Nat) := ((List.range 64).map (dirEntry b)).filter (fun e => e.1 != 0)

/-- No two sections overlap. -/
def dirApart : List (Nat × Nat × Nat × Nat) → Bool
  | [] => true
  | e :: r => r.all (fun f => decide (e.2.2.1 + e.2.2.2 ≤ f.2.2.1) || decide (f.2.2.1 + f.2.2.2 ≤ e.2.2.1)) && dirApart r

/-- Header fields and directory as R393. -/
def headerOk (b : Bytes) : Bool :=
  let signedLen := hdr b 4 4
  let trailer := hdr b 8 4
  let used := dirUsed b
  decide (1536 ≤ b.length) && hdr b 0 2 == 1 && hdr b 2 2 == 1536 && signedLen % 256 == 0 && decide (1536 ≤ signedLen) &&
    decide (streamLen b ≤ 2 ^ 24) && trailer % 1040 == 0 && decide (trailer ≤ 16640) && decide (hdr b 14 2 < 4) &&
    decide (1 ≤ hdr b 16 1) && decide (hdr b 16 1 ≤ 64) && decide (hdr b 17 1 ≤ 1) && hdr b 19 1 == 0 && zeroRange b 28 128 &&
    hdr b 128 1 == 4 && zeroRange b 225 512 && used.length == hdr b 16 1 && used.all (fun e => decide (e.1 ≤ 3) && decide (e.2.2.1 + e.2.2.2 ≤ signedLen)) &&
    (List.range 64).all (fun i => zeroRange b (514 + 16 * i) (516 + 16 * i) && zeroRange b (524 + 16 * i) (528 + 16 * i)) &&
    dirApart (used.filter (fun e => e.2.2.2 != 0))

/-- The command that reads the stream from the configuration store (R468): Quad Output Fast Read from address 0. -/
def qspiFastRead : QspiRead := { code := 0x6B, addrBits := 24, addr := 0, dummy := 8 }

/-- `FETCH_QSPI`: one attempt, whose one command the store answers with `stream` (R392, R468). -/
def execFetchQspi (stream : Bytes) (s : State) : Res :=
  if !s.inPhase 5 ∨ s.get Fld.CLK_CLK_AON_CFG_MASTER = 0 then .next s
  else
  let s : State := { s with qspi := some qspiFastRead }
  if headerOk stream ∧ streamLen stream ≤ stream.length then
    .next (({ s with boot := { s.boot with stream := stream.take (streamLen stream) } } : State).put Fld.BOOT_BOOT_STATE_SRC 0 |>.toPhase 6)
  else
    let s := ({ s with boot := { s.boot with tries := s.boot.tries + 1 } } : State).event Fld.BOOT_PAGE_EVENT_FETCH_RETRY
    .next (if s.boot.tries < 3 then s else s.fail 3)

/-- The boot links that are ACTIVE (R392). -/
def State.bootLinks (s : State) : List Nat := (List.range 40).filter (fun m => s.modState m == 6 && (s.mod m).boot)

/-- A packet to the partner of module `m`. -/
def State.toPartner (s : State) (m : Nat) (p : Packet) : Packet :=
  { p with dest := s.get Fld.LNK_MOD_PEER_IDENT m, dkind := s.get Fld.LNK_MOD_PEER_KIND m }

/-- The source link has gone (R392): the fetch goes on from the next needed chunk on the others. -/
def State.sourceLost (s : State) : Bool := match s.boot.source with
  | some m => !s.bootLinks.contains m
  | none => false

/-- A request for the stream waits for its first chunk on module `m` (R374). -/
def State.imageAsked (s : State) (m : Nat) : Bool := s.reqs.any (fun r => r.owner == .image m)

/-- Ask the partner of boot link `m` for the stream from the next needed chunk (R374, R392). -/
def State.askImage (s : State) (m : Nat) : State :=
  let f := s.freshTag
  let p := s.toPartner m { pktOf 0x56 with arg := 2 ^ 32 - 1, tag := f.2, data := leBytes 4 (s.boot.stream.length / 256) }
  ({ f.1 with reqs := s.reqs ++ [{ tag := f.2, pkt := p, owner := .image m, due := none }] } : State).sendVia m p

/-- `FETCH_BOOT_LINK`: ask every boot link for the stream from the next chunk (R392); one that has not answered yet is asked again
only once its request has timed out (R374). -/
def execFetchBootLink (s : State) : Res :=
  if !s.inPhase 5 ∨ s.get Fld.CLK_CLK_AON_CFG_MASTER = 1 then .next s
  else
    let s := if s.sourceLost then ({ s with boot := { s.boot with source := none } } : State).event Fld.BOOT_PAGE_EVENT_FETCH_RETRY else s
    if s.boot.source.isSome then .next s
    else .next (s.bootLinks.foldl (fun t m => if t.imageAsked m then t else t.askImage m) s)

/-- The die holds a verified stream (R392): in COMMIT, and where a write record of the stream failed it afterwards (R397, code 0x09). -/
def State.hasStream (s : State) : Bool :=
  !s.boot.stream.isEmpty && (s.get Fld.BOOT_BOOT_STATE_PHASE == 7 ||
    (s.get Fld.BOOT_BOOT_STATE_PHASE == 0xF && s.get Fld.BOOT_BOOT_STATE_ERR == 9))

/-- Send a boot-link partner the chunks that it has asked for, from its first one on, with the tag of its request (R362, R392). -/
def State.serveStream (s : State) (m : Nat) : State :=
  match (s.mod m).askedChunk with
  | none => s
  | some (n, tag) =>
    let chunks := ceilDiv s.boot.stream.length 256
    let t := s.setMod m { s.mod m with askedChunk := some (chunks, tag) }
    ((List.range (chunks - n)).map (n + ·)).foldl (fun t k =>
      t.sendVia m (t.toPartner m { pktOf 0x56 with arg := k, tag := tag, data := sub s.boot.stream (256 * k) 256 })) t

/-- The partner of a boot link that asked for the stream has not received its last chunk (R396). -/
def State.serving (s : State) (m : Nat) : Bool :=
  let x := s.mod m
  x.boot && x.askedChunk.isSome &&
    (!(s.hasStream && x.askedChunk.map (·.1) == some (ceilDiv s.boot.stream.length 256)) || x.queue.any (fun q => q.pkt.typ == 0x56) ||
      x.packing.any (fun q => q.pkt.typ == 0x56) || x.unacked.any (fun q => q.pkt.typ == 0x56))

/-- An IMAGE packet on a boot link (R374, R392): a request for the stream, or the next chunk from the source, the first of which ends the
request; a chunk for a request that timed out is late. -/
def State.gotImage (s : State) (m : Nat) (p : Packet) : State :=
  if !(s.mod m).boot then s
  else if p.arg = 2 ^ 32 - 1 then
    let t := s.setMod m { s.mod m with askedChunk := some (leAt p.data 0 4, p.tag) }
    if t.hasStream then t.serveStream m else t
  else if s.lateTags.contains p.tag then s.bump Fld.LNK_LNK_LATE_RSP_COUNT
  else if !s.inPhase 5 ∨ s.get Fld.CLK_CLK_AON_CFG_MASTER = 1 ∨ !(s.boot.source = none ∨ s.boot.source = some m) ∨ p.arg * 256 ≠ s.boot.stream.length then s
  else
    let b := s.boot.stream ++ p.data
    let t : State := { s with boot := { s.boot with stream := b, source := some m }, reqs := s.reqs.filter (fun r => r.owner != .image m) }
    let t := (t.put Fld.BOOT_BOOT_STATE_SRC 1).put Fld.BOOT_BOOT_STATE_SRC_MODULE m
    if 1536 ≤ b.length ∧ (streamLen b ≤ b.length ∨ !headerOk b) then t.toPhase 6 else t

/-- `VERIFY` (R394): the checks in order; what passes is measured and served on. -/
def execVerify (s : State) : Res :=
  if !s.inPhase 6 then .next s
  else
    let b := s.boot.stream
    let signed := b.take (hdr b 4 4)
    let pub := sub b 128 97
    let slot := hdr b 17 1
    if !(headerOk b && decide (streamLen b ≤ b.length)) then .next (s.fail 4)
    else if sha384 pub ≠ (if slot = 0 then s.fuses.keyHash0 else s.fuses.keyHash1) then .next (s.fail 5)
    else if (if slot = 0 then s.fuses.revoke0 else s.fuses.revoke1) then .next (s.fail 6)
    else if !ecdsaVerify pub (sub b (hdr b 4 4) 96) signed then .next (s.fail 7)
    else if Config.stepping < hdr b 12 1 ∨ hdr b 13 1 ≠ 1 then .next (s.fail 8)
    else
      let s := (s.setMeas 1 (sha384 signed)).put Fld.BOOT_BOOT_IMG_VER_VER (hdr b 20 4)
      let pos := hdr b 18 1
      let mine := s.get Fld.CLK_CLK_AON_DIEPOS
      let master := s.get Fld.CLK_CLK_AON_CFG_MASTER
      let s := if bitOf (hdr b 14 2) 1 ∧ ((pos = mine ∧ master = 0) ∨ (pos ≠ mine ∧ master = 1)) then s.event Fld.BOOT_PAGE_EVENT_CFG_MASTER_MISMATCH else s
      let s := ({ s with keySlot := slot } : State).toPhase 7
      .next (s.bootLinks.foldl (fun t m => t.serveStream m) s)

/-! ### Numbering (R389, R395) -/

/-- The physical rows or columns that the plat names for a core (kinds 2 and 3). -/
def platLines (l : List Nat) (kind cl p : Nat) : List Nat :=
  (List.range 130).filter (fun r => l.contains (kind + 16 * cl + 256 * p + 4096 * r))

/-- Rows of a bank or quarter that entries name, in order, the first time each. -/
def memRows (l : List Nat) (pre mask lo len : Nat) : List Nat :=
  ((l.filter (fun e => e % mask == pre)).map (fun e => bitsAt e lo len)).eraseDups

/-- The unusable granules of a physical core: named ones, and those that hold a row beyond a bank's 4 spare rows (R388, R389). -/
def coreGrans (l : List Nat) (cl p : Nat) : List Nat :=
  let spill (b : Nat) : List Nat := (((memRows l (4 + 16 * cl + 256 * p + 4096 * b) (2 ^ 18) 18 13).drop 4).map (· / 128))
  let named := (List.range 64).filter (fun g => l.contains (5 + 16 * cl + 256 * p + 4096 * g))
  let all := ((List.range 64).map spill).flatten ++ named
  (List.range 64).filter (fun g => all.contains g)

/-- The unusable granules of a slice: named ones, and those that hold a row beyond a quarter's 32 spare rows. -/
def sliceGrans (l : List Nat) (sl : Nat) : List Nat :=
  let spill (q : Nat) : List Nat := ((memRows l (6 + 16 * sl + 128 * q) 512 9 15).drop 32).map (fun r => (4 * r + q) / 2048)
  let named := (List.range 48).filter (fun g => l.contains (7 + 16 * sl + 128 * g))
  let all := ((List.range 4).map spill).flatten ++ named
  (List.range 48).filter (fun g => all.contains g)

/-- A physical core is bad by these entries (R388, R389). -/
def coreIsBad (l : List Nat) (cl p : Nat) : Bool :=
  l.contains (coreBad cl p) || decide (2 < (platLines l 2 cl p).length) || decide (2 < (platLines l 3 cl p).length) ||
    decide (8 < (coreGrans l cl p).length)

/-- The bypass word of a physical core: two rows, two columns, 0xFF for none (R97, R107). -/
def bypassWord (l : List Nat) (cl p : Nat) : Nat :=
  let r := platLines l 2 cl p
  let c := platLines l 3 cl p
  r.getD 0 255 + 256 * r.getD 1 255 + 65536 * c.getD 0 255 + 2 ^ 24 * c.getD 1 255

/-- Logical core `n` is served by physical core `p` of its cluster: `PHYS`, `SPARE_MAP` and the granules follow (R240, R389,
R395, R399). -/
def State.assignCore (s : State) (l : List Nat) (n p : Nat) : State :=
  let cl := n / 8
  let s := (s.put Fld.CORE_CORE_STATE_PHYS p n).setWord (Fld.CORE_SPARE_MAP_BYROW0.key n 0) (BitVec.ofNat 32 (bypassWord l cl p))
  let s := (s.put Fld.CL_PC_STATE_STATE 0 (cl * 9 + p)).put Fld.CL_PC_STATE_LOGICAL (n % 8) (cl * 9 + p)
  let off := coreGrans l cl p
  (List.range 64).foldl (fun t g => t.setGran n g (if off.contains g then 5 else 0)) s

/-- Number the cores of one cluster (R395); the three lists are the entries of the fuses, of BIST, and all of them. -/
def State.numberCluster (s : State) (fuse bist all : List Nat) (cl : Nat) : State :=
  let good := (List.range 9).filter (fun p => !coreIsBad all cl p)
  let s := (s.put Fld.CL_CL_STATUS_HOLES 0 cl).put Fld.CL_CL_STATUS_SPARE_AVAIL 0 cl
  let s := (List.range 9).foldl (fun t p =>
    let t := t.setWord (Fld.CL_PC_BYPASS_WORD.key (cl * 9 + p) 0) (BitVec.ofNat 32 (bypassWord all cl p))
    if !coreIsBad all cl p then t
    else t.put Fld.CL_PC_STATE_STATE (if coreIsBad fuse cl p then 2 else if coreIsBad (fuse ++ bist) cl p then 3 else 4) (cl * 9 + p)) s
  let s := (List.range 8).foldl (fun t i => match good[i]? with
    | some p => t.assignCore all (8 * cl + i) p
    | none =>
      let t := t.put Fld.CL_CL_STATUS_HOLES (t.get Fld.CL_CL_STATUS_HOLES cl ||| 2 ^ i) cl
      (List.range 64).foldl (fun t g => t.setGran (8 * cl + i) g 5) t) s
  match good[8]? with
  | some p => (((s.put Fld.CL_PC_STATE_STATE 1 (cl * 9 + p)).put Fld.CL_CL_STATUS_SPARE_AVAIL 1 cl).put Fld.CL_CL_STATUS_SPARE_PHYS p cl)
  | none => s.put Fld.CL_CL_STATUS_SPARE_PHYS 0xF cl

/-- The die's own field plat record of the trailer, if it is long enough (R393, R395). -/
def State.fieldRecord (s : State) : Option Bytes :=
  let b := s.boot.stream
  let k := s.get Fld.CLK_CLK_AON_DIEPOS
  if (k + 1) * 1040 ≤ hdr b 8 4 then some (sub b (hdr b 4 4 + 96 + k * 1040) 1040) else none

/-- The entries of a field plat record. -/
def fieldEntries (r : Bytes) : List Nat := (List.range (leAt r 8 2)).map (fun i => leAt r (16 + 4 * i) 4)

/-- The field plat of an earlier COMMIT is gone (R395, R397): its entries, and the lane marks and module disables that only it gave. -/
def State.dropField (s : State) : State :=
  let t := (List.range s.fieldPlat.length).foldl (fun t i => t.put Fld.PLAT_PLAT_FIELD_ENTRY 0 0 i) s
  let t : State := { t.put Fld.PLAT_PLAT_COUNTS_FIELD 0 with laneBad := [], modBad := [] }
  t.markLinks (platGood s.fusePlat ++ platGood (s.boot.findings.map (·.toNat)) ++ platGood s.retPlat)

/-- The field plat merges: its entries and the record that applies (R395). A record that does not apply leaves no field plat. -/
def State.mergeField (s : State) : State × Bytes :=
  match s.fieldRecord with
  | none => (s, [])
  | some r =>
    if leAt r 0 8 ≠ s.get Fld.BOOT_BOOT_SERIAL_SERIAL then (s.event Fld.PLAT_PAGE_EVENT_FP_FOREIGN, [])
    else if leAt r 10 2 ≠ 1 ∨ 256 < leAt r 8 2 ∨ crc32 (sub r 16 (4 * leAt r 8 2)) ≠ leAt r 12 4 then (s.event Fld.PLAT_PAGE_EVENT_FP_CORRUPT, [])
    else
      let l := fieldEntries r
      let s := s.put Fld.PLAT_PLAT_COUNTS_FIELD l.length
      let s := (List.range l.length).foldl (fun t i => t.put Fld.PLAT_PLAT_FIELD_ENTRY (l.getD i 0) 0 i) s
      (if platHasRsv l then s.event Fld.PLAT_PAGE_EVENT_PLAT_RSV else s, r)

/-- The sections that the loader applies, in directory order (R396). -/
def State.loadSections (s : State) : List Bytes :=
  let b := s.boot.stream
  ((dirUsed b).filter (fun e => e.1 == 1 || (e.1 == 2 && e.2.1 == s.get Fld.CLK_CLK_AON_DIEPOS))).map (fun e => sub b e.2.2.1 e.2.2.2)

/-! ### Roles and release (R23, R24, R349, R396) -/

/-- The partner kind that a role asks for (R349). -/
def roleKind : Nat → Nat
  | 1 => 1
  | 2 => 0
  | 3 => 2
  | _ => 3

/-- What a module's role makes of it (R23, R24, R349, R396): it stays OFF, or goes OFF with a link record of some event, or DOWN with a
cause, or trains. -/
inductive RoleOutcome where
  | stays
  | off (ev : Nat)
  | down (cause : Nat)
  | trains
  deriving DecidableEq, Repr

/-- The role outcome of module `m` (R38, R396, step 1); a module that the plat disables stays OFF, one
that a die-fatal error took down stays DOWN (R437). The link record of an unused module has
event 0 (log entry 83). DESIGN CHOICE (log entry 93): the guest entry of a `PARTNER_ID` above 7 is its value modulo 8. -/
def State.roleOutcome (s : State) (m : Nat) : RoleOutcome :=
  let role := s.get Fld.LNK_MOD_CFG_MOD_ROLE m
  if s.modBad.contains m || s.shutDown m then .stays
  else if role = 0 then .off 0
  else if 5 ≤ role then .off 3
  else if s.get Fld.LNK_LNK_MODE_LINK_MODE = 1 ∧ (role = 1 ∨ role = 2) then .off 4
  else if s.get Fld.LNK_MOD_CFG_PARTNER_KIND m ≠ roleKind role then .down 3
  else if role = 4 ∧ s.get Fld.DIE_GUEST_VALID 0 (s.get Fld.LNK_MOD_CFG_PARTNER_ID m % 8) = 0 then .down 2
  else .trains

/-- The state that an outcome leads to. -/
def RoleOutcome.goal : RoleOutcome → Option Nat
  | .stays => none
  | .off _ => some 0
  | .down _ => some 8
  | .trains => some 2

/-- The cause and the events of an outcome: a module that trains starts anew. -/
def State.roleEvents (s : State) (m : Nat) : RoleOutcome → State
  | .down cause => s.fallen m cause
  | .trains => (s.put Fld.LNK_MOD_STATE_DOWN_CAUSE 0 m).setMod m { s.mod m with malformed := false, mismatch := 0 }
  | _ => s

/-- The link record of an outcome (R23, R24, R349). -/
def State.roleNote (s : State) (m : Nat) : RoleOutcome → State
  | .off ev => s.note (s.linkNote m ev 0)
  | .down cause => s.note (s.linkNote m 0 cause)
  | _ => s

/-- Modules take their role outcomes together; they are no boot links any more, and the link records follow the page events (R396, R441). -/
def State.takeRoles (s : State) (l : List Nat) : State :=
  let o := l.map (fun m => (m, s.roleOutcome m))
  let s := l.foldl (fun t m =>
    let x := t.mod m
    t.setMod m { x with boot := false, askedChunk := none, queue := x.queue.filter (fun q => q.pkt.typ != 0x56) }) s
  let t := s.leaveAll (o.filterMap (fun e => e.2.goal.map (e.1, ·))) (fun t => o.foldl (fun t e => t.roleEvents e.1 e.2) t)
  (o.foldl (fun t e => t.roleNote e.1 e.2) t).routesSettle

/-- After the loader's last section, boot links whose partner has its last chunk, or whose time is over, take their outcome (R396). -/
def State.relayDone (s : State) : State :=
  let l := (List.range 40).filter (fun m => (s.mod m).boot && (s.boot.relayOver || !s.serving m))
  if s.inPhase 7 ∧ s.roled ∧ l ≠ [] then s.takeRoles l else s

/-- The last section has been applied (R396, steps 1-3): role outcomes hold and the surveyor firmware starts. -/
def State.loaded (s : State) : State :=
  let s : State := { s with roled := true, boot := { s.boot with sections := some [], waits := [], roledAt := s.now } }
  let s := s.takeRoles ((List.range 40).filter (fun m => !s.serving m))
  match (dirUsed s.boot.stream).find? (fun e => e.1 == 3) with
  | none => s
  | some e =>
    let fw := (sub s.boot.stream e.2.2.1 e.2.2.2).take 0x200000
    let mem := ((List.range fw.length).zip fw).foldl (fun m x => tset blankByte x.1 x.2 m) []
    ({ s with svyMem := mem, svyCode := ceilDiv fw.length 65536 * 65536, kickedAt := s.now } : State).put Fld.MBX_SVY_STATE_STATE 0

/-- The loader's end (R396): the last section is through and no COMMIT of it runs. -/
def State.loadEnd (s : State) : State :=
  if s.inPhase 7 ∧ s.boot.sections = some [] ∧ !s.roled ∧ !s.boot.waits.any s.commitBusy then s.loaded else s

/-- `COMMIT_PHASE` (R395): the field plat, the numbering and `MEAS2`; then the loader has its sections. Lane and module entries of
the field plat find training begun, and act from the modules' restart on. -/
def execCommitPhase (s : State) : Res :=
  if !s.inPhase 7 ∨ s.boot.sections.isSome then .next s
  else
    let m := s.mergeField
    let t := m.1.setMeas 2 (sha384 m.2)
    let fuse := platGood t.fusePlat
    let bist := platGood (t.boot.findings.map (·.toNat))
    let field := platGood t.fieldPlat
    let t := t.newFindings
    let all := fuse ++ bist ++ platGood t.retPlat ++ field
    let t := (List.range 8).foldl (fun t c => t.numberCluster fuse bist all c) t
    let t := (List.range 8).foldl (fun t sl => (List.range 48).foldl (fun t g => t.setGran (64 + sl) g (if (sliceGrans all sl).contains g then 5 else 0)) t) t
    let bad := field.filter (fun e => e % 16 == 8 || e % 16 == 9)
    let t := (bad.filter (fun e => e % 16 == 9)).foldl (fun t e => if t.modState (bitsAt e 4 6) = 6 then t.leaveActive (bitsAt e 4 6) 0 else t) t
    .next ({ t.markLinks bad with boot := { t.boot with sections := some t.loadSections, numbered := true } } : State).loadEnd

/-- `RELAY_HOLD` in 10 ns periods (R393). -/
def State.relayHold (s : State) : Nat := let v := hdr s.boot.stream 24 4; (if v = 0 then 10000 else v) * 100

/-- `RELAY_HOLD_EXPIRY` (R396). -/
def execRelayHoldExpiry (s : State) : Res :=
  if !s.inPhase 7 ∨ !s.roled ∨ s.now < s.boot.roledAt + s.relayHold then .next s
  else .next ({ s with boot := { s.boot with relayOver := true } } : State).relayDone

/-- `RELEASE_COMPUTE` (R396): once the loader, the relay and `HOLD_RELEASE` allow it. The cadastre of a pool that a warm reset did
not change is kept (R258); the die takes OP 1 (R467) and the whole thermal budget (R425). -/
def execReleaseCompute (s : State) : Res :=
  if !s.inPhase 7 ∨ !s.roled then .next s
  else
    let s := s.relayDone
    if (List.range 40).any (fun m => (s.mod m).boot && s.serving m) ∨ (bitOf (hdr s.boot.stream 14 2) 0 ∧ !s.boot.releaseAsked) then .next s
    else
      let pool := some (s.get Fld.XLT_POOL_BASE_FRAME, s.get Fld.XLT_POOL_COUNT_COUNT)
      let s : State := { s with boot := { s.boot with stream := [] }, cadastre := false, poolKept := pool
                                frames := if s.poolKept = pool then tkeep (fun f => decide (s.poolLo ≤ f) && decide (f < s.poolHi)) s.frames else [] }
      let s := (List.range 64).foldl (fun t n => if t.isHole n ∨ t.get Fld.CORE_CORE_STATE_STATE n ≠ 0 then t else (t.dropSplit n).put Fld.CORE_CORE_STATE_STATE 1 n) s
      let s := (s.runAt 1).put Fld.PWR_PWR_POWER_TH_CAP 900
      let s := (s.toPhase 8).event Fld.BOOT_PAGE_EVENT_RELEASED
      .next (if s.aon.tripPending then ({ s with aon := { s.aon with tripPending := false } } : State).event Fld.PWR_PAGE_EVENT_TRIP_SEEN else s)

/-! ### Retirement in service (R398-R401) -/

/-- A write to `CL_RETIRE` (R398, R400, R404). DESIGN CHOICE (log entry 90): before the numbering of R395 no core is in service or a spare,
and the command is ignored as one that names a retired core is. -/
def State.retireCommand (s : State) (cl v : Nat) : State :=
  let p := v % 16
  if 9 ≤ p ∨ !s.numbered then s.event Fld.CL_PAGE_EVENT_CMD_IGNORED cl
  else
    let i := cl * 9 + p
    let st := s.get Fld.CL_PC_STATE_STATE i
    if 2 ≤ st ∧ st ≤ 5 then s.event Fld.CL_PAGE_EVENT_CMD_IGNORED cl p
    else
      let n := cl * 8 + s.get Fld.CL_PC_STATE_LOGICAL i
      let t := s.retireTrigger cl p 2
      if bitOf v 4 ∧ st = 0 ∧ (t.core n).run ≠ 0 ∧ !(t.core n).test then
        t.stopGang (t.core n).gang { status := 6, detail := 0, member := (t.core n).member, seq := 0 }
      else t

/-- The domain-lifetime granules of domain `d` in logical core `n`'s memory, as a mask (R298, code 0x41). -/
def State.lostMask (s : State) (n d : Nat) : Nat :=
  idxMask ((List.range 64).filter (fun g => s.granState n g == 1 && s.granLife n g == 1 && s.granDomain n g == d))

/-- The loss of a core's domain-lifetime regions is posted to each owning domain's `EVQ` (R306). -/
def State.postLost (s : State) (n : Nat) : State :=
  let ds := (List.range 256).filter (fun d => s.lostMask n d != 0)
  if ds.isEmpty then s
  else
    let t := ds.foldl (fun t d =>
      t.waitEvent { queue := t.get Fld.DSP_DOM_CFG_EVQ 0 d, status := 0x41, detail := n, member := 0, info := s.lostMask n d, station := t.station }) s
    t.event Fld.DSP_PAGE_EVENT_UNIT_LOST

/-- A core of the cluster with a lower logical ID has reached its quiesce point too, and waits for the spare (R400, log entry 84). -/
def State.lowerQuiet (s : State) (c : Nat) : Bool :=
  (List.range 64).any (fun n => decide (n < c) && n / 8 == c / 8 && s.get Fld.CORE_CORE_STATE_STATE n == 2 && (s.core n).run == 0)

/-- `QUIESCE_POINT` of logical core `c` (R306, R399, R400): it holds no kernel; its regions become CLOSING, the loss of each
domain-lifetime region is posted, and the spare enters RECOVERY or the ID becomes a hole. -/
def execQuiescePoint (c : Nat) (s : State) : Res :=
  onUnit "core" 64 c <|
    if s.get Fld.CORE_CORE_STATE_STATE c ≠ 2 ∨ (s.core c).run ≠ 0 then .next s
    else
      let cl := c / 8
      let p := s.get Fld.CORE_CORE_STATE_PHYS c
      let t := s.postLost c
      let t := t.releaseWhere c (fun _ _ _ => true)
      let t := t.put Fld.CL_PC_STATE_STATE 5 (cl * 9 + p)
      if t.get Fld.CL_CL_STATUS_SPARE_AVAIL cl = 1 ∧ !s.lowerQuiet c then
        let q := t.get Fld.CL_CL_STATUS_SPARE_PHYS cl
        let t := (t.put Fld.CL_CL_STATUS_SPARE_AVAIL 0 cl).put Fld.CL_CL_STATUS_SPARE_PHYS 0xF cl
        let t := (t.put Fld.CL_PC_STATE_STATE 6 (cl * 9 + q)).put Fld.CL_PC_STATE_LOGICAL (c % 8) (cl * 9 + q)
        .next (t.put Fld.CORE_CORE_STATE_STATE 4 c)
      else .next ((t.retired c).makeHole c p (s.retirement c).2)

/-- `RECOVERY_TEST_END` of cluster `cl`'s spare (R399, steps 4 and 5): on a pass it takes the logical ID over. -/
def execRecoveryTestEnd (cl : Nat) (pass : Bool) (s : State) : Res :=
  onUnit "cluster" 8 cl <|
    match (List.range 9).find? (fun p => s.get Fld.CL_PC_STATE_STATE (cl * 9 + p) == 6) with
    | none => .next s
    | some q =>
      if !pass then .next (s.recoveryFailed cl q)
      else
        let n := cl * 8 + s.get Fld.CL_PC_STATE_LOGICAL (cl * 9 + q)
        let old := s.retirement n
        let s := (s.scrubCore n).setCore n CoreSt.init
        let all := platGood s.fusePlat ++ platGood (s.boot.findings.map (·.toNat)) ++ platGood s.retPlat ++ platGood s.fieldPlat
        let s := (s.assignCore all n q).put Fld.CORE_CORE_STATE_STATE 1 n
        let s := s.dropSplit n
        let s := s.event Fld.CL_PAGE_EVENT_SPARE_USED cl q
        .next ((s.retired n).note (retireNote 1 cl q n old.2 (coreBad cl old.1)))

end Sys2Proof.Machine
end

