-- ==== Sys2Proof/Machine/Matrix.lean ====
section
/-! DEFINITION. The matrix class (R77-R106, R118-R120, R147-R176): operand loads, tables and masks, the accumulator sets and
their states, the combine modes with their sums, spills with the ledger, and the exact parcel result that a final drain
delivers. An MMA computes in the step that issues it. -/

namespace Sys2Proof.Machine

/-! ### Operand halves (R87, R214) -/

/-- A half; an unlisted half is EMPTY. -/
def CoreSt.half (c : CoreSt) (h : Nat) : Half := tget (fun _ => { state := 0, fmt := 0, k := 0, recs := [] }) h c.halves

/-- Replace a half. -/
def CoreSt.setHalf (c : CoreSt) (h : Nat) (x : Half) : CoreSt :=
  { c with halves := tset (fun _ => { state := 0, fmt := 0, k := 0, recs := [] }) h x c.halves }

/-- Empty a half. -/
def CoreSt.emptyHalf (c : CoreSt) (h : Nat) : CoreSt := { c with halves := tdel h c.halves }

/-- Replace a set. -/
def CoreSt.setSet (c : CoreSt) (u : Nat) (x : AccSet) : CoreSt := { c with sets := tset (fun _ => AccSet.idle) u x c.sets }

/-- A set becomes IDLE. -/
def CoreSt.freeSet (c : CoreSt) (u : Nat) : CoreSt := { c with sets := tdel u c.sets }

/-- A set is IDLE. -/
def CoreSt.setFree (c : CoreSt) (u : Nat) : Bool := !thas u c.sets

/-! ### Split mode (R100, R103) -/

/-- The split in force (R100, R101): none in normal service, and none while `CORE_STATE` is neither TEST nor RECOVERY. -/
def State.split (s : State) (n : Nat) : Option (Nat × Bool) :=
  let a := s.get Fld.CORE_CORE_CFG_ACC_SPLIT n
  let b := s.get Fld.CORE_CORE_CFG_SPLIT_BARE n == 1
  let st := s.get Fld.CORE_CORE_STATE_STATE n
  if (a == 0 && !b) || !(st == 3 || st == 4) then none else some (a, b)

/-- Rows and columns of a parcel in a split (R100). -/
def splitShape : Nat → Nat × Nat
  | 0 => (128, 128)
  | 1 => (128, 64)
  | 2 => (64, 64)
  | 3 => (32, 32)
  | _ => (16, 16)

/-- Parcels in flight in a split (R100). -/
def splitSlots (a : Nat) (bare : Bool) : Nat :=
  match a with
  | 0 => if bare then 4 else 2
  | 1 => if bare then 8 else 4
  | 2 => if bare then 16 else 8
  | 3 => if bare then 64 else 32
  | _ => 64

/-! ### The pass descriptor (R85) -/

/-- `START`. -/
def pdStart (d : Nat) : Bool := bitOf d 0
/-- `END` = 1: final. -/
def pdFinal (d : Nat) : Bool := bitOf d 1
/-- `PAIR`. -/
def pdPair (d : Nat) : Nat := bitsAt d 2 2
/-- `OUT_FMT`. -/
def pdOutFmt (d : Nat) : Nat := bitsAt d 8 8
/-- `PASS_BASE`. -/
def pdPassBase (d : Nat) : Nat := bitsAt d 32 32
/-- `EPI_PC`. -/
def pdEpiPc (d : Nat) : Nat := bitsAt d 64 32
/-- `OUT_BASE`. -/
def pdOutBase (d : Nat) : Nat := bitsAt d 96 32
/-- `OUT_STRIDE`. -/
def pdOutStride (d : Nat) : Nat := bitsAt d 128 32
/-- `SLOT`. -/
def pdSlot (d : Nat) : Nat := bitsAt d 160 12
/-- The descriptor uses a pass record (R86). -/
def pdUsesRecord (d : Nat) : Bool := pdStart d || !pdFinal d

/-- Bytes of a pass record (R155). -/
def passRecordSize : Nat := 413696

/-- The whole pass record at `base` lies in one sealed region of core `n` that qualifies (R86, R102). -/
def State.passRegionOk (s : State) (n base : Nat) : Bool :=
  let c := s.core n
  inWindow n base (base + passRecordSize) &&
    (let g0 := granOf n base
     let g1 := granOf n (base + passRecordSize - 1)
     let h := s.headOf n g0
     (List.range (g1 - g0 + 1)).all (fun i => s.granState n (g0 + i) == 1 && s.granSealed n (g0 + i) &&
       s.granDomain n (g0 + i) == c.dom && s.headOf n (g0 + i) == h) &&
     (c.test || s.granLife n h == 1 || (match s.gang? c.gang with
       | some g => g.regions.contains (n, h)
       | none => false)))

/-- The checks of PDSET on the entry it loads, handle addresses replaced (R86, R110); `bad` says a handle gave no address. -/
def State.pdFaults (s : State) (n d : Nat) (bad : Bool) : List Nat :=
  codeIf (d &&& (span 7 4 ||| span 31 16 ||| span 175 172 ||| span 255 176) != 0) 2 ++
  codeIf (decide (2 ≤ pdPair d) || decide (9 < pdOutFmt d) ||
    (pdPair d == 1 && !(pdOutFmt d == 6 || pdOutFmt d == 8 || pdOutFmt d == 9))) 3 ++
  codeIf (pdUsesRecord d && !(pdPassBase d % 4096 == 0 && s.passRegionOk n (pdPassBase d))) 8 ++
  codeIf bad 9

/-- The handle addresses of an entry replaced (R291); an entry that uses no pass record keeps `PASS_BASE`, which is not checked
(R86). -/
def CoreSt.resolvePd (c : CoreSt) (d : Nat) : Nat × Bool :=
  (if pdUsesRecord d then [32, 64, 96] else [64, 96]).foldl (fun (a : Nat × Bool) lo =>
    match handleAddr c.handle (bitsAt a.1 lo 32) with
    | none => (a.1, true)
    | some x => (bitsPut a.1 lo 32 x, a.2)) (d, false)

/-! ### Operands as the array sees them (R111-R120, R148) -/

/-- One element: its raw code and its value without block scale; `lo` is the low part of a pair (R141). -/
structure Elem where
  code : Nat
  v : Val
  lo : Val

/-- One group of elements: the scale byte of its block, 0x7F for a format without one, and the scale's exponent, none for
a NaN scale (R116, R120, R175). -/
structure Grp where
  elems : List Elem
  sbyte : Nat
  sexp : Option Int

/-- The integer of a narrow weight in scale and zero-point mode, less its zero point (R118, R120). -/
def narrowInt (f code zp : Nat) : Int :=
  match f with
  | 0xC => (code : Int) - zp
  | 0xD => (code : Int) - (zp % 4 : Nat)
  | _ => if code = 1 then 1 else if code = 2 then -1 else 0

/-- Decode one element (R113-R120, R141): `wt` is the weight table, `zp` the group's zero point. -/
def decodeElem (f wt zp code : Nat) : Elem :=
  let plain (v : Val) : Elem := { code := code, v := v, lo := vzero }
  match f with
  | 0 => plain (fE4M3.dec code)
  | 1 => plain (fE5M2.dec code)
  | 2 => plain (fE3M2.dec code)
  | 3 => plain (fE2M3.dec code)
  | 4 => plain (fE2M1.dec code)
  | 5 => plain (.fin (signed 8 code) (-6))
  | 6 => plain (fBF16.dec code)
  | 7 => { code := code, v := fBF16.dec (code % 2 ^ 16), lo := fBF16.dec (code / 2 ^ 16) }
  | 8 => plain (fB64.dec code)
  | 9 => plain (fE2M3.dec (bitsAt wt (8 * code) 6))
  | 0xA => plain (fE2M3.dec (bitsAt wt (8 * code) 6))
  | 0xB => plain (if code = 3 then vzero else fE2M3.dec (bitsAt wt (8 * code) 6))
  | _ => plain (.fin (narrowInt f code zp) (-1))

/-- The metadata of block `blk` of a record of `k` elements: the scale byte, its exponent, and the zero point (R82, R116,
R120). -/
def blockMeta (f k : Nat) (rec_ : Bytes) (blk : Nat) : Nat × Option Int × Nat :=
  let off := ceilDiv (k * fmtBits f) 8
  if f ≤ 5 then
    let x := leAt rec_ (off + blk) 1
    (x, if x = 0xFF then none else some ((x : Int) - 127), 0)
  else if 0xC ≤ f then
    let e := leAt rec_ (off + 2 * blk) 2
    let x := e % 256
    (x, if x = 0xFF then none else some ((x : Int) - 127 + 1), bitsAt e 8 4)
  else (0x7F, some 0, 0)

/-- The groups of `size` elements that an MMA of length `kk` reads from a record of `k` elements (R147, R148). -/
def recordGroups (f k wt size kk : Nat) (rec_ : Bytes) : List Grp :=
  (List.range (ceilDiv kk size)).map fun g =>
    let lo := g * size
    let m := blockMeta f k rec_ (lo / 32)
    { elems := (List.range (min size (kk - lo))).map (fun i => decodeElem f wt m.2.2 (unpackAt rec_ (fmtBits f) (lo + i)))
      sbyte := m.1, sexp := m.2.1 }

/-- The group size S of a pairing (R147). -/
def groupSize (a b : Nat) : Nat :=
  if a = 6 ∨ a = 7 then 4 else if a = 8 then 1 else if a = 4 ∧ (b = 4 ∨ 9 ≤ b) then 16 else 8

/-- The ck that an MMA feeds, ceil(K / r) (R80, R96, R99). -/
def feedCk (mode a b k : Nat) : Nat :=
  let half := if mode = 0 then 1 else 2
  if a = 8 then 64 * k * half
  else if a = 7 then 6 * k * half
  else if a = 6 then 2 * k * half
  else if a = 4 ∧ (b = 4 ∨ 9 ≤ b) then ceilDiv (k * half) 4
  else if 2 ≤ a ∧ a ≤ 4 ∧ 2 ≤ b ∧ b ≤ 4 then ceilDiv (k * half) 2
  else k * half

/-! ### Containers (R152, R155) -/

/-- The 72-bit container of a sum and its compensation. -/
def contOf (b64 : Bool) (s c : Val) : Nat := if b64 then fB64.enc s else fPass.enc s + 2 ^ 36 * fPass.enc c

/-- The sum in a container. -/
def contSum (b64 : Bool) (w : Nat) : Val := if b64 then fB64.dec (w % 2 ^ 64) else fPass.dec (w % 2 ^ 36)

/-- The compensation in a container. -/
def contComp (b64 : Bool) (w : Nat) : Val := if b64 then vzero else fPass.dec (w / 2 ^ 36 % 2 ^ 36)

/-- A mode's fresh-start value (R99). -/
def freshSum (mode : Nat) : Val :=
  if mode = 3 ∨ mode = 5 then .inf true else if mode = 4 then .inf false else vzero

/-! ### Group arithmetic (R148-R150, R171) -/

/-- What a group makes of one PE's operands: the value to add and, if it is a NaN made here, the event's cause with the
two raw operands. -/
structure GroupOut where
  x : Val
  ev : Option (Nat × Nat × Nat)

/-- The first pair of a group that satisfies a test, as raw operands. -/
def firstPair (l : List (Elem × Elem)) (p : Elem × Elem → Bool) : Option (Nat × Nat) :=
  (l.find? p).map (fun e => (e.1.code, e.2.code))

/-- The lowest cause of a list of candidates (R172). -/
def lowestCause (l : List (Option (Nat × Nat × Nat))) : Option (Nat × Nat × Nat) := l.findSome? id

/-- A candidate cause. -/
def causeAt (c : Nat) (o : Option (Nat × Nat)) : Option (Nat × Nat × Nat) := o.map (fun p => (c, p.1, p.2))

/-- The exponent of both scales; 0 where one is NaN. -/
def scaleExp (a b : Grp) : Int := a.sexp.getD 0 + b.sexp.getD 0

/-- One of the scales is NaN. -/
def scaleNan (a b : Grp) : Bool := a.sexp.isNone || b.sexp.isNone

/-- A group of mode 0x00 (R148, R141): the exact sum of the products that `fa` and `fb` select, scaled and rounded once to
`f` (the pass format, or binary64 for R149). -/
def sumProducts (f : Fmt) (fa fb : Elem → Val) (a b : Grp) : GroupOut :=
  let ps := a.elems.zip b.elems
  let prod (e : Elem × Elem) : Val := vmul (fa e.1) (fb e.2)
  let nanIn (e : Elem × Elem) : Bool := (fa e.1).isNan || (fb e.2).isNan
  let bad := scaleNan a b
  let ok := ps.filter (fun e => !nanIn e)
  let c1 := if bad then none else firstPair ok (fun e => (prod e).isNan)
  let c2 := !bad && ok.any (fun e => prod e == .inf false) && ok.any (fun e => prod e == .inf true)
  let ev := lowestCause [causeAt 1 c1, if c2 then some (2, 0, 0) else none, causeAt 4 (firstPair ps nanIn),
    if bad then causeAt 5 (firstPair ps (fun _ => true)) else none]
  if ev.isSome then ⟨.nan, ev⟩
  else ⟨f.rne (vscale (ps.foldl (fun g e => vadd g (prod e)) vzero) (scaleExp a b)), none⟩

/-- The scaled values of a pair (R99, R148). -/
def scaledPair (a b : Grp) (e : Elem × Elem) : Val × Val := (vscale e.1.v (a.sexp.getD 0), vscale e.2.v (b.sexp.getD 0))

/-- The combine of modes 0x01 and 0x02 on scaled values, rounded to the pass format (R99). -/
def distance (mode : Nat) (p : Val × Val) : Val :=
  let d := vsub p.1 p.2
  fPass.rne (if mode = 1 then vabs d else vmul d d)

/-- A group of modes 0x01 and 0x02 (R148). -/
def sumDistances (mode : Nat) (a b : Grp) : GroupOut :=
  let ps := a.elems.zip b.elems
  let nanIn (e : Elem × Elem) : Bool := e.1.v.isNan || e.2.v.isNan
  let bad := scaleNan a b
  let ev := lowestCause [causeAt 4 (firstPair ps nanIn), if bad then causeAt 5 (firstPair ps (fun _ => true)) else none,
    if bad then none else causeAt 6 (firstPair (ps.filter (fun e => !nanIn e)) (fun e => (distance mode (scaledPair a b e)).isNan))]
  if ev.isSome then ⟨.nan, ev⟩
  else ⟨fPass.rne (ps.foldl (fun g e => vadd g (distance mode (scaledPair a b e))) vzero), none⟩

/-- A group of mode 0x06: how many pairs are equal (R99); a NaN is equal to nothing and raises no event. -/
def countEqual (a b : Grp) : GroupOut :=
  let ps := a.elems.zip b.elems
  let eqs := if scaleNan a b then [] else ps.filter (fun e => let p := scaledPair a b e; veq p.1 p.2)
  ⟨fPass.rne (vint eqs.length), none⟩

/-- What one group adds in a summing mode. -/
def groupValue (mode : Nat) (a b : Grp) : GroupOut :=
  if mode = 0 then sumProducts fPass (·.v) (·.v) a b else if mode = 6 then countEqual a b else sumDistances mode a b

/-- The combine of modes 0x03-0x05 on scaled values, rounded to the pass format (R99, R150). -/
def semiCombine (mode : Nat) (p : Val × Val) : Val :=
  fPass.rne (if mode = 5 then vmul p.1 p.2 else vadd p.1 p.2)

/-- A group of modes 0x03-0x05, one combine at a time in ascending k (R150): the running value after it, and its event. -/
def semiGroup (mode : Nat) (s : Val) (a b : Grp) : GroupOut :=
  let ps := a.elems.zip b.elems
  let nanIn (e : Elem × Elem) : Bool := e.1.v.isNan || e.2.v.isNan
  let bad := scaleNan a b
  let made := if bad then none else firstPair (ps.filter (fun e => !nanIn e)) (fun e => (semiCombine mode (scaledPair a b e)).isNan)
  let ev := lowestCause [if mode = 5 then causeAt 1 made else none, causeAt 4 (firstPair ps nanIn),
    if bad then causeAt 5 (firstPair ps (fun _ => true)) else none, if mode = 5 then none else causeAt 6 made]
  let x (e : Elem × Elem) : Val := if bad then .nan else semiCombine mode (scaledPair a b e)
  ⟨ps.foldl (fun s e => if mode = 4 then vmin s (x e) else vmax s (x e)) s, ev⟩

/-! ### One PE over one MMA -/

/-- What an MMA does in every PE. -/
structure MmaCtx where
  mode : Nat
  b64 : Bool
  fp32 : Bool
  bare : Bool
  seq : Nat
  set : Nat
  orgM : Nat
  orgN : Nat
  kblk : Nat

/-- A PE's running state: sum, compensation, whether a finite sum became infinite, and the events met. -/
structure PeSt where
  s : Val
  c : Val
  ovf : Bool
  ev : EvSum

/-- The event of a group of PE (i, j) (R172, R175). -/
def arrayEvent (m : MmaCtx) (group i j : Nat) (a b : Grp) (e : Nat × Nat × Nat) : NumEv :=
  let single := e.1 ≠ 2 ∧ e.1 ≠ 3
  { unit := 0, cause := e.1, seq := m.seq, group := group, x := i, y := j, set := m.set, orgM := m.orgM, orgN := m.orgN, kblk := m.kblk
    opa := e.2.1 % 2 ^ 32, opb := e.2.2 % 2 ^ 32, scales := if single then a.sbyte + 256 * b.sbyte else 0x7F7F }

/-- Add one group value into the accumulator (R154); a bare sum and an equality count carry no compensation (R99, R100). A binary64
sum does not fit the bare form of R103, which the spec leaves unsaid: its container stays whole (DESIGN CHOICE, log 86). -/
def peAdd (m : MmaCtx) (i j group : Nat) (a b : Grp) (p : PeSt) (o : GroupOut) : PeSt :=
  let r := addComp (if m.b64 then fB64 else fPass) p.s p.c o.x
  let ev := match o.ev with
    | some e => p.ev.add (arrayEvent m group i j a b e)
    | none => if r.opp then p.ev.add (arrayEvent m group i j a b (3, 0, 0)) else p.ev
  { s := r.s, c := if m.b64 || m.bare || m.mode == 6 then vzero else r.c, ovf := p.ovf || r.ovf, ev := ev }

/-- A binary64 product that rounds to infinity from finite operands (R169). -/
def prodOvf (a b : Grp) (x : Val) : Bool :=
  x.isInf && (a.elems.zip b.elems).all (fun e => !e.1.v.isInf && !e.2.v.isInf)

/-- One group of PE (i, j) (R148-R150). -/
def peGroup (m : MmaCtx) (i j : Nat) (p : PeSt) (g : Nat) (a b : Grp) : PeSt :=
  if m.b64 then
    let o := sumProducts fB64 (·.v) (·.v) a b
    let p := { p with ovf := p.ovf || prodOvf a b o.x }
    peAdd m i j g a b p o
  else if m.fp32 then
    let p := peAdd m i j (3 * g) a b p (sumProducts fPass (·.v) (·.v) a b)
    let p := peAdd m i j (3 * g + 1) a b p (sumProducts fPass (·.v) (·.lo) a b)
    peAdd m i j (3 * g + 2) a b p (sumProducts fPass (·.lo) (·.v) a b)
  else if 3 ≤ m.mode ∧ m.mode ≤ 5 then
    let o := semiGroup m.mode p.s a b
    { p with s := o.x, c := vzero, ev := match o.ev with
      | some e => p.ev.add (arrayEvent m g i j a b e)
      | none => p.ev }
  else peAdd m i j g a b p (groupValue m.mode a b)

/-- All groups of PE (i, j), in order (R151). -/
def peGroups (m : MmaCtx) (i j : Nat) : Nat → PeSt → List Grp → List Grp → PeSt
  | _, p, [], _ => p
  | _, p, _, [] => p
  | g, p, a :: t, b :: u => peGroups m i j (g + 1) (peGroup m i j p g a b) t u

/-- The events of two runs together. -/
def EvSum.join (a b : EvSum) : EvSum :=
  { count := a.count + b.count
    best := match a.best, b.best with
      | .none, y => y
      | x, .none => x
      | .some x, .some y => if keyLt y.key x.key then .some y else .some x }

/-- An MMA over all its enabled elements: the new containers, whether any sum overflowed, and the events. -/
def mmaRun (m : MmaCtx) (rows cols : List (List Grp)) (acc : List (Nat × Nat)) : List (Nat × Nat) × Bool × EvSum :=
  acc.foldr (fun e (a : List (Nat × Nat) × Bool × EvSum) =>
    let i := e.1 / 128
    let j := e.1 % 128
    let r := peGroups m i j 0 { s := contSum m.b64 e.2, c := contComp m.b64 e.2, ovf := false, ev := EvSum.none } (rows.getD i []) (cols.getD j [])
    ((e.1, contOf m.b64 r.s r.c) :: a.1, r.ovf || a.2.1, r.ev.join a.2.2)) ([], false, EvSum.none)

/-! ### Issue (R90-R95, R103) -/

/-- The rows and columns that an MMA enables (R78). -/
def CoreSt.enabled (c : CoreSt) (w : Nat) : Nat × Nat :=
  let m := tget (fun _ => (0, 0)) (mmaMask w) c.mr
  let lim (n : Nat) := 2 ^ (n + 1) - 1
  if mmaMask w = 0 then (lim (mmaMM1 w), lim (mmaNM1 w)) else (m.1 &&& lim (mmaMM1 w), m.2 &&& lim (mmaNM1 w))

/-- The enabled elements in drain order (R199), as 128 · i + j. -/
def enabledElems (rows cols : Nat) : List Nat := (maskIdx 128 rows).flatMap (fun i => (maskIdx 128 cols).map (fun j => 128 * i + j))

/-- A set as an MMA opens it fresh or claims it. -/
def CoreSt.openSet (c : CoreSt) (w seq state : Nat) : AccSet :=
  let e := c.enabled w
  let mode := iMinor w
  let b64 := mmaAFmt w = 8
  { AccSet.idle with
    state := state, mode := mode, b64 := b64, pd := mmaPd w, desc := tget (fun _ => 0) (mmaPd w) c.pd, mM1 := mmaMM1 w, nM1 := mmaNM1 w
    maskSel := mmaMask w, rows := e.1, cols := e.2
    acc := (enabledElems e.1 e.2).map (fun k => (k, contOf b64 (freshSum mode) vzero)), claimSeq := some seq }

/-- Operand words of a half that an MMA reads and that hold flipped bits (R214): the count of correctable and whether one
is uncorrectable. Word `w` of record `r` is fed when it holds one of the first `k` elements or their metadata. -/
def State.halfErrors (s : State) (n h rows k : Nat) : List (Nat × Nat) :=
  let x := (s.core n).half h
  let size := recordSize x.fmt x.k / 8
  let moff := ceilDiv (x.k * fmtBits x.fmt) 8
  let lo := eccOpBuf n (h * 0x4000)
  let fed (r j : Nat) : Bool := bitOf rows r && (decide (j * 64 < k * fmtBits x.fmt) ||
    (decide (moff < (j + 1) * 8) && decide (j * 8 < moff + fmtMeta x.fmt * ceilDiv k 32)))
  (s.ecc.filter (fun e => decide (lo ≤ e.1) && decide (e.1 < lo + 0x4000) && decide (0 < size) &&
    fed ((e.1 - lo) / size) ((e.1 - lo) % size))).map (fun e => (e.1 - eccOpBuf n 0, e.2))

/-- The feeders meet the flipped words: one bit is corrected and counted, more fault the core (R214). DESIGN CHOICE (log entry 21): so do three
or more, which the code need not detect. -/
def State.feedErrors (s : State) (n : Nat) (l : List (Nat × Nat)) : State × Bool :=
  l.foldl (fun (a : State × Bool) e => (a.1.coreError (a.1.coreWho n 3) n (e.1 * 8) 0 true (decide (1 < e.2)), a.2 || decide (1 < e.2))) (s, false)

/-- The records of a half as groups, for each record in use. -/
def CoreSt.halfGroups (c : CoreSt) (h cnt wt size k : Nat) : List (List Grp) :=
  let x := c.half h
  (x.recs.take cnt).map (recordGroups x.fmt x.k wt size k)

/-- The fold limit and product limits of R167: the numeric status bits that this MMA's additions set. -/
def lapseBits (mode : Nat) (b64 : Bool) (adds0 adds1 prods0 prods1 : Nat) : List Nat :=
  let summing := decide (mode ≤ 2) || mode == 6
  let limit := if b64 then 2 ^ 24 else 2 ^ 31
  (if summing && !b64 && decide (adds0 ≤ 8192) && decide (8192 < adds1) then [nswLapseFold] else []) ++
    (if summing && decide (prods0 ≤ limit) && decide (limit < prods1) then [nswLapseLen] else [])

/-- The MMA at the head of the array queue issues on set or slot `u`, whose present contents are `x`; `bare` is the bare
form (R87, R88, R93, R148, R156, R167). The set's containers are of the kind that the opening MMA names; an MMA of the other kind, which
R95 does not rule out, computes in its own kind on them (DESIGN CHOICE, log 86). The record of an event on a parcel slot, which has no set,
names as `NER_INFO.SET` the slot's number modulo 2 (DESIGN CHOICE, log entry 95). -/
def State.mmaIssue (s : State) (n u : Nat) (d : Dec) (x : AccSet) (bare : Bool) : State :=
  let w := d.word
  let c := s.core n
  let a := mmaAFmt w
  let b := mmaBFmt w
  let k := mmaK w
  let e1 := s.feedErrors n (s.halfErrors n (mmaAHalf w) x.rows k ++ s.halfErrors n (mmaBHalf w) x.cols k)
  if e1.2 then e1.1.coreFault n 0x0C d.seq
  else
    let s := e1.1
    let size := groupSize a b
    let wt := tget (fun _ => 0) (mmaWt w) c.wt
    let m : MmaCtx := { mode := iMinor w, b64 := a == 8, fp32 := a == 7, bare := bare, seq := d.seq, set := u % 2, orgM := mmaOrgM w
                        orgN := mmaOrgN w, kblk := mmaKblk w }
    let r := mmaRun m (c.halfGroups (mmaAHalf w) (mmaMM1 w + 1) 0 size k) (c.halfGroups (mmaBHalf w) (mmaNM1 w + 1) wt size k) x.acc
    let adds := if a = 8 then 0 else if a = 7 then 3 * ceilDiv k 4 else ceilDiv k size
    let lapse := lapseBits m.mode m.b64 (x.hdrAdds + x.groupAdds) (x.hdrAdds + x.groupAdds + adds) (x.hdrProducts + x.products) (x.hdrProducts + x.products + k)
    let y : AccSet := { x with
      state := 3, acc := r.1, groupAdds := x.groupAdds + adds, products := x.products + k, lapsed := x.lapsed || !lapse.isEmpty
      ovf := x.ovf || r.2.1, orgM := mmaOrgM w, orgN := mmaOrgN w, kblk := mmaKblk w, claimSeq := none
      closeSeq := if mmaClose w then some d.seq else none, feeding := true
      feedWt := if 9 ≤ b ∧ b ≤ 0xB then some (mmaWt w) else none
      order := if mmaClose w then c.closes else x.order }
    let rel (c : CoreSt) (b : Bool) (h : Nat) : CoreSt := if b then c.setHalf h { c.half h with state := 3 } else c
    let c := rel (rel c (mmaRelA w) (mmaAHalf w)) (mmaRelB w) (mmaBHalf w)
    let c := { (c.setSet u y) with aq := c.aq.drop 1, closes := if mmaClose w then c.closes + 1 else c.closes }
    let s := (s.setCore n c).count Fld.CORE_ARR_FEED_CK_COUNT (feedCk m.mode a b k) n
    let s := (s.setNswIf r.2.1 n nswAccOvf).setNswIf (!lapse.isEmpty) n nswLapsed
    let s := lapse.foldl (fun s b => s.setNsw n b) s
    s.numEvents n r.2.2

/-- The MMA issues if its core's array account is at 0 (R415). -/
def State.mmaCharge (s : State) (n u : Nat) (d : Dec) (x : AccSet) (bare : Bool) : State :=
  if s.heldBack (2 * n) then s
  else (s.mmaIssue n u d x bare).charge (2 * n) (feedCk (iMinor d.word) (mmaAFmt d.word) (mmaBFmt d.word) (mmaK d.word))

/-- The halves that an MMA names are RESIDENT (R90). -/
def CoreSt.mmaResident (c : CoreSt) (w : Nat) : Bool := (c.half (mmaAHalf w)).state == 2 && (c.half (mmaBHalf w)).state == 2

/-- A resident half does not fit the MMA (R90, conditions 2-4). -/
def CoreSt.mmaMismatch (c : CoreSt) (w : Nat) : Bool :=
  let a := c.half (mmaAHalf w)
  let b := c.half (mmaBHalf w)
  a.fmt != mmaAFmt w || b.fmt != mmaBFmt w || decide (a.k < mmaK w) || decide (b.k < mmaK w) ||
    decide (a.recs.length ≤ mmaMM1 w) || decide (b.recs.length ≤ mmaNM1 w)

/-- No MMA is still feeding (R90, condition 6). -/
def CoreSt.notFeeding (c : CoreSt) : Bool := !c.sets.any (fun e => e.2.feeding)

/-- The set of the open pass. -/
def CoreSt.openPass (c : CoreSt) : Option (Nat × AccSet) := c.sets.find? (fun e => e.2.state == 3 && e.2.closeSeq.isNone)

/-- An MMA continues the pass as R95 asks. -/
def sameShape (w : Nat) (x : AccSet) : Bool :=
  mmaPd w == x.pd && mmaMM1 w == x.mM1 && mmaNM1 w == x.nM1 && mmaMask w == x.maskSel && iMinor w == x.mode

/-- Where an `OPEN` MMA goes (R90, R93): the set filled for it, or an IDLE set when its descriptor starts fresh. -/
def CoreSt.openTarget (c : CoreSt) (d : Dec) : Option (Nat × AccSet) :=
  if pdStart (tget (fun _ => 0) (mmaPd d.word) c.pd) then c.sets.find? (fun e => e.2.state == 2 && e.2.claimSeq == some d.seq)
  else if c.setFree 0 then some (0, c.openSet d.word d.seq 3)
  else if c.setFree 1 then some (1, c.openSet d.word d.seq 3)
  else none

/-- The MMA issues, or faults on what condition 5 has let it meet (R90, R95, R103): `codes` lists the faults of its fields. A misfit of
resident halves is judged as soon as the halves and the target are there; feeding holds back only the issue (R90, condition 6). -/
def State.mmaTry (s : State) (n u : Nat) (d : Dec) (x : AccSet) (bare : Bool) (codes : List Nat) : State :=
  let c := s.core n
  if !c.mmaResident d.word then s
  else match lowest (codeIf (c.mmaMismatch d.word) 5 ++ codes) with
    | some code => s.coreFault n code d.seq
    | none => if c.notFeeding then s.mmaCharge n u d x bare else s

/-- Try to issue the MMA at the head of the array queue in normal service (R90, R95). The spec gives fault 0x07 no moment: it is that
of fault 0x05 (DESIGN CHOICE, log 86). -/
def State.mmaNormal (s : State) (n : Nat) (d : Dec) : State :=
  let c := s.core n
  let w := d.word
  if mmaOpen w == c.openPass.isSome then s.coreFault n 0x06 d.seq
  else match (if mmaOpen w then c.openTarget d else c.openPass) with
    | none => s
    | some e => s.mmaTry n e.1 d e.2 false (codeIf (!mmaOpen w && !sameShape w e.2) 7)

/-- The faults of an MMA's own fields in split mode (R103). -/
def CoreSt.splitFaults (c : CoreSt) (w : Nat) (sp : Nat × Bool) : List Nat :=
  let shape := splitShape sp.1
  codeIf (!(mmaOpen w && mmaClose w)) 6 ++ codeIf (pdStart (tget (fun _ => 0) (mmaPd w) c.pd)) 6 ++
    codeIf (decide (shape.1 < mmaMM1 w + 1) || decide (shape.2 < mmaNM1 w + 1)) 7

/-- Try to issue the MMA at the head of the array queue in split mode (R103): a fault of its fields does not wait for its operands, and
one that meets a misfit of its halves too has the lower code (R104). -/
def State.mmaSplit (s : State) (n : Nat) (d : Dec) (sp : Nat × Bool) : State :=
  let c := s.core n
  let w := d.word
  let slot := (List.range (splitSlots sp.1 sp.2)).find? c.setFree
  match lowest (codeIf (slot.isSome && c.mmaResident w && c.mmaMismatch w) 5 ++ c.splitFaults w sp) with
  | some code => s.coreFault n code d.seq
  | none =>
    match slot with
    | none => s
    | some u => s.mmaTry n u d (c.openSet w d.seq 3) sp.2 []

/-- The head of the array queue is of major opcode `maj` (and, for an MMA, of mode `mode`): run `f` on it. -/
def State.arrayRow (s : State) (n maj : Nat) (p : Nat → Bool) (f : State → CoreSt → Dec → State) : Res :=
  onUnit "core" 64 n <|
    let t := s.forArray n
    match (t.core n).aq with
    | d :: _ => if iMajor d.word = maj ∧ p d.word then .next (f t (t.core n) d) else .next t
    | [] => .next t

/-- An MMA of one mode issues (R90, R148). -/
def State.mmaRow (s : State) (n mode : Nat) : Res :=
  s.arrayRow n 0x20 (fun w => iMinor w == mode) fun s _ d =>
    match s.split n with
    | none => s.mmaNormal n d
    | some sp => s.mmaSplit n d sp

/-- `MMA_MULTIPLY_ADD` (R99, R148). -/
def execMmaMultiplyAdd (c : Nat) (s : State) : Res := s.mmaRow c 0
/-- `MMA_L1_DISTANCE` (R99, R148). -/
def execMmaL1Distance (c : Nat) (s : State) : Res := s.mmaRow c 1
/-- `MMA_SQUARED_DIFFERENCE` (R99, R148). -/
def execMmaSquaredDifference (c : Nat) (s : State) : Res := s.mmaRow c 2
/-- `MMA_MAX_PLUS` (R99, R150). -/
def execMmaMaxPlus (c : Nat) (s : State) : Res := s.mmaRow c 3
/-- `MMA_MIN_PLUS` (R99, R150). -/
def execMmaMinPlus (c : Nat) (s : State) : Res := s.mmaRow c 4
/-- `MMA_MAX_TIMES` (R99, R150). -/
def execMmaMaxTimes (c : Nat) (s : State) : Res := s.mmaRow c 5
/-- `MMA_EQUALITY_COUNT` (R99, R148). -/
def execMmaEqualityCount (c : Nat) (s : State) : Res := s.mmaRow c 6

/-! ### Operand loads -/

/-- `OPLD` (R82, R83, R89): the loader starts when the half is EMPTY; the half is LOADING and holds what it reads. -/
def execOpld (c : Nat) (s : State) : Res :=
  onUnit "core" 64 c <|
    let t := s.forLoader c
    match (t.core c).lq with
    | [] => .next t
    | d :: q =>
      let w := d.word
      let h := opldHalf w
      if ((t.core c).half h).state ≠ 0 then .next t
      else
        let size := recordSize (opldFmt w) (opldK w)
        let r := (List.range (opldCnt w)).foldl (fun (a : Rd × List Bytes) i =>
          if a.1.status ≠ 0 then a
          else
            let r := a.1.state.readMem (a.1.state.coreWho c 3) (iAddr32 w + i * opldStride w) size
            (r, a.2 ++ [r.bytes])) (⟨t, 0, []⟩, [])
        if r.1.status ≠ 0 then .next (r.1.state.coreFault c (accessCode r.1.status 0x09) d.seq)
        else
          let s := r.1.state
          let k := s.core c
          let lo := eccOpBuf c (h * 0x4000)
          let s : State := { s with ecc := tkeep (fun e => !(decide (lo ≤ e) && decide (e < lo + size * opldCnt w / 8))) s.ecc }
          .next (s.setCore c { (k.setHalf h { state := 1, fmt := opldFmt w, k := opldK w, recs := r.2 }) with lq := q, loading := k.loading ++ [h] })

/-- `LOAD_COMPLETE` (R87, R89): the oldest transfer's half becomes RESIDENT. DESIGN CHOICE (log entry 95): transfers end in the order in which
they began, though the rates of R89 may let a later one end first. -/
def execLoadComplete (c : Nat) (s : State) : Res :=
  onUnit "core" 64 c <|
    let k := s.core c
    match k.loading with
    | [] => .next s
    | h :: t => .next (s.setCore c { (k.setHalf h { k.half h with state := 2 }) with loading := t })

/-- `OPFREE` (R88): each named RESIDENT half begins its release; while a named half is LOADING the instruction waits, naming no other
half any more. -/
def execOpfree (c : Nat) (s : State) : Res :=
  s.arrayRow c 0x22 (fun _ => true) fun s k d =>
    let hs := maskIdx 4 (iSel d.word)
    let left := hs.filter (fun h => (k.half h).state == 1)
    let k := hs.foldl (fun k h => if (k.half h).state = 2 then k.setHalf h { k.half h with state := 3 } else k) k
    s.setCore c { k with aq := if left.isEmpty then k.aq.drop 1
                               else { d with word := bitsPut d.word 24 4 (idxMask left) } :: k.aq.drop 1 }

/-- `HALF_RELEASE_END` (R88): a RELEASING half becomes EMPTY. -/
def execHalfReleaseEnd (c half : Nat) (s : State) : Res :=
  onUnit "core" 64 c <| onUnit "half" 4 half <|
    let k := s.core c
    if (k.half half).state = 3 then .next (s.setCore c (k.emptyHalf half)) else .next s

/-! ### Tables and masks -/

/-- Read a source in this core's window for PDSET, MSKSET or WTSET; a failed read faults (R104). -/
def State.arraySource (s : State) (n : Nat) (d : Dec) (len : Nat) (f : State → Nat → State) : State :=
  let r := s.readMem (s.coreWho n 3) (iAddr32 d.word) len
  if r.status ≠ 0 then r.state.coreFault n (accessCode r.status 0x09) d.seq else f r.state (leVal r.bytes)

/-- Take the head off the array queue, changing the core. -/
def State.arrayDone (s : State) (n : Nat) (f : CoreSt → CoreSt) : State :=
  let c := s.core n
  s.setCore n (f { c with aq := c.aq.drop 1 })

/-- A set references an entry of the pass descriptor table, so that PDSET waits (R84). -/
def CoreSt.pdHeld (c : CoreSt) (i : Nat) : Bool := c.sets.any (fun e => e.2.pd == i)

/-- An open or finishing pass uses a mask register, so that MSKSET waits (R84). -/
def CoreSt.maskHeld (c : CoreSt) (i : Nat) : Bool := c.sets.any (fun e => (e.2.state == 3 || e.2.state == 4) && e.2.maskSel == i)

/-- `PDSET` (R84-R86, R110, R291). -/
def execPdset (c : Nat) (s : State) : Res :=
  s.arrayRow c 0x23 (fun _ => true) fun s k d =>
    let i := iSel d.word
    if k.pdHeld i then s
    else s.arraySource c d 32 fun s v =>
      let r := (s.core c).resolvePd v
      match lowest (s.pdFaults c r.1 r.2) with
      | some code => s.coreFault c code d.seq
      | none => s.arrayDone c fun k => { k with pd := tset (fun _ => 0) i r.1 k.pd }

/-- `MSKSET` (R84): it waits while an open or finishing pass uses the register. -/
def execMskset (c : Nat) (s : State) : Res :=
  s.arrayRow c 0x24 (fun _ => true) fun s k d =>
    let i := bitsAt d.word 24 2
    if k.maskHeld i then s
    else s.arraySource c d 32 fun s v =>
      s.arrayDone c fun k => { k with mr := tset (fun _ => (0, 0)) i (v % 2 ^ 128, v / 2 ^ 128) k.mr }

/-- `WTSET` (R84, R119): an entry with a reserved bit set faults with 0x02. -/
def execWtset (c : Nat) (s : State) : Res :=
  s.arrayRow c 0x25 (fun _ => true) fun s k d =>
    let i := bitsAt d.word 24 2
    if k.sets.any (fun e => e.2.feeding && e.2.feedWt == some i) then s
    else s.arraySource c d 16 fun s v =>
      if (List.range 16).any (fun e => bitsAt v (8 * e + 6) 2 != 0) then s.coreFault c 0x02 d.seq
      else s.arrayDone c fun k => { k with wt := tset (fun _ => 0) i v k.wt }

/-! ### Fill (R93, R155-R163) -/

/-- The array reads or writes a pass record (R157). -/
def State.passWho (s : State) (n : Nat) : Who := { s.coreWho n 3 with pass := true }

/-- The MMA that a fill can be claimed for (R93): the first with `OPEN` in the array queue, its descriptor final, with no
PDSET of its entry and no MSKSET of its mask register ahead of it. -/
def CoreSt.claimant (c : CoreSt) : Option Dec :=
  let ahead := c.aq.takeWhile (fun d => !(iMajor d.word == 0x20 && mmaOpen d.word))
  match c.aq.drop ahead.length with
  | [] => none
  | d :: _ =>
    if ahead.any (fun a => (iMajor a.word == 0x23 && iSel a.word == mmaPd d.word) ||
        (iMajor a.word == 0x24 && mmaMask d.word != 0 && bitsAt a.word 24 2 == mmaMask d.word)) then none
    else some d

/-- The set that can be claimed now, and for which MMA (R93): one claim at a time, and set 0 first. -/
def State.claimable (s : State) (n : Nat) : Option (Nat × Dec) :=
  let c := s.core n
  match if (s.split n).isSome then none else c.claimant with
  | none => none
  | some d =>
    let desc := tget (fun _ => 0) (mmaPd d.word) c.pd
    if !pdStart desc then none
    else if c.sets.any (fun e => e.2.claimSeq.isSome) then none
    else if c.setFree 0 then some (0, d)
    else if c.setFree 1 then some (1, d)
    else none

/-- `ACC_CLAIM` (R93): the set enters FILLING. -/
def execAccClaim (c : Nat) (s : State) : Res :=
  onUnit "core" 64 c <|
    let t := s.forArray c
    match t.claimable c with
    | none => .next t
    | some e =>
      let k := t.core c
      .next (t.setCore c (k.setSet e.1 (k.openSet e.2.word e.2.seq 1)))

/-- Offset of element `k` = 128 · i + j in the pass area (R155). -/
def passOff (k : Nat) : Nat := 0x1000 + 9 * k
/-- Offset of an element's ledger entry (R155). -/
def ledgerOff (k : Nat) : Nat := 0x25000 + 16 * k

/-- The fault code of a failed pass traffic access: uncorrectable 0x0C, else 0x08. -/
def passCode (status : Nat) : Nat := if status = stUncorrectable then 0x0C else 0x08

/-- Read a list of elements of `size` bytes of a pass record, ascending: the wide port decodes each protection unit once (R227). The
accumulator of the fold holds the first word not decoded yet and the units delivered wrong. -/
def State.readElems (s : State) (n base size : Nat) (off : Nat → Nat) (l : List Nat) : Rd × List (Nat × Nat) :=
  let r := l.foldl (fun (a : (State × Nat) × (Nat × List Nat) × List (Nat × Nat)) k =>
    if a.1.2 ≠ 0 then a
    else
      let s := a.1.1
      let at_ := base + off k
      let c := s.checkAccess (s.passWho n) at_ size
      if c ≠ 0 then ((s, c), a.2)
      else
        let ws := (wordsOf at_ size).filter (a.2.1.1 ≤ ·)
        let u := s.decodeUnits (s.passWho n) ws
        let next := ws.foldl (fun m x => let h := u.1.unitOf x; max m (h.1 + h.2)) a.2.1.1
        let bad := a.2.1.2 ++ u.2.2
        ((u.1.drew u.2.2, u.2.1), (next, bad), a.2.2 ++ [(k, leVal ((List.range size).map (fun i => u.1.decodedByte bad (at_ + i))))]))
    ((s, 0), (0, []), [])
  (⟨r.1.1, r.1.2, []⟩, r.2.2)

/-- Write a list of elements of `size` bytes of a pass record; the wide port writes whole protection units, so none is read (R227). -/
def State.writeElems (s : State) (n base size : Nat) (off : Nat → Nat) (l : List (Nat × Nat)) : State × Nat :=
  l.foldl (fun (a : State × Nat) e =>
    if a.2 ≠ 0 then a
    else
      let at_ := base + off e.1
      let c := a.1.checkAccess (a.1.passWho n) at_ size
      if c ≠ 0 then (a.1, c)
      else ((a.1.openUnits (a.1.passWho n) (wordsOf at_ size) (fun _ => true)).1.storeBytes at_ (leBytes size e.2), 0)) (s, 0)

/-- Header fields (R156): `OPEN`, `LEDGER_VALID`, `KIND`, `LAPSED`, `OVF_SEEN` as bits 0-4. -/
def hdrFlag (h : Bytes) (b : Nat) : Bool := bitOf (leAt h 0 1) b

/-- A set other than `u` whose pass was opened before it has not finished its drain to the record of `base` (R158). -/
def CoreSt.recordBusy (c : CoreSt) (u base : Nat) : Bool :=
  c.sets.any (fun e => e.1 != u && pdUsesRecord e.2.desc && pdPassBase e.2.desc == base &&
    (match e.2.claimSeq, (c.set u).claimSeq with
    | some a, some b => decide (a < b)
    | _, _ => true))

/-- `FILL_COMPLETE` (R105, R158, R163): the header is checked; a record that does not fit starts the set fresh and sets
`REC_INVALID`. The set becomes READY. -/
def execFillComplete (c u : Nat) (s : State) : Res :=
  onUnit "core" 64 c <| onUnit "set" 2 u <|
    let x := (s.core c).set u
    if x.state ≠ 1 then .next s
    else if (s.core c).recordBusy u (pdPassBase x.desc) then .next s
    else
      let seq := x.claimSeq.getD 0
      let base := pdPassBase x.desc
      let h := s.readMem (s.passWho c) base 64
      if h.status ≠ 0 then .next (h.state.coreFault c (passCode h.status) seq)
      else
        let s := h.state
        let hd := h.bytes
        let put (s : State) (x : AccSet) : State := s.setCore c ((s.core c).setSet u x)
        if !hdrFlag hd 0 || leAt hd 1 1 != x.mode || hdrFlag hd 2 != x.b64 then .next ((put s { x with state := 2 }).setNsw c nswRecInvalid)
        else
          let r := s.readElems c base 9 passOff (x.acc.map (·.1))
          if r.1.status ≠ 0 then .next (r.1.state.coreFault c (passCode r.1.status) seq)
          else
            let y : AccSet := { x with
              state := 2, acc := r.2, hdr := hd, resumed := true, lapsed := hdrFlag hd 3, ovf := hdrFlag hd 4
              hdrAdds := leAt hd 4 4, hdrProducts := leAt hd 8 8 }
            .next ((put r.1.state y).setNswIf (hdrFlag hd 3) c nswLapsed)

/-! ### Feed end, final, spill (R93, R94, R160-R162) -/

/-- The epilogue code at `pc`, to its VEEND (R201): fault 0x01 for another class, 0x0F with no VEEND in 256 instructions
or a fetch outside the permitted memories. DESIGN CHOICE (log entry 91): the faults 0x01-0x04 of an epilogue instruction's word come as the
buffer is fetched, before any instruction of the epilogue runs. DESIGN CHOICE (log entry 95): an `EPI_PC` that is no multiple of 16 is a fetch
outside the permitted memories. -/
def State.fetchEpi (s : State) (n : Nat) : Nat → Nat → List Nat → Rd × List Nat × Nat
  | 0, _, l => (⟨s, 0, []⟩, l, 0x0F)
  | k + 1, pc, l =>
    if !(pc % 16 == 0 && (inWindow n pc (pc + 16) || inSlice pc (pc + 16))) then (⟨s, 0, []⟩, l, 0x0F)
    else
      let r := s.readMem (s.coreWho n 4) pc 16
      if r.status ≠ 0 then (r, l, accessCode r.status 0x0F)
      else
        let w := (s.core n).resolve (leVal r.bytes)
        match lowest (wordFaults n true w.1 ++ w.2) with
        | some code => (r, l, code)
        | none => if iMajor w.1 = 0x39 ∧ iMinor w.1 = 0 then (r, l ++ [w.1], 0) else r.state.fetchEpi n k (pc + 16) (l ++ [w.1])

/-- Fetch a parcel's epilogue unless the buffer holds it (R201). -/
def State.loadEpi (s : State) (n pc seq : Nat) : State :=
  if (s.core n).epiPc = some pc then s
  else
    let r := s.fetchEpi n 256 pc []
    if r.2.2 ≠ 0 then r.1.state.coreFault n r.2.2 seq
    else r.1.state.setCore n { r.1.state.core n with epiPc := some pc, epiCode := r.2.1 }

/-- `FEED_END` (R90, R93, R201): the MMA of the set has finished feeding. The set of a closing MMA enters FINISHING; a final pass joins the
epilogues, and the buffer is loaded now if no earlier epilogue still needs it. DESIGN CHOICE (log entry 91): the row stands for the end of
feeding of an MMA that does not close its pass too, whose set stays ACTIVE. -/
def execFeedEnd (c u : Nat) (s : State) : Res :=
  onUnit "core" 64 c <| onUnit "slot" 64 u <|
    let k := s.core c
    let x := k.set u
    if x.state = 3 ∧ x.feeding ∧ x.closeSeq.isNone then .next (s.setCore c (k.setSet u { x with feeding := false, feedWt := none }))
    else if x.state = 3 ∧ x.feeding then
      let seq := x.closeSeq.getD 0
      let k := k.setSet u { x with state := 4, feeding := false, feedWt := none }
      if pdFinal x.desc then
        let first := k.epis.isEmpty
        let e : Epi := { set := u, seq := seq, desc := x.desc, pc := pdEpiPc x.desc, rows := x.rows, cols := x.cols, orgM := x.orgM
                         orgN := x.orgN, started := false, ip := 0, taken := 0 }
        let s := s.setCore c { k with epis := k.epis ++ [e] }
        .next (if first then s.loadEpi c e.pc seq else s)
      else .next (s.setCore c k)
    else .next s

/-- `PARCEL_FINAL` (R93, R94): the set enters DRAINING. -/
def execParcelFinal (c u : Nat) (s : State) : Res :=
  onUnit "core" 64 c <| onUnit "slot" 64 u <|
    let k := s.core c
    let x := k.set u
    if x.state = 4 then .next (s.setCore c (k.setSet u { x with state := 5 })) else .next s

/-- A fold or final drain event (R171, R172). -/
def drainEvent (x : AccSet) (u k cause : Nat) : NumEv :=
  { unit := 1, cause := cause, seq := x.closeSeq.getD 0, group := 0xFFFF, x := k / 128, y := k % 128, set := u % 2, orgM := x.orgM
    orgN := x.orgN, kblk := x.kblk, opa := 0, opb := 0, scales := 0x7F7F }

/-- A ledger entry (R159). -/
def ledgerOf (s c : Val) : Nat := fB64.enc s + 2 ^ 64 * fB64.enc c

/-- FOLD of R161: the new ledger entry, whether it overflowed, and whether opposite infinities met. -/
def foldEntry (mode old : Nat) (s c : Val) : Nat × Bool × Bool :=
  let ls := fB64.dec (old % 2 ^ 64)
  let lc := fB64.dec (old / 2 ^ 64)
  if 3 ≤ mode ∧ mode ≤ 5 then (ledgerOf (if mode = 4 then vmin ls s else vmax ls s) vzero, false, false)
  else
    let a := addComp fB64 ls lc s
    let b := addComp fB64 a.s a.c c
    (ledgerOf b.s b.c, a.ovf || b.ovf, a.opp || b.opp)

/-- The header of R156. -/
def headerBytes (flags mode passes adds products rows cols : Nat) : Bytes :=
  leBytes 1 flags ++ leBytes 1 mode ++ leBytes 1 passes ++ leBytes 1 0 ++ leBytes 4 (min adds (2 ^ 32 - 1)) ++
    leBytes 8 (min products (2 ^ 64 - 1)) ++ leBytes 16 rows ++ leBytes 16 cols ++ zeros 16

/-- Core `n` may write the pass record at `base` (R303): a member of a replay group only in its gang-lifetime regions and its
staging. -/
def State.mayWritePass (s : State) (n base : Nat) : Bool := s.groupMayWrite n base (base + passRecordSize)

/-- A spill drain (R160, R161, R103): the pass area or the ledger, then the header; a failed access faults the core. DESIGN CHOICE (log
entry 91): a fold reads the ledger's enabled entries before it writes any, so that a failed read (R165) leaves the ledger as it was. -/
def State.spill (s : State) (n u : Nat) (x : AccSet) (sp : Bool) : State :=
  let c := s.core n
  let seq := x.closeSeq.getD 0
  let base := pdPassBase x.desc
  let ledger := x.resumed && hdrFlag x.hdr 1
  let passes := (if x.resumed then leAt x.hdr 2 1 else 0) + (if sp then 0 else 1)
  let adds := (if x.resumed then leAt x.hdr 4 4 else 0) + x.groupAdds
  let products := (if x.resumed then leAt x.hdr 8 8 else 0) + x.products
  let rows := (if x.resumed then leAt x.hdr 16 16 else 0) ||| x.rows
  let cols := (if x.resumed then leAt x.hdr 32 16 else 0) ||| x.cols
  let fold := !sp && decide (c.spill + 1 ≤ passes)
  let covers := rows == 0 || cols == 0 || (rows == x.rows && cols == x.cols)
  let flags (lv ovf : Bool) : Nat := 1 + 2 * b2n lv + 4 * b2n x.b64 + 8 * b2n x.lapsed + 16 * b2n ovf
  let finish (r : State × Nat) (hd : Bytes) : State :=
    if r.2 ≠ 0 then r.1.coreFault n (passCode r.2) seq
    else
      let w := r.1.writeMem (r.1.passWho n) base hd
      if w.2 ≠ 0 then w.1.coreFault n (passCode w.2) seq else w.1.setCore n ((w.1.core n).freeSet u)
  if !s.mayWritePass n base then s.coreFault n 9 seq
  else if !fold then finish (s.writeElems n base 9 passOff x.acc) (headerBytes (flags ledger x.ovf) x.mode passes adds products rows cols)
  else
    let old := if ledger then s.readElems n base 16 ledgerOff (x.acc.map (·.1)) else (⟨s, 0, []⟩, x.acc.map (fun e => (e.1, 0)))
    if old.1.status ≠ 0 then old.1.state.coreFault n (passCode old.1.status) seq
    else
      let entries := (x.acc.zip old.2).map (fun e =>
        let sv := contSum x.b64 e.1.2
        let cv := contComp x.b64 e.1.2
        (e.1.1, if ledger then foldEntry x.mode e.2.2 sv cv else (ledgerOf sv cv, false, false)))
      let ovf := entries.any (fun e => e.2.2.1)
      let ev := entries.foldl (fun a e => if e.2.2.2 then a.add (drainEvent x u e.1 7) else a) EvSum.none
      let w := old.1.state.writeElems n base 16 ledgerOff (entries.map (fun e => (e.1, e.2.1)))
      let w := if w.2 ≠ 0 then w else w.1.writeElems n base 9 passOff (x.acc.map (fun e => (e.1, contOf x.b64 (freshSum x.mode) vzero)))
      let hd := headerBytes (flags true (x.ovf || ovf)) x.mode 0 (if covers then 0 else adds) products (if covers then 0 else rows) (if covers then 0 else cols)
      ((finish w hd).setNswIf ovf n nswAccOvf).numEvents n ev

/-- `SPILL_DRAIN_COMPLETE` (R95, R158, R160): drains to one record apply in the order in which their passes closed. -/
def execSpillDrainComplete (c u : Nat) (s : State) : Res :=
  onUnit "core" 64 c <| onUnit "slot" 64 u <|
    let k := s.core c
    let x := k.set u
    if x.state = 5 ∧ !pdFinal x.desc then
      if k.sets.any (fun e => e.1 != u && e.2.closeSeq.isSome && decide (e.2.order < x.order) && pdUsesRecord e.2.desc &&
          pdPassBase e.2.desc == pdPassBase x.desc) then .next s
      else .next (s.spill c u x (s.split c).isSome)
    else .next s

/-- The exact parcel result of an element of a set (R162), and whether opposite infinities met; `led` is the ledger entry
when there is one. -/
def exactResult (x : AccSet) (cont : Nat) (led : Option Nat) : Val × Bool :=
  let s := contSum x.b64 cont
  let c := contComp x.b64 cont
  let l := match led with
    | none => (vzero, vzero)
    | some w => (fB64.dec (w % 2 ^ 64), fB64.dec (w / 2 ^ 64))
  if 3 ≤ x.mode ∧ x.mode ≤ 5 then
    (match led with
      | none => s
      | some _ => if x.mode = 4 then vmin l.1 s else vmax l.1 s, false)
  else
    let terms := [l.1, l.2, s, c]
    let v := terms.foldl vadd vzero
    (v, v.isNan && !terms.any (·.isNan))

/-- Take the exact results of elements [from, from + count) of a draining set in drain order (R162, R165): the ledger is
read where the pass resumed a record that has one. -/
def State.drainTake (s : State) (n u start count : Nat) : Rd × List (Nat × Val) × EvSum :=
  let x := (s.core n).set u
  let els := (x.acc.drop start).take count
  let ledger := x.resumed && hdrFlag x.hdr 1
  let led := if ledger then s.readElems n (pdPassBase x.desc) 16 ledgerOff (els.map (·.1)) else (⟨s, 0, []⟩, [])
  if led.1.status ≠ 0 then (led.1, [], EvSum.none)
  else
    let vals := els.map (fun e => (e.1, exactResult x e.2 ((led.2.find? (fun l => l.1 == e.1)).map (·.2))))
    (led.1, vals.map (fun e => (e.1, e.2.1)), vals.foldl (fun a e => if e.2.2 then a.add (drainEvent x u e.1 8) else a) EvSum.none)

/-- The final drain of the parcel that MMA `seq` closed on set `u` ends (R162, R204): a resumed record's `OPEN` clears, and the
set becomes IDLE. A set that is IDLE already, or holds a later pass, stays as it is. -/
def State.endDrain (s : State) (n u seq : Nat) : State :=
  let x := (s.core n).set u
  if x.closeSeq ≠ some seq then s
  else if x.resumed ∧ !s.mayWritePass n (pdPassBase x.desc) then s.coreFault n 9 seq
  else if x.resumed then
    let w := s.writeMem (s.passWho n) (pdPassBase x.desc) (leBytes 1 (leAt x.hdr 0 1 &&& 0xFE))
    if w.2 ≠ 0 then w.1.coreFault n (passCode w.2) seq else w.1.setCore n ((w.1.core n).freeSet u)
  else s.setCore n ((s.core n).freeSet u)

/-! ### Residency deadlock (R92) -/

/-- `RESIDENCY_DEADLOCK` (R92). DESIGN CHOICE (log entry 91): `FAULT_SEQ` takes the number of the waiting array head, else of the loader
head. -/
def execResidencyDeadlock (c : Nat) (s : State) : Res :=
  onUnit "core" 64 c <|
    let t := s.decodeAll c
    let k := t.core c
    let quiet := k.notFeeding && !k.sets.any (fun e => e.2.state == 1 || e.2.state == 4 || e.2.state == 5) && k.loading.isEmpty &&
      !k.halves.any (fun h => h.2.state == 3) && (t.claimable c).isNone
    let headWaits : Bool := match k.aq with
      | [] => true
      | d :: _ => iMajor d.word == 0x20 && (match t.split c with
          | some sp => (k.splitFaults d.word sp).isEmpty && !k.mmaResident d.word
          | none => mmaOpen d.word == k.openPass.isNone && (!k.mmaResident d.word || (mmaOpen d.word && (k.openTarget d).isNone)))
    let loaderWaits : Bool := match k.lq with
      | [] => true
      | d :: _ => (k.half (opldHalf d.word)).state != 0
    match k.aq ++ k.lq with
    | [] => .next t
    | d :: _ => if k.run = 1 ∧ quiet ∧ headWaits ∧ loaderWaits ∧ t.deadStall c then .next (t.coreFault c 0x0B d.seq) else .next t

end Sys2Proof.Machine
end

