-- ==== Sys2Proof/Machine/Sfu.lean ====
section
/-! DEFINITION. The special functions (R188-R190). SQRT and DIV are correctly rounded. Every other function is a free
fixed mapping within its bound: the free bits stand when they lie within the bound of the exact value, which is computed
here in fixed point to hundreds of bits below any result, and the rounded exact value stands in for bits outside it. -/

namespace Sys2Proof.Machine

/-- Fraction bits of the fixed-point arithmetic. -/
def fxP : Nat := 768

/-- One. -/
def fxOne : Int := 2 ^ fxP

/-- Fixed-point product. -/
def fxMul (a b : Int) : Int := a * b / fxOne

/-- Fixed-point quotient. -/
def fxDiv (a b : Int) : Int := if b = 0 then 0 else a * fxOne / b

/-- A finite value in fixed point. -/
def toFx : Val → Int
  | .fin m e => let q := e + fxP; if 0 ≤ q then m * 2 ^ q.toNat else m / 2 ^ (-q).toNat
  | _ => 0

/-- A fixed-point number as a value. -/
def ofFx (a : Int) : Val := .fin a (-fxP)

/-- The terms of e^r from the i-th on, `t` being the i-th. -/
def expTerms (r : Int) : Nat → Nat → Int → Int
  | 0, _, _ => 0
  | k + 1, i, t => t + expTerms r k (i + 1) (fxMul t r / (i + 1 : Nat))

/-- The odd power series y + y³/3 + y⁵/5 + …, from the i-th power `t` on; with `alt` the signs alternate. -/
def oddTerms (y2 : Int) (alt : Bool) : Nat → Nat → Int → Int
  | 0, _, _ => 0
  | k + 1, i, t => t / (i : Nat) + oddTerms y2 alt k (i + 2) (if alt then -(fxMul t y2) else fxMul t y2)

/-- ln m for a fixed-point m near 1. -/
def fxLn (m : Int) : Int :=
  let y := fxDiv (m - fxOne) (m + fxOne)
  2 * oddTerms (fxMul y y) false 260 1 y

/-- ln 2. -/
def fxLn2 : Int := fxLn (2 * fxOne)

/-- e^x for a fixed-point x of moderate size, as a value: 2^k · e^r. -/
def fxExp (x : Int) : Val :=
  let k := (x + fxLn2 / 2) / fxLn2
  vscale (ofFx (expTerms (x - k * fxLn2) 160 0 fxOne)) k

/-- π by Machin's formula. -/
def fxPi : Int :=
  let at_ (n : Int) : Int := let y := fxOne / n; oddTerms (fxMul y y) true 180 1 y
  4 * (4 * at_ 5 - at_ 239)

/-- The alternating series of sine (from t = x, i = 1) and cosine (from t = 1, i = 0). -/
def trigTerms (x2 : Int) : Nat → Nat → Int → Int
  | 0, _, _ => 0
  | k + 1, i, t => t + trigTerms x2 k (i + 2) (-(fxMul t x2) / (((i + 1) * (i + 2) : Nat) : Int))

/-- An argument reduced to (-π, π]. -/
def fxReduce (x : Int) : Int :=
  let p2 := 2 * fxPi
  x - (x + fxPi) / p2 * p2

/-- The series of erf, z - z³/3 + z⁵/10 - …: the terms from the i-th on, `t` being (-1)^i z^(2i+1)/i!. -/
def erfTerms (z2 : Int) : Nat → Nat → Int → Int
  | 0, _, _ => 0
  | k + 1, i, t => t / (2 * i + 1 : Nat) + erfTerms z2 k (i + 1) (-(fxMul t z2) / (i + 1 : Nat))

/-- The square root of a fixed-point number. -/
def fxSqrt (a : Int) : Int := (isqrtFrom 800 (a * fxOne).toNat 0 : Nat)

/-- erf z: beyond |z| = 13 it is ±1 to far below any result. -/
def fxErf (z : Int) : Int :=
  if 13 * fxOne ≤ z then fxOne
  else if z ≤ -13 * fxOne then -fxOne
  else fxDiv (2 * erfTerms (fxMul z z) 900 0 z) (fxSqrt fxPi)

/-- The exact value of a function of a finite operand, as far as the bounds need it. Operands where the value is beyond
any result are cut off before the series; far below zero e^x stands for the sigmoid, which differs from it by less than 2^-200 of it. -/
def sfuExact (f : Nat) (a : Val) : Val :=
  let x := toFx a
  let cut (v : Int) : Int := max (-400 * fxOne) (min (400 * fxOne) v)
  let ln : Val → Int := fun v =>
    let k := vlog2 v
    fxLn (toFx (vscale v (-k))) + k * fxLn2
  let sig (x : Int) : Val :=
    let e := fxExp (cut x)
    vquot e (vadd (vint 1) e)
  match f with
  | 0x00 => vquot (vint 1) a
  | 0x01 => vquot (vint 1) (vsqrt a)
  | 0x04 => let x := cut x; fxExp (fxMul x fxLn2)
  | 0x05 => ofFx (fxDiv (ln a) fxLn2)
  | 0x06 => fxExp (cut x)
  | 0x07 => ofFx (ln a)
  | 0x08 => let e := fxExp (2 * cut x); vquot (vsub e (vint 1)) (vadd e (vint 1))
  | 0x09 => sig x
  | 0x0A => vmul a (if x < -150 * fxOne then fxExp (cut x) else sig x)
  | 0x0B => vscale (vmul a (ofFx (fxOne + fxErf (fxDiv (max (-30 * fxOne) (min (30 * fxOne) x)) (fxSqrt (2 * fxOne)))))) (-1)
  | 0x0C => ofFx (fxErf x)
  | 0x0D => let r := fxReduce x; ofFx (trigTerms (fxMul r r) 200 1 r)
  | 0x0E => let r := fxReduce x; ofFx (trigTerms (fxMul r r) 200 0 fxOne)
  | _ => vzero

/-- The bound in ulp of each function (R188). -/
def sfuUlps (f : Nat) : Int :=
  match f with
  | 0x00 => 1 | 0x01 => 1 | 0x04 => 1 | 0x05 => 1 | 0x0A => 3 | 0x0B => 4 | _ => 2

/-- The absolute bound of a function, where it has one (R188): for SIN and COS 2^-24, or 2^-20 beyond 2^18. -/
def sfuAbs (f : Nat) (a : Val) : Option Val :=
  match f with
  | 0x05 => some (.fin 1 (-22))
  | 0x07 => some (.fin 1 (-22))
  | 0x0D => some (if vlt (.fin 1 18) (vabs a) then .fin 1 (-20) else .fin 1 (-24))
  | 0x0E => some (if vlt (.fin 1 18) (vabs a) then .fin 1 (-20) else .fin 1 (-24))
  | _ => none

/-- Beyond 2^18 SIN and COS have their absolute bound alone (R188). -/
def sfuUlpBound (f : Nat) (a exact : Val) : Val :=
  if (f = 0x0D ∨ f = 0x0E) ∧ vlt (.fin 1 18) (vabs a) then vzero
  else .fin (sfuUlps f) ((if exact.isZero then -126 else max (vlog2 exact) (-126)) - 23)

/-- A result lies within the bound of R188. -/
def sfuWithin (f : Nat) (a exact r : Val) : Bool :=
  let d := vabs (vsub r exact)
  !r.isNan && !r.isInf && (!vlt (sfuUlpBound f a exact) d || (match sfuAbs f a with
    | some b => !vlt b d
    | none => false))

/-- The special cases of R188 for the functions of one operand: the result, with the cause of an event or 0. -/
def sfuSpecial (f : Nat) (a : Val) : Option (Val × Nat) :=
  match a with
  | .nan => some (.nan, 0)
  | .inf neg =>
    match f with
    | 0x00 => some (vzero, 0)
    | 0x01 => some (if neg then (.nan, 0x13) else (vzero, 0))
    | 0x02 => some (if neg then (.nan, 0x13) else (.inf false, 0))
    | 0x04 => some (if neg then vzero else .inf false, 0)
    | 0x05 => some (if neg then (.nan, 0x14) else (.inf false, 0))
    | 0x06 => some (if neg then vzero else .inf false, 0)
    | 0x07 => some (if neg then (.nan, 0x14) else (.inf false, 0))
    | 0x08 => some (vint (if neg then -1 else 1), 0)
    | 0x09 => some (if neg then vzero else vint 1, 0)
    | 0x0A => some (if neg then vzero else .inf false, 0)
    | 0x0B => some (if neg then vzero else .inf false, 0)
    | 0x0C => some (vint (if neg then -1 else 1), 0)
    | _ => some (.nan, 0x17)
  | .fin m _ =>
    if m = 0 then
      match f with
      | 0x00 => some (.inf false, 0)
      | 0x01 => some (.inf false, 0)
      | 0x02 => some (vzero, 0)
      | 0x05 => some (.inf true, 0)
      | 0x07 => some (.inf true, 0)
      | _ => none
    else if m < 0 then
      match f with
      | 0x01 => some (.nan, 0x13)
      | 0x02 => some (.nan, 0x13)
      | 0x05 => some (.nan, 0x14)
      | 0x07 => some (.nan, 0x14)
      | _ => none
    else none

/-- One evaluation in binary32 of a function of one operand: the result and the cause of its event, or 0 (R188, R190). -/
def sfuEval (f : Nat) (a : Val) : Val × Nat :=
  match sfuSpecial f a with
  | some r => r
  | none =>
    if f = 0x02 then (fB32.rne (vsqrt a), 0)
    else
      let exact := sfuExact f a
      let near := fB32.rne exact
      let free := fB32.dec (Config.sfu f (BitVec.ofNat 32 (fB32.enc a))).toNat
      (if near.isInf then near else if sfuWithin f a exact free then free else near, 0)

/-- DIV (R188): correctly rounded. -/
def sfuDiv (a b : Val) : Val × Nat :=
  if a.isNan || b.isNan then (.nan, 0)
  else if (a.isZero && b.isZero) || (a.isInf && b.isInf) then (.nan, 0x12)
  else if a.isInf then (.inf (vneg? a != vneg? b), 0)
  else if b.isInf then (vzero, 0)
  else if b.isZero then (.inf (vneg? a), 0)
  else (fB32.rne (vquot a b), 0)

end Sys2Proof.Machine
end

