-- ==== Sys2Proof/Machine/Vector.lean ====
section
/-! DEFINITION. The lanelet vector engine (R177-R212): registers and predicates, arithmetic, special functions,
reductions, permutation, loads and stores, conversion and store, the epilogue and engine control. An instruction reads
all its register operands before it writes. -/

namespace Sys2Proof.Machine

/-! ### Registers (R177, R178) -/

/-- Word `w` of register `r`. -/
def CoreSt.vword (c : CoreSt) (r w : Nat) : Nat := (tget (fun _ => 0) (r * 8192 + w) c.vregs).toNat

/-- Replace a word of a register. -/
def CoreSt.setVword (c : CoreSt) (r w v : Nat) : CoreSt :=
  { c with vregs := tset (fun _ => 0) (r * 8192 + w) (BitVec.ofNat 32 v) c.vregs }

/-- The raw bits of element `e` of register `r` in type `et` (R178). -/
def CoreSt.vget (c : CoreSt) (et r e : Nat) : Nat :=
  if et = 1 then bitsAt (c.vword r (e / 2)) (16 * (e % 2)) 16 else c.vword r e

/-- Write the raw bits of an element. -/
def CoreSt.vput (c : CoreSt) (et r e v : Nat) : CoreSt :=
  if et = 1 then c.setVword r (e / 2) (bitsPut (c.vword r (e / 2)) (16 * (e % 2)) 16 v) else c.setVword r e v

/-- A predicate register: `VP0` reads as all ones (R177). -/
def CoreSt.pred (c : CoreSt) (p : Nat) : Nat := if p = 0 then 2 ^ 8192 - 1 else tget (fun _ => 0) p c.preds

/-- Replace a predicate register. -/
def CoreSt.setPred (c : CoreSt) (p v : Nat) : CoreSt := { c with preds := tset (fun _ => 0) p v c.preds }

/-- The format of a floating-point element type. -/
def etFmt (et : Nat) : Fmt := if et = 1 then fBF16 else fB32

/-- The value of raw element bits: a signed integer for int32. -/
def etVal (et raw : Nat) : Val := if et = 2 then vint (signed 32 raw) else (etFmt et).dec raw

/-- Round a value into a floating-point element type (R186), as raw bits with R121 and R122 applied. -/
def etEnc (et : Nat) (v : Val) : Nat := (etFmt et).enc ((etFmt et).rne v)

/-- The raw bits as the die writes them: +0 for a zero and the canonical NaN (R121, R122). -/
def etCanon (et raw : Nat) : Nat := if et = 2 then raw else (etFmt et).enc ((etFmt et).dec raw)

/-- Bytes of an element in memory (R194). -/
def etSize (et : Nat) : Nat := if et = 1 then 2 else 4

/-! ### One instruction in a context -/

/-- What a vector instruction leaves: the state, its numeric events, and a fault code (0 for none). -/
structure VecOut where
  state : State
  ev : EvSum
  code : Nat

/-- A finished instruction without event. -/
def vecOk (s : State) : VecOut := ⟨s, EvSum.none, 0⟩

/-- The event of element `e` of an instruction (R172, R210). -/
def laneEvent (seq cause e opa opb : Nat) : NumEv :=
  { unit := 2, cause := cause, seq := seq, group := 0, x := e, y := 0, set := 0, orgM := 0, orgN := 0, kblk := 0, opa := opa, opb := opb
    scales := 0x7F7F }

/-- Registers that the word reads, each with the number of its words that elements below `n` occupy. -/
def vecReads (w : Nat) : List Nat := match vForm w with
  | some f => f.reads
  | none => []

/-- Lane `e` of register `r` is read by the word (R183, R193): an active lane; for SEL the operand that the lane takes; for VPERM's source
the lanes that an active index names. -/
def CoreSt.laneRead (c : CoreSt) (w r e : Nat) : Bool :=
  let on (e : Nat) : Bool := bitOf (c.pred (vVp w)) e
  if iMajor w = 0x30 ∧ iMinor w = 0x0A then (on e && r == vVa w) || (!on e && r == vVb w)
  else if iMajor w = 0x34 then r == vVa w && (List.range (vCount w)).any (fun i => on i && c.vword (vVb w) i == e)
  else if iMajor w = 0x35 then false
  else if iMajor w = 0x36 then on e && r == vVa w
  else on e

/-- Register `r` gives the word a 32-bit index per element, whatever `ET` is (R193, R194). -/
def isIndexReg (w r : Nat) : Bool := r == vVb w && (iMajor w == 0x34 || ((iMajor w == 0x35 || iMajor w == 0x36) && iMinor w == 2))

/-- The word reads an element that lies in the `p`-th 8 bytes of register `r`. -/
def CoreSt.pairRead (c : CoreSt) (w r p : Nat) : Bool :=
  let els (k : Nat) : List Nat := ((List.range k).map (p * k + ·)).filter (· < vCount w)
  (isIndexReg w r && (els 2).any (fun e => bitOf (c.pred (vVp w)) e)) || (els (if vEt w = 1 then 4 else 2)).any (c.laneRead w r)

/-- The words with flipped bits in the registers that the instruction reads (R183, R436); what it does not read, beyond its count or in
an inactive lane, is not among them. -/
def State.vecFlips (s : State) (n w : Nat) : List (Nat × Nat) :=
  let reads := vecReads w
  s.ecc.filter (fun e => decide (eccVector n 0 ≤ e.1) && (
    let r := (e.1 - eccVector n 0) / 4096
    reads.contains r && (s.core n).pairRead w r ((e.1 - eccVector n 0) % 4096)))

/-- An uncorrectable error in a register that the instruction reads, as the error's key (R436). -/
def State.vecError (s : State) (n w : Nat) : Option Nat := ((s.vecFlips n w).find? (fun e => decide (1 < e.2))).map (·.1)

/-- The byte of the registers that an error's key names, as its record gives it (R484). -/
def vecByte (n key : Nat) : Nat := (key - eccVector n 0) * 8

/-- The correctable errors in the registers that the instruction reads are corrected and recorded (R435). -/
def State.vecMend (s : State) (n w : Nat) : State :=
  ((s.vecFlips n w).filter (fun e => e.2 == 1)).foldl (fun t e => (t.setFlips e.1 0).noteCe (s.coreWho n 2) 6 0 n (vecByte n e.1)) s

/-- The epilogue of a parcel that closed before `seq` has not ended (R206): it waits, runs, or its closing MMA has not
issued. -/
def CoreSt.epiPending (c : CoreSt) (seq : Nat) : Bool :=
  c.epis.any (fun e => decide (e.seq < seq)) ||
    c.sets.any (fun e => (match e.2.closeSeq with
      | some q => decide (q < seq)
      | none => false) && pdFinal e.2.desc) ||
    (c.finalCloses [] c.aq).any (fun d => decide (d.seq < seq))

/-- A main-context instruction must wait for R206: it writes `V8`-`V11`. -/
def CoreSt.sharedWait (c : CoreSt) (d : Dec) : Bool :=
  (match vForm d.word with
    | some f => f.writes.any (fun r => decide (8 ≤ r))
    | none => false) && c.epiPending d.seq

/-- Finish an instruction: a fault, or its events and the next instruction. A trap on an event of the instruction that faults has the
higher code, and so yields to its fault (R174). DESIGN CHOICE (log entry 95): an instruction whose event traps finishes all its elements
first. -/
def State.vecDone (_s : State) (n : Nat) (d : Dec) (o : VecOut) (next : CoreSt → CoreSt) : State :=
  if o.code ≠ 0 then (o.state.recordEvents n o.ev).coreFault n o.code d.seq
  else (o.state.setCore n (next (o.state.core n))).numEvents n o.ev

/-- Run an instruction unless a register it reads holds an uncorrectable error (R436). -/
def State.vecRun (s : State) (n : Nat) (d : Dec) (f : State → Nat → Dec → VecOut) : VecOut :=
  match s.vecError n d.word with
  | some key => ⟨(s.vecMend n d.word).noteUe (s.coreWho n 2) 6 0 n (vecByte n key), EvSum.none, 0x0C⟩
  | none => f (s.vecMend n d.word) n d

/-- Bytes of a converted row or segment of `m` elements (R111, R140, R198): MX elements packed, then their scales. -/
def rowBytes (target : Nat) (pair : Bool) (m : Nat) : Nat :=
  if target ≤ 5 then ceilDiv (m * targetBits target) 8 + ceilDiv m 32 else m * (targetBits target / 8) * (if pair then 2 else 1)

/-- The ck in which a direct VCST writes its segments of `seg` elements (R208). -/
def vcstWriteCk (w n seg : Nat) : Nat :=
  let one (m : Nat) : Nat := ceilDiv (rowBytes (iMinor w) (vImm w) m) 64
  n / seg * one seg + one (n % seg)

/-- The address of element `e` (R194). -/
def elemAddr (c : CoreSt) (w e : Nat) : Int :=
  let size := etSize (vEt w)
  match iMinor w with
  | 0 => (iAddr64 w + e * size : Nat)
  | 1 => (iAddr64 w + e * vAux16 w : Nat)
  | 2 => (iAddr64 w : Int) + signed 32 (c.vword (vVb w) e)
  | 3 => (iAddr64 w + e % vAux16 w * size : Nat)
  | _ => (iAddr64 w : Nat)

/-- The 64-byte lines that a gather's or a scatter's active elements lie in, of which one moves in a ck (R208). -/
def CoreSt.indexedLines (c : CoreSt) (w : Nat) : Nat :=
  ((((List.range (vCount w)).filter (bitOf (c.pred (vVp w)))).map (fun e => elemAddr c w e / 64)).eraseDups).length

/-- An address in the own cluster's slice or in the memory of another core of the cluster of core `n` (R208). -/
def inOwnCluster (n : Nat) (addr : Int) : Bool :=
  match if addr < 0 then none else memUnit addr.toNat with
  | some u => u != n && (u / 8 == n / 8 || u == 64 + n / 8)
  | none => false

/-- The ck in which the elements of a VLD or VST of core `n` move: 128 bytes per ck within the own cluster, else 64 (R208). -/
def CoreSt.moveCk (c : CoreSt) (n w : Nat) : Nat :=
  ceilDiv (((List.range (vCount w)).map (fun e => etSize (vEt w) * (if inOwnCluster n (elemAddr c w e) then 1 else 2))).sum) 128

/-- The occupancy of an instruction of core `core` in ck (R208), a gather or scatter at a line per ck, and at least 1 ck. -/
def CoreSt.vecOccupancy (c : CoreSt) (core w : Nat) : Nat :=
  let n := vCount w
  max 1 <|
    match iMajor w with
    | 0x30 => if vEt w = 1 then ceilDiv n 512 else ceilDiv n 256
    | 0x31 => if iMinor w = 2 ∨ iMinor w = 3 then ceilDiv n 16 else ceilDiv n 64
    | 0x32 => ceilDiv n 256
    | 0x33 => ceilDiv n 256 + 8
    | 0x34 => ceilDiv n 64
    | 0x35 => if iMinor w = 2 then c.indexedLines w else c.moveCk core w
    | 0x36 => if iMinor w = 2 then c.indexedLines w else c.moveCk core w
    | 0x37 => ceilDiv n 64
    | 0x38 => max (ceilDiv n 256) (vcstWriteCk w n (if vAux14 w = 0 then n else vAux14 w))
    | _ => if iMinor w = 1 ∨ iMinor w = 2 then 1 else ceilDiv n 256

/-- The next instruction of the main context satisfies `p`: run `f` on it (R208). -/
def State.vecMain (s : State) (n : Nat) (p : Nat → Bool) (f : State → Nat → Dec → VecOut) : Res :=
  onUnit "core" 64 n <|
    let t := s.forVector n
    match (t.core n).vq with
    | [] => .next t
    | d :: _ =>
      if !p d.word then .next t
      else if (t.core n).sharedWait d || t.heldBack (2 * n + 1) then .next t
      else
        let t := (t.charge (2 * n + 1) ((t.core n).vecOccupancy n d.word)).count Fld.CORE_VEC_ISSUE_CK_COUNT 1 n
        .next (t.vecDone n d (t.vecRun n d f) (fun c => { c with vq := c.vq.drop 1 }))

/-- The next instruction of the running epilogue satisfies `p`: run `f` on it (R201, R208, R210). -/
def State.vecEpi (s : State) (n : Nat) (p : Nat → Bool) (f : State → Nat → Dec → VecOut) : Res :=
  onUnit "core" 64 n <|
    let c := s.core n
    match c.epis with
    | [] => .next s
    | e :: _ =>
      match if e.started then c.epiCode[e.ip]? else none with
      | none => .next s
      | some w =>
        if !p w then .next s
        else
          let d : Dec := { seq := e.seq, word := w }
          let t := s.count Fld.CORE_VEC_EPI_CK_COUNT 1 n
          .next (t.vecDone n d (t.vecRun n d f) (fun c => match c.epis with
            | [] => c
            | x :: r => if x.seq = e.seq then { c with epis := { x with ip := x.ip + 1 } :: r } else c))

/-- An instruction that either context may hold. -/
def State.vecRow (s : State) (n : Nat) (epi : Bool) (p : Nat → Bool) (f : State → Nat → Dec → VecOut) : Res :=
  if epi then s.vecEpi n p f else s.vecMain n p f

/-- A word of major opcode `maj` and minor opcode `mi`. -/
def isOp (maj mi w : Nat) : Bool := iMajor w == maj && iMinor w == mi

/-! ### Element-wise work (R182, R183) -/

/-- One element's result: raw bits, the cause of an event or 0, and whether `INT_SAT` sets. -/
structure LaneOut where
  raw : Nat
  cause : Nat
  sat : Bool

/-- Element `e` is active (R183). -/
def CoreSt.active (c : CoreSt) (w e : Nat) : Bool := bitOf (c.pred (vVp w)) e

/-- Operand b of element `e`: the immediate or `VB` (R185). -/
def operandB (c : CoreSt) (w e : Nat) : Nat :=
  if vImm w then (if vEt w = 1 then vImm32 w % 65536 else vImm32 w) else c.vget (vEt w) (vVb w) e

/-- Apply a function of the raw operands a, b and c to each active element below n, writing `VD` in type `dt`; inactive
elements become +0 under `ZM` (R183). DESIGN CHOICE (log entry 91): the record of an event of a function with one operand takes as its
second operand (R175) the element of the register that the unused field `VB` names, V0. DESIGN CHOICE (log entry 95): every operand is read
before the first element is written, so that a `VD` that overlaps a source of another element layout takes the source's old values. -/
def State.laneMap (s : State) (n : Nat) (d : Dec) (dt : Nat) (f : Nat → Nat → Nat → LaneOut) : VecOut :=
  let w := d.word
  let c0 := s.core n
  let et := vEt w
  let r := (List.range (vCount w)).foldl (fun (a : CoreSt × EvSum × Bool) e =>
    if c0.active w e then
      let x := c0.vget et (vVa w) e
      let y := operandB c0 w e
      let o := f x y (c0.vget et (vVc w) e)
      (a.1.vput dt (vVd w) e o.raw, if o.cause = 0 then a.2.1 else a.2.1.add (laneEvent d.seq o.cause e x y), a.2.2 || o.sat)
    else (if vZm w then a.1.vput dt (vVd w) e 0 else a.1, a.2)) (c0, EvSum.none, false)
  let s := s.setCore n r.1
  ⟨if r.2.2 then s.put Fld.CORE_VEC_STATUS_INT_SAT 1 n else s, r.2.1, 0⟩

/-- A plain result. -/
def laneRaw (raw : Nat) : LaneOut := ⟨raw, 0, false⟩

/-- Sum with its event: opposite infinities (R186, R210). -/
def fpAdd (a b : Val) : Val × Nat :=
  let v := vadd a b
  (v, if v.isNan && !a.isNan && !b.isNan then 0x11 else 0)

/-- Product with its event: zero times infinity (R210). -/
def fpMul (a b : Val) : Val × Nat :=
  let v := vmul a b
  (v, if v.isNan && !a.isNan && !b.isNan then 0x10 else 0)

/-- Fused multiply-add with its event; the product is judged by its own operands (R185, R210). -/
def fpFma (a b c : Val) : Val × Nat :=
  let p := fpMul a b
  let q := fpAdd p.1 c
  (q.1, if p.2 ≠ 0 then p.2 else q.2)

/-- A floating-point or int32 operation of two operands by `ET`. -/
def arith (et : Nat) (fp : Val → Val → Val × Nat) (int : Int → Int → Int) (x y : Nat) : LaneOut :=
  if et = 2 then laneRaw (unsigned 32 (int (signed 32 x) (signed 32 y)))
  else
    let r := fp (etVal et x) (etVal et y)
    ⟨etEnc et r.1, r.2, false⟩

/-- No event. -/
def quiet2 (f : Val → Val → Val) (a b : Val) : Val × Nat := (f a b, 0)

/-- The word is VALU minor `mi`. -/
def isValu (mi w : Nat) : Bool := isOp 0x30 mi w

/-- `VALU_ADD` (R185, R186). -/
def execValuAdd (c : Nat) (epi : Bool) (s : State) : Res :=
  s.vecRow c epi (isValu 0x00) fun s n d => s.laneMap n d (vEt d.word) fun x y _ => arith (vEt d.word) fpAdd (· + ·) x y
/-- `VALU_SUB` (R185, R186). -/
def execValuSub (c : Nat) (epi : Bool) (s : State) : Res :=
  s.vecRow c epi (isValu 0x01) fun s n d =>
    s.laneMap n d (vEt d.word) fun x y _ => arith (vEt d.word) (fun a b => fpAdd a (vneg b)) (· - ·) x y
/-- `VALU_MUL` (R185, R186). -/
def execValuMul (c : Nat) (epi : Bool) (s : State) : Res :=
  s.vecRow c epi (isValu 0x02) fun s n d => s.laneMap n d (vEt d.word) fun x y _ => arith (vEt d.word) fpMul (· * ·) x y
/-- `VALU_FMA` (R185, R186). -/
def execValuFma (c : Nat) (epi : Bool) (s : State) : Res :=
  s.vecRow c epi (isValu 0x03) fun s n d => s.laneMap n d (vEt d.word) fun x y z =>
    let et := vEt d.word
    let r := fpFma (etVal et x) (etVal et y) (etVal et z)
    ⟨etEnc et r.1, r.2, false⟩
/-- `VALU_FNMA` (R185, R186). -/
def execValuFnma (c : Nat) (epi : Bool) (s : State) : Res :=
  s.vecRow c epi (isValu 0x04) fun s n d => s.laneMap n d (vEt d.word) fun x y z =>
    let et := vEt d.word
    let r := fpFma (vneg (etVal et x)) (etVal et y) (etVal et z)
    ⟨etEnc et r.1, r.2, false⟩
/-- `VALU_MAX` (R123, R185). -/
def execValuMax (c : Nat) (epi : Bool) (s : State) : Res :=
  s.vecRow c epi (isValu 0x05) fun s n d => s.laneMap n d (vEt d.word) fun x y _ => arith (vEt d.word) (quiet2 vmax) max x y
/-- `VALU_MIN` (R123, R185). -/
def execValuMin (c : Nat) (epi : Bool) (s : State) : Res :=
  s.vecRow c epi (isValu 0x06) fun s n d => s.laneMap n d (vEt d.word) fun x y _ => arith (vEt d.word) (quiet2 vmin) min x y
/-- `VALU_ABS` (R185). -/
def execValuAbs (c : Nat) (epi : Bool) (s : State) : Res :=
  s.vecRow c epi (isValu 0x07) fun s n d =>
    s.laneMap n d (vEt d.word) fun x _ _ => arith (vEt d.word) (quiet2 fun a _ => vabs a) (fun a _ => a.natAbs) x 0
/-- `VALU_NEG` (R185). -/
def execValuNeg (c : Nat) (epi : Bool) (s : State) : Res :=
  s.vecRow c epi (isValu 0x08) fun s n d =>
    s.laneMap n d (vEt d.word) fun x _ _ => arith (vEt d.word) (quiet2 fun a _ => vneg a) (fun a _ => -a) x 0
/-- `VALU_MOV` (R185). -/
def execValuMov (c : Nat) (epi : Bool) (s : State) : Res :=
  s.vecRow c epi (isValu 0x09) fun s n d => s.laneMap n d (vEt d.word) fun x _ _ => laneRaw (etCanon (vEt d.word) x)

/-- `VALU_SEL` (R185): every element below n is written, and `ZM` is ignored. -/
def execValuSel (c : Nat) (epi : Bool) (s : State) : Res :=
  s.vecRow c epi (isValu 0x0A) fun s n d =>
    let w := d.word
    let c0 := s.core n
    let et := vEt w
    vecOk (s.setCore n ((List.range (vCount w)).foldl (fun k e =>
      k.vput et (vVd w) e (etCanon et (if c0.active w e then c0.vget et (vVa w) e else operandB c0 w e))) c0))

/-- `VALU_I2F` (R185). -/
def execValuI2f (c : Nat) (epi : Bool) (s : State) : Res :=
  s.vecRow c epi (isValu 0x0B) fun s n d => s.laneMap n d 0 fun x _ _ => laneRaw (etEnc 0 (vint (signed 32 x)))

/-- F2I: to nearest with ties to even, saturating; a NaN gives 0 (R185). -/
def f2i (v : Val) : LaneOut :=
  match v with
  | .nan => ⟨0, 0, true⟩
  | .inf neg => ⟨if neg then 2 ^ 31 else 2 ^ 31 - 1, 0, true⟩
  | .fin m e =>
    let k := rneMag m.natAbs e 0
    let i : Int := if m < 0 then -(k : Int) else k
    if i < -(2 ^ 31) then ⟨2 ^ 31, 0, true⟩
    else if 2 ^ 31 - 1 < i then ⟨2 ^ 31 - 1, 0, true⟩
    else laneRaw (unsigned 32 i)

/-- `VALU_F2I` (R185). -/
def execValuF2i (c : Nat) (epi : Bool) (s : State) : Res :=
  s.vecRow c epi (isValu 0x0C) fun s n d => s.laneMap n d 2 fun x _ _ => f2i (fB32.dec x)
/-- `VALU_WIDEN` (R185). -/
def execValuWiden (c : Nat) (epi : Bool) (s : State) : Res :=
  s.vecRow c epi (isValu 0x0D) fun s n d => s.laneMap n d 0 fun x _ _ => laneRaw (etEnc 0 (fBF16.dec x))
/-- `VALU_NARROW` (R185). -/
def execValuNarrow (c : Nat) (epi : Bool) (s : State) : Res :=
  s.vecRow c epi (isValu 0x0E) fun s n d => s.laneMap n d 1 fun x _ _ => laneRaw (etEnc 1 (fB32.dec x))
/-- `VALU_AND` (R185). -/
def execValuAnd (c : Nat) (epi : Bool) (s : State) : Res :=
  s.vecRow c epi (isValu 0x0F) fun s n d => s.laneMap n d 2 fun x y _ => laneRaw (x &&& y)
/-- `VALU_OR` (R185). -/
def execValuOr (c : Nat) (epi : Bool) (s : State) : Res :=
  s.vecRow c epi (isValu 0x10) fun s n d => s.laneMap n d 2 fun x y _ => laneRaw (x ||| y)
/-- `VALU_XOR` (R185). -/
def execValuXor (c : Nat) (epi : Bool) (s : State) : Res :=
  s.vecRow c epi (isValu 0x11) fun s n d => s.laneMap n d 2 fun x y _ => laneRaw (Nat.xor x y)
/-- `VALU_NOT` (R185). -/
def execValuNot (c : Nat) (epi : Bool) (s : State) : Res :=
  s.vecRow c epi (isValu 0x12) fun s n d => s.laneMap n d 2 fun x _ _ => laneRaw (2 ^ 32 - 1 - x)
/-- `VALU_SHL` (R185). -/
def execValuShl (c : Nat) (epi : Bool) (s : State) : Res :=
  s.vecRow c epi (isValu 0x13) fun s n d => s.laneMap n d 2 fun x y _ => laneRaw (x * 2 ^ (y % 32) % 2 ^ 32)
/-- `VALU_SHR` (R185). -/
def execValuShr (c : Nat) (epi : Bool) (s : State) : Res :=
  s.vecRow c epi (isValu 0x14) fun s n d => s.laneMap n d 2 fun x y _ => laneRaw (x / 2 ^ (y % 32))
/-- `VALU_SAR` (R185). -/
def execValuSar (c : Nat) (epi : Bool) (s : State) : Res :=
  s.vecRow c epi (isValu 0x15) fun s n d => s.laneMap n d 2 fun x y _ => laneRaw (unsigned 32 (signed 32 x / (2 ^ (y % 32) : Nat)))

/-- The pair of R142 for a value in format `f`, rounded to nearest: hi and lo. -/
def splitPair (f : Fmt) (v : Val) : Val × Val :=
  let h := f.rne v
  (h, if h.isInf || h.isNan then vzero else f.rne (vsub v h))

/-- `VALU_SPLIT` (R142, R185): hi in `VD`, lo in `VD` + 1, both in BF16 layout. -/
def execValuSplit (c : Nat) (epi : Bool) (s : State) : Res :=
  s.vecRow c epi (isValu 0x16) fun s n d =>
    let w := d.word
    let c0 := s.core n
    vecOk (s.setCore n ((List.range (vCount w)).foldl (fun k e =>
      if c0.active w e then
        let p := splitPair fBF16 (fB32.dec (c0.vget 0 (vVa w) e))
        (k.vput 1 (vVd w) e (fBF16.enc p.1)).vput 1 (vVd w + 1) e (fBF16.enc p.2)
      else if vZm w then (k.vput 1 (vVd w) e 0).vput 1 (vVd w + 1) e 0
      else k) c0))

/-! ### Special functions (R188, R189) -/

/-- A VSFU instruction: minor `f`; a BF16 operand widens, and the binary32 result rounds to BF16 (R189). -/
def State.sfuRow (s : State) (n : Nat) (epi : Bool) (f : Nat) : Res :=
  s.vecRow n epi (isOp 0x31 f) fun s n d => s.laneMap n d (vEt d.word) fun x y _ =>
    let et := vEt d.word
    let r := if f = 0x03 then sfuDiv (etVal et x) (etVal et y) else sfuEval f (etVal et x)
    ⟨etEnc et r.1, r.2, false⟩

/-- `VSFU_RCP` (R188). -/
def execVsfuRcp (c : Nat) (epi : Bool) (s : State) : Res := s.sfuRow c epi 0x00
/-- `VSFU_RSQ` (R188). -/
def execVsfuRsq (c : Nat) (epi : Bool) (s : State) : Res := s.sfuRow c epi 0x01
/-- `VSFU_SQRT` (R188). -/
def execVsfuSqrt (c : Nat) (epi : Bool) (s : State) : Res := s.sfuRow c epi 0x02
/-- `VSFU_DIV` (R188): the operand b is `VB`. -/
def execVsfuDiv (c : Nat) (epi : Bool) (s : State) : Res := s.sfuRow c epi 0x03
/-- `VSFU_EXP2` (R188). -/
def execVsfuExp2 (c : Nat) (epi : Bool) (s : State) : Res := s.sfuRow c epi 0x04
/-- `VSFU_LOG2` (R188). -/
def execVsfuLog2 (c : Nat) (epi : Bool) (s : State) : Res := s.sfuRow c epi 0x05
/-- `VSFU_EXP` (R188). -/
def execVsfuExp (c : Nat) (epi : Bool) (s : State) : Res := s.sfuRow c epi 0x06
/-- `VSFU_LOG` (R188). -/
def execVsfuLog (c : Nat) (epi : Bool) (s : State) : Res := s.sfuRow c epi 0x07
/-- `VSFU_TANH` (R188). -/
def execVsfuTanh (c : Nat) (epi : Bool) (s : State) : Res := s.sfuRow c epi 0x08
/-- `VSFU_SIGMOID` (R188). -/
def execVsfuSigmoid (c : Nat) (epi : Bool) (s : State) : Res := s.sfuRow c epi 0x09
/-- `VSFU_SILU` (R188). -/
def execVsfuSilu (c : Nat) (epi : Bool) (s : State) : Res := s.sfuRow c epi 0x0A
/-- `VSFU_GELU` (R188). -/
def execVsfuGelu (c : Nat) (epi : Bool) (s : State) : Res := s.sfuRow c epi 0x0B
/-- `VSFU_ERF` (R188). -/
def execVsfuErf (c : Nat) (epi : Bool) (s : State) : Res := s.sfuRow c epi 0x0C
/-- `VSFU_SIN` (R188). -/
def execVsfuSin (c : Nat) (epi : Bool) (s : State) : Res := s.sfuRow c epi 0x0D
/-- `VSFU_COS` (R188). -/
def execVsfuCos (c : Nat) (epi : Bool) (s : State) : Res := s.sfuRow c epi 0x0E

/-! ### Compares (R187) -/

/-- A VCMP instruction: minor `mi`, test `f` on the values. -/
def State.cmpRow (s : State) (n : Nat) (epi : Bool) (mi : Nat) (f : Val → Val → Bool) : Res :=
  s.vecRow n epi (isOp 0x32 mi) fun s n d =>
    let w := d.word
    let c0 := s.core n
    let et := vEt w
    let p := bitsAt w 24 3
    let v := (List.range (vCount w)).foldl (fun v e =>
      if c0.active w e then bitsPut v e 1 (b2n (f (etVal et (c0.vget et (vVa w) e)) (etVal et (operandB c0 w e))))
      else if vZm w then bitsPut v e 1 0 else v) (c0.pred p)
    vecOk (s.setCore n (c0.setPred p v))

/-- `VCMP_EQ` (R123, R187). -/
def execVcmpEq (c : Nat) (epi : Bool) (s : State) : Res := s.cmpRow c epi 0 veq
/-- `VCMP_NE` (R123, R187). -/
def execVcmpNe (c : Nat) (epi : Bool) (s : State) : Res := s.cmpRow c epi 1 (fun a b => !veq a b)
/-- `VCMP_LT` (R123, R187). -/
def execVcmpLt (c : Nat) (epi : Bool) (s : State) : Res := s.cmpRow c epi 2 vlt
/-- `VCMP_LE` (R123, R187). -/
def execVcmpLe (c : Nat) (epi : Bool) (s : State) : Res := s.cmpRow c epi 3 (fun a b => vlt a b || veq a b)
/-- `VCMP_GT` (R123, R187). -/
def execVcmpGt (c : Nat) (epi : Bool) (s : State) : Res := s.cmpRow c epi 4 (fun a b => vlt b a)
/-- `VCMP_GE` (R123, R187). -/
def execVcmpGe (c : Nat) (epi : Bool) (s : State) : Res := s.cmpRow c epi 5 (fun a b => vlt b a || veq a b)
/-- `VCMP_UNORDERED` (R187). -/
def execVcmpUnordered (c : Nat) (epi : Bool) (s : State) : Res := s.cmpRow c epi 6 (fun a b => a.isNan || b.isNan)

/-! ### Reductions (R191, R192) -/

/-- The active elements below n, ascending. -/
def CoreSt.actives (c : CoreSt) (w : Nat) : List Nat := (List.range (vCount w)).filter (c.active w)

/-- Write a reduction's result to element 0 of `VD` (R191). -/
def State.reduced (s : State) (n : Nat) (d : Dec) (et raw : Nat) : State :=
  s.setCore n ((s.core n).vput et (vVd d.word) 0 raw)

/-- A lane of the SUM reduction: sum, compensation, and what was met. -/
structure SumSt where
  s : Val
  c : Val
  ovf : Bool
  ev : EvSum

/-- ADD32 of R192. -/
def add32 (seq e : Nat) (p : SumSt) (x : Val) : SumSt :=
  let r := addComp fB32 p.s p.c x
  { s := r.s, c := r.c, ovf := p.ovf || r.ovf, ev := if r.opp then p.ev.add (laneEvent seq 0x16 e 0 0) else p.ev }

/-- One halving step of R192: lane L takes lane L + h. -/
def halveSums (seq : Nat) (l : List SumSt) : List SumSt :=
  let h := l.length / 2
  ((List.range h).zip ((l.take h).zip (l.drop h))).map (fun p =>
    let r := add32 seq p.1 (add32 seq p.1 p.2.1 p.2.2.s) p.2.2.c
    { r with ovf := r.ovf || p.2.2.ovf, ev := r.ev.join p.2.2.ev })

/-- The floating-point SUM of R192. -/
def laneSum (seq : Nat) (elems : List (Nat × Val)) : SumSt :=
  let zero : SumSt := { s := vzero, c := vzero, ovf := false, ev := EvSum.none }
  let lanes := (List.range 256).map (fun l => (elems.filter (fun e => e.1 % 256 == l)).foldl (fun p e => add32 seq e.1 p e.2) zero)
  ((List.range 8).foldl (fun l _ => halveSums seq l) lanes).headD zero

/-- `VRED_SUM` (R191, R192): a sum that leaves binary32 sets `ACC_OVF`, as the ADD of R154 does. -/
def execVredSum (c : Nat) (epi : Bool) (s : State) : Res :=
  s.vecRow c epi (isOp 0x33 0x00) fun s n d =>
    let w := d.word
    let k := s.core n
    let et := vEt w
    if et = 2 then
      vecOk (s.reduced n d 2 (unsigned 32 ((k.actives w).foldl (fun a e => a + signed 32 (k.vget 2 (vVa w) e)) 0)))
    else
      let r := laneSum d.seq ((k.actives w).map (fun e => (e, etVal et (k.vget et (vVa w) e))))
      let v := if r.s.isNan || r.s.isInf then r.s else vadd r.s r.c
      ⟨(s.reduced n d et (etEnc et v)).setNswIf r.ovf n nswAccOvf, r.ev, 0⟩

/-- A reduction of values by `f` from an identity for each type: minor `mi`. -/
def State.redMinMax (s : State) (n : Nat) (epi : Bool) (mi : Nat) (f : Val → Val → Val) (neg : Bool) : Res :=
  s.vecRow n epi (isOp 0x33 mi) fun s n d =>
    let w := d.word
    let k := s.core n
    let et := vEt w
    let vals := (k.actives w).map (fun e => etVal et (k.vget et (vVa w) e))
    if et = 2 then
      let v := vals.foldl f (vint (if neg then -(2 ^ 31) else 2 ^ 31 - 1))
      vecOk (s.reduced n d 2 (match v with
        | .fin m _ => unsigned 32 m
        | _ => 0))
    else vecOk (s.reduced n d et (etEnc et (vals.foldl f (.inf neg))))

/-- `VRED_MAX` (R123, R191). -/
def execVredMax (c : Nat) (epi : Bool) (s : State) : Res := s.redMinMax c epi 0x01 vmax true
/-- `VRED_MIN` (R123, R191). -/
def execVredMin (c : Nat) (epi : Bool) (s : State) : Res := s.redMinMax c epi 0x02 vmin false

/-- A reduction of raw int32 words: minor `mi`, identity `z`. -/
def State.redBits (s : State) (n : Nat) (epi : Bool) (mi z : Nat) (f : Nat → Nat → Nat) : Res :=
  s.vecRow n epi (isOp 0x33 mi) fun s n d =>
    let k := s.core n
    vecOk (s.reduced n d 2 ((k.actives d.word).foldl (fun a e => f a (k.vget 2 (vVa d.word) e)) z % 2 ^ 32))

/-- `VRED_AND` (R191). -/
def execVredAnd (c : Nat) (epi : Bool) (s : State) : Res := s.redBits c epi 0x03 (2 ^ 32 - 1) (· &&& ·)
/-- `VRED_OR` (R191). -/
def execVredOr (c : Nat) (epi : Bool) (s : State) : Res := s.redBits c epi 0x04 0 (· ||| ·)
/-- `VRED_XOR` (R191). -/
def execVredXor (c : Nat) (epi : Bool) (s : State) : Res := s.redBits c epi 0x05 0 Nat.xor
/-- `VRED_POPC` (R191). -/
def execVredPopc (c : Nat) (epi : Bool) (s : State) : Res := s.redBits c epi 0x06 0 (fun a x => a + popcount 32 x)

/-- A reduction of the active bits of a predicate: minor `mi`, a function of how many are active and how many are 1. -/
def State.redPred (s : State) (n : Nat) (epi : Bool) (mi : Nat) (f : Nat → Nat → Nat) : Res :=
  s.vecRow n epi (isOp 0x33 mi) fun s n d =>
    let k := s.core n
    let l := k.actives d.word
    let p := k.pred (bitsAt d.word 28 3)
    vecOk (s.reduced n d 2 (f l.length (l.filter (bitOf p)).length))

/-- `VRED_PALL` (R191). -/
def execVredPall (c : Nat) (epi : Bool) (s : State) : Res := s.redPred c epi 0x10 (fun all ones => b2n (all == ones))
/-- `VRED_PANY` (R191). -/
def execVredPany (c : Nat) (epi : Bool) (s : State) : Res := s.redPred c epi 0x11 (fun _ ones => b2n (ones != 0))
/-- `VRED_PPAR` (R191). -/
def execVredPpar (c : Nat) (epi : Bool) (s : State) : Res := s.redPred c epi 0x12 (fun _ ones => ones % 2)
/-- `VRED_PCNT` (R191). -/
def execVredPcnt (c : Nat) (epi : Bool) (s : State) : Res := s.redPred c epi 0x13 (fun _ ones => ones)

/-! ### Permutation (R193) -/

/-- `VPERM` (R193): an index out of range gives +0 and `IDX_RANGE`, or with `STRICT` fault 0x09. DEDUCED (log entry 98): such a fault writes no
element of `VD`. -/
def execVperm (c : Nat) (epi : Bool) (s : State) : Res :=
  s.vecRow c epi (isOp 0x34 0) fun s n d =>
    let w := d.word
    let c0 := s.core n
    let et := vEt w
    let cnt := vCount w
    let out (e : Nat) : Bool := c0.active w e && decide (cnt ≤ c0.vword (vVb w) e)
    let anyOut := (List.range cnt).any out
    if anyOut && vBit17 w then ⟨s, EvSum.none, 9⟩
    else
      let k := (List.range cnt).foldl (fun k e =>
        if c0.active w e then k.vput et (vVd w) e (if out e then 0 else etCanon et (c0.vget et (vVa w) (c0.vword (vVb w) e)))
        else if vZm w then k.vput et (vVd w) e 0 else k) c0
      let t := s.setCore n k
      let first := t.get Fld.CORE_VEC_STATUS_IDX_RANGE n = 0
      vecOk (if anyOut then
        (if first then t.put Fld.CORE_VEC_IDX_SEQ_SEQ d.seq n else t).put Fld.CORE_VEC_STATUS_IDX_RANGE 1 n else t)

/-! ### Loads and stores (R194-R196) -/

/-- An element address is aligned and in a memory of this die (R195). -/
def elemAddrOk (a : Int) (size : Nat) : Bool :=
  decide (0 ≤ a) && a.toNat % size == 0 && inMemories a.toNat (a.toNat + size)

/-- The fault code of one element that a load reads (R195): 0 when it may be read. -/
def State.loadCode (s : State) (n size : Nat) (a : Int) : Nat :=
  if !elemAddrOk a size then 9
  else
    let c := s.checkAccess (s.coreWho n 2) a.toNat size
    if c = 0 then 0 else accessCode c 9

/-- Load the elements of one line in one access (R227): each of `els` is an element number with its address. DESIGN CHOICE (log entry 95): an
access that meets an uncorrectable error loads none of them, although R195 lets the elements before the faulting one stand. -/
def State.loadLine (s : State) (n : Nat) (d : Dec) (o : VecOut) (els : List (Nat × Nat)) : VecOut :=
  let w := d.word
  let et := vEt w
  let size := etSize et
  let u := o.state.decodeUnits (s.coreWho n 2) (els.flatMap (fun e => wordsOf e.2 size))
  if u.2.1 ≠ 0 then ⟨u.1, o.ev, accessCode u.2.1 9⟩
  else
    els.foldl (fun (o : VecOut) e =>
      let raw := leVal ((List.range size).map (fun i => u.1.decodedByte u.2.2 (e.2 + i)))
      { o with state := o.state.setCore n ((o.state.core n).vput et (vVd w) e.1 (etCanon et raw))
               ev := if (etVal et raw).isNan then o.ev.add (laneEvent d.seq 0x15 e.1 raw 0) else o.ev }) { o with state := u.1.drew u.2.2 }

/-- A VLD instruction: minor `mi` (R194-R196, R227): up to the first element that may not be read, those that fall in one line in one
access. -/
def State.vldRow (s : State) (n : Nat) (epi : Bool) (mi : Nat) : Res :=
  s.vecRow n epi (isOp 0x35 mi) fun s n d =>
    let w := d.word
    let c0 := s.core n
    let size := etSize (vEt w)
    let els := ((List.range (vCount w)).filter (c0.active w)).map (fun e => (e, elemAddr c0 w e))
    let good := els.takeWhile (fun e => s.loadCode n size e.2 == 0)
    let code := match els.drop good.length with
      | [] => 0
      | e :: _ => s.loadCode n size e.2
    let stop := match els.drop good.length with
      | [] => vCount w
      | e :: _ => e.1
    let l := good.map (fun e => (e.1, e.2.toNat))
    let c1 := if vZm w then (List.range stop).foldl (fun k e => if c0.active w e then k else k.vput (vEt w) (vVd w) e 0) c0 else c0
    let o := ((l.map (fun e => e.2 / 64)).eraseDups).foldl (fun (o : VecOut) line =>
      if o.code ≠ 0 then o else s.loadLine n d o (l.filter (fun e => e.2 / 64 == line))) (vecOk (s.setCore n c1))
    if o.code ≠ 0 then o else { o with code := code }

/-- `VLD_UNIT_STRIDE` (R194). -/
def execVldUnitStride (c : Nat) (epi : Bool) (s : State) : Res := s.vldRow c epi 0
/-- `VLD_STRIDED` (R194). -/
def execVldStrided (c : Nat) (epi : Bool) (s : State) : Res := s.vldRow c epi 1
/-- `VLD_GATHER` (R194). -/
def execVldGather (c : Nat) (epi : Bool) (s : State) : Res := s.vldRow c epi 2
/-- `VLD_REPEAT` (R194). -/
def execVldRepeat (c : Nat) (epi : Bool) (s : State) : Res := s.vldRow c epi 3
/-- `VLD_BROADCAST` (R194). -/
def execVldBroadcast (c : Nat) (epi : Bool) (s : State) : Res := s.vldRow c epi 4

/-- A VST instruction: minor `mi` (R194, R195, R227). -/
def State.vstRow (s : State) (n : Nat) (epi : Bool) (mi : Nat) : Res :=
  s.vecRow n epi (isOp 0x36 mi) fun s n d =>
    let w := d.word
    let c0 := s.core n
    let et := vEt w
    let size := etSize et
    let r := s.putElems n 2 size (((List.range (vCount w)).filter (c0.active w)).map (fun e =>
      (elemAddr c0 w e, leBytes size (etCanon et (c0.vget et (vVa w) e)))))
    ⟨r.1, EvSum.none, r.2⟩

/-- `VST_UNIT_STRIDE` (R194). -/
def execVstUnitStride (c : Nat) (epi : Bool) (s : State) : Res := s.vstRow c epi 0
/-- `VST_STRIDED` (R194). -/
def execVstStrided (c : Nat) (epi : Bool) (s : State) : Res := s.vstRow c epi 1
/-- `VST_SCATTER` (R194, R195). -/
def execVstScatter (c : Nat) (epi : Bool) (s : State) : Res := s.vstRow c epi 2

/-! ### Convert and store (R197-R200) -/

/-- Where the pieces of a converted segment that starts at `base` go: a target without block scale has elements that must be aligned to
their size (R195, R198), and packed elements are cut at the lines. -/
def piecesAt (base align : Nat) (pieces : List (Nat × Bytes)) : List (Int × Bytes) :=
  pieces.flatMap (fun p =>
    if (base + p.1) % align ≠ 0 then [(((base + p.1 : Nat) : Int), p.2)]
    else (linesOf (base + p.1) p.2.length).map (fun c => ((c.1 : Int), sub p.2 (c.1 - (base + p.1)) c.2)))

/-- Alignment of a target's elements; the packed MX elements have none. DESIGN CHOICE (log entry 95): the element of the pair form (R140) is the
whole pair. -/
def targetAlign (t : Nat) (pair : Bool) : Nat := if t ≤ 5 then 1 else targetBits t / 8 * (if pair then 2 else 1)

/-- Convert one segment: the state, and what is to be written for it from `base` on. -/
def State.convertSeg (s : State) (n target slot : Nat) (pair : Bool) (base : Nat) (lanes : List Lane) : State × List (Int × Bytes) :=
  let c := s.core n
  let r := s.convert (s.coreWho n 2) c.gang c.step c.seed slot target pair lanes
  (r.state.cvFlags n slot r.flags, piecesAt base (targetAlign target pair) r.pieces)

/-- Convert the segments of one instruction, each with its base, and write them: what falls in one line in one access, whichever segments
it belongs to (R198, R227). The second part is a fault code. DESIGN CHOICE (log entry 91): every element is converted, recorded into the
slot and flagged before the first address is checked. -/
def State.convertStore (s : State) (n target slot : Nat) (pair : Bool) (segs : List (Nat × List Lane)) : State × Nat :=
  let r := segs.foldl (fun (a : State × List (Int × Bytes)) g =>
    let c := a.1.convertSeg n target slot pair g.1 g.2
    (c.1, a.2 ++ c.2)) (s, [])
  r.1.putElems n 2 (targetAlign target pair) r.2

/-- `VCST_DIRECT` (R138, R198). -/
def execVcstDirect (c : Nat) (epi : Bool) (s : State) : Res :=
  s.vecRow c epi (fun w => iMajor w == 0x38 && !vBit17 w) fun s n d =>
    let w := d.word
    let c0 := s.core n
    let cnt := vCount w
    let seg := if vAux14 w = 0 then cnt else vAux14 w
    let base := s.get Fld.CORE_VIDX_BASE_BASE n
    let lane (e : Nat) : Lane :=
      { val := if c0.active w e then some (etVal (vEt w) (c0.vget (vEt w) (vVd w) e)) else none, index := (base + e) % 2 ^ 48 }
    let r := s.convertStore n (iMinor w) (vSlot w) (vImm w) ((List.range (ceilDiv cnt seg)).map (fun i =>
      (iAddr64 w + i * vAux16 w, (List.range (min seg (cnt - i * seg))).map (fun j => lane (i * seg + j)))))
    ⟨r.1, EvSum.none, r.2⟩

/-- The elements of a parcel's drain order (R199): 128 · i + j. -/
def Epi.order (e : Epi) : List Nat := enabledElems e.rows e.cols

/-- Convert and write the rows that drain elements `els` cover (R138, R199): pairs of element and lane value. -/
def State.storeRows (s : State) (n : Nat) (e : Epi) (els : List (Nat × Option Val)) : State × Nat :=
  let d := e.desc
  let row (i : Nat) : List (Nat × Option Val) := els.filter (fun x => x.1 / 128 == i)
  s.convertStore n (pdOutFmt d) (pdSlot d) (pdPair d == 1) (((List.range 128).filter (fun i => !(row i).isEmpty)).map (fun i =>
    (pdOutBase d + i * pdOutStride d,
      (row i).map (fun x => { val := x.2, index := (e.orgM * 128 + i) * 2 ^ 24 ||| (e.orgN * 128 + x.1 % 128) }))))

/-- Set `DRAIN_SHORT` (R204). -/
def State.drainShort (s : State) (n : Nat) (b : Bool) : State := if b then s.put Fld.CORE_VEC_STATUS_DRAIN_SHORT 1 n else s

/-- Count the drain elements that the running epilogue has taken. -/
def State.epiTaken (s : State) (n taken : Nat) : State :=
  let c := s.core n
  match c.epis with
  | [] => s
  | x :: r => s.setCore n { c with epis := { x with taken := taken } :: r }

/-- After elements have been taken: the drain ends when none is left (R204). -/
def State.afterTake (s : State) (n : Nat) (e : Epi) (taken total : Nat) : State :=
  let s := s.epiTaken n taken
  if taken = total then s.endDrain n e.set e.seq else s

/-- `VCST_OUTPUT` (R197, R199, R204). -/
def execVcstOutput (c : Nat) (s : State) : Res :=
  s.vecEpi c (fun w => iMajor w == 0x38 && vBit17 w) fun s n d =>
    let w := d.word
    let c0 := s.core n
    match c0.epis with
    | [] => vecOk s
    | e :: _ =>
      let order := e.order
      let total := order.length
      let cols := popcount 128 e.cols
      let drain := bitOf w 16
      let start := if drain then e.taken else vAux14 w
      let cnt := if drain then min (vCount w) (total - e.taken) else vCount w
      match lowest (codeIf (iMinor w != pdOutFmt e.desc) 3 ++
          codeIf (decide (total < start + cnt) || start % cols != 0 || (start + cnt) % cols != 0) 4) with
      | some code => ⟨s, EvSum.none, code⟩
      | none =>
        let els := (order.drop start).take cnt
        if drain then
          let s := s.drainShort n (decide (cnt < vCount w))
          if cnt = 0 then vecOk s
          else
            let t := s.drainTake n e.set start cnt
            if t.1.status ≠ 0 then ⟨t.1.state, EvSum.none, passCode t.1.status⟩
            else
              let vals := ((List.range cnt).zip t.2.1).map (fun x => (x.2.1, if c0.active w x.1 then some x.2.2 else none))
              let r := t.1.state.storeRows n e vals
              ⟨if r.2 = 0 then r.1.afterTake n e (start + cnt) total else r.1, t.2.2, r.2⟩
        else
          let vals := ((List.range cnt).zip els).map (fun x =>
            (x.2, if c0.active w x.1 then some (etVal (vEt w) (c0.vget (vEt w) (vVd w) x.1)) else none))
          let r := s.storeRows n e vals
          ⟨r.1, EvSum.none, r.2⟩

/-! ### The epilogue (R201-R206) -/

/-- `VDRN` (R203, R204): an inactive lane takes its drain element and does not keep it. -/
def execVdrn (c : Nat) (s : State) : Res :=
  s.vecEpi c (isOp 0x37 0) fun s n d =>
    let w := d.word
    let c0 := s.core n
    match c0.epis with
    | [] => vecOk s
    | e :: _ =>
      let total := e.order.length
      let cnt := min (vCount w) (total - e.taken)
      let s := s.drainShort n (decide (cnt < vCount w))
      if cnt = 0 then vecOk s
      else
        let t := s.drainTake n e.set e.taken cnt
        if t.1.status ≠ 0 then ⟨t.1.state, EvSum.none, passCode t.1.status⟩
        else
          let s := t.1.state
          let r := ((List.range cnt).zip t.2.1).foldl (fun (a : CoreSt × Bool) x =>
            let put (k : CoreSt) (hi lo : Nat) : CoreSt :=
              let k := k.vput 0 (vVd w) x.1 hi
              if vImm w then k.vput 0 (vVd w + 1) x.1 lo else k
            if c0.active w x.1 then
              let p := splitPair fB32 x.2.2
              (put a.1 (fB32.enc p.1) (fB32.enc p.2), a.2 || (p.1.isInf && !x.2.2.isInf))
            else (if vZm w then put a.1 0 0 else a.1, a.2)) (s.core n, false)
          let s := (s.setCore n r.1).setNswIf r.2 n nswCvtOvf
          ⟨s.afterTake n e (e.taken + cnt) total, t.2.2, 0⟩

/-- `EPILOGUE_START` (R201, R202): the first epilogue may issue once its set is DRAINING and the earlier main-context
vector instructions have completed. -/
def execEpilogueStart (c : Nat) (s : State) : Res :=
  onUnit "core" 64 c <|
    let k := s.core c
    match k.epis with
    | [] => .next s
    | e :: _ =>
      if !e.started ∧ (k.set e.set).state = 5 ∧ !k.vq.any (fun d => decide (d.seq < e.seq)) then
        let t := s.loadEpi c e.pc e.seq
        let k := t.core c
        match k.epis with
        | [] => .next t
        | x :: r => .next (t.setCore c { k with epis := { x with started := true } :: r })
      else .next s

/-- `VEEND` (R205): elements not taken are discarded, and the epilogue ends. -/
def execVeend (c : Nat) (s : State) : Res :=
  s.vecEpi c (isOp 0x39 0) fun s n _ =>
    match (s.core n).epis with
    | [] => vecOk s
    | e :: _ =>
      let left := decide (e.taken < e.order.length)
      let s := if left then s.put Fld.CORE_VEC_STATUS_DRAIN_UNTAKEN 1 n else s
      let s := (s.endDrain n e.set e.seq).count Fld.CORE_EPI_DONE_COUNT 1 n
      let k := s.core n
      vecOk (s.setCore n { k with epis := k.epis.drop 1 })

/-! ### Engine control (R207) -/

/-- `VSETI` (R207). -/
def execVseti (c : Nat) (epi : Bool) (s : State) : Res :=
  s.vecRow c epi (isOp 0x39 1) fun s n d => vecOk (s.put Fld.CORE_VIDX_BASE_BASE (vAux16 d.word * 2 ^ 32 + vImm32 d.word) n)

/-- `VCAPS` (R207). -/
def execVcaps (c : Nat) (epi : Bool) (s : State) : Res :=
  s.vecRow c epi (isOp 0x39 2) fun s n d => vecOk (s.setCore n ((s.core n).vput 2 (vVd d.word) 0 (s.headerRead (0x40 + n) 8)))

/-- `VPOP` (R207). -/
def execVpop (c : Nat) (epi : Bool) (s : State) : Res :=
  s.vecRow c epi (isOp 0x39 3) fun s n d =>
    let w := d.word
    let k := s.core n
    let a := k.pred (bitsAt w 28 3)
    let b := k.pred (bitsAt w 32 3)
    let v := match vImm32 w % 4 with
      | 0 => a &&& b
      | 1 => a ||| b
      | 2 => Nat.xor a b
      | _ => a &&& (2 ^ 8192 - 1 - b)
    let p := bitsAt w 24 3
    vecOk (s.setCore n (k.setPred p (bitsPut (k.pred p) 0 (vCount w) v)))

/-- `VPFIRST` (R207). -/
def execVpfirst (c : Nat) (epi : Bool) (s : State) : Res :=
  s.vecRow c epi (isOp 0x39 4) fun s n d =>
    let w := d.word
    let k := s.core n
    let p := bitsAt w 24 3
    vecOk (s.setCore n (k.setPred p (bitsPut (k.pred p) 0 (vCount w) (2 ^ (min (vImm32 w) (vCount w)) - 1))))

end Sys2Proof.Machine
end

