-- ==== Sys2Proof/Machine/ControlActs.lean ====
section
/-! DEFINITION. The registers whose write has an effect of its own, and the fields that other state computes: what
`ctlWriteBy` and `ctlReadBy` take as their arguments; and the rows of the table that are control accesses. -/

namespace Sys2Proof.Machine

/-! ### Effects of a write -/

/-- A write to `BOOT_CTL` (R396, R397, R402): a bit that the class or phase does not allow refuses the write. -/
def State.bootControl (s : State) (a : Acc) (v : Nat) : State :=
  let failed := s.get Fld.BOOT_BOOT_STATE_PHASE == 0xF
  let ok := (!bitOf v 0 || a.cls == .ldr) && (!bitOf v 1 || ((a.cls == .ldr || a.cls == .dbg) && failed)) &&
    (!bitOf v 2 || a.cls == .mp || a.cls == .dbg)
  if !ok then s.refuse 1
  else
    let s : State := if bitOf v 0 then { s with boot := { s.boot with releaseAsked := true } } else s
    let err := s.get Fld.BOOT_BOOT_STATE_ERR
    let s := if bitOf v 1 ∧ 3 ≤ err ∧ err ≤ 9 then
        let t := (s.toPhase 5).put Fld.BOOT_BOOT_STATE_ERR 0
        { t.dropField with boot := { t.boot with stream := [], tries := 0, source := none, sections := none, waits := [] }
                           reqs := t.reqs.filter (fun r => match r.owner with
                   | .image _ => false
                   | _ => true) }
      else s
    (if bitOf v 2 then s.commandReset else s).done 0 0

/-- `NEW_CLEAR` (R403): the new list is empty; the retained plat stands. -/
def State.newListClear (s : State) (v : Nat) : State :=
  (if bitOf v 0 then (List.range 256).foldl (fun t i => t.put Fld.PLAT_PLAT_NEW_ENTRY 0 0 i) (s.put Fld.PLAT_PLAT_NEW_COUNT 0) else s).done 0 0

/-- A write to `DOORBELL` (R281, R282). -/
def State.doorbellWrite (s : State) (v : Nat) : State :=
  let r := s.ring (v % 65536) (v / 65536)
  if r.2 then r.1.refuse 8 else r.1.done 0 0

/-- A write to `FLD_DBGCTL` (R238, R243): DBG only; as the hold ends, HELD granules go to SCRUB. -/
def State.scrubControl (s : State) (a : Acc) (v : Nat) : State :=
  if a.cls ≠ .dbg then s.refuse 0xA
  else
    let s := s.put Fld.FLD_FLD_DBGCTL_SCRUB_HOLD v
    let go (s : State) (u : Nat) := ((List.range (granCount u)).filter (fun g => s.granState u g == 4)).foldl
      (fun s g => s.setGran u g (bitsPut (s.gran u g) 0 3 3)) s
    (if bitOf v 0 then s else (List.range 72).foldl go s).done 0 0

/-- `SLOT_CTRL.CLEAR` (R144): every entry is empty and unread. -/
def State.slotClear (s : State) (slot v : Nat) : State :=
  (if bitOf v 0 then s.clearSlot slot else s).done 0 0

/-- The `AMAX` that an entry write stores (R144): what is no non-negative binary32 number is stored as +∞. -/
def amaxStored (v : Nat) : Nat := if bitsAt v 23 8 = 0xFF ∧ bitsAt v 0 23 ≠ 0 then bitsPut v 0 31 0x7F800000 else v

/-- A write to `CORE_TEST` (R102, R107): DBG only; in BIST and in RECOVERY the die drives the core and ignores it; the lowest
command bit acts. -/
def State.testControl (s : State) (a : Acc) (page v : Nat) : State :=
  let n := page - 0x40
  if a.cls ≠ .dbg then s.refuse page
  else
    let s := s.put Fld.CORE_CORE_TEST_TEST_DOM (bitsAt v 8 8) n
    (if s.get Fld.CORE_CORE_STATE_STATE n = 4 ∨ s.get Fld.BOOT_BOOT_STATE_PHASE = 2 then s
    else if bitOf v 0 then s.testEnter n
    else if bitOf v 1 then s.testLeave n
    else if bitOf v 2 then s.testStart n
    else s).done 0 0

/-- A write to `QUOTE_NONCE` while a quote is being signed is ignored (R448). -/
def State.nonceBusy (s : State) : Option State :=
  if s.get Fld.SEC_SEC_STATE_QUOTE_BUSY = 1 then some ((s.event Fld.SEC_PAGE_EVENT_QUOTE_REFUSED).done 0 0) else none

/-- Effects of the page registers of pages 0-0xD. -/
def State.pageAct (s : State) (a : Acc) (page off v : Nat) : Option State :=
  if page = 1 ∧ off = 0x110 then some (s.bootControl a v)
  else if page = 2 ∧ off = 0x108 then some (s.newListClear v)
  else if page = 5 ∧ off = 0x108 then some ((s.readNotes v).done 0 0)
  else if page = 6 ∧ off = 0x108 then some (s.quoteControl a v)
  else if page = 6 ∧ off = 0x10C then some (s.measControl a v)
  else if page = 6 ∧ 0x1200 ≤ off ∧ off < 0x1220 then s.nonceBusy
  else if page = 7 ∧ off = 0x108 then some (s.kick a v)
  else if page = 8 ∧ off = 0x108 then some (s.doorbellWrite v)
  else if page = 8 ∧ off = 0x10C then some ((s.domCommand (bitsAt v 0 8) (bitsAt v 8 2) (bitsAt v 10 2)).done 0 0)
  else if page = 0xA ∧ off = 0x104 then some (s.scrubControl a v)
  else if page = 0xD ∧ off = 0x100 then some (s.dbgControl v)
  else none

/-- Effects of the window registers of instance `i`. -/
def State.windowAct (s : State) (a : Acc) (page i off v : Nat) : Option State :=
  if page = 7 ∧ off = 8 then some (s.mbControl a i v)
  else if page = 7 ∧ 0x100 ≤ off ∧ off < 0x200 then some (s.mbFill a i ((off - 0x100) / 4) v)
  else if page = 7 ∧ 0x200 ≤ off ∧ off < 0x300 then some (s.mbReplyWord a i ((off - 0x200) / 4) v)
  else if page = 8 ∧ off = 0x18 then some ((s.qControl i v).done 0 0)
  else if page = 8 ∧ off = 0x24 then some ((s.setChead i (v / 65536)).done 0 0)
  else if page = 0xC ∧ off = 8 then some (s.slotClear i v)
  else if page = 0xC ∧ 0x10 ≤ off ∧ off < 0x90 ∧ off % 8 = 0 then
    some ((s.setWord (regKey 0xC (i + 1) off) (BitVec.ofNat 32 (amaxStored v))).done 0 0)
  else if page = 0x100 ∧ off = 0x18 then some ((s.modControl i v).done 0 0)
  else none

/-- The effect of a write to a register that has one of its own; `none` for a plain register. -/
def ctlAct : RegAct := fun s a page inst off v =>
  if inst ≠ 0 then s.windowAct a page (inst - 1) off v
  else if blkOf page = 0x10 then (if off = 0x104 then some ((s.retireCommand (page - 0x10) v).done 0 0) else none)
  else if blkOf page = 0x40 then
    (if off = 0x140 then some (s.testControl a page v)
    else if (off = 0x144 ∨ off = 0x148) ∧ a.cls ≠ .dbg then some (s.refuse page)
    else none)
  else s.pageAct a page off v

/-! ### Fields that other state computes -/

/-- Granules that are FREE, and those in CLOSING or SCRUB (R242, R244). -/
def State.granCounts (s : State) (u : Nat) : Nat × Nat := (s.countGran u (· == 0), s.countGran u (fun g => g == 2 || g == 3))

/-- `ACC_STATE` (R107): the two sets, and 0 while a split is in force. -/
def State.accState (s : State) (n : Nat) : Nat :=
  if (s.split n).isSome then 0 else ((s.core n).set 0).state + 8 * ((s.core n).set 1).state

/-- `ACC_SLOTS` (R103, R107): the parcel slots that hold a parcel. -/
def State.accSlots (s : State) (n : Nat) : Nat :=
  if (s.split n).isSome then idxMask ((List.range 64).filter (fun u => !(s.core n).setFree u)) else 0

/-- `PT_CRED` of a virtual channel (R381): the fewest credits held in any class, and the partner's advertised count. -/
def ModSt.credView (x : ModSt) (vc : Nat) : Nat :=
  let held := (List.range 8).map (fun c => tget (fun _ => 0) (vc * 8 + c) x.txCred)
  held.foldl min (held.headD 0) + x.advert.getD vc 0 * 2 ^ 16

/-- `EPI_STATE` (R211): waiting to start or running; the model fetches an epilogue at once. -/
def CoreSt.epiState (c : CoreSt) : Nat :=
  match c.epis with
  | [] => 0
  | e :: _ => if e.started then 3 else 2

/-- The fields of a core page that its units hold (R107, R211, R242). `HALF_STATE` shows the states as R107 lays them out; the shape
and format that R87 says it shows have no bits there (DESIGN CHOICE, log 85). -/
def State.coreView (s : State) (n off : Nat) : Option Nat :=
  let c := s.core n
  if off = 0x114 then some ((c.half 0).state + 8 * (c.half 1).state + 64 * (c.half 2).state + 512 * (c.half 3).state)
  else if off = 0x118 then some (s.accState n)
  else if off = 0x150 then some (s.accSlots n % 2 ^ 32)
  else if off = 0x154 then some (s.accSlots n / 2 ^ 32)
  else if off = 0x300 then some (bitsPut (s.word (regKey (0x40 + n) 0 0x300)).toNat 8 2 c.epiState)
  else if off = 0x50C then some ((s.granCounts n).1 + 256 * (s.granCounts n).2)
  else none

/-- What a register that other state computes reads as; `FREE_FRAMES` holds its reset value until the release prepares the pool (R258,
R277). -/
def ctlView : RegView := fun s page inst off =>
  if blkOf page = 0x40 then s.coreView (page - 0x40) off
  else if page = 9 ∧ inst = 0 ∧ off = 0x108 then some (if s.released then s.freeFrames else 0)
  else if page = 9 ∧ inst = 0 ∧ off = 0x10C then some s.pendingFrames
  else if page = 0xA ∧ inst = 0 ∧ off = 0x108 then some s.heldCount
  else if page = 0xA ∧ inst ≠ 0 ∧ off = 0 then
    some ((s.granCounts (63 + inst)).1 + 256 * (s.granCounts (63 + inst)).2 )
  else if page = 0xD ∧ inst = 0 ∧ 0x1000 ≤ off ∧ off < 0x1030 then some (leAt s.chal (off - 0x1000) 4)
  else if page = 8 ∧ inst ≠ 0 ∧ off = 0x1C then
    some (bitsPut (s.word (regKey 8 inst 0x1C)).toNat 0 3 (s.qState (inst - 1)))
  else if page = 0x101 ∧ inst ≠ 0 ∧ 0x20 ≤ off ∧ off < 0x38 then some ((s.mod (inst - 1)).credView ((off - 0x20) / 4))
  else none

end Sys2Proof.Machine
end

