-- ==== Sys2Proof/Machine/Commit.lean ====
section
/-! DEFINITION. A COMMIT at work (R60-R63): the safe point of each instance, the staged bits that apply in one ck, the values a
block corrects as it applies them, and what a new setting does at once (R67). -/

namespace Sys2Proof.Machine

/-! ### Instances -/

/-- The instance that a staged register belongs to: 0 the page itself, `i + 1` window instance `i`, and 2^16 + q the end of stage
queue `q`, which lies among the TRV page's registers (R342, R344). -/
def stageInst (k : Nat) : Nat :=
  let page := k / 2 ^ 32
  let inst := k / 2 ^ 14 % 2 ^ 18
  let off := k % 2 ^ 14
  if page = 0xB ∧ inst = 0 ∧ 0x1000 ≤ off ∧ off < 0x2000 then 2 ^ 16 + (off - 0x1000) / 0x40 else inst

/-- The staged registers of an instance of a page. -/
def State.stagedOf (s : State) (page inst : Nat) : Tbl Staged := s.staged.filter (fun e => e.1 / 2 ^ 32 == page && stageInst e.1 == inst)

/-- The staging copy of a page is the configuration loader's, in bring-up (R62). -/
def State.bringUpCommit (s : State) (page : Nat) : Bool :=
  bitsAt (s.word (regKey page 0 0xC)).toNat 1 2 == 3 && !s.released

/-- The safe points: of a queue (R311), a chain and a stage queue end (R344), a scale slot (R145) and a core page (R108). The PWR page and
its rails have theirs at a control period boundary alone (R434), which is `State.powerApply`; the next ck serves every other block. -/
def State.safePoint (s : State) (page inst : Nat) : Bool :=
  if page = 8 ∧ inst ≠ 0 then (s.inFlight (inst - 1)).isEmpty
  else if page = 0xB ∧ 2 ^ 16 ≤ inst then (s.stageEnd (inst - 2 ^ 16)).pushes.isEmpty && (s.stageEnd (inst - 2 ^ 16)).got == 0
  else if page = 0xB ∧ inst ≠ 0 then !(s.chain (inst - 1)).round.any (·.started)
  else if page = 0xC ∧ inst ≠ 0 then !s.touched.any (fun e => e.2 == inst - 1)
  else if page = 4 then false
  else if blkOf page = 0x40 then (s.core (page - 0x40)).run == 0
  else true

/-- Apply one staged register word; staged bits that are fixed until reset are dropped, with `STAGED_DISCARDED`, unless the loader
commits them in bring-up (R60, R62). -/
def State.applyWord (s : State) (early : Bool) (k : Nat) (x : Staged) : State :=
  let page := k / 2 ^ 32
  let fixed := match regWord (blkOf page) (k / 2 ^ 14 % 2 ^ 18 != 0) (k % 2 ^ 14) with
    | some w => if early then 0#32 else BitVec.ofNat 32 w.fixed
    | none => 0#32
  let m := x.mask &&& ~~~fixed
  let s := s.setWord k ((s.word k &&& ~~~m) ||| (x.val &&& m))
  if x.mask &&& fixed = 0 then s else s.raise page (2 ^ 28)

/-! ### Corrections -/

/-- The home of a stack entry as R38 corrects it, for the link mode. -/
def homeFix (mode w : Nat) : Nat :=
  let w := if mode = 1 ∧ bitsAt w 1 1 = 0 then bitsPut w 1 5 1 else if mode = 0 then bitsPut w 1 1 0 else w
  if bitsAt w 1 1 = 1 then bitsPut w 5 1 0 else w

/-- One entry of the stack set as R38 corrects it, for the link mode and whether every entry before it is valid: its word and
whether it is valid. -/
def stackFix (mode : Nat) (before : Bool) (w : Nat) : Nat × Bool :=
  let ok := w % 2 == 1 && before && bitsAt w 16 16 != 0
  (homeFix mode (if ok then w else w - w % 2), ok)

/-- A pool beyond the frame space is clipped, which `POOL_CLIPPED` says (R257). -/
def State.clipCheck (s : State) : State :=
  if s.frameSpace < s.poolBase + s.get Fld.XLT_POOL_COUNT_COUNT then s.event Fld.XLT_PAGE_EVENT_POOL_CLIPPED else s

/-- The loader's COMMIT of the DIE page (R36, R38, R255): the stack entries that were staged are corrected, and the valid ones. -/
def State.dieFix (s : State) (keys : List Nat) : State :=
  let mode := s.get Fld.LNK_LNK_MODE_LINK_MODE
  let key (e : Nat) := Fld.DIE_STACK_VALID.key 0 e
  let step (a : State × Bool × Bool) (e : Nat) : State × Bool × Bool :=
    let w := (a.1.word (key e)).toNat
    let f := if keys.contains (key e) ∨ w % 2 = 1 then stackFix mode a.2.1 w else (w, false)
    (a.1.setWord (key e) (BitVec.ofNat 32 f.1), a.2.1 && f.2, a.2.2 || f.1 != w)
  let r := (List.range 32).foldl step (s, true, false)
  let s := r.1
  let caps := ((List.range 32).filter (fun e => s.get Fld.DIE_STACK_VALID 0 e == 1)).map (fun e => s.get Fld.DIE_STACK_CAP_GIB 0 e)
  let low := caps.foldl min (caps.headD 0)
  let s := (s.put Fld.DIE_DIE_STACKS_N caps.length).put Fld.XLT_XLT_GEOM_STACKS caps.length
  let s := s.put Fld.XLT_XLT_GEOM_STACK_FRAMES_K (low * 256)
  let s := s.put Fld.DIE_DIE_ID_SYS_ID (s.get Fld.DIE_DIE_CFG_PKG * 16 + s.get Fld.CLK_CLK_AON_DIEPOS)
  let s := if r.2.2 then s.event Fld.DIE_PAGE_EVENT_CFG_FIXUP else s
  let s := if caps.any (· != low) then s.event Fld.XLT_PAGE_EVENT_CAP_MISMATCH else s
  s.clipCheck

/-- `SLOT_CFG` as R146 corrects it. -/
def slotFix (w : Nat) : Nat :=
  let w := if bitsAt w 0 2 = 3 then bitsPut w 0 2 1 else w
  let w := if bitsAt w 2 2 = 3 then bitsPut w 2 2 0 else w
  let h := bitsAt w 4 5
  let h := if h = 0 then 1 else min h 16
  let g := bitsAt w 9 3 + 1
  let w := bitsPut w 4 5 (if 16 < g + h then 16 - g else h)
  if bitsAt w 16 8 = 0xFF then bitsPut w 16 8 0x7F else w

/-- `MOD_CFG` and `MOD_TUNE` as R379 corrects them. -/
def modCfgFix (w : Nat) : Nat :=
  let w := if 4 ≤ bitsAt w 4 3 then bitsPut w 0 3 0 else w
  let w := if 5 ≤ bitsAt w 20 3 then bitsPut w 20 3 2 else w
  if bitsAt w 23 2 = 3 then bitsPut w 23 2 1 else w
/-- As `modCfgFix`, for `MOD_TUNE`. -/
def modTuneFix (w : Nat) : Nat :=
  let w := if 5 ≤ bitsAt w 0 3 then bitsPut w 0 3 4 else w
  if bitsAt w 12 4 = 0 then bitsPut w 12 4 4 else w

/-- `PWR_CFG`, `PWR_CAP`, `PWR_GRADE` and `THERM_CFG` as R432 corrects them, by offset, for the fuses' `OP_CEIL`. -/
def pwrFix (ceil off w : Nat) : Nat :=
  if off = 0x100 then
    let a := bitsAt w 0 2
    let b := bitsAt w 2 2
    let c := bitsAt w 4 2
    let w := if a = 3 ∨ b = 3 ∨ c = 3 ∨ a = b ∨ a = c ∨ b = c then bitsPut w 0 6 6 else w
    if bitsAt w 8 3 < ceil then bitsPut w 8 3 ceil else w
  else if off = 0x104 then
    let c := bitsAt w 0 10
    let t := bitsAt w 16 7
    bitsPut (bitsPut w 0 10 (if c = 0 then 800 else min c 900)) 16 7 (min (max t 1) 100)
  else if off = 0x108 then
    let w := if bitsAt w 0 8 = 0 then bitsPut w 0 8 20 else w
    if bitsAt w 8 8 = 0 then bitsPut w 8 8 20 else w
  else if off = 0x10C then bitsPut w 0 7 (min (max (bitsAt w 0 7) 70) 105)
  else w

/-- A rail's limits as R433 corrects them. -/
def railFix (lim w : Nat) : Nat :=
  let one (v : Nat) := if v = 0 ∨ lim < v then lim else v
  one (bitsAt w 0 16) + 65536 * one (bitsAt w 16 16)

/-- Correct a register word, and say whether that changed it. -/
def State.fixWord (s : State) (k : Nat) (f : Nat → Nat) : State × Bool :=
  let w := (s.word k).toNat
  (s.setWord k (BitVec.ofNat 32 (f w)), f w != w)

/-- The modules of a route group that the rules of R371 leave in entry `e`; in hub mode a memory or neighbour module is as unused (R24).
The entries of stacks 0-31 are 16-47 (R370). -/
def State.routeFix (s : State) (e mask : Nat) : Nat :=
  let hub := s.get Fld.LNK_LNK_MODE_LINK_MODE == 1
  let kind (m : Nat) := s.get Fld.LNK_MOD_CFG_PARTNER_KIND m
  let id (m : Nat) := s.get Fld.LNK_MOD_CFG_PARTNER_ID m
  let g := maskIdx 40 mask
  let ok (m : Nat) : Bool :=
    let role := s.get Fld.LNK_MOD_CFG_MOD_ROLE m
    kind m == kind (g.headD 0) && id m == id (g.headD 0) && decide (1 ≤ role) && decide (role ≤ 4) &&
      !(hub && (role == 1 || role == 2)) && (role != 1 || (e == 16 + id m && decide (id m < 32))) && (role != 4 || e == 56 + id m)
  idxMask (g.filter ok)

/-! ### What an instance does as its fields apply -/

/-- The SLNK page: a correction reports, a lower `RATE_CAP` retrains, a new violation window starts (R379, R380). -/
def State.lnkFix (s : State) (inst : Nat) (keys : List Nat) : State :=
  if inst = 0 then
    let s := if keys.contains (Fld.LNK_LNK_TIMEOUT_REQ_TIMEOUT.key 0 0) ∧ s.get Fld.LNK_LNK_TIMEOUT_REQ_TIMEOUT = 0 then
        s.put Fld.LNK_LNK_TIMEOUT_REQ_TIMEOUT 2000
      else s
    if keys.contains (Fld.LNK_LNK_QUAR_VIOL_LIMIT.key 0 0) then
      let s := if s.get Fld.LNK_LNK_QUAR_VIOL_WINDOW = 0 then s.put Fld.LNK_LNK_QUAR_VIOL_WINDOW 1 else s
      (List.range 40).foldl (fun s m => s.setMod m { s.mod m with violTimes := [] }) s
    else s
  else
    let m := inst - 1
    let cfg := Fld.LNK_MOD_CFG_MOD_ROLE.key m 0
    let reserved := keys.contains cfg && (decide (4 ≤ s.get Fld.LNK_MOD_CFG_PARTNER_KIND m) || decide (5 ≤ s.get Fld.LNK_MOD_CFG_MOD_ROLE m))
    let c := s.fixWord cfg modCfgFix
    let t := c.1.fixWord (Fld.LNK_MOD_TUNE_RATE_CAP.key m 0) modTuneFix
    let s := if c.2 || t.2 || reserved then t.1.lnkEvent Fld.LNK_PAGE_EVENT_CFG_FIXUP m else t.1
    if s.modState m = 6 ∧ s.get Fld.LNK_MOD_TUNE_RATE_CAP m < s.get Fld.LNK_MOD_STATE_RATE m then s.enterRetrain m else s

/-- The RTE page: groups follow R371 as the loader commits them, and the routes are looked at again. -/
def State.rteFix (s : State) (inst : Nat) (early : Bool) : State :=
  if inst = 0 ∨ !early then s
  else
    let e := inst - 1
    let p := s.get Fld.RTE_RT_PRI_MASK e
    let a := s.get Fld.RTE_RT_ALT_MASK e
    let p' := s.routeFix e p
    let a' := s.routeFix e a
    let s := (s.put Fld.RTE_RT_PRI_MASK p' e).put Fld.RTE_RT_ALT_MASK a' e
    let s := if p = p' ∧ a = a' then s else (s.put Fld.RTE_RTE_LAST_ENTRY e).event Fld.RTE_PAGE_EVENT_ROUTE_FIXUP 0 e
    s.routesChanged

/-- A core page: a split that the core's state or the code does not allow is refused (R100, R101). -/
def State.splitFix (s : State) (n : Nat) : State :=
  let a := s.get Fld.CORE_CORE_CFG_ACC_SPLIT n
  let st := s.get Fld.CORE_CORE_STATE_STATE n
  if a = 0 ∧ s.get Fld.CORE_CORE_CFG_SPLIT_BARE n = 0 then s
  else if 5 ≤ a ∨ !(st = 3 ∨ st = 4) then (s.dropSplit n).event Fld.CORE_PAGE_EVENT_SPLIT_REFUSED n
  else s

/-- A cluster page: counts that stand at a new threshold trigger retirement (R405). -/
def State.clusterFix (s : State) (cl : Nat) : State :=
  if !s.numbered then s
  else (List.range 9).foldl (fun s p =>
    let i := cl * 9 + p
    let u := s.get Fld.CL_CL_CFG_UE_RETIRE cl
    let c := s.get Fld.CL_CL_CFG_CE_RETIRE cl
    if u ≠ 0 ∧ u ≤ s.get Fld.CL_PC_ERRS_PC_UE i then s.retireTrigger cl p 0
    else if c ≠ 0 ∧ c ≤ s.get Fld.CL_PC_ERRS_PC_CE i then s.retireTrigger cl p 1
    else s) s

/-- The PWR page and its rails (R432, R433). -/
def State.powerFix (s : State) (inst : Nat) (keys : List Nat) : State :=
  let step (a : State × Bool) (k : Nat) : State × Bool :=
    let off := k % 2 ^ 14
    let f := if inst = 0 then pwrFix (a.1.fuses.opCeil % 2) off
      else if off = 4 then fun w => railFix (railLimReset (inst - 1)) w % 65536
      else railFix (railLimReset (inst - 1))
    let r := a.1.fixWord k f
    (r.1, a.2 || r.2)
  let r := keys.foldl step (s, false)
  if r.2 then r.1.event Fld.PWR_PAGE_EVENT_CFG_FIXUP 0 (inst - 1) else r.1

/-- The FLD page: a slice's count that stands at a new threshold signals (R245). -/
def State.fieldFix (s : State) : State :=
  let t := s.get Fld.FLD_FLD_CFG_CE_THRESH
  (List.range 8).foldl (fun s sl => if t ≠ 0 ∧ t ≤ s.get Fld.FLD_SL_CE_COUNT_COUNT sl then s.event Fld.FLD_PAGE_EVENT_FLD_CE_THRESH 0 sl else s) s

/-- The XLT page: the pool is clipped (R257), and a count below a new threshold signals (R279). -/
def State.xltFix (s : State) (keys : List Nat) : State :=
  let s := if keys.contains (Fld.XLT_POOL_COUNT_COUNT.key 0 0) ∨ keys.contains (Fld.XLT_POOL_BASE_FRAME.key 0 0) then s.clipCheck else s
  if keys.contains (Fld.XLT_XLT_CFG_POOL_LOW.key 0 0) ∧ s.freeFrames + s.pendingFrames < s.get Fld.XLT_XLT_CFG_POOL_LOW * 4096 then
    s.event Fld.XLT_PAGE_EVENT_POOL_LOW
  else s

/-- A chain whose epochs begin anew at a COMMIT (R344): what was sent under the epochs before it may still come. -/
def Chain.anew (c : Chain) (epoch : Nat) : Chain :=
  { Chain.idle with peers := c.peers.map (fun q => { q with old := true }), before := some epoch }

/-- A chain: a COMMIT that changes any field starts its epochs anew, and a round that waits for its contributors meets the new
configuration; a position beyond the chain leaves it disabled (R339, R343, R344). -/
def State.chainFix (s : State) (ch : Nat) (changed : Bool) : State :=
  let s := if changed then
      let t := ((s.put Fld.TRV_CH_EPOCH_EPOCH 0 ch).put Fld.TRV_CH_STATUS_ABORT_PENDING 0 ch).setChain ch ((s.chain ch).anew (s.chEpoch ch))
      match (s.chain ch).round with
      | none => t
      | some r => t.joinRound ch r
    else s
  if s.get Fld.TRV_CH_CFG_EN ch = 1 ∧ s.get Fld.TRV_CH_CFG_LEN_M1 ch < s.get Fld.TRV_CH_POS_POS ch then
    (s.put Fld.TRV_TRV_LAST_CHAIN ch).event Fld.TRV_PAGE_EVENT_ROUND_FAIL 0 ch
  else s

/-- A scale slot (R146). -/
def State.scaleFix (s : State) (slot : Nat) : State :=
  let r := s.fixWord (Fld.SCL_SLOT_CFG_CLASS.key slot 0) slotFix
  if r.2 then (r.1.put Fld.SCL_SCL_LAST_SLOT_SLOT slot).event Fld.SCL_PAGE_EVENT_CFG_FIXUP 0 slot else r.1

/-- What the block does as the staged registers `keys` of an instance have applied; `changed` says that a value changed. -/
def State.applied (s : State) (page inst : Nat) (keys : List Nat) (early changed : Bool) : State :=
  if blkOf page = 0x10 then s.clusterFix (page - 0x10)
  else if blkOf page = 0x40 then s.splitFix (page - 0x40)
  else match page with
    | 0 => if early then s.dieFix keys else s
    | 4 => s.powerFix inst keys
    | 9 => if inst = 0 then s.xltFix keys else s
    | 0xA => s.fieldFix
    | 0xB => if inst = 0 then s else if 2 ^ 16 ≤ inst then s.sqApply (inst - 2 ^ 16) else s.chainFix (inst - 1) changed
    | 0xC => if inst = 0 then s else s.scaleFix (inst - 1)
    | 0x100 => s.lnkFix inst keys
    | 0x102 => s.rteFix inst early
    | _ => s

/-- A new `PATROL_HOURS` restarts the patrol period (R245). -/
def State.patrolRestart (s : State) (old : Nat) : State := if s.patrolSpan = old then s else { s with patrolFrom := s.now }

/-- An instance applies all its staged fields (R60, R67); the last instance ends the COMMIT in that ck, and what the new configuration
brings about follows (log entry 81). -/
def State.applyInstance (s : State) (page inst : Nat) : State :=
  let mine := s.stagedOf page inst
  let early := s.bringUpCommit page
  let keys := mine.map (·.1)
  let t := mine.foldl (fun t e => t.applyWord early e.1 e.2) { s with staged := s.staged.filter (fun e => !keys.contains e.1) }
  let changed := keys.any (fun k => t.word k != s.word k)
  let t := if t.staged.any (fun e => e.1 / 2 ^ 32 == page) then t else (t.clearStage page).raise page (2 ^ 24)
  (t.applied page inst keys early changed).patrolRestart s.patrolSpan

/-- `INSTANCE_APPLY` (R60, R67): an instance of a page under COMMIT reaches its safe point. -/
def execInstanceApply (page inst : Nat) (s : State) : Res :=
  if !s.commitBusy page ∨ (s.stagedOf page inst).isEmpty ∨ !s.safePoint page inst then .next s
  else .next (s.applyInstance page inst).loadEnd

/-- The PWR page and its rails apply a COMMIT that waits: a control period boundary is the safe point of each (R431, R434). -/
def State.powerApply (s : State) : State :=
  if s.commitBusy 4 then
    (List.range 6).foldl (fun t i => if (t.stagedOf 4 i).isEmpty then t else (t.applyInstance 4 i).loadEnd) s
  else s

/-- `CONTROL_PERIOD` (R410-R412, R418, R421-R425, R431): new fields apply first, and the period uses them. DEDUCED (log entry 60): until the
release the die keeps its bring-up point (R467), and the period only applies fields and averages the measured power. -/
def execControlPeriod (p : PowerEstimate) (s : State) : Res :=
  let t := s.powerApply
  .next (if t.released then t.controlPeriod p else t.powerStep)

end Sys2Proof.Machine
end

