-- ==== Sys2Proof/Machine/ControlRows.lean ====
section
/-! DEFINITION. The rows that are control accesses: a register write or read by address, and the rows that name one register
(R50-R69 and the block tables). Each is the access itself, with its checks. -/

namespace Sys2Proof.Machine

/-- The die-local address of a page offset (R41). -/
def pageAddr (page off : Nat) : Nat := 0x40000000 + page * 0x10000 + off

/-- A control write to a die-local address. -/
def State.ctlWrite (s : State) (a : Acc) (addr size v : Nat) : State := s.ctlWriteBy ctlAct a addr size v

/-- A write of one word of a page. -/
def State.pageWord (s : State) (a : Acc) (page off v : Nat) : State := s.ctlWrite a (pageAddr page off) 4 v

/-- A control read; a read of an episode record by a class other than DBG counts as its reading (R428). -/
def State.ctlRead (s : State) (a : Acc) (addr size : Nat) : State :=
  let t := s.ctlReadBy ctlView a addr size
  if t.ctl.code = 0 ∧ a.cls ≠ .dbg ∧ pageAddr 4 0x2000 ≤ addr ∧ addr < pageAddr 4 0x4000 then
    { t with epiUnread := t.epiUnread.filter (· != (addr - pageAddr 4 0x2000) / 32) }
  else t

/-! ### Accesses by address -/

/-- `REGISTER_WRITE` (R51). -/
def execRegisterWrite (a : Acc) (addr size value : Nat) (s : State) : Res := .next (s.ctlWrite a addr size value)

/-- `RC_READ` (R51): a read; a field that clears as it is read clears. -/
def execRcRead (a : Acc) (addr size : Nat) (s : State) : Res := .next (s.ctlRead a addr size)

/-- `STAGED_WRITE` (R58). -/
def execStagedWrite (a : Acc) (addr size value : Nat) (s : State) : Res := .next (s.ctlWrite a addr size value)

/-- `COMMIT` (R60, R61). -/
def execCommit (a : Acc) (page : Nat) (s : State) : Res := onUnit "page" 0x400 page <| .next (s.pageWord a page 0x10 1)

/-- `DISCARD` (R61). -/
def execDiscard (a : Acc) (page : Nat) (s : State) : Res := onUnit "page" 0x400 page <| .next (s.pageWord a page 0x10 2)

/-! ### Bring-up and plat -/

/-- `RELEASE` (R396, R402). -/
def execRelease (a : Acc) (s : State) : Res := .next (s.pageWord a 1 0x110 1)
/-- `REFETCH` (R397, R402). -/
def execRefetch (a : Acc) (s : State) : Res := .next (s.pageWord a 1 0x110 2)
/-- `WARM_RESET` (R383, R402). -/
def execWarmReset (a : Acc) (s : State) : Res := .next (s.pageWord a 1 0x110 4)
/-- `NEW_CLEAR` (R403). -/
def execNewClear (a : Acc) (s : State) : Res := .next (s.pageWord a 2 0x108 1)
/-- `CL_RETIRE` (R398, R404). -/
def execClRetire (a : Acc) (cl phys : Nat) (force : Bool) (s : State) : Res :=
  onUnit "cluster" 8 cl <| .next (s.pageWord a (0x10 + cl) 0x104 (phys % 16 + 16 * b2n force))

/-! ### Core pages -/

/-- A `CORE_TEST` command that leaves `TEST_DOM` as it is. -/
def State.testCommand (s : State) (a : Acc) (c bit : Nat) : Res :=
  onUnit "core" 64 c <| .next (s.pageWord a (0x40 + c) 0x140 (2 ^ bit + 256 * s.get Fld.CORE_CORE_TEST_TEST_DOM c))

/-- `CORE_TEST_ENTER` (R102). -/
def execCoreTestEnter (a : Acc) (c : Nat) (s : State) : Res := s.testCommand a c 0
/-- `CORE_TEST_START` (R102). -/
def execCoreTestStart (a : Acc) (c : Nat) (s : State) : Res := s.testCommand a c 2
/-- `CORE_TEST_LEAVE` (R102). -/
def execCoreTestLeave (a : Acc) (c : Nat) (s : State) : Res := s.testCommand a c 1

/-! ### Field memory and scale history -/

/-- `SCRUB_HOLD_WRITE` (R238). -/
def execScrubHoldWrite (a : Acc) (hold : Bool) (s : State) : Res := .next (s.pageWord a 0xA 0x104 (b2n hold))

/-- `CLEAR` (R144). -/
def execClear (a : Acc) (slot : Nat) (s : State) : Res := onUnit "slot" 4096 slot <| .next (s.ctlWindowBy ctlAct a 0xC slot 8 1)

/-- `SCALE_ENTRY_WRITE` (R144): both words of an entry. -/
def execScaleEntryWrite (a : Acc) (slot entry value : Nat) (s : State) : Res :=
  onUnit "slot" 4096 slot <| onUnit "entry" 16 entry <| .next (s.ctlWindowBy ctlAct a 0xC slot (0x10 + 8 * entry) value 8)

/-! ### Dispatch -/

/-- `DOORBELL` (R282). -/
def execDoorbell (a : Acc) (q tail : Nat) (s : State) : Res :=
  onUnit "queue" 65536 q <| .next (s.pageWord a 8 0x108 (q + 65536 * (tail % 65536)))

/-- A `Q_CTL` command. -/
def State.queueCommand (s : State) (a : Acc) (q bit : Nat) : Res :=
  onUnit "queue" 65536 q <| .next (s.ctlWindowBy ctlAct a 8 q 0x18 (2 ^ bit))

/-- `Q_ENABLE` (R281). -/
def execQEnable (a : Acc) (q : Nat) (s : State) : Res := s.queueCommand a q 0
/-- `Q_DISABLE` (R281). -/
def execQDisable (a : Acc) (q : Nat) (s : State) : Res := s.queueCommand a q 1
/-- `Q_RESUME` (R299). -/
def execQResume (a : Acc) (q : Nat) (s : State) : Res := s.queueCommand a q 2
/-- `Q_FLUSH` (R299). -/
def execQFlush (a : Acc) (q : Nat) (s : State) : Res := s.queueCommand a q 3

/-- `CHEAD_WRITE` (R310). -/
def execCheadWrite (a : Acc) (q value : Nat) (s : State) : Res :=
  onUnit "queue" 65536 q <| .next (s.ctlWindowBy ctlAct a 8 q 0x24 (65536 * (value % 65536)))

/-- `DOM_ACTIVATE` (R300). -/
def execDomActivate (a : Acc) (dom kind : Nat) (s : State) : Res :=
  onUnit "domain" 256 dom <| .next (s.pageWord a 8 0x10C (dom + 256 + 1024 * (kind % 4)))

/-- `DOM_TEAR_DOWN` (R301). -/
def execDomTearDown (a : Acc) (dom : Nat) (s : State) : Res := onUnit "domain" 256 dom <| .next (s.pageWord a 8 0x10C (dom + 512))

/-! ### Links -/

/-- A `MOD_CTL` command. -/
def State.moduleCommand (s : State) (a : Acc) (m bit : Nat) : Res :=
  onUnit "module" 40 m <| .next (s.ctlWindowBy ctlAct a 0x100 m 0x18 (2 ^ bit))

/-- `RETRAIN` (R361, R379). -/
def execRetrain (a : Acc) (m : Nat) (s : State) : Res := s.moduleCommand a m 0
/-- `UNQUARANTINE` (R376). -/
def execUnquarantine (a : Acc) (m : Nat) (s : State) : Res := s.moduleCommand a m 1
/-- `TAKE_DOWN` (R379). -/
def execTakeDown (a : Acc) (m : Nat) (s : State) : Res := s.moduleCommand a m 2

/-- `EVENT_MESSAGE_SEND` (R66, R483): the oldest host event message leaves as an EVENT packet to the host hub. -/
def execEventMessageSend (s : State) : Res :=
  match s.hostMsgs with
  | [] => .next s
  | h :: rest => .next (({ s with hostMsgs := rest } : State).send { pktOf 0x52 with dest := s.get Fld.DIE_DIE_CFG_HOST_HUB, dkind := 2, data := h.payload })

/-! ### Errors, mailboxes and security -/

/-- `FN_RPTR_WRITE` (R438). -/
def execFnRptrWrite (a : Acc) (value : Nat) (s : State) : Res := .next (s.pageWord a 5 0x108 value)

/-- `MB_REQ_WRITE` (R443): one word of a request. -/
def execMbReqWrite (a : Acc) (mb off value : Nat) (s : State) : Res :=
  onUnit "mailbox" 16 mb <| onUnit "request byte" 256 off <| .next (s.ctlWindowBy ctlAct a 7 mb (0x100 + off / 4 * 4) value)

/-- A `MB_CTL` command. -/
def State.mailboxCommand (s : State) (a : Acc) (mb v : Nat) : Res := onUnit "mailbox" 16 mb <| .next (s.ctlWindowBy ctlAct a 7 mb 8 v)

/-- `POST` (R443). -/
def execPost (a : Acc) (mb len : Nat) (s : State) : Res := s.mailboxCommand a mb (1 + 65536 * (len % 512))
/-- `MB_RELEASE` (R443). -/
def execMbRelease (a : Acc) (mb : Nat) (s : State) : Res := s.mailboxCommand a mb 2
/-- `TAKE` (R443). -/
def execTake (a : Acc) (mb : Nat) (s : State) : Res := s.mailboxCommand a mb 4
/-- `REPLY` (R443). -/
def execReply (a : Acc) (mb len : Nat) (s : State) : Res := s.mailboxCommand a mb (8 + 65536 * (len % 512))

/-- `WDT_KICK` (R446). -/
def execWdtKick (a : Acc) (value : Nat) (s : State) : Res := .next (s.pageWord a 7 0x108 value)
/-- `EXTEND` (R447). -/
def execExtend (a : Acc) (index : Nat) (s : State) : Res := .next (s.pageWord a 6 0x10C (index % 8 + 8))
/-- `QUOTE_REQ` (R448). -/
def execQuoteReq (a : Acc) (s : State) : Res := .next (s.pageWord a 6 0x108 1)
/-- `SUBMIT` (R451). -/
def execSubmit (a : Acc) (s : State) : Res := .next (s.pageWord a 0xD 0x100 1)
/-- `MA_READ` (R452). -/
def execMaRead (a : Acc) (s : State) : Res := .next (s.pageWord a 0xD 0x100 2)
/-- `MA_WRITE` (R452). -/
def execMaWrite (a : Acc) (s : State) : Res := .next (s.pageWord a 0xD 0x100 4)

end Sys2Proof.Machine
end

