-- ==== Sys2Proof/Machine/Loader.lean ====
section
/-! DEFINITION. The configuration loader (R62, R396): it applies the image's write records as the LDR class. -/

namespace Sys2Proof.Machine

/-- The loader as an accessor. -/
def ldrAcc : Acc := { cls := .ldr, dom := 0, loc := false }

/-- A page-relative write of the loader; one that ends with an error completion is counted and reported (R396). -/
def State.loaderWrite (s : State) (page off v : Nat) : State :=
  let t := s.ctlWriteBy ctlAct ldrAcc (0x40000000 + page * 0x10000 + off) 4 v
  if t.ctl.code = 0 then t else (t.bump Fld.BOOT_BOOT_LDR_ERRS_COUNT).event Fld.BOOT_PAGE_EVENT_LDR_ERR

/-- Apply one write record of 12 bytes (R396); a reserved `OP` or a non-zero reserved byte fails the bring-up. -/
def State.applyRecord (s : State) (r : Bytes) : State :=
  let page := leAt r 0 2 % 1024
  let off := leAt r 2 2
  let inst := leAt r 4 2
  let op := leAt r 6 1
  if 2 ≤ op ∨ leAt r 7 1 ≠ 0 then s.fail 9
  else if op = 1 then
    let t := s.loaderWrite page 0x10 1
    { t with boot := { t.boot with waits := [page] } }
  else if inst = 0xFFFF then s.loaderWrite page off (leAt r 8 4)
  else (s.loaderWrite page 0x2C inst).loaderWrite page (0xB000 + off) (leAt r 8 4)

/-- The pages that hold staging of the loader. -/
def State.loaderPages (s : State) : List Nat := allPages.filter (fun p => s.stagedPending p && s.ownsStage ldrAcc p)

/-- A section is through: every page with staging of the loader is committed (R396). -/
def State.endSection (s : State) : State :=
  let ps := s.loaderPages
  let t := ps.foldl (fun t p => t.loaderWrite p 0x10 1) s
  { t with boot := { t.boot with waits := ps } }

/-- `WRITE_RECORD` (R396): the next record of the section under way, once no COMMIT that the loader waits for runs. -/
def execWriteRecord (s : State) : Res :=
  if !s.inPhase 7 ∨ s.boot.waits.any s.commitBusy then .next s
  else match s.boot.sections with
    | none => .next s
    | some [] => .next s.loadEnd
    | some (b :: rest) =>
      let t : State := { s with boot := { s.boot with waits := [], sections := some (if b.length < 24 then rest else b.drop 12 :: rest) } }
      let t := if b.length < 12 then t else t.applyRecord (b.take 12)
      if !t.inPhase 7 then .next t
      else .next (if b.length < 24 then t.endSection.loadEnd else t)

end Sys2Proof.Machine
end

