-- ==== Sys2Proof/Machine/Packets.lean ====
section
/-! DEFINITION. What a packet does that arrives on a module (R357, R364-R367, R374, R375): the checks on the partner, transit, and
the endpoint. A packet's receive buffer is free again as soon as the packet has been handled. -/

namespace Sys2Proof.Machine

/-! ### The partner -/

/-- The partner's kind on module `m`: 0 Etzotal die, 1 stack, 2 hub, 3 guest; a boot link's is the one of its feature record. -/
def State.peerKind (s : State) (m : Nat) : Nat :=
  if (s.mod m).boot then s.get Fld.LNK_MOD_PEER_KIND m else s.get Fld.LNK_MOD_CFG_PARTNER_KIND m

/-- A request, which gets an answer (R367, R374). -/
def isRequest (t : Nat) : Bool := t == 0x01 || t == 0x02 || t == 0x20 || t == 0x50 || t == 0x53 || t == 0x55 || t == 0x56

/-- A packet dropped on arrival (R366, R367, R375). -/
def State.dropPacket (s : State) (m : Nat) : State := s.bump Fld.PTR_PT_DROPPED_COUNT 1 m

/-- Answer packet `p`; with no way back the answer is dropped (R29). -/
def State.answer (s : State) (p r : Packet) : State := s.send { r with dest := p.src, dkind := p.skind, dom := p.dom, tag := p.tag }

/-- Answer a packet on the module it came by: a boot link has no route yet (R392). -/
def State.answerOn (s : State) (m : Nat) (p r : Packet) : State :=
  if (s.mod m).boot then s.sendVia m { r with dest := p.src, dkind := p.skind, dom := p.dom, tag := p.tag } else s.answer p r

/-- Turn a request down with a status of R253; `crsp` is the code that an easement request gets instead (R375). -/
def State.turnDown (s : State) (m : Nat) (p : Packet) (status crsp : Nat) : State :=
  if p.vc = 0 ∨ p.vc = 2 then s.answerOn m p { pktOf 0x12 with arg := status }
  else if isRequest p.typ then s.answerOn m p { pktOf 0x51 with arg := crsp }
  else s

/-- Refuse a request for protection (R53, R375): a CREQ sets `ACCESS_REFUSED` on the page it addressed. -/
def State.protect (s : State) (m : Nat) (p : Packet) : State :=
  if p.typ = 0x55 then s.answerOn m p { pktOf 0x58 with arg := 2 }
  else
    (if p.typ = 0x50 then s.apertureRefused p.addr else s).turnDown m p stProtection 1

/-! ### Memory requests -/

/-- An access that leaves its block (R375, code 0x0F). -/
def outsideBlock (p : Packet) : Bool :=
  let n := if p.typ = 0x01 then p.arg % 512 else p.data.length
  if p.typ = 0x20 then p.addr % 256 != 0 else n == 0 || decide (256 < n) || p.addr / 256 != (p.addr + n - 1) / 256

/-- RD, WR and BWR at this die (R42, R235, R254, R364, R367). A guest gets "protection" from the control aperture (R357). -/
def State.serveMemory (s : State) (m : Nat) (p : Packet) : State :=
  if outsideBlock p then (s.countViolation m 0xF).answer p { pktOf 0x12 with arg := stReserved }
  else if s.peerKind m = 3 ∧ inAperture p.addr then (s.apertureRefused p.addr).answer p { pktOf 0x12 with arg := stProtection }
  else
    let w : Who := { dom := p.dom, unit := 9, own := false, die := p.src, tag := p.tag, pass := false }
    if p.typ = 0x01 then
      let r := s.readMem w p.addr (p.arg % 512)
      if r.status = 0 then r.state.answer p { pktOf 0x10 with data := r.bytes } else r.state.answer p { pktOf 0x12 with arg := r.status }
    else
      let r := s.writeMem w p.addr p.data
      if r.2 = 0 then r.1.answer p (pktOf 0x11) else r.1.answer p { pktOf 0x12 with arg := r.2 }

/-! ### Replies -/

/-- A reply of a type answers a request of a type; a CRSP also one that was turned down on the easement channel (R375). -/
def answers (reply request : Nat) : Bool :=
  match reply with
  | 0x10 => request == 0x01
  | 0x11 => request == 0x02 || request == 0x20
  | 0x12 => request == 0x01 || request == 0x02 || request == 0x20
  | 0x51 => request == 0x50 || request == 0x53 || request == 0x55 || request == 0x56
  | 0x54 => request == 0x53
  | _ => request == 0x55

/-- The requester unit that a request's error record names, and its core or engine (R439, R440). -/
def State.ownerUnit (s : State) : ReqOwner → Nat × Nat
  | .move k => (moveUnit k, (s.move k).loc k)
  | .image _ => (8, 0)
  | .frameCode k => (moveUnit k, (s.move k).loc k)
  | .stage q => (5, q)
  | .walk _ _ => (6, 0)
  | .zero _ => (6, 0)
  | .debug => (11, 0)

/-- The status (R253) that a CRSP gives a FRAME_CODE, which has none of its own for a refusal (R364, R375; log entry 80). -/
def crspStatus (code : Nat) : Nat := if code = 5 then stUnmapped else if code = 6 then stRetired else stProtection

/-- A reply at this die (R364, R374, R375): it ends its request; a late one is counted, and one without a request is a violation. Every
ERSP of a stack means that its data is uncorrectable (R253, R270). -/
def State.takeReply (s : State) (m : Nat) (p : Packet) : State :=
  match s.reqs.find? (fun r => r.tag == p.tag && answers p.typ r.pkt.typ) with
  | none =>
    if s.lateTags.contains p.tag then ({ s with lateTags := s.lateTags.erase p.tag } : State).bump Fld.LNK_LNK_LATE_RSP_COUNT
    else (s.countViolation m 6).dropPacket m
  | some r =>
    let code := p.arg % 256
    let bad := (p.typ == 0x12 && !(decide (2 ≤ code) && decide (code ≤ 0xA))) || (p.typ == 0x51 && decide (6 < code))
    let s := if bad then s.countViolation m 0xD else s
    let code := if p.typ = 0x12 ∧ (bad ∨ p.skind = 1) then stUncorrectable else if bad then 1 else code
    let s := if p.typ = 0x12 then s.bump Fld.ERR_ERR_ERSP_RX_COUNT else s
    let u := s.ownerUnit r.owner
    let s := if (p.typ = 0x12 ∨ p.typ = 0x51) ∧ code ≠ 0 then
        s.note (errNote (if p.typ = 0x51 then code + 0x80 else code) u.1 u.2 r.pkt.addr (p.src + 4096 * p.skind) r.pkt.dom (if r.owner = .debug then 0 else p.tag))
      else s
    s.endRequest p.tag (if p.typ = 0x10 ∨ p.typ = 0x11 then 0 else if p.typ = 0x51 ∧ r.pkt.typ = 0x53 then crspStatus code else code) p.data

/-! ### Easement requests (R53, R364, R367) -/

/-- Easement answers of this die that have not left: the queue that a further easement request finds full at 64 (R367). -/
def State.easementWaiting (s : State) : Nat :=
  let mine (p : Packet) : Bool := p.hop == 0 && (p.typ == 0x51 || p.typ == 0x54 || p.typ == 0x58)
  ((List.range 40).map (fun m => ((s.mod m).queue.filter (fun q => mine q.pkt)).length)).sum + (s.waiting.filter (fun w => mine w.pkt)).length

/-- The class that a CREQ names is one that its origin may use (R53): the partner of the module it enters by. -/
def State.creqClass (s : State) (m : Nat) (p : Packet) : Option Cls :=
  match bitsAt p.arg 2 2, s.peerKind m with
  | 0, 0 => some .mp
  | 1, 2 => some .host
  | 3, 2 => some .ldr
  | _, _ => none

/-- A CREQ at this die. -/
def State.serveControl (s : State) (m : Nat) (p : Packet) : State :=
  let write := bitOf p.arg 0
  let size := if bitOf p.arg 1 then 8 else 4
  if bitsAt p.arg 2 2 = 2 then (s.countViolation m 7).protect m p
  else match s.creqClass m p with
    | none => s.protect m p
    | some c =>
      let a : Acc := { cls := c, dom := p.dom, loc := false }
      if write ∧ p.data.length ≠ size then s.answerOn m p { pktOf 0x51 with arg := 2 }
      else
        let t := if write then s.ctlWrite a p.addr size (leVal p.data) else s.ctlRead a p.addr size
        t.answerOn m p { pktOf 0x51 with arg := t.ctl.code, data := if write ∨ t.ctl.code ≠ 0 then [] else leBytes size t.ctl.data }

/-- An MSG at this die (R443): the poster is the partner's class, and a guest posts for its restricted domain. -/
def State.serveMessage (s : State) (m : Nat) (p : Packet) : State :=
  let a : Acc := { cls := if s.peerKind m = 0 then .mp else .host, dom := p.dom, loc := false }
  let r := s.mbMessage a (p.arg % 16) p.data
  r.1.answerOn m p { pktOf 0x58 with arg := r.2 }

/-- An easement request at this die, an IMAGE among them; one that finds the easement queue full is dropped. -/
def State.serveEasement (s : State) (m : Nat) (p : Packet) : State :=
  if 64 ≤ s.easementWaiting then ((s.bump Fld.LNK_LNK_EASE_DROP_COUNT).dropPacket m).lnkEvent Fld.LNK_PAGE_EVENT_EASE_DROP m
  else if p.typ = 0x50 then s.serveControl m p
  else if p.typ = 0x53 then s.answerOn m p { pktOf 0x54 with arg := 1 }
  else if p.typ = 0x56 then s.gotImage m p
  else s.serveMessage m p

/-! ### The endpoint -/

/-- A packet addressed to this die, by its type (R364, R367). -/
def State.endpoint (s : State) (m : Nat) (p : Packet) : State :=
  match p.typ with
  | 0x01 => s.serveMemory m p
  | 0x02 => s.serveMemory m p
  | 0x20 => s.serveMemory m p
  | 0x10 => s.takeReply m p
  | 0x11 => s.takeReply m p
  | 0x12 => s.takeReply m p
  | 0x30 => s.gotSeg p
  | 0x31 => s.gotPerm p
  | 0x32 => s.gotGrant p
  | 0x33 => s.gotCack p
  | 0x34 => s.gotAbort p
  | 0x35 => s.gotCrefuse p
  | 0x40 => s.gotSdata p
  | 0x41 => s.gotSack p
  | 0x42 => s.gotSopen p
  | 0x43 => s.gotScredit p
  | 0x44 => s.gotSerr p
  | 0x50 => s.serveEasement m p
  | 0x51 => s.takeReply m p
  | 0x53 => s.serveEasement m p
  | 0x54 => s.takeReply m p
  | 0x55 => s.serveEasement m p
  | 0x56 => s.serveEasement m p
  | 0x57 => s.bump Fld.ERR_ERR_ENOTE_RX_COUNT
  | 0x58 => s.takeReply m p
  | _ => s

/-- A packet in transit (R28, R366): one hop more, on its own route; at hop 7 or without a route it ends here. -/
def State.forward (s : State) (m : Nat) (p : Packet) : State :=
  if 7 ≤ p.hop then
    let s := (s.put Fld.RTE_RTE_LAST_ENTRY (s.routeEntry p.dest p.dkind)).event Fld.RTE_PAGE_EVENT_HOP_LIMIT 0 (s.routeEntry p.dest p.dkind)
    if p.vc = 0 ∨ p.vc = 2 then s.answer p { pktOf 0x12 with arg := stPathDown } else s.dropPacket m
  else if s.reachable p.dest p.dkind (pktKey p) then s.sendOn { p with hop := p.hop + 1 }
  else s.noPath { p with hop := p.hop + 1 }

/-! ### The checks on arrival (R357, R375) -/

/-- The channel bit of a guest's profile (R37). -/
def guestBit (vc : Nat) : Nat := [0, 1, 2, 5, 3, 4].getD vc 5

/-- The type or channel is not allowed for the partner of module `m` (R20, R357, R392). DESIGN CHOICE (log entry 93): a guest's `PARTNER_ID` names
its entry modulo 8. -/
def State.notAllowed (s : State) (m : Nat) (p : Packet) : Bool :=
  let k := s.peerKind m
  ((s.mod m).boot && p.vc != 5) || (k == 1 && (isRequest p.typ || p.vc == 3 || p.vc == 4)) ||
    (k == 3 && (!bitOf (s.get Fld.DIE_GUEST_CHANNELS 0 (s.get Fld.LNK_MOD_CFG_PARTNER_ID m % 8)) (guestBit p.vc) ||
      (p.vc == 5 && p.typ != 0x55 && p.typ != 0x50)))

/-- The packet is for this die: what a boot link carries always is (R392). -/
def State.forMe (s : State) (m : Nat) (p : Packet) : Bool := (s.mod m).boot || (p.dkind == 0 && p.dest == s.sysId)

/-- A packet that holds its credits, its channel set right and its identity checked. -/
def State.acceptIn (s : State) (m : Nat) (p : Packet) : State :=
  if 4 ≤ p.dkind then
    let s := s.countViolation m 5
    if isRequest p.typ then s.turnDown m p stPathDown 5 else s.dropPacket m
  else if s.notAllowed m p then
    let s := s.countViolation m 7
    if isRequest p.typ then s.protect m p else s.dropPacket m
  else if s.fatal ∧ (p.vc = 0 ∨ p.vc = 2) then s.turnDown m p stPathDown 5
  else if s.peerKind m = 3 ∧ p.typ = 0x50 then (if bitsAt p.arg 2 2 = 2 then s.countViolation m 7 else s).protect m p
  else if s.forMe m p then s.endpoint m p
  else if s.peerKind m = 3 then (if !isRequest p.typ then s else if p.dkind = 1 then s.protect m p else s.turnDown m p stPathDown 5)
  else s.forward m p

/-- `SRC` and `DOMAIN` as the die reads them (R357, R375): a stack's or guest's own identity, a guest's restricted domain, of the entry that
its `PARTNER_ID` names modulo 8 (DESIGN CHOICE, log entry 93). -/
def State.identify (s : State) (m : Nat) (p : Packet) : State × Packet :=
  let k := s.peerKind m
  let id := s.get Fld.LNK_MOD_CFG_PARTNER_ID m
  if k = 1 ∨ k = 3 then
    let s := if p.src = id ∧ p.skind = k then s else s.countViolation m 0xC
    (s, { p with src := id, skind := k, dom := if k = 3 then s.get Fld.DIE_GUEST_DOMAIN 0 (id % 8) else p.dom })
  else (s, p)

/-- The station number that a packet received on module `m` carries, as the die reads it: none on a channel without one (R43), 0 from a
partner of level 1 (R355). -/
def State.stationOf (s : State) (m : Nat) (p : Packet) : Option Nat :=
  if vcOf p.typ = 3 ∨ vcOf p.typ = 5 then some (if s.get Fld.LNK_MOD_STATE_LEVEL m < 0x20 then 0 else p.station) else none

/-- The collective and easement packets that arrive in one ck on module `m` advance the station number in one step (R44); a number that
is too high is not adopted and counts as a violation (R47). -/
def State.receiveAll (s : State) (m : Nat) (ps : List Packet) : State :=
  let vs := ps.filterMap (s.stationOf m)
  let high := vs.filter (fun v => decide (s.station + 2 ^ 48 < v))
  let t := if vs.isEmpty then s else s.receive ((vs.filter (fun v => !decide (s.station + 2 ^ 48 < v))).foldl max 0)
  high.foldl (fun t _ => t.countViolation m 8) t

/-- A packet is handled that has arrived on module `m` (R364-R367, R375). -/
def State.packetTake (s : State) (m : Nat) (p : Packet) : State :=
  if s.modState m ≠ 6 then s
  else
    if vcOf p.typ = 6 then s.countViolation m 1
    else if !lenFits p.typ p.data.length p.arg then s.countViolation m 3
    else
      let s := if p.vc = vcOf p.typ then s else s.countViolation m 2
      let p : Packet := { p with vc := vcOf p.typ }
      let k := credKey p
      let x := s.mod m
      let held := tget (fun _ => 0) k x.rxHeld
      if ownCredits p.vc < held + creditsOf p then (s.countViolation m 4).dropPacket m
      else
        let owed := tget (fun _ => 0) k x.retCred
        let s := s.setMod m { x with rxHeld := tset (fun _ => 0) k (held + creditsOf p) x.rxHeld
                                     retCred := tset (fun _ => 0) k (owed + creditsOf p) x.retCred }
        let s := if p.rsv then s.countViolation m 0xB else s
        let r := s.identify m p
        r.1.acceptIn m { r.2 with rsv := false }

/-- Packets arrive together on module `m`: their receipt comes first (R44), then each is handled in order, those whose station number was
too high as any other (R47). -/
def State.handleAll (s : State) (m : Nat) (ps : List Packet) : State :=
  if s.modState m ≠ 6 then s
  else
    let l := ps.map Packet.norm
    l.foldl (fun t p => t.packetTake m p) (s.receiveAll m l)

/-- Packets arrive and are handled; the violations among them lead to quarantine, if at all, when all have been handled (R44, R376). -/
def State.packetsIn (s : State) (m : Nat) (ps : List Packet) : State := (s.handleAll m ps).quarSince s m

/-! ### The rows -/

/-- A row of packet type `t`: a packet of another type is none of its events. -/
def State.packetRow (s : State) (m : Nat) (p : Packet) (t : Nat) : Res :=
  onUnit "module" 40 m <| if p.typ = t then .next (s.packetsIn m [p]) else .next s

/-- `RD` (R364). -/
def execRd (m : Nat) (p : Packet) (s : State) : Res := s.packetRow m p 0x01
/-- `WR` (R364). -/
def execWr (m : Nat) (p : Packet) (s : State) : Res := s.packetRow m p 0x02
/-- `BWR` (R364). -/
def execBwr (m : Nat) (p : Packet) (s : State) : Res := s.packetRow m p 0x20
/-- `RDATA` (R367). -/
def execRdata (m : Nat) (p : Packet) (s : State) : Res := s.packetRow m p 0x10
/-- `WACK` (R254). -/
def execWack (m : Nat) (p : Packet) (s : State) : Res := s.packetRow m p 0x11
/-- `ERSP` (R364). -/
def execErsp (m : Nat) (p : Packet) (s : State) : Res := s.packetRow m p 0x12
/-- `SEG` (R326). -/
def execSeg (m : Nat) (p : Packet) (s : State) : Res := s.packetRow m p 0x30
/-- `PERM` (R328). -/
def execPerm (m : Nat) (p : Packet) (s : State) : Res := s.packetRow m p 0x31
/-- `GRANT` (R326). -/
def execGrant (m : Nat) (p : Packet) (s : State) : Res := s.packetRow m p 0x32
/-- `CACK` (R327). -/
def execCack (m : Nat) (p : Packet) (s : State) : Res := s.packetRow m p 0x33
/-- `ABORT` (R336). -/
def execAbort (m : Nat) (p : Packet) (s : State) : Res := s.packetRow m p 0x34
/-- `CREFUSE` (R337). -/
def execCrefuse (m : Nat) (p : Packet) (s : State) : Res := s.packetRow m p 0x35
/-- `SDATA` (R334). -/
def execSdata (m : Nat) (p : Packet) (s : State) : Res := s.packetRow m p 0x40
/-- `SACK` (R334). -/
def execSack (m : Nat) (p : Packet) (s : State) : Res := s.packetRow m p 0x41
/-- `SOPEN` (R333). -/
def execSopen (m : Nat) (p : Packet) (s : State) : Res := s.packetRow m p 0x42
/-- `SCREDIT` (R333). -/
def execScredit (m : Nat) (p : Packet) (s : State) : Res := s.packetRow m p 0x43
/-- `SERR` (R339). -/
def execSerr (m : Nat) (p : Packet) (s : State) : Res := s.packetRow m p 0x44
/-- `CREQ` (R53). -/
def execCreq (m : Nat) (p : Packet) (s : State) : Res := s.packetRow m p 0x50
/-- `CRSP` (R364). -/
def execCrsp (m : Nat) (p : Packet) (s : State) : Res := s.packetRow m p 0x51
/-- `EVENT` (R483). -/
def execEvent (m : Nat) (p : Packet) (s : State) : Res := s.packetRow m p 0x52
/-- `FRAME_CODE` (R270). -/
def execFrameCode (m : Nat) (p : Packet) (s : State) : Res := s.packetRow m p 0x53
/-- `FCACK` (R364). -/
def execFcack (m : Nat) (p : Packet) (s : State) : Res := s.packetRow m p 0x54
/-- `MSG` (R443). -/
def execMsg (m : Nat) (p : Packet) (s : State) : Res := s.packetRow m p 0x55
/-- `IMAGE` (R392). -/
def execImage (m : Nat) (p : Packet) (s : State) : Res := s.packetRow m p 0x56
/-- `ENOTE` (R438). -/
def execEnote (m : Nat) (p : Packet) (s : State) : Res := s.packetRow m p 0x57
/-- `MACK` (R364). -/
def execMack (m : Nat) (p : Packet) (s : State) : Res := s.packetRow m p 0x58

/-- `FLIT` (R358-R361): a flit reaches an ACTIVE module, and the packets it completes arrive in order; its violations and theirs lead to
quarantine when all has been handled (R44, R376). A boot link that has delivered the last chunk takes its role outcome (R396). -/
def execFlit (m : Nat) (bits : BitVec 2048) (s : State) : Res :=
  onUnit "module" 40 m <|
    if s.modState m ≠ 6 then .next s
    else
      let r := s.flitIn m (leBytes 256 bits.toNat)
      .next ((r.1.handleAll m r.2).quarSince s m).relayDone

end Sys2Proof.Machine
end

