-- ==== Sys2Proof/Machine/Pins.lean ====
section
/-! DEFINITION. The miscellaneous signals (R462, R468, R469, R473), the test access port, the IEEE 1687 segments, the chain inputs and
the management ring (R474-R478). -/

namespace Sys2Proof.Machine

/-! ### The miscellaneous signals (R462) -/

/-- The 40 miscellaneous signals, in the order of R462. -/
inductive Signal where
  | refclkInP | refclkInN | refclkOutP | refclkOutN | xtalIn | xtalOut | rstN | datumEn | cfgMaster
  | diepos0 | diepos1 | diepos2 | diepos3 | thermtripN
  | qspiSclk | qspiCsN | qspiIo0 | qspiIo1 | qspiIo2 | qspiIo3 | avsClk | avsMdata | avsSdata
  | tck | tms | trstN | tdi | tdiSkip | tdo | mrClk | mrSync | mrIn | mrInSkip | mrOut | presIn | presOut
  | vcoreSenseP | vcoreSenseN | vsramSenseP | vsramSenseN
  deriving DecidableEq, Repr

/-- How the die drives a signal: not at all, low, high, or with a level that changes or that the spec does not state. -/
inductive Pad where
  | off
  | low
  | high
  | active
  deriving DecidableEq, Repr

/-- A pad that is driven to a level. -/
def Pad.ofBool (b : Bool) : Pad := if b then .high else .low

/-- The level of a signal's pull resistor (R462); none where it has no pull. -/
def Signal.pull (x : Signal) : Option Bool :=
  match x with
  | .rstN | .datumEn | .cfgMaster | .diepos0 | .diepos1 | .diepos2 | .diepos3 | .tck | .trstN | .mrClk | .mrSync | .presIn => some false
  | .qspiCsN | .avsSdata | .tms | .tdi | .tdiSkip | .mrIn | .mrInSkip => some true
  | _ => none

/-- The signals that the boundary register drives in EXTEST and CLAMP, and that HIGHZ switches off (R474): the outputs but for the test
port's own `TDO` and the analog sense lines. DEDUCED (log entry 94). -/
def Signal.driven (x : Signal) : Bool :=
  [.refclkOutP, .refclkOutN, .xtalOut, .thermtripN, .qspiSclk, .qspiCsN, .qspiIo0, .qspiIo1, .qspiIo2, .qspiIo3, .avsClk, .avsMdata, .mrOut,
    .presOut].contains x

/-- The die is the datum die for its reference output (R462, R463, R469): as latched, and by the strap until it is. -/
def State.datumDie (s : State) : Bool := if s.aon.latched then s.get Fld.CLK_CLK_AON_DATUM_EN == 1 else s.aon.datumEn

/-- What the die itself drives onto a signal while VAON is within its band (R462): the reference output and the crystal of a datum die
in any reset (R469), `THERMTRIP_N` low while the island is tripped (R473), the configuration store's pins of a configuration master
(R468), the bus to the regulators (R467), the last bits of the two chains (R474, R478), and `PRES_OUT` high (R477). -/
def State.drives (s : State) (x : Signal) : Pad :=
  match x with
  | .refclkOutP | .refclkOutN | .xtalOut => if s.datumDie then .active else .off
  | .thermtripN => if s.aon.tripped then .low else .off
  | .qspiSclk | .qspiCsN | .qspiIo0 | .qspiIo1 | .qspiIo2 | .qspiIo3 => if s.get Fld.CLK_CLK_AON_CFG_MASTER = 1 then .active else .off
  | .avsClk | .avsMdata | .vcoreSenseP | .vcoreSenseN | .vsramSenseP | .vsramSenseN => .active
  | .tdo => Pad.ofBool (if s.bypassed then s.tap.bit else bitOf s.tap.dr 0)
  | .mrOut => Pad.ofBool (bitOf s.tap.ring 0)
  | .presOut => .high
  | _ => .off

/-- How the die drives a signal (R462, R474). In bypass the port's instruction drives nothing (R477, log entry 94). -/
def State.pad (s : State) (x : Signal) : Pad :=
  if s.aon.noVaon then .off
  else if !x.driven ∨ s.bypassed ∨ s.tap.drive = 0 then s.drives x
  else if s.tap.drive = 1 then Pad.ofBool (s.tap.boundary.getLsbD (Config.boundaryCell x.ctorIdx))
  else .off

/-- The level at a signal that nothing outside drives (R462): the pull resistors are on the die and powered from VAON. -/
def State.level (s : State) (x : Signal) : Option Bool :=
  match s.pad x with
  | .low => some false
  | .high => some true
  | .active => none
  | .off => if s.aon.noVaon then none else x.pull

/-- `PRES_OUT` is high: VAON is within its band (R477). -/
def State.presOut (s : State) : Bool := s.pad .presOut == .high

/-- `THERMTRIP_N` is driven low (R473). -/
def State.thermTripLow (s : State) : Bool := s.pad .thermtripN == .low

/-- The die drives `REFCLK_OUT` (R30, R462, R469). -/
def State.refOutDriven (s : State) : Bool := s.pad .refclkOutP != .off

/-! ### The test access port (R474-R476) -/

/-- The identification register (R475). -/
def idcode : Nat := Config.stepping / 16 * 2 ^ 28 + 0x1410 * 2 ^ 12 + 0x6E5 * 2 + 1

/-- The segments that may open (R476). -/
def State.segmentsAllowed (s : State) : Nat :=
  let p := s.get Fld.BOOT_BOOT_STATE_PHASE
  if s.unlocked then
    1 + (if p = 2 ∨ p = 0xF ∨ s.aon.held then 2 else 0) + 4 + 8 + (if s.fuses.written then 0 else 16)
  else 1 + 8

/-- The segments that are open (R476): one that may no longer open is closed. -/
def State.segments (s : State) : Nat := s.tap.segments &&& s.segmentsAllowed

/-- The controller's next state at an edge of `TCK` with `TMS` at a level (R474). From Select-DR-Scan the instruction scans go out, which
are the rows of the instructions (log entry 94). -/
def ScanSt.next (x : ScanSt) (tms : Bool) : ScanSt :=
  match x with
  | .idle | .update => if tms then .select else .idle
  | .select => if tms then .idle else .capture
  | .capture | .shift => if tms then .exit1 else .shift
  | .exit1 => if tms then .update else .pause
  | .pause => if tms then .exit2 else .pause
  | .exit2 => if tms then .update else .shift

/-- What the selected data register captures (R474-R476): the boundary register samples the signals, which are the package's, the network
its open segments, and the bypass register 0. -/
def State.captured (s : State) : Nat :=
  match s.tap.instr with
  | 0 | 2 => (Config.cellLevels s.free).toNat
  | 1 => idcode
  | 8 => s.segments
  | _ => 0

/-- Update-DR (R474, R476): the boundary cells, or the segments, take what the register holds; a segment that may not open stays closed. -/
def State.updateDr (s : State) (t : Tap) : Tap :=
  if t.instr = 0 ∨ t.instr = 2 then { t with boundary := BitVec.ofNat 40 t.dr }
  else if t.instr = 8 then { t with segments := t.dr &&& s.segmentsAllowed }
  else t

/-- An instruction scan ends the data scan under way: the path to it leads through Update-DR (R474). -/
def State.scanEnd (s : State) : Tap :=
  match s.tap.scan with
  | .idle | .select | .update => { s.tap with scan := .idle }
  | .capture => s.updateDr { s.tap with scan := .idle, dr := s.captured }
  | _ => s.updateDr { s.tap with scan := .idle }

/-- An instruction scan (R474, R477): the instruction register captures 0b0000_0001, and the new instruction selects its data register;
a die in bypass gives one bit, 1 in the instruction scan and 0 in a data scan, and takes no instruction. -/
def State.tapRow (s : State) (f : Tap → Tap) : Res :=
  if s.bypassed then .next { s with tap := { s.tap with irOut := 1, bit := false, scan := .idle } }
  else .next { s with tap := f { s.scanEnd with irOut := 1 } }

/-- The bits that the die gives an instruction scan (R474, R477). -/
def State.irLength (s : State) : Nat := if s.bypassed then 1 else 8

/-- The bits that the die gives a data scan (R474, R477). -/
def State.drLength (s : State) : Nat := if s.bypassed then 1 else s.tap.drLen

/-- The bits that the die gives a frame of the management ring (R477, R478). -/
def State.ringLength (s : State) : Nat := if s.bypassed then 1 else 32

/-- `TEST_LOGIC_RESET`, or `TRST_N` low (R474). -/
def execTestLogicReset (s : State) : Res := .next { s with tap := { s.tap with instr := 1, scan := .idle, dr := idcode, drLen := 32, drive := 0, segments := 0 } }

/-- `EXTEST`: the outputs follow the boundary register (R474). -/
def execExtest (s : State) : Res := s.tapRow fun t => { t with instr := 0, drive := 1, dr := t.boundary.toNat, drLen := 40 }

/-- `IDCODE` (R475). -/
def execIdcode (s : State) : Res := s.tapRow fun t => { t with instr := 1, drive := 0, dr := idcode, drLen := 32 }

/-- `SAMPLE_PRELOAD`: the boundary register takes the signals (R474). -/
def execSamplePreload (pins : BitVec 40) (s : State) : Res :=
  s.tapRow fun t => { t with instr := 2, drive := 0, boundary := pins, dr := pins.toNat, drLen := 40 }

/-- `CLAMP`: the outputs hold the boundary register's values, and the bypass register is selected (R474). -/
def execClamp (s : State) : Res := s.tapRow fun t => { t with instr := 3, drive := 1, dr := 0, drLen := 1 }

/-- `HIGHZ` (R474). -/
def execHighz (s : State) : Res := s.tapRow fun t => { t with instr := 4, drive := 2, dr := 0, drLen := 1 }

/-- The lane test segment reaches module `m` (R476): one that is not ACTIVE. -/
def State.laneTestOpen (s : State) (m : Nat) : Bool := bitOf s.segments 2 && s.modState m != 6

/-- The sensors' segment takes a write (R476): while locked it is read only. -/
def State.sensorWrites (s : State) : Bool := bitOf s.segments 3 && s.unlocked

/-- What a scan through segment `i` returns of the bits behind it (R476): zeros if it is closed. -/
def State.segmentScan (s : State) (i bits : Nat) : Nat := if bitOf s.segments i then bits else 0

/-- What a scan of the lane test of module `m` returns (R476). -/
def State.laneTestScan (s : State) (m bits : Nat) : Nat := if s.laneTestOpen m then bits else 0

/-- `IJTAG` with the segment insertion bits `open_` (R476): a segment that may not open stays closed. -/
def execIjtag (open_ : Nat) (s : State) : Res :=
  s.tapRow fun t => { t with instr := 8, drive := 0, segments := open_ &&& s.segmentsAllowed, dr := 0, drLen := 8 }

/-- `BYPASS`, or a reserved code (R474). -/
def execBypass (code : Nat) (s : State) : Res :=
  if code ≤ 4 ∨ code = 8 ∨ 255 < code then .next s else s.tapRow fun t => { t with instr := code, drive := 0, dr := 0, drLen := 1 }

/-! ### The chains (R477, R478) -/

/-- The word of the management ring (R478). -/
def State.ringWord (s : State) : Nat :=
  s.get Fld.CLK_CLK_AON_DIEPOS + 2 ^ 4 * s.get Fld.BOOT_BOOT_STATE_PHASE + 2 ^ 8 * s.get Fld.BOOT_BOOT_STATE_ERR +
    2 ^ 16 * s.get Fld.PWR_PWR_STATUS_TRIP_SEEN + 2 ^ 17 * s.get Fld.CLK_CLK_AON_REF_LOST + 2 ^ 18 * s.get Fld.ERR_ERR_FATAL_FATAL +
    (if s.get Fld.MBX_SVY_STATE_STATE = 2 then 2 ^ 19 else 0) + 0xE7 * 2 ^ 24

/-- `MR_SYNC`: the ring register loads the word; in bypass its one bit captures 0 (R477, R478). -/
def execMrSync (s : State) : Res := .next { s with tap := { s.tap with ring := if s.bypassed then 0 else s.ringWord } }

/-- `PRES_IN_CHANGE` (R477): with `PRES_IN` high the chain inputs are `TDI` and `MR_IN`, else the skip inputs. -/
def execPresInChange (level : Bool) (s : State) : Res := .next { s with tap := { s.tap with presIn := level } }

/-- Shift a register of `len` bits one bit towards its output, least significant bit first, and take in a bit (R478). -/
def shiftIn (len v : Nat) (b : Bool) : Nat := v % 2 ^ len / 2 + b2n b * 2 ^ (len - 1)

/-- The level at the chain input that the presence of the upstream die selects (R477). -/
def State.chainIn (s : State) (near skip : Signal) : Bool := Config.pinLevel s.free (if s.tap.presIn then near else skip).ctorIdx

/-- A rising edge of a clock that the package drives falls in this ck. -/
def State.edge (s : State) (x : Signal) : Bool := !s.aon.noVaon && Config.pinLevel s.free x.ctorIdx

/-- An edge of `TCK` (R474, R477): in Capture-DR the selected register captures, in Shift-DR it shifts by a bit, and the cells or segments
follow it as Update-DR is entered; a die in bypass has its one bit for a register. `TMS` and the input are the package's. -/
def State.scanEdge (s : State) : Tap :=
  let t := s.tap
  let q := t.scan.next (Config.pinLevel s.free Signal.tms.ctorIdx)
  let b := s.chainIn .tdi .tdiSkip
  if s.bypassed then
    { t with scan := q, bit := match t.scan with
        | .capture => false
        | .shift => b
        | _ => t.bit }
  else
    let t := { t with scan := q, dr := match t.scan with
        | .capture => s.captured
        | .shift => shiftIn t.drLen t.dr b
        | _ => t.dr }
    if q = .update then s.updateDr t else t

/-- One ck of the chains (R474, R477, R478): an edge of `TCK` takes the test port a state on, and one of `MR_CLK` with `MR_SYNC` low
shifts the ring by a bit. The edges and the levels at the inputs are the package's: free values. -/
def State.chainTick (s : State) : State :=
  let t := if s.edge .tck then s.scanEdge else s.tap
  { s with
    free := s.free + 1
    tap := { t with ring := if s.edge .mrClk then shiftIn s.ringLength t.ring (s.chainIn .mrIn .mrInSkip) else t.ring } }

end Sys2Proof.Machine
end

