-- ==== Sys2Proof/Machine/Dispatch.lean ====
section
/-! DEFINITION. The dispatch of every command to its meaning, one arm per row of the table of operations and events. -/

namespace Sys2Proof.Machine

/-- The effect of a command on everything but the queue of waiting commands. -/
def exec (i : Instr) (s : State) : Host.Outcome State Fault Refusal :=
  match i with
  | .coldPowerUp => Sys2Proof.Machine.execColdPowerUp s
  | .warmResetByPin rail => Sys2Proof.Machine.execWarmResetByPin rail s
  | .rstNDeassert datumEn cfgMaster diepos => Sys2Proof.Machine.execRstNDeassert datumEn cfgMaster diepos s
  | .vaonLoss => Sys2Proof.Machine.execVaonLoss s
  | .vsramBelowVcore => Sys2Proof.Machine.execVsramBelowVcore s
  | .referenceGlitch => Sys2Proof.Machine.execReferenceGlitch s
  | .referenceLost => Sys2Proof.Machine.execReferenceLost s
  | .referenceReturn => Sys2Proof.Machine.execReferenceReturn s
  | .pllLost island => Sys2Proof.Machine.execPllLost island s
  | .secondReferenceSeen => Sys2Proof.Machine.execSecondReferenceSeen s
  | .thermalTrip sensor => Sys2Proof.Machine.execThermalTrip sensor s
  | .aonPhase => Sys2Proof.Machine.execAonPhase s
  | .fusePhase => Sys2Proof.Machine.execFusePhase s
  | .bist findings codes fatal => Sys2Proof.Machine.execBist findings codes fatal s
  | .reconcile => Sys2Proof.Machine.execReconcile s
  | .sideband => Sys2Proof.Machine.execSideband s
  | .fetchQspi stream => Sys2Proof.Machine.execFetchQspi stream s
  | .fetchBootLink => Sys2Proof.Machine.execFetchBootLink s
  | .verify => Sys2Proof.Machine.execVerify s
  | .commitPhase => Sys2Proof.Machine.execCommitPhase s
  | .writeRecord => Sys2Proof.Machine.execWriteRecord s
  | .relayHoldExpiry => Sys2Proof.Machine.execRelayHoldExpiry s
  | .releaseCompute => Sys2Proof.Machine.execReleaseCompute s
  | .cadastreWritten => Sys2Proof.Machine.execCadastreWritten s
  | .release a => Sys2Proof.Machine.execRelease a s
  | .refetch a => Sys2Proof.Machine.execRefetch a s
  | .warmReset a => Sys2Proof.Machine.execWarmReset a s
  | .registerWrite a addr size value => Sys2Proof.Machine.execRegisterWrite a addr size value s
  | .rcRead a addr size => Sys2Proof.Machine.execRcRead a addr size s
  | .stagedWrite a addr size value => Sys2Proof.Machine.execStagedWrite a addr size value s
  | .commit a page => Sys2Proof.Machine.execCommit a page s
  | .discard a page => Sys2Proof.Machine.execDiscard a page s
  | .instanceApply page inst => Sys2Proof.Machine.execInstanceApply page inst s
  | .eventMessageSend => Sys2Proof.Machine.execEventMessageSend s
  | .eventRecordPost => Sys2Proof.Machine.execEventRecordPost s
  | .nop c => Sys2Proof.Machine.execNop c s
  | .endInstr c => Sys2Proof.Machine.execEndInstr c s
  | .kernelCompletion c => Sys2Proof.Machine.execKernelCompletion c s
  | .loop c => Sys2Proof.Machine.execLoop c s
  | .jump c => Sys2Proof.Machine.execJump c s
  | .fence c => Sys2Proof.Machine.execFence c s
  | .mmaMultiplyAdd c => Sys2Proof.Machine.execMmaMultiplyAdd c s
  | .mmaL1Distance c => Sys2Proof.Machine.execMmaL1Distance c s
  | .mmaSquaredDifference c => Sys2Proof.Machine.execMmaSquaredDifference c s
  | .mmaMaxPlus c => Sys2Proof.Machine.execMmaMaxPlus c s
  | .mmaMinPlus c => Sys2Proof.Machine.execMmaMinPlus c s
  | .mmaMaxTimes c => Sys2Proof.Machine.execMmaMaxTimes c s
  | .mmaEqualityCount c => Sys2Proof.Machine.execMmaEqualityCount c s
  | .residencyDeadlock c => Sys2Proof.Machine.execResidencyDeadlock c s
  | .opld c => Sys2Proof.Machine.execOpld c s
  | .loadComplete c => Sys2Proof.Machine.execLoadComplete c s
  | .opfree c => Sys2Proof.Machine.execOpfree c s
  | .halfReleaseEnd c half => Sys2Proof.Machine.execHalfReleaseEnd c half s
  | .pdset c => Sys2Proof.Machine.execPdset c s
  | .mskset c => Sys2Proof.Machine.execMskset c s
  | .wtset c => Sys2Proof.Machine.execWtset c s
  | .accClaim c => Sys2Proof.Machine.execAccClaim c s
  | .fillComplete c u => Sys2Proof.Machine.execFillComplete c u s
  | .feedEnd c u => Sys2Proof.Machine.execFeedEnd c u s
  | .parcelFinal c u => Sys2Proof.Machine.execParcelFinal c u s
  | .spillDrainComplete c u => Sys2Proof.Machine.execSpillDrainComplete c u s
  | .coreTestEnter a c => Sys2Proof.Machine.execCoreTestEnter a c s
  | .coreTestStart a c => Sys2Proof.Machine.execCoreTestStart a c s
  | .coreTestLeave a c => Sys2Proof.Machine.execCoreTestLeave a c s
  | .valuAdd c epi => Sys2Proof.Machine.execValuAdd c epi s
  | .valuSub c epi => Sys2Proof.Machine.execValuSub c epi s
  | .valuMul c epi => Sys2Proof.Machine.execValuMul c epi s
  | .valuFma c epi => Sys2Proof.Machine.execValuFma c epi s
  | .valuFnma c epi => Sys2Proof.Machine.execValuFnma c epi s
  | .valuMax c epi => Sys2Proof.Machine.execValuMax c epi s
  | .valuMin c epi => Sys2Proof.Machine.execValuMin c epi s
  | .valuAbs c epi => Sys2Proof.Machine.execValuAbs c epi s
  | .valuNeg c epi => Sys2Proof.Machine.execValuNeg c epi s
  | .valuMov c epi => Sys2Proof.Machine.execValuMov c epi s
  | .valuSel c epi => Sys2Proof.Machine.execValuSel c epi s
  | .valuI2f c epi => Sys2Proof.Machine.execValuI2f c epi s
  | .valuF2i c epi => Sys2Proof.Machine.execValuF2i c epi s
  | .valuWiden c epi => Sys2Proof.Machine.execValuWiden c epi s
  | .valuNarrow c epi => Sys2Proof.Machine.execValuNarrow c epi s
  | .valuAnd c epi => Sys2Proof.Machine.execValuAnd c epi s
  | .valuOr c epi => Sys2Proof.Machine.execValuOr c epi s
  | .valuXor c epi => Sys2Proof.Machine.execValuXor c epi s
  | .valuNot c epi => Sys2Proof.Machine.execValuNot c epi s
  | .valuShl c epi => Sys2Proof.Machine.execValuShl c epi s
  | .valuShr c epi => Sys2Proof.Machine.execValuShr c epi s
  | .valuSar c epi => Sys2Proof.Machine.execValuSar c epi s
  | .valuSplit c epi => Sys2Proof.Machine.execValuSplit c epi s
  | .vsfuRcp c epi => Sys2Proof.Machine.execVsfuRcp c epi s
  | .vsfuRsq c epi => Sys2Proof.Machine.execVsfuRsq c epi s
  | .vsfuSqrt c epi => Sys2Proof.Machine.execVsfuSqrt c epi s
  | .vsfuDiv c epi => Sys2Proof.Machine.execVsfuDiv c epi s
  | .vsfuExp2 c epi => Sys2Proof.Machine.execVsfuExp2 c epi s
  | .vsfuLog2 c epi => Sys2Proof.Machine.execVsfuLog2 c epi s
  | .vsfuExp c epi => Sys2Proof.Machine.execVsfuExp c epi s
  | .vsfuLog c epi => Sys2Proof.Machine.execVsfuLog c epi s
  | .vsfuTanh c epi => Sys2Proof.Machine.execVsfuTanh c epi s
  | .vsfuSigmoid c epi => Sys2Proof.Machine.execVsfuSigmoid c epi s
  | .vsfuSilu c epi => Sys2Proof.Machine.execVsfuSilu c epi s
  | .vsfuGelu c epi => Sys2Proof.Machine.execVsfuGelu c epi s
  | .vsfuErf c epi => Sys2Proof.Machine.execVsfuErf c epi s
  | .vsfuSin c epi => Sys2Proof.Machine.execVsfuSin c epi s
  | .vsfuCos c epi => Sys2Proof.Machine.execVsfuCos c epi s
  | .vcmpEq c epi => Sys2Proof.Machine.execVcmpEq c epi s
  | .vcmpNe c epi => Sys2Proof.Machine.execVcmpNe c epi s
  | .vcmpLt c epi => Sys2Proof.Machine.execVcmpLt c epi s
  | .vcmpLe c epi => Sys2Proof.Machine.execVcmpLe c epi s
  | .vcmpGt c epi => Sys2Proof.Machine.execVcmpGt c epi s
  | .vcmpGe c epi => Sys2Proof.Machine.execVcmpGe c epi s
  | .vcmpUnordered c epi => Sys2Proof.Machine.execVcmpUnordered c epi s
  | .vredSum c epi => Sys2Proof.Machine.execVredSum c epi s
  | .vredMax c epi => Sys2Proof.Machine.execVredMax c epi s
  | .vredMin c epi => Sys2Proof.Machine.execVredMin c epi s
  | .vredAnd c epi => Sys2Proof.Machine.execVredAnd c epi s
  | .vredOr c epi => Sys2Proof.Machine.execVredOr c epi s
  | .vredXor c epi => Sys2Proof.Machine.execVredXor c epi s
  | .vredPopc c epi => Sys2Proof.Machine.execVredPopc c epi s
  | .vredPall c epi => Sys2Proof.Machine.execVredPall c epi s
  | .vredPany c epi => Sys2Proof.Machine.execVredPany c epi s
  | .vredPpar c epi => Sys2Proof.Machine.execVredPpar c epi s
  | .vredPcnt c epi => Sys2Proof.Machine.execVredPcnt c epi s
  | .vperm c epi => Sys2Proof.Machine.execVperm c epi s
  | .vldUnitStride c epi => Sys2Proof.Machine.execVldUnitStride c epi s
  | .vldStrided c epi => Sys2Proof.Machine.execVldStrided c epi s
  | .vldGather c epi => Sys2Proof.Machine.execVldGather c epi s
  | .vldRepeat c epi => Sys2Proof.Machine.execVldRepeat c epi s
  | .vldBroadcast c epi => Sys2Proof.Machine.execVldBroadcast c epi s
  | .vstUnitStride c epi => Sys2Proof.Machine.execVstUnitStride c epi s
  | .vstStrided c epi => Sys2Proof.Machine.execVstStrided c epi s
  | .vstScatter c epi => Sys2Proof.Machine.execVstScatter c epi s
  | .vdrn c => Sys2Proof.Machine.execVdrn c s
  | .vcstDirect c epi => Sys2Proof.Machine.execVcstDirect c epi s
  | .vcstOutput c => Sys2Proof.Machine.execVcstOutput c s
  | .veend c => Sys2Proof.Machine.execVeend c s
  | .vseti c epi => Sys2Proof.Machine.execVseti c epi s
  | .vcaps c epi => Sys2Proof.Machine.execVcaps c epi s
  | .vpop c epi => Sys2Proof.Machine.execVpop c epi s
  | .vpfirst c epi => Sys2Proof.Machine.execVpfirst c epi s
  | .epilogueStart c => Sys2Proof.Machine.execEpilogueStart c s
  | .regionCloseEnd unit head => Sys2Proof.Machine.execRegionCloseEnd unit head s
  | .scrubComplete unit gran => Sys2Proof.Machine.execScrubComplete unit gran s
  | .correctedWriteback word => Sys2Proof.Machine.execCorrectedWriteback word s
  | .patrolPeriod => Sys2Proof.Machine.execPatrolPeriod s
  | .scrubHoldWrite a hold => Sys2Proof.Machine.execScrubHoldWrite a hold s
  | .move c => Sys2Proof.Machine.execMove c s
  | .mwait c => Sys2Proof.Machine.execMwait c s
  | .moveNop k => Sys2Proof.Machine.execMoveNop k s
  | .moveCopy k => Sys2Proof.Machine.execMoveCopy k s
  | .moveFill k => Sys2Proof.Machine.execMoveFill k s
  | .moveMap k => Sys2Proof.Machine.execMoveMap k s
  | .moveUnmap k => Sys2Proof.Machine.execMoveUnmap k s
  | .unmapComplete k => Sys2Proof.Machine.execUnmapComplete k s
  | .moveTouch k => Sys2Proof.Machine.execMoveTouch k s
  | .moveComplete k => Sys2Proof.Machine.execMoveComplete k s
  | .walkComplete dom va cluster => Sys2Proof.Machine.execWalkComplete dom va cluster s
  | .pendingZeroWriteDone frame ok => Sys2Proof.Machine.execPendingZeroWriteDone frame ok s
  | .frameScrub frame => Sys2Proof.Machine.execFrameScrub frame s
  | .doorbell a q tail => Sys2Proof.Machine.execDoorbell a q tail s
  | .itemNop q => Sys2Proof.Machine.execItemNop q s
  | .itemKernel q => Sys2Proof.Machine.execItemKernel q s
  | .itemMove q => Sys2Proof.Machine.execItemMove q s
  | .itemRalloc q => Sys2Proof.Machine.execItemRalloc q s
  | .itemRfree q => Sys2Proof.Machine.execItemRfree q s
  | .rgbegin q => Sys2Proof.Machine.execRgbegin q s
  | .rgend q => Sys2Proof.Machine.execRgend q s
  | .placementRetry q => Sys2Proof.Machine.execPlacementRetry q s
  | .placeLimitExpiry q => Sys2Proof.Machine.execPlaceLimitExpiry q s
  | .kernelTimeout g => Sys2Proof.Machine.execKernelTimeout g s
  | .barrierBroken g => Sys2Proof.Machine.execBarrierBroken g s
  | .kernelEnd g => Sys2Proof.Machine.execKernelEnd g s
  | .qEnable a q => Sys2Proof.Machine.execQEnable a q s
  | .qDisable a q => Sys2Proof.Machine.execQDisable a q s
  | .qResume a q => Sys2Proof.Machine.execQResume a q s
  | .qFlush a q => Sys2Proof.Machine.execQFlush a q s
  | .cheadWrite a q value => Sys2Proof.Machine.execCheadWrite a q value s
  | .domActivate a dom kind => Sys2Proof.Machine.execDomActivate a dom kind s
  | .domTearDown a dom => Sys2Proof.Machine.execDomTearDown a dom s
  | .teardownComplete dom => Sys2Proof.Machine.execTeardownComplete dom s
  | .ginfo c => Sys2Proof.Machine.execGinfo c s
  | .gbar c => Sys2Proof.Machine.execGbar c s
  | .signal c => Sys2Proof.Machine.execSignal c s
  | .swait c => Sys2Proof.Machine.execSwait c s
  | .qpost c => Sys2Proof.Machine.execQpost c s
  | .trav c => Sys2Proof.Machine.execTrav c s
  | .twait c => Sys2Proof.Machine.execTwait c s
  | .spush c => Sys2Proof.Machine.execSpush c s
  | .spop c => Sys2Proof.Machine.execSpop c s
  | .allreduce ch => Sys2Proof.Machine.execAllreduce ch s
  | .redscat ch => Sys2Proof.Machine.execRedscat ch s
  | .allgather ch => Sys2Proof.Machine.execAllgather ch s
  | .permute ch => Sys2Proof.Machine.execPermute ch s
  | .rpass ch => Sys2Proof.Machine.execRpass ch s
  | .hmerge ch => Sys2Proof.Machine.execHmerge ch s
  | .roundComplete ch => Sys2Proof.Machine.execRoundComplete ch s
  | .roundTimeout ch => Sys2Proof.Machine.execRoundTimeout ch s
  | .sbinitRetry m => Sys2Proof.Machine.execSbinitRetry m s
  | .sbinitDone m => Sys2Proof.Machine.execSbinitDone m s
  | .featureRecord m rec => Sys2Proof.Machine.execFeatureRecord m rec s
  | .exchangeTimeout m => Sys2Proof.Machine.execExchangeTimeout m s
  | .rateAttempt m ownMap peerOk => Sys2Proof.Machine.execRateAttempt m ownMap peerOk s
  | .closureRecord m peerMap peerRate peerWidth peerSet peerMin peerResets => Sys2Proof.Machine.execClosureRecord m peerMap peerRate peerWidth peerSet peerMin peerResets s
  | .partnerRetrainRequest m => Sys2Proof.Machine.execPartnerRetrainRequest m s
  | .retrainTimeout m => Sys2Proof.Machine.execRetrainTimeout m s
  | .sidebandLoss m => Sys2Proof.Machine.execSidebandLoss m s
  | .retrain a m => Sys2Proof.Machine.execRetrain a m s
  | .unquarantine a m => Sys2Proof.Machine.execUnquarantine a m s
  | .takeDown a m => Sys2Proof.Machine.execTakeDown a m s
  | .flit m bits => Sys2Proof.Machine.execFlit m bits s
  | .ackDue m => Sys2Proof.Machine.execAckDue m s
  | .rd m p => Sys2Proof.Machine.execRd m p s
  | .wr m p => Sys2Proof.Machine.execWr m p s
  | .bwr m p => Sys2Proof.Machine.execBwr m p s
  | .rdata m p => Sys2Proof.Machine.execRdata m p s
  | .wack m p => Sys2Proof.Machine.execWack m p s
  | .ersp m p => Sys2Proof.Machine.execErsp m p s
  | .seg m p => Sys2Proof.Machine.execSeg m p s
  | .perm m p => Sys2Proof.Machine.execPerm m p s
  | .grant m p => Sys2Proof.Machine.execGrant m p s
  | .cack m p => Sys2Proof.Machine.execCack m p s
  | .abort m p => Sys2Proof.Machine.execAbort m p s
  | .crefuse m p => Sys2Proof.Machine.execCrefuse m p s
  | .sdata m p => Sys2Proof.Machine.execSdata m p s
  | .sack m p => Sys2Proof.Machine.execSack m p s
  | .sopen m p => Sys2Proof.Machine.execSopen m p s
  | .scredit m p => Sys2Proof.Machine.execScredit m p s
  | .serr m p => Sys2Proof.Machine.execSerr m p s
  | .creq m p => Sys2Proof.Machine.execCreq m p s
  | .crsp m p => Sys2Proof.Machine.execCrsp m p s
  | .event m p => Sys2Proof.Machine.execEvent m p s
  | .frameCode m p => Sys2Proof.Machine.execFrameCode m p s
  | .fcack m p => Sys2Proof.Machine.execFcack m p s
  | .msg m p => Sys2Proof.Machine.execMsg m p s
  | .image m p => Sys2Proof.Machine.execImage m p s
  | .enote m p => Sys2Proof.Machine.execEnote m p s
  | .mack m p => Sys2Proof.Machine.execMack m p s
  | .requestTimeout tag => Sys2Proof.Machine.execRequestTimeout tag s
  | .routeHoldEnd entry => Sys2Proof.Machine.execRouteHoldEnd entry s
  | .issueFractionUpdate demand => Sys2Proof.Machine.execIssueFractionUpdate demand s
  | .railSample rail milliVolt current => Sys2Proof.Machine.execRailSample rail milliVolt current s
  | .controlPeriod p => Sys2Proof.Machine.execControlPeriod p s
  | .vcoreReached => Sys2Proof.Machine.execVcoreReached s
  | .vcoreReadyTimeout miss => Sys2Proof.Machine.execVcoreReadyTimeout miss s
  | .temperatureScan quarterDegrees => Sys2Proof.Machine.execTemperatureScan quarterDegrees s
  | .energyUpdate energy => Sys2Proof.Machine.execEnergyUpdate energy s
  | .fnRptrWrite a value => Sys2Proof.Machine.execFnRptrWrite a value s
  | .dieFatal unit => Sys2Proof.Machine.execDieFatal unit s
  | .mbReqWrite a mb off value => Sys2Proof.Machine.execMbReqWrite a mb off value s
  | .post a mb len => Sys2Proof.Machine.execPost a mb len s
  | .mbRelease a mb => Sys2Proof.Machine.execMbRelease a mb s
  | .take a mb => Sys2Proof.Machine.execTake a mb s
  | .reply a mb len => Sys2Proof.Machine.execReply a mb len s
  | .loadWindow percent => Sys2Proof.Machine.execLoadWindow percent s
  | .mirrorSnapshot => Sys2Proof.Machine.execMirrorSnapshot s
  | .wdtKick a value => Sys2Proof.Machine.execWdtKick a value s
  | .watchdogExpiry => Sys2Proof.Machine.execWatchdogExpiry s
  | .surveyorMemoryError addr => Sys2Proof.Machine.execSurveyorMemoryError addr s
  | .surveyorRestartEnd => Sys2Proof.Machine.execSurveyorRestartEnd s
  | .extend a index => Sys2Proof.Machine.execExtend a index s
  | .quoteReq a => Sys2Proof.Machine.execQuoteReq a s
  | .quoteDone => Sys2Proof.Machine.execQuoteDone s
  | .submit a => Sys2Proof.Machine.execSubmit a s
  | .maRead a => Sys2Proof.Machine.execMaRead a s
  | .maWrite a => Sys2Proof.Machine.execMaWrite a s
  | .maComplete => Sys2Proof.Machine.execMaComplete s
  | .clRetire a cl phys force => Sys2Proof.Machine.execClRetire a cl phys force s
  | .quiescePoint c => Sys2Proof.Machine.execQuiescePoint c s
  | .recoveryTestEnd cl pass => Sys2Proof.Machine.execRecoveryTestEnd cl pass s
  | .newClear a => Sys2Proof.Machine.execNewClear a s
  | .clear a slot => Sys2Proof.Machine.execClear a slot s
  | .scaleEntryWrite a slot entry value => Sys2Proof.Machine.execScaleEntryWrite a slot entry value s
  | .testLogicReset => Sys2Proof.Machine.execTestLogicReset s
  | .extest => Sys2Proof.Machine.execExtest s
  | .idcode => Sys2Proof.Machine.execIdcode s
  | .samplePreload pins => Sys2Proof.Machine.execSamplePreload pins s
  | .clamp => Sys2Proof.Machine.execClamp s
  | .highz => Sys2Proof.Machine.execHighz s
  | .ijtag open_ => Sys2Proof.Machine.execIjtag open_ s
  | .bypass code => Sys2Proof.Machine.execBypass code s
  | .mrSync => Sys2Proof.Machine.execMrSync s
  | .presInChange level => Sys2Proof.Machine.execPresInChange level s
  | .partnerSidebandRestart m => Sys2Proof.Machine.execPartnerSidebandRestart m s
  | .railsValid => Sys2Proof.Machine.execRailsValid s

end Sys2Proof.Machine
end

