-- ==== Sys2Proof/Machine/Tick.lean ====
section
/-! DEFINITION. One cycle of the arithmetic clock in which no command is handled: the timestamp and the throttle counters advance
(R33, R429), the counters of waits count it (R107, R341, R381), the issue accounts regain (R415), a module in RETRAIN goes on to MBTRAIN
(R348), every ACTIVE module sends a flit (R358-R360), and the chains of the test port and of the management ring may shift (R477, R478). -/

namespace Sys2Proof.Machine

/-- A 10 ns reference period ends (R33, R429). -/
def State.period (s : State) : State :=
  let s := s.count Fld.CLK_CLK_TIME_COUNT
  ((List.range 11).filter (fun r => s.reasonOn (r + 1))).foldl (fun t r => t.count Fld.PWR_THR_TIME_COUNT 1 0 r) s

/-- The reference periods pass as the clock's frequency says; before the clock runs, each cycle is one period. -/
def State.clockTick (s : State) : State :=
  let mhz := s.get Fld.CLK_CLK_FREQ_MHZ
  if (s.ckFrac + 1) * 100 < mhz then { s with ckFrac := s.ckFrac + 1 } else ({ s with ckFrac := 0 } : State).period

/-- Every issue account regains φ until it reaches 0 (R415). -/
def State.regain (s : State) : State :=
  { s with accounts := (s.accounts.map (fun e => (e.1, e.2 - s.phi))).filter (fun e => e.2 != 0) }

/-! ### Waits (R107, R158, R203, R211, R341, R381) -/

/-- What the array's head waits for: an operand half, and an accumulator set (R84, R88, R90, R103, R107). A wait for its issue account is
neither (R416), nor is one for an MMA that feeds. -/
def CoreSt.headWaits (c : CoreSt) (split : Option (Nat × Bool)) : Bool × Bool :=
  match c.aq with
  | [] => (false, false)
  | d :: _ =>
    match iMajor d.word with
    | 0x20 => (!c.mmaResident d.word, match split with
      | none => mmaOpen d.word && (c.openTarget d).isNone
      | some sp => !(List.range (splitSlots sp.1 sp.2)).any c.setFree)
    | 0x22 => ((maskIdx 4 (iSel d.word)).any (fun h => (c.half h).state == 1), false)
    | 0x23 => (false, c.pdHeld (iSel d.word))
    | 0x24 => (false, c.maskHeld (bitsAt d.word 24 2))
    | _ => (false, false)

/-- A fill waits for the drain of an earlier pass on its record (R158). -/
def CoreSt.fillWaits (c : CoreSt) : Bool := c.sets.any (fun e => e.2.state == 1 && c.recordBusy e.1 (pdPassBase e.2.desc))

/-- A final drain waits on the lanelet engine (R95, R202, R209): its epilogue has not started, or has not reached the VDRN or VCST that
takes what is left. -/
def CoreSt.drainWaits (c : CoreSt) : Bool := c.epis.any (fun e => (c.set e.set).state == 5 && (c.set e.set).closeSeq == some e.seq)

/-- The next main-context vector instruction writes `V8`-`V11` and waits for an epilogue (R206, R211). -/
def CoreSt.sharedWaits (c : CoreSt) : Bool := match c.vq with
  | [] => false
  | d :: _ => c.sharedWait d

/-- Count the cycle in a counter of an instance if it waits. -/
def State.countIf (s : State) (b : Bool) (f : Fld) (i e : Nat) : State := if b then s.count f 1 i e else s

/-- The stage queue whose credit the SPUSH at the head of a core's traverse queue waits for (R334). -/
def State.creditWait (s : State) (c : CoreSt) : Option Nat :=
  match c.tq with
  | [] => none
  | d :: _ =>
    let q := stageQ d.word
    if iMajor d.word = 0x42 ∧ s.sqDomain q = c.dom ∧ s.sqRole q = 1 ∧ s.sqState q = 2 ∧
        !s.sigReached (s.sqSig q) (s.get Fld.TRV_SQ_MOVED_COUNT 0 q + 1) then some q
    else none

/-- The waits of core `n`. -/
def State.coreWaits (s : State) (n : Nat) : State :=
  let c := s.core n
  let h := c.headWaits (s.split n)
  (((s.countIf h.1 Fld.CORE_ARR_WAIT_RES_COUNT n 0).countIf (h.2 || c.fillWaits) Fld.CORE_ARR_WAIT_ACC_COUNT n 0).countIf c.drainWaits
    Fld.CORE_DRAIN_WAIT_COUNT n 0).countIf c.sharedWaits Fld.CORE_VEC_SHARED_WAIT_COUNT n 0

/-- The stage queues for whose credit some core's SPUSH waits: each counts the cycle once (R341). -/
def State.creditWaits (s : State) : State :=
  (s.cores.filterMap (fun e => s.creditWait e.2)).eraseDups.foldl (fun t q => t.count Fld.TRV_SQ_WAIT_CREDIT_COUNT 1 0 q) s

/-- For each phase in which a round still sends, whether the segment that it sends next to its successor is at hand (R321, R324, R327,
R330). -/
def State.atHand (s : State) (ch : Nat) (r : Round) : List Bool :=
  let w := r.desc
  let n := s.chN ch
  let p := s.chP ch
  if tdOp w = 5 then (if tdSteps w < r.sStep then [] else [decide (r.sStep ≤ r.rStep)])
  else
    (((sendsReduce w n p r.shards).drop r.sentR).take 1).map (fun e => e.1 == (p + n - 1) % n || (r.find 0 e.1 e.2).isSome) ++
    (((sendsGather w n p r.shards).drop r.sentG).take 1).map (fun e =>
      if e.1 = p then !opReduces (tdOp w) || decide (e.2 + min (segGather w) (shardLen r.shards e.1 - e.2) ≤ r.results.length)
      else (r.find 1 e.1 e.2).isSome)

/-- A started round needs a segment of its predecessor and has none (R341). -/
def State.wantsSegment (s : State) (ch : Nat) (r : Round) : Bool :=
  let w := r.desc
  match s.atHand ch r with
  | [] => if tdOp w = 5 then decide (r.rStep ≤ tdSteps w)
    else decide (r.gotR < gotsReduce w (s.chN ch) (s.chP ch) r.shards) || decide (r.gotG < gotsGather w (s.chN ch) (s.chP ch) r.shards)
  | l => l.all (!·)

/-- A started round has a segment to send and no grant for it (R341). -/
def State.wantsGrant (s : State) (ch : Nat) (r : Round) : Bool :=
  let w := r.desc
  if tdOp w = 4 then idx (s.chN ch) (fun k => k != s.chP ch) |>.any (fun k =>
    decide (tget (fun _ => 0) k r.sentTo < ceilDiv (permLen r.olds r.shards (s.chP ch) k) (segGather w)) &&
      decide (s.granted ch (r.posmap.getD k 0) ≤ tget (fun _ => 0) k r.sentTo))
  else (s.atHand ch r).any id && (if tdOp w = 5 then !(s.chain ch).steps.any (fun g => g.1 == s.chEpoch ch && decide (r.sStep ≤ g.2))
    else decide (s.granted ch (s.chNext ch) ≤ r.sent))

/-- The waits of chain `ch` (R341). -/
def State.chainWaits (s : State) (ch : Nat) : State :=
  match (s.chain ch).round with
  | none => s
  | some r =>
    if !r.started then s.count Fld.TRV_CH_WAIT_LOCAL_COUNT 1 ch
    else (s.countIf (s.wantsSegment ch r) Fld.TRV_CH_WAIT_PRED_COUNT ch 0).countIf (s.wantsGrant ch r) Fld.TRV_CH_WAIT_GRANT_COUNT ch 0

/-- The domain and counter that alone hold back the next item of a queue (R283, R335). -/
def State.dataWait (s : State) (q : Nat) : Option (Nat × Nat) :=
  match (s.queueSt q).head with
  | some (0, w) =>
    if s.mayStart q ∧ !s.itemInvalid q w ∧ bitOf w 399 ∧ !s.itemReady q w ∧ s.itemReady q (bitsPut w 399 1 0) then some (s.qDom q, bitsAt w 384 10)
    else none
  | _ => none

/-- The waits of the consumer ends (R335). -/
def State.stageWaits (s : State) : State :=
  match s.queues.filterMap (fun e => s.dataWait e.1) with
  | [] => s
  | l => (List.range 64).foldl (fun t q => t.countIf (s.sqRole q == 2 && l.contains (s.sqDomain q, s.sqSig q)) Fld.TRV_SQ_WAIT_DATA_COUNT 0 q) s

/-- A queued packet of the module waits for credits (R381). -/
def ModSt.stalled (x : ModSt) : Bool := x.queue.any (fun q => decide (tget (fun _ => 0) (credKey q.pkt) x.txCred < creditsOf q.pkt))

/-- The cycle counts in every counter of waits. -/
def State.waits (s : State) : State :=
  let t := ((s.cores.map (·.1)).foldl State.coreWaits s).creditWaits
  let t := (s.chains.map (·.1)).foldl State.chainWaits t
  t.stageWaits

/-- What a module does in a cycle: from RETRAIN it goes on to MBTRAIN (R348), and in ACTIVE it sends a flit. Says also whether that flit
has reached `REPLAY_LIMIT`. -/
def State.modTick (s : State) (m : Nat) : State × Bool :=
  if s.modState m = 7 then (s.setModState m 4, false)
  else if s.modState m = 6 then (s.countIf (s.mod m).stalled Fld.PTR_PT_STALL_CK_COUNT m 0).sendFlit m
  else (s, false)

/-- Every module's cycle: the sends in ascending order, after which packets that waited for one may join a module (R368), and then what
their replay limits bring about, whose field notes records come last (R44). -/
def State.modTicks (s : State) : State :=
  let r := (List.range 40).foldl (fun (a : State × List Nat) m =>
    let t := a.1.modTick m
    (t.1, if t.2 then a.2 ++ [m] else a.2)) (s, [])
  r.2.foldl State.limitHit r.1.flushWaiting

/-- One cycle without a command. A die that is held in reset stands still, but for its place in the two chains (R477). -/
def State.tick (s : State) : State := (if s.aon.held then s else s.clockTick.waits.regain.modTicks).chainTick

end Sys2Proof.Machine
end

