-- ==== Sys2Proof/Machine/Step.lean ====
section
/-! DEFINITION. The step of the die: the command at the front of the queue, or one idle cycle. -/

namespace Sys2Proof.Machine

/-- One step: the command that waits longest runs on the state with the rest of the queue; with none waiting one cycle of the
clock passes (DESIGN CHOICE: the table has no row for a cycle). -/
def step (s : State) : Host.Outcome State Fault Refusal :=
  match s.pending with
  | [] => .next s.tick
  | c :: rest => exec c { s with pending := rest }

/-- The state with the command that a table word spells at the front of its queue; a word spells none. -/
def State.withFetchWord (s : State) (nbits w : Nat) : State :=
  match decodeTableWord nbits w with
  | none => s
  | some c => { s with pending := c :: s.pending }

end Sys2Proof.Machine
end

