-- ==== Sys2Proof/Safety.lean ====
section
/-! DEFINITION. The terms that statements about runs are made in: what a command answers, what reporting an event may change,
and what a safe run is. -/

namespace Sys2Proof.Machine

/-- The command answers a next state, and `P` holds of it. -/
def Answers (r : Res) (P : State → Prop) : Prop := ∃ t, r = .next t ∧ P t

/-- A word that reporting may change: a `PAGE_EVENT` register (R50), the field notes' pointers, their count of losses and their ring
(R438, R455), or `EVQ_LOST` (R308). -/
def reportKey (k : Nat) : Bool :=
  k % 2 ^ 32 == 0x14 ||
    (k / 2 ^ 32 == 5 && ((decide (0x104 ≤ k % 2 ^ 32) && decide (k % 2 ^ 32 ≤ 0x10C)) ||
      (decide (0x2000 ≤ k % 2 ^ 32) && decide (k % 2 ^ 32 < 0x4000)))) ||
    k == Fld.DSP_EVQ_LOST_COUNT.key 0 0

/-- Between `s` and `t` nothing happened but reporting (R44, R64-R66, R297, R438): page events were set, field notes records,
event records, interrupt lines and messages appeared, and packets that carry them joined a link's queue. -/
structure Reports (s t : State) : Prop where
  rest : t = { s with regs := t.regs, station := t.station, irq := t.irq, evq := t.evq, hostMsgs := t.hostMsgs, mods := t.mods
                      waiting := t.waiting, pathDrops := t.pathDrops }
  words : ∀ k, reportKey k = false → t.word k = s.word k
  events : ∀ p b, (s.word (pageEvent p)).getLsbD b = true → (t.word (pageEvent p)).getLsbD b = true

/-- The tables of a state are in canonical form: memory and the registers list rising keys and no entry that reads as an
unlisted one, so that equal contents are equal states. -/
def State.Canonical (s : State) : Prop :=
  Memory.wf s.mem = true ∧ twf regReset s.regs = true

/-- A run of `n` steps ends in no fault and no refusal. -/
def SafeFor : Nat → State → Prop
  | 0, _ => True
  | n + 1, s => Answers (step s) (SafeFor n)

end Sys2Proof.Machine
end

