-- ==== Sys2Proof/Certificates/Slice0/Obligations.lean ====
section
/-! DEFINITION. The statements of this model: what the numbered rules of the spec say that each command does. -/

open Sys2Proof Sys2Proof.Machine


/-! ### The queue of commands -/

/-- A step takes the command that waits longest and runs it on the state with the rest of the queue. -/
def Obligations.StepRunsTheFrontCommand : Prop :=
  ∀ (s : State) (c : Instr) (rest : List Instr), s.pending = c :: rest →
    step s = exec c { s with pending := rest }

/-- With no command waiting one cycle of the arithmetic clock passes (the model's choice, assumption 2): a die held in reset stands
still, but for its place in the two chains; otherwise the regain of R415 is applied to every issue account, no memory, core, queue, chain or
descriptor changes, and nothing stops. The ring register shifts by at most one bit towards its output (R478). -/
def Obligations.IdleCycleLeavesTheWorkAlone : Prop :=
  ∀ s : State, s.pending = [] →
    (s.aon.held = true → Answers (step s) fun t =>
      t = { s with free := s.free + 1, tap := { s.tap with bit := t.tap.bit, scan := t.tap.scan, ring := t.tap.ring } } ∧
      (t.tap.ring = s.tap.ring ∨ ∃ b, t.tap.ring = b2n b)) ∧
    (s.aon.held = false → twf (fun _ => 0) s.accounts = true → Answers (step s) fun t =>
      t.pending = [] ∧ (∀ a, tget (fun _ => 0) a t.accounts = tget (fun _ => 0) a s.accounts - s.phi) ∧
      t.mem = s.mem ∧ t.cores = s.cores ∧ t.queues = s.queues ∧ t.chains = s.chains ∧ t.stages = s.stages ∧ t.moves = s.moves ∧
      t.gangs = s.gangs ∧ t.items = s.items ∧ t.frames = s.frames ∧
      (t.tap.ring = s.tap.ring ∨ ∃ n b, (n = 1 ∨ n = 32) ∧ t.tap.ring = s.tap.ring % 2 ^ n / 2 + b2n b * 2 ^ (n - 1)))

/-! ### The test access port, the chain inputs and the management ring -/

/-- A data scan that an instruction scan ends has passed Update-DR by then (R474): what the selected register held. -/
def Sys2Proof.Machine.scannedDr (s : State) : Option Nat :=
  match s.tap.scan with
  | .idle | .select | .update => none
  | .capture => some s.captured
  | _ => some s.tap.dr

/-- The boundary cells as that data scan leaves them: in EXTEST and SAMPLE/PRELOAD they take what the register held (R474). -/
def Sys2Proof.Machine.scannedCells (s : State) : BitVec 40 :=
  match scannedDr s with
  | some v => if s.tap.instr = 0 ∨ s.tap.instr = 2 then BitVec.ofNat 40 v else s.tap.boundary
  | none => s.tap.boundary

/-- The open segments as it leaves them: in IJTAG they follow the register, but for those that may not open (R476). -/
def Sys2Proof.Machine.scannedSegments (s : State) : Nat :=
  match scannedDr s with
  | some v => if s.tap.instr = 8 then v &&& s.segmentsAllowed else s.tap.segments
  | none => s.tap.segments

/-- The instructions of the test access port, how they drive the outputs, and the one bit that a die in bypass gives a scan; the
identification register of a B0 die holds the version 0xB, the part number 0x1410, Lanibry's identity 0x6E5 and a 1. Each data scan of a
die that is not in bypass captures: the identification register, the signals, or 0; it shifts by a bit, and as it ends the cells follow
the register (R474, R475, R477). Beyond these rules it rests on the model's reading: assumptions 10 and 94. -/
def Sys2Proof.Machine.TestPortInstructionsTakeEffect : Prop :=
  ∀ s : State,
    (Answers (exec .testLogicReset s) fun t => bitsAt t.tap.dr 28 4 = 0xB ∧ bitsAt t.tap.dr 12 16 = 0x1410 ∧ bitsAt t.tap.dr 1 11 = 0x6E5 ∧
      bitsAt t.tap.dr 0 1 = 1) ∧
    exec .testLogicReset s =
      .next { s with tap := { s.tap with instr := 1, scan := .idle, dr := 0xB1410DCB, drLen := 32, drive := 0, segments := 0 } } ∧
    (s.bypassed = false →
      (let u : Tap := { s.tap with scan := .idle, boundary := scannedCells s, segments := scannedSegments s, irOut := 1 }
       exec .extest s = .next { s with tap := { u with instr := 0, drive := 1, dr := (scannedCells s).toNat, drLen := 40 } } ∧
       exec .idcode s = .next { s with tap := { u with instr := 1, drive := 0, dr := 0xB1410DCB, drLen := 32 } } ∧
       (∀ pins, exec (.samplePreload pins) s =
         .next { s with tap := { u with instr := 2, drive := 0, boundary := pins, dr := pins.toNat, drLen := 40 } }) ∧
       exec .clamp s = .next { s with tap := { u with instr := 3, drive := 1, dr := 0, drLen := 1 } } ∧
       exec .highz s = .next { s with tap := { u with instr := 4, drive := 2, dr := 0, drLen := 1 } } ∧
       (∀ code, (5 ≤ code ∧ code ≤ 7) ∨ (9 ≤ code ∧ code ≤ 255) →
         exec (.bypass code) s = .next { s with tap := { u with instr := code, drive := 0, dr := 0, drLen := 1 } })) ∧
      (∀ x : Signal, x.driven = true →
        (∀ c ∈ [Instr.extest, .clamp], Answers (exec c s) fun t =>
          t.pad x = Pad.ofBool ((scannedCells s).getLsbD (Config.boundaryCell x.ctorIdx)) ∧ t.irLength = 8) ∧
        Answers (exec .highz s) (fun t => t.pad x = .off ∧ t.level x = x.pull) ∧
        Answers (exec .idcode s) (fun t => t.pad x = s.drives x)) ∧
      (s.tap.scan = .capture → (s.tap.instr = 1 → s.scanEdge.dr = 0xB1410DCB) ∧ (s.tap.instr = 0 ∨ s.tap.instr = 2 → s.scanEdge.dr < 2 ^ 40) ∧
        (s.tap.instr ∉ [0, 1, 2, 8] → s.scanEdge.dr = 0)) ∧
      (s.tap.scan = .shift → ∃ b, s.scanEdge.dr = s.tap.dr % 2 ^ s.tap.drLen / 2 + b2n b * 2 ^ (s.tap.drLen - 1)) ∧
      (s.tap.scan = .exit1 → s.scanEdge.scan = .update ∨ s.scanEdge.scan = .pause) ∧
      s.scanEdge.boundary = (if s.scanEdge.scan = .update ∧ (s.tap.instr = 0 ∨ s.tap.instr = 2) then BitVec.ofNat 40 s.scanEdge.dr else s.tap.boundary) ∧
      s.scanEdge.segments = (if s.scanEdge.scan = .update ∧ s.tap.instr = 8 then s.scanEdge.dr &&& s.segmentsAllowed else s.tap.segments)) ∧
    (s.bypassed = true → (∀ c ∈ [Instr.extest, .idcode, .samplePreload 0, .clamp, .highz, .ijtag 1, .bypass 255],
      Answers (exec c s) fun t => t = { s with tap := { s.tap with irOut := 1, bit := false, scan := .idle } } ∧ t.irLength = 1 ∧ t.drLength = 1) ∧
      (s.tap.scan = .capture → s.scanEdge.bit = false) ∧ s.scanEdge.dr = s.tap.dr)

/-- On a locked die, IJTAG opens no segment but the control access and the sensors, which take no write; a scan through a closed segment
returns zeros, and the lane test reaches no module that is ACTIVE (R449, R476). Beyond these rules it rests on the model's reading:
assumption 94. -/
def Sys2Proof.Machine.LockedDieOpensTwoSegments : Prop :=
  ∀ (s : State) (bits : Nat), s.bypassed = false → s.unlocked = false →
    Answers (exec (.ijtag bits) s) fun t => t = { s with tap := t.tap } ∧ t.tap.instr = 8 ∧ t.tap.segments = bits &&& 9 ∧
      t.tap.boundary = scannedCells s ∧ t.drLength = 8 ∧ t.sensorWrites = false ∧ (∀ i x, i ≠ 0 → i ≠ 3 → t.segmentScan i x = 0) ∧
      (∀ i x, bitOf bits i = true → i = 0 ∨ i = 3 → t.segmentScan i x = x) ∧ ∀ m x, s.modState m = 6 → t.laneTestScan m x = 0

/-- At `MR_SYNC` a die that is not in bypass loads `DIEPOS`, `PHASE`, `ERR`, `TRIP_SEEN`, `REF_LOST`, `FATAL`, `SVY_HALT` and the mark 0xE7
into its ring register, and a die in bypass captures 0; a change of `PRES_IN` selects the chain inputs and does nothing else (R477,
R478). Beyond these rules it rests on the model's reading: assumption 72. -/
def Sys2Proof.Machine.RingWordLoadsAtSync : Prop :=
  ∀ s : State,
    (s.bypassed = true → Answers (exec .mrSync s) fun t => t = { s with tap := { s.tap with ring := 0 } } ∧ t.ringLength = 1) ∧
    (s.bypassed = false → Answers (exec .mrSync s) fun t =>
      t = { s with tap := { s.tap with ring := t.tap.ring } } ∧ t.ringLength = 32 ∧
      bitsAt t.tap.ring 0 4 = s.get Fld.CLK_CLK_AON_DIEPOS ∧ bitsAt t.tap.ring 4 4 = s.get Fld.BOOT_BOOT_STATE_PHASE ∧
      bitsAt t.tap.ring 8 8 = s.get Fld.BOOT_BOOT_STATE_ERR ∧ bitsAt t.tap.ring 16 1 = s.get Fld.PWR_PWR_STATUS_TRIP_SEEN ∧
      bitsAt t.tap.ring 17 1 = s.get Fld.CLK_CLK_AON_REF_LOST ∧ bitsAt t.tap.ring 18 1 = s.get Fld.ERR_ERR_FATAL_FATAL ∧
      bitsAt t.tap.ring 19 1 = b2n (s.get Fld.MBX_SVY_STATE_STATE == 2) ∧ bitsAt t.tap.ring 20 4 = 0 ∧ bitsAt t.tap.ring 24 8 = 0xE7) ∧
    (∀ level, exec (.presInChange level) s = .next { s with tap := { s.tap with presIn := level } })

/-- The instructions of the test access port, how they drive the outputs, and the one bit that a die in bypass gives a scan; the
identification register of a B0 die holds the version 0xB, the part number 0x1410, Lanibry's identity 0x6E5 and a 1. Each data scan of a
die that is not in bypass captures: the identification register, the signals, or 0; it shifts by a bit, and as it ends the cells follow
the register (R474, R475, R477). Beyond these rules it rests on the model's reading: assumptions 10 and 94. On a locked die, IJTAG opens
no segment but the control access and the sensors, which take no write; a scan through a closed segment returns zeros, and the lane test
reaches no module that is ACTIVE (R449, R476). Beyond these rules it rests on the model's reading: assumption 94. At `MR_SYNC` a die
that is not in bypass loads `DIEPOS`, `PHASE`, `ERR`, `TRIP_SEEN`, `REF_LOST`, `FATAL`, `SVY_HALT` and the mark 0xE7 into its ring
register, and a die in bypass captures 0; a change of `PRES_IN` selects the chain inputs and does nothing else (R477, R478). Beyond
these rules it rests on the model's reading: assumption 72. -/
def Obligations.TestPortAndManagementRing : Prop :=
  TestPortInstructionsTakeEffect ∧ LockedDieOpensTwoSegments ∧ RingWordLoadsAtSync

/-! ### Resets -/

/-- What every warm reset leaves (R383, R426): the work, the registers' staging, the modules and the memories of the die are gone; the
station number, the boot nonce and the retained plat stand; bring-up stands at the FUSE phase with the given cause, the challenge is
the entropy source's next six draws (R450), and a datum die's crystal runs on (R469). -/
structure Sys2Proof.Machine.WarmLeaves (s t : State) (cause count : Nat) : Prop where
  phase : t.get Fld.BOOT_BOOT_STATE_PHASE = 1
  cause : t.get Fld.BOOT_BOOT_STATE_RESET_CAUSE = cause
  resets : t.get Fld.BOOT_BOOT_RESETS_RESET_COUNT = (s.get Fld.BOOT_BOOT_RESETS_RESET_COUNT + count) % 2 ^ 16
  station : t.station = s.station
  nonce : t.bootNonce = s.bootNonce
  retained : t.get Fld.PLAT_PLAT_COUNTS_RETAINED = s.get Fld.PLAT_PLAT_COUNTS_RETAINED ∧
    ∀ i < 64, t.get Fld.PLAT_PLAT_RET_ENTRY 0 i = s.get Fld.PLAT_PLAT_RET_ENTRY 0 i
  work : t.mem = [] ∧ t.cores = [] ∧ t.gangs = [] ∧ t.queues = [] ∧ t.items = [] ∧ t.records = [] ∧ t.moves = [] ∧ t.pages = [] ∧ t.tables = [] ∧
    t.chains = [] ∧ t.stages = [] ∧ t.staged = [] ∧ t.mods = [] ∧ t.reqs = []
  links : ∀ m < 40, t.get Fld.LNK_MOD_STATE_STATE m = 1
  scrub : t.get Fld.FLD_FLD_DBGCTL_SCRUB_HOLD = 0
  challenge : t.chal = drawChallenge s.free ∧ t.free = s.free + 6
  crystal : t.get Fld.CLK_CLK_STATUS_XTAL_OK = b2n s.aon.datumEn

/-- The warm resets by pin, by a rail, and for a lost reference or clock keep what R383 says, count one reset, one for a command that meets
the pin (R472), and hold the die; in the AON phase they only hold it. A thermal trip does the same without the count, sets `TRIP_SEEN`
and drives `THERMTRIP_N` low (R32, R383, R426, R471-R473, R479). Beyond these rules it rests on the model's reading: assumptions 67 and
68. -/
def Obligations.WarmResetsKeepTheIsland : Prop :=
  ∀ s : State,
    (s.get Fld.BOOT_BOOT_STATE_PHASE ≠ 0 →
      (∀ count, count = (if s.get Fld.BOOT_BOOT_STATE_PHASE = 1 ∧ s.get Fld.BOOT_BOOT_STATE_RESET_CAUSE = 2 ∧ s.now = 0 then 0 else 1) →
        Answers (exec (.warmResetByPin none) s) (fun t => WarmLeaves s t 1 count ∧ t.aon = { s.aon with latched := false, pinLow := true }) ∧
        (∀ r < 4, Answers (exec (.warmResetByPin (some r)) s) fun t =>
          WarmLeaves s t 1 count ∧ t.aon = { s.aon with latched := false, railOut := true }) ∧
        Answers (exec .vsramBelowVcore s) (fun t => WarmLeaves s t 1 count ∧ t.aon = { s.aon with latched := false, railOut := true })) ∧
      (s.aon.pinLow = false →
        Answers (exec .referenceLost s) (fun t =>
          WarmLeaves s t 3 1 ∧ t.aon = { s.aon with latched := false, refOut := true } ∧ t.get Fld.CLK_CLK_AON_REF_LOST = 1) ∧
        ∀ i < 6, Answers (exec (.pllLost i) s) fun t =>
          WarmLeaves s t 3 1 ∧ t.aon = { s.aon with latched := false, refOut := true } ∧ t.get Fld.CLK_CLK_AON_PLL_LOST = 1)) ∧
    (s.get Fld.BOOT_BOOT_STATE_PHASE = 0 →
      exec (.warmResetByPin none) s = .next { s with aon := { s.aon with pinLow := true } } ∧
      ∀ r < 4, exec (.warmResetByPin (some r)) s = .next { s with aon := { s.aon with railOut := true } }) ∧
    (s.get Fld.BOOT_BOOT_STATE_PHASE = 0 ∨ s.aon.pinLow = true → Answers (exec .referenceLost s) fun t =>
      t = { s.put Fld.CLK_CLK_AON_REF_LOST 1 with aon := { s.aon with refOut := true } }) ∧
    (∀ n < 96, Answers (exec (.thermalTrip n) s) fun t =>
      WarmLeaves s t (s.get Fld.BOOT_BOOT_STATE_RESET_CAUSE) 0 ∧ t.get Fld.PWR_PWR_STATUS_TRIP_SEEN = 1 ∧ t.aon.held = true ∧
      (s.aon.noVaon = false → t.thermTripLow = true))

/-- A cold power-up and the loss of VAON leave every field of the state at its reset value but the fuses, the levels of `PRES_IN` and of the
strap pins, the waiting commands, a fresh boot nonce and challenge, and on a power-up the running crystal of a datum die; the station
number and `RESET_COUNT` are 0 and the retained plat is empty. A die that has lost VAON powers up once it has risen above 0.70 V for 1
µs, and no other rail changes it (R353, R383, R450, R465, R469, R471). Beyond these rules it rests on the model's reading: assumptions 7
and 8. -/
def Obligations.ColdPowerUpClearsEverything : Prop :=
  ∀ s : State,
    (∃ t, exec .coldPowerUp s = .next t ∧
      t = { State.reset with
        pending := s.pending, free := s.free + 7, fuses := s.fuses, bootNonce := (Config.entropy s.free).toNat
        chal := drawChallenge (s.free + 1), regs := t.regs, tap := { Tap.init with presIn := s.tap.presIn }
        aon := { Aon.init with datumEn := s.aon.datumEn, cfgMaster := s.aon.cfgMaster, diepos := s.aon.diepos } } ∧
      (∀ k, k ≠ Fld.CLK_CLK_STATUS_XTAL_OK.key 0 0 → t.word k = State.reset.word k) ∧
      t.get Fld.CLK_CLK_STATUS_XTAL_OK = b2n s.aon.datumEn ∧ t.get Fld.CLK_CLK_STATUS_SOURCE = b2n s.aon.datumEn ∧ t.refOutDriven = s.aon.datumEn ∧
      t.aon.held = true ∧ t.station = 0 ∧ t.get Fld.BOOT_BOOT_RESETS_RESET_COUNT = 0 ∧ t.get Fld.PLAT_PLAT_COUNTS_RETAINED = 0 ∧
      t.get Fld.BOOT_BOOT_STATE_PHASE = 0 ∧ t.presOut = true) ∧
    (∃ t, exec .vaonLoss s = .next t ∧
      t = { State.reset with
        pending := s.pending, free := s.free + 7, fuses := s.fuses, bootNonce := (Config.entropy s.free).toNat
        chal := drawChallenge (s.free + 1), tap := { Tap.init with presIn := s.tap.presIn }
        aon := { Aon.init with noVaon := true, datumEn := s.aon.datumEn, cfgMaster := s.aon.cfgMaster, diepos := s.aon.diepos } } ∧
      t.refOutDriven = false ∧
      t.aon.held = true ∧ t.presOut = false ∧ t.station = 0 ∧ t.get Fld.BOOT_BOOT_RESETS_RESET_COUNT = 0 ∧
      t.get Fld.PLAT_PLAT_COUNTS_RETAINED = 0) ∧
    (s.aon.noVaon = true → ∀ mv < 65536, ∀ i < 65536,
      (∀ rail < 4, exec (.railSample rail mv i) s = .next s) ∧
      (700 < mv → 99 ≤ (s.rail 4).high → exec (.railSample 4 mv i) s = exec .coldPowerUp s) ∧
      (mv ≤ 700 ∨ (s.rail 4).high < 99 → Answers (exec (.railSample 4 mv i) s) fun t =>
        t = { s with rails := t.rails } ∧ (t.rail 4).high = (if 700 < mv then (s.rail 4).high + 1 else 0) ∧ ∀ r, r ≠ 4 → t.rail r = s.rail r))

/-- What latching the straps leaves (R36, R463, R469). -/
structure Sys2Proof.Machine.StrapsLatched (t : State) : Prop where
  datum : t.get Fld.CLK_CLK_AON_DATUM_EN = b2n t.aon.datumEn
  master : t.get Fld.CLK_CLK_AON_CFG_MASTER = b2n t.aon.cfgMaster
  diepos : t.get Fld.CLK_CLK_AON_DIEPOS = t.aon.diepos % 16
  latched : t.aon.latched = true
  crystal : t.get Fld.CLK_CLK_STATUS_XTAL_OK = b2n t.aon.datumEn
  sysId : t.get Fld.DIE_DIE_ID_SYS_ID = (t.get Fld.DIE_DIE_CFG_PKG * 16 + t.aon.diepos) % 2 ^ 12

/-- The release of `RST_N`, the return of the rails and the return of the reference latch the straps once nothing else holds the die and its
AON phase is over, and no level at a strap pin of a running die does; a die held after a trip is freed by a pin reset that ends below
100 °C and by no other (R32, R426, R463, R471). Beyond these rules it rests on the model's reading: assumption 68. -/
def Sys2Proof.Machine.LeavingResetLatchesTheStraps : Prop :=
  ∀ s : State, s.get Fld.BOOT_BOOT_STATE_PHASE ≠ 0 →
    (s.aon.pinLow = true → ∀ d m p, Answers (exec (.rstNDeassert d m p) s) fun t =>
      t.aon.pinLow = false ∧ t.aon.datumEn = d ∧ t.aon.cfgMaster = m ∧ t.aon.diepos = p % 16 ∧
      t.aon.tripped = (s.aon.tripped && !decide (s.aon.tj < 400)) ∧ t.mem = s.mem ∧ t.station = s.station ∧
      (t.aon.held = false → StrapsLatched t) ∧ (t.aon.held = true → t = { s with aon := t.aon } ∧ t.aon.latched = s.aon.latched)) ∧
    (s.aon.held = false → ∀ d m p, Answers (exec (.rstNDeassert d m p) s) fun t =>
      t = { s with aon := { s.aon with datumEn := d, cfgMaster := m, diepos := p % 16 } }) ∧
    (s.aon = { s.aon with railOut := true, pinLow := false, refOut := false, tripped := false, noVaon := false } →
      Answers (exec .railsValid s) fun t => StrapsLatched t ∧ t.aon.held = false ∧ t.mem = s.mem ∧ t.station = s.station) ∧
    (s.aon = { s.aon with refOut := true, pinLow := false, railOut := false, tripped := false, noVaon := false } →
      Answers (exec .referenceReturn s) fun t => StrapsLatched t ∧ t.aon.held = false ∧ t.mem = s.mem ∧ t.station = s.station)

/-- A short gap in the reference counts and sets its event, and a second reference seen by a datum die sets its status and its event;
neither disturbs anything else (R31, R32). -/
def Sys2Proof.Machine.ReferenceDisturbancesAreReported : Prop :=
  ∀ s : State,
    (Answers (exec .referenceGlitch s) fun t =>
      t.get Fld.CLK_CLK_GLITCHES_COUNT = satAdd Fld.CLK_CLK_GLITCHES_COUNT.len (s.get Fld.CLK_CLK_GLITCHES_COUNT) 1 ∧
      t.get Fld.CLK_PAGE_EVENT_REF_GLITCH = 1 ∧ Reports (s.put Fld.CLK_CLK_GLITCHES_COUNT (t.get Fld.CLK_CLK_GLITCHES_COUNT)) t) ∧
    (s.get Fld.CLK_CLK_AON_DATUM_EN = 1 → s.get Fld.CLK_CLK_STATUS_SECOND_REF_SEEN = 0 →
      Answers (exec .secondReferenceSeen s) fun t =>
        t.get Fld.CLK_CLK_STATUS_SECOND_REF_SEEN = 1 ∧ t.get Fld.CLK_PAGE_EVENT_SECOND_REF = 1 ∧
        Reports (s.put Fld.CLK_CLK_STATUS_SECOND_REF_SEEN 1) t) ∧
    (s.get Fld.CLK_CLK_AON_DATUM_EN = 0 → exec .secondReferenceSeen s = .next s)

/-- The release of `RST_N`, the return of the rails and the return of the reference latch the straps once nothing else holds the die and its
AON phase is over, and no level at a strap pin of a running die does; a die held after a trip is freed by a pin reset that ends below
100 °C and by no other (R32, R426, R463, R471). Beyond these rules it rests on the model's reading: assumption 68. A short gap in the
reference counts and sets its event, and a second reference seen by a datum die sets its status and its event; neither disturbs anything
else (R31, R32). -/
def Obligations.ResetEndsAndReferenceIsWatched : Prop :=
  LeavingResetLatchesTheStraps ∧ ReferenceDisturbancesAreReported

/-! ### Bring-up -/

/-- The bring-up phases up to the sidebands follow each other, and what each of them leaves (R384, R385, R387, R389, R390, R392, R397).
Beyond these rules it rests on the model's reading: assumptions 66 and 69. -/
def Obligations.BringUpPhasesFollowInOrder : Prop :=
  ∀ s : State,
    (s.get Fld.BOOT_BOOT_STATE_PHASE = 0 → s.aon.railOut = false → s.aon.refOut = false → s.aon.tripped = false → s.aon.noVaon = false →
      Answers (exec .aonPhase s) fun t => t.get Fld.BOOT_BOOT_STATE_PHASE = 1 ∧ (s.aon.pinLow = false → StrapsLatched t)) ∧
    (s.inPhase 1 = true → s.fuses.bad = true → Answers (exec .fusePhase s) fun t =>
      t.get Fld.BOOT_BOOT_STATE_PHASE = 0xF ∧ t.get Fld.BOOT_BOOT_STATE_ERR = 1 ∧ t.get Fld.BOOT_PAGE_EVENT_BOOT_FAIL = 1) ∧
    (s.inPhase 1 = true → s.fuses.bad = false → Answers (exec .fusePhase s) fun t =>
      t.get Fld.BOOT_BOOT_STATE_PHASE = 2 ∧ t.get Fld.BOOT_BOOT_SERIAL_SERIAL = s.fuses.serial % 2 ^ 64 ∧
      t.get Fld.SEC_SEC_STATE_DBG_MODE = (if s.fuses.written then s.fuses.dbgMode else 0) % 4 ∧ t.get Fld.CLK_CLK_FREQ_MHZ = 1000) ∧
    (s.inPhase 2 = true → ∀ found codes, Answers (exec (.bist found codes false) s) fun t =>
      t.get Fld.BOOT_BOOT_STATE_PHASE = 3 ∧ t.boot.findings = bistFindings found codes ∧ t.mem = [] ∧ t.ecc = [] ∧ t.svyMem = [] ∧
      ∀ i < 72, t.get Fld.CL_PC_STATE_BIST i = codes.getD i 0 % 2 ^ Fld.CL_PC_STATE_BIST.len) ∧
    (s.inPhase 2 = true → ∀ found codes, Answers (exec (.bist found codes true) s) fun t =>
      t.get Fld.BOOT_BOOT_STATE_PHASE = 0xF ∧ t.get Fld.BOOT_BOOT_STATE_ERR = 2) ∧
    (s.inPhase 3 = true → Answers (exec .reconcile s) fun t =>
      t.get Fld.BOOT_BOOT_STATE_PHASE = 4 ∧ ∀ e ∈ s.boot.findings, platOk e.toNat = true → e.toNat % 16 = 9 → bitsAt e.toNat 4 6 ∈ t.modBad) ∧
    (s.inPhase 4 = true → s.get Fld.CLK_CLK_AON_CFG_MASTER = 1 → Answers (exec .sideband s) fun t =>
      t.get Fld.BOOT_BOOT_STATE_PHASE = 5 ∧ ∀ m < 40, s.modState m = 1 → t.modState m = 2)

/-- The image is fetched from the configuration store by one Quad Output Fast Read, or asked of every boot link that no request waits on,
and VERIFY makes the checks of R394 in their order (R392, R394, R397, R468). Beyond these rules it rests on the model's reading:
assumptions 65 and 66. -/
def Obligations.ImageIsFetchedAndVerified : Prop :=
  ∀ s : State,
    (s.inPhase 5 = true → s.get Fld.CLK_CLK_AON_CFG_MASTER = 1 → ∀ b, headerOk b = true → streamLen b ≤ b.length →
      Answers (exec (.fetchQspi b) s) fun t => t.get Fld.BOOT_BOOT_STATE_PHASE = 6 ∧ t.boot.stream = b.take (streamLen b) ∧
        t.get Fld.BOOT_BOOT_STATE_SRC = 0 ∧ t.qspi = some { code := 0x6B, addrBits := 24, addr := 0, dummy := 8 }) ∧
    (s.inPhase 5 = true → s.get Fld.CLK_CLK_AON_CFG_MASTER = 1 → ∀ b, headerOk b = false →
      Answers (exec (.fetchQspi b) s) fun t => t.boot.tries = s.boot.tries + 1 ∧ t.get Fld.BOOT_PAGE_EVENT_FETCH_RETRY = 1 ∧
        t.get Fld.BOOT_BOOT_STATE_PHASE = (if s.boot.tries < 2 then 5 else 0xF)) ∧
    (s.inPhase 5 = true → s.get Fld.CLK_CLK_AON_CFG_MASTER = 0 → s.boot.source = none →
      Answers (exec .fetchBootLink s) fun t => ∀ m ∈ s.bootLinks,
        (s.imageAsked m = true → t.mod m = s.mod m) ∧
        (s.imageAsked m = false → t.imageAsked m = true ∧ ∃ p : Packet, p.typ = 0x56 ∧ p.arg = 2 ^ 32 - 1 ∧
          p.data = leBytes 4 (s.boot.stream.length / 256) ∧ (t.mod m).queue = (s.mod m).queue ++ [{ pkt := p, key := pktKey p }])) ∧
    (s.inPhase 6 = true → Answers (exec .verify s) fun t =>
      let b := s.boot.stream
      let slot := hdr b 17 1
      let code :=
        if !(headerOk b && decide (streamLen b ≤ b.length)) then 4
        else if sha384 (sub b 128 97) ≠ (if slot = 0 then s.fuses.keyHash0 else s.fuses.keyHash1) then 5
        else if (if slot = 0 then s.fuses.revoke0 else s.fuses.revoke1) then 6
        else if !ecdsaVerify (sub b 128 97) (sub b (hdr b 4 4) 96) (b.take (hdr b 4 4)) then 7
        else if Config.stepping < hdr b 12 1 ∨ hdr b 13 1 ≠ 1 then 8
        else 0
      if code = 0 then t.get Fld.BOOT_BOOT_STATE_PHASE = 7 ∧ t.keySlot = slot ∧ t.boot.stream = b
      else t.get Fld.BOOT_BOOT_STATE_PHASE = 0xF ∧ t.get Fld.BOOT_BOOT_STATE_ERR = code)

/-- The address names page `page`'s register at `off` of the live page view, in a page that the map lists and that is not retired. -/
def Sys2Proof.Machine.LiveReg (s : State) (page off : Nat) : Prop :=
  populated page = true ∧ s.retiredPage page = false ∧ 0x100 ≤ off ∧ off < 0x4000 ∧ off % 4 = 0

/-- What a word `old` holds after a write of `v` to its plain bits (R51): its writable bits as written, its W1C bits cleared where the write
has a 1. -/
def Sys2Proof.Machine.plainValue (old v : BitVec 32) (w : RegW) : BitVec 32 :=
  ((old &&& ~~~BitVec.ofNat 32 w.rw) ||| (v &&& BitVec.ofNat 32 w.rw)) &&& ~~~(v &&& BitVec.ofNat 32 w.w1c)

/-- The COMMIT phase gives the loader the image's sections for this die and, where no list names a unit, numbers the cores with the ninth of
each cluster as its spare. A write record that the loader takes leaves the section: a live register of a page or of a window and a
staged register are written as the LDR class, a COMMIT record is waited for, a write that ends with an error is counted and the loader
goes on, and a reserved `OP` or a non-zero reserved byte fails the bring-up (R51, R56, R58, R389, R395-R397). Beyond these rules it
rests on the model's reading: assumptions 29 and 63. -/
def Sys2Proof.Machine.LoaderTakesItsSections : Prop :=
  ∀ s : State, s.inPhase 7 = true →
    (s.boot.sections = none → Answers (exec .commitPhase s) fun t =>
      t.boot.sections = some s.loadSections ∧ t.boot.stream = s.boot.stream ∧
      (s.fusePlat = [] → s.boot.findings = [] → s.retPlat = [] → s.fieldPlat = [] → s.fieldRecord = none →
        (∀ n < 64, t.get Fld.CORE_CORE_STATE_PHYS n = n % 8) ∧ ∀ c < 8, t.get Fld.CL_CL_STATUS_SPARE_AVAIL c = 1 ∧
          t.get Fld.CL_CL_STATUS_SPARE_PHYS c = 8)) ∧
    (∀ b rest, s.boot.sections = some (b :: rest) → s.boot.waits = [] → 24 ≤ b.length → leAt b 6 1 = 0 → leAt b 7 1 = 0 → leAt b 4 2 = 0xFFFF →
      leAt b 0 2 % 1024 = 5 → leAt b 2 2 = 0x18 →
      Answers (exec .writeRecord s) fun t => t.boot.sections = some (b.drop 12 :: rest) ∧ t.word (pageEventEn 5) = BitVec.ofNat 32 (leAt b 8 4)) ∧
    (∀ b rest, s.boot.sections = some (b :: rest) → s.boot.waits = [] → 24 ≤ b.length →
      (2 ≤ leAt b 6 1 ∨ leAt b 7 1 ≠ 0 → Answers (exec .writeRecord s) fun t =>
        t.get Fld.BOOT_BOOT_STATE_PHASE = 0xF ∧ t.get Fld.BOOT_BOOT_STATE_ERR = 9) ∧
      (leAt b 7 1 = 0 →
        let page := leAt b 0 2 % 1024
        let off := leAt b 2 2
        let i := leAt b 4 2
        let v := BitVec.ofNat 32 (leAt b 8 4)
        let u : State := { s with boot := { s.boot with waits := [], sections := some (b.drop 12 :: rest) } }
        (leAt b 6 1 = 0 → i = 0xFFFF → page ≠ 0xD → LiveReg s page off → ∀ w, regWord (blkOf page) false off = some w →
          ctlAct u ldrAcc page 0 off (leAt b 8 4) = none →
          (w.ws = 0 → Answers (exec .writeRecord s) fun t =>
            t = { u with regs := t.regs, ctl := { code := 0, data := 0 } } ∧ t.word (regKey page 0 off) = plainValue (s.word (regKey page 0 off)) v w) ∧
          (w.ws ≠ 0 → s.stageTest ldrAcc page = 0 → Answers (exec .writeRecord s) fun t =>
            t = { u with regs := t.regs, staged := t.staged, ctl := { code := 0, data := 0 } } ∧
            t.word (regKey page 0 off) = plainValue (s.word (regKey page 0 off)) v w ∧
            (tget noStage (regKey page 0 off) t.staged).mask = (tget noStage (regKey page 0 off) s.staged).mask ||| BitVec.ofNat 32 w.ws ∧
            (tget noStage (regKey page 0 off) t.staged).val =
              ((tget noStage (regKey page 0 off) s.staged).val &&& ~~~BitVec.ofNat 32 w.ws) ||| (v &&& BitVec.ofNat 32 w.ws))) ∧
        (leAt b 6 1 = 0 → populated page = true → page ≠ 0xD → i < instCount page → i ≠ 0xFFFF → off < 0x800 → off % 4 = 0 →
          ∀ w, regWord (blkOf page) true off = some w →
          let c : State := { u.setWord (regKey page 0 0x2C) (BitVec.ofNat 32 i) with ctl := { code := 0, data := 0 } }
          let k := regKey page (i + 1) off
          ctlAct c ldrAcc page (i + 1) off (leAt b 8 4) = none →
          (w.ws = 0 → Answers (exec .writeRecord s) fun t =>
            t = { u with regs := t.regs, ctl := { code := 0, data := 0 } } ∧ t.word (regKey page 0 0x2C) = BitVec.ofNat 32 i ∧
            t.word k = plainValue (s.word k) v w) ∧
          (w.ws ≠ 0 → c.stageTest ldrAcc page = 0 → Answers (exec .writeRecord s) fun t =>
            t = { u with regs := t.regs, staged := t.staged, ctl := { code := 0, data := 0 } } ∧
            (tget noStage k t.staged).mask = (tget noStage k s.staged).mask ||| BitVec.ofNat 32 w.ws ∧
            (tget noStage k t.staged).val = ((tget noStage k s.staged).val &&& ~~~BitVec.ofNat 32 w.ws) ||| (v &&& BitVec.ofNat 32 w.ws))) ∧
        (leAt b 6 1 = 1 → populated page = true → page ≠ 0xD → s.stagedPending page = true → s.ownsStage ldrAcc page = true →
          s.commitBusy page = false → Answers (exec .writeRecord s) fun t =>
            t.commitBusy page = true ∧ t.boot.waits = [page] ∧ t.staged = s.staged ∧ t.boot.sections = u.boot.sections) ∧
        (leAt b 6 1 = 0 → i = 0xFFFF → page = 0xD → 0x100 ≤ off → off < 0x4000 → off % 4 = 0 →
          Answers (exec .writeRecord s) fun t =>
            t.get Fld.BOOT_BOOT_LDR_ERRS_COUNT = satAdd Fld.BOOT_BOOT_LDR_ERRS_COUNT.len (s.get Fld.BOOT_BOOT_LDR_ERRS_COUNT) 1 ∧
            t.get Fld.BOOT_PAGE_EVENT_LDR_ERR = 1 ∧ t.boot = u.boot ∧ t.get Fld.BOOT_BOOT_STATE_PHASE = 7)))

/-- The end of the relay hold ends every boot link, and release puts every idle core that is no hole into service with the whole thermal
budget (R258, R396, R425). Beyond these rules it rests on the model's reading: assumption 60. -/
def Sys2Proof.Machine.ReleasePutsCoresIntoService : Prop :=
  ∀ s : State, s.inPhase 7 = true → s.roled = true →
    (s.boot.roledAt + s.relayHold ≤ s.now → Answers (exec .relayHoldExpiry s) fun t =>
      t.boot.relayOver = true ∧ ∀ m < 40, (t.mod m).boot = false) ∧
    ((∀ m < 40, (s.mod m).boot = false) → (bitOf (hdr s.boot.stream 14 2) 0 = false ∨ s.boot.releaseAsked = true) →
      Answers (exec .releaseCompute s) fun t =>
        t.get Fld.BOOT_BOOT_STATE_PHASE = 8 ∧ t.released = true ∧ t.boot.stream = [] ∧ t.cadastre = false ∧
        t.get Fld.PWR_PWR_POWER_TH_CAP = 900 ∧ t.get Fld.BOOT_PAGE_EVENT_RELEASED = 1 ∧
        ∀ n < 64, s.isHole n = false → t.get Fld.CORE_CORE_STATE_STATE n =
          (if s.get Fld.CORE_CORE_STATE_STATE n = 0 then 1 else s.get Fld.CORE_CORE_STATE_STATE n))

/-- The COMMIT phase gives the loader the image's sections for this die and, where no list names a unit, numbers the cores with the ninth of
each cluster as its spare. A write record that the loader takes leaves the section: a live register of a page or of a window and a
staged register are written as the LDR class, a COMMIT record is waited for, a write that ends with an error is counted and the loader
goes on, and a reserved `OP` or a non-zero reserved byte fails the bring-up (R51, R56, R58, R389, R395-R397). Beyond these rules it
rests on the model's reading: assumptions 29 and 63. The end of the relay hold ends every boot link, and release puts every idle core
that is no hole into service with the whole thermal budget (R258, R396, R425). Beyond these rules it rests on the model's reading:
assumption 60. -/
def Obligations.LoaderRunsUpToRelease : Prop :=
  LoaderTakesItsSections ∧ ReleasePutsCoresIntoService

/-- The bits of `BOOT_CTL`: the loader releases a held die, a failed die fetches again, and MP resets the die by command, which with `RST_N`
low is the reset by pin (R383, R396, R397, R402, R463, R472). Beyond these rules it rests on the model's reading: assumption 31. -/
def Obligations.BootControlActs : Prop :=
  ∀ (s : State) (a : Acc),
    (a.cls = .ldr → s.released = false → exec (.release a) s =
      .next { s with boot := { s.boot with releaseAsked := true }, ctl := { code := 0, data := 0 } }) ∧
    (a.cls = .ldr → s.get Fld.BOOT_BOOT_STATE_PHASE = 0xF → 3 ≤ s.get Fld.BOOT_BOOT_STATE_ERR → s.get Fld.BOOT_BOOT_STATE_ERR ≤ 9 →
      Answers (exec (.refetch a) s) fun t => t.get Fld.BOOT_BOOT_STATE_PHASE = 5 ∧ t.get Fld.BOOT_BOOT_STATE_ERR = 0 ∧ t.boot.stream = [] ∧
        t.boot.tries = 0 ∧ t.numbered = s.numbered ∧ t.ctl.code = 0) ∧
    (a.cls = .mp → s.aon.pinLow = false → Answers (exec (.warmReset a) s) fun t => WarmLeaves s t 2 1 ∧ StrapsLatched t ∧ t.ctl.code = 0) ∧
    (a.cls = .mp → s.aon.pinLow = true → exec (.warmReset a) s = .next { s with ctl := { code := 0, data := 0 } })

/-! ### Retirement in service -/

/-- What the new entry `e` leaves in the plat (R390): it joins the new list and the retained plat, or neither where one of them is full. -/
def Sys2Proof.Machine.PlatGains (s t : State) (e : Nat) : Prop :=
  let n := s.get Fld.PLAT_PLAT_NEW_COUNT
  let r := s.get Fld.PLAT_PLAT_COUNTS_RETAINED
  if n < 256 ∧ r < 64 then
    t.get Fld.PLAT_PLAT_NEW_COUNT = n + 1 ∧ t.get Fld.PLAT_PLAT_NEW_ENTRY 0 n = e ∧ t.get Fld.PLAT_PLAT_COUNTS_RETAINED = r + 1 ∧
      t.get Fld.PLAT_PLAT_RET_ENTRY 0 r = e ∧ t.get Fld.PLAT_PAGE_EVENT_NEW_ENTRY = 1
  else t.get Fld.PLAT_PLAT_NEW_COUNT = n ∧ t.get Fld.PLAT_PLAT_COUNTS_RETAINED = r ∧ t.get Fld.PLAT_PAGE_EVENT_PLAT_FULL = 1

/-- Logical core `c` is a hole (R399, R400): its cluster says so, its granules are OFFLINE, and nothing is left in its memory. -/
def Sys2Proof.Machine.IsHole (t : State) (c : Nat) : Prop :=
  bitOf (t.get Fld.CL_CL_STATUS_HOLES (c / 8)) (c % 8) = true ∧ (∀ g < 64, t.granState c g = 5) ∧ t.get Fld.CORE_CORE_STATE_STATE c = 0 ∧
    t.get Fld.CL_PAGE_EVENT_HOLE_MADE (c / 8) = 1 ∧ ∀ a, unitBase c ≤ a → a < unitBase c + 0x400000 → tget blankByte a t.mem = 0

/-- A core that is retired in service enters QUIESCING and its core-bad entry joins the plat; at its quiesce point the cluster's spare
enters RECOVERY in its place, unless a core of a lower logical ID waits there for it, and without a spare the logical ID becomes a hole;
a spare that passes its test takes the logical ID over, and one that fails is retired too and leaves the hole (R390, R398-R400). Beyond
these rules it rests on the model's reading: assumptions 84 and 90. -/
def Obligations.SpareTakesOverARetiredCore : Prop :=
  ∀ s : State,
    (∀ (a : Acc) cl phys, a.cls = .mp → s.numbered = true → cl < 8 → phys < 9 → s.get Fld.CL_PC_STATE_STATE (cl * 9 + phys) = 0 →
      s.get Fld.CL_PC_STATE_LOGICAL (cl * 9 + phys) < 8 →
      Answers (exec (.clRetire a cl phys false) s) fun t =>
        t.get Fld.CL_PC_STATE_STATE (cl * 9 + phys) = 7 ∧ t.get Fld.CORE_CORE_STATE_STATE (cl * 8 + s.get Fld.CL_PC_STATE_LOGICAL (cl * 9 + phys)) = 2 ∧
        t.get Fld.CL_PAGE_EVENT_RETIRE_START cl = 1 ∧ PlatGains s t (1 + 16 * cl + 256 * phys)) ∧
    (∀ (a : Acc) cl phys, a.cls = .mp → s.numbered = true → cl < 8 → phys < 9 → s.get Fld.CL_PC_STATE_STATE (cl * 9 + phys) = 1 →
      Answers (exec (.clRetire a cl phys false) s) fun t =>
        t.get Fld.CL_PC_STATE_STATE (cl * 9 + phys) = 5 ∧ t.get Fld.CL_CL_STATUS_SPARE_AVAIL cl = 0 ∧ t.get Fld.CL_PAGE_EVENT_SPARE_LOST cl = 1 ∧
        PlatGains s t (1 + 16 * cl + 256 * phys)) ∧
    (∀ c < 64, s.get Fld.CORE_CORE_STATE_STATE c = 2 → (s.core c).run = 0 → s.lowerQuiet c = false → s.get Fld.CL_CL_STATUS_SPARE_AVAIL (c / 8) = 1 →
      s.get Fld.CL_CL_STATUS_SPARE_PHYS (c / 8) < 9 → s.get Fld.CORE_CORE_STATE_PHYS c < 9 →
      Answers (exec (.quiescePoint c) s) fun t =>
        t.get Fld.CORE_CORE_STATE_STATE c = 4 ∧ t.get Fld.CL_CL_STATUS_SPARE_AVAIL (c / 8) = 0 ∧
        t.get Fld.CL_PC_STATE_STATE (c / 8 * 9 + s.get Fld.CL_CL_STATUS_SPARE_PHYS (c / 8)) = 6 ∧
        t.get Fld.CL_PC_STATE_LOGICAL (c / 8 * 9 + s.get Fld.CL_CL_STATUS_SPARE_PHYS (c / 8)) = c % 8) ∧
    (∀ c < 64, s.get Fld.CORE_CORE_STATE_STATE c = 2 → (s.core c).run = 0 → s.get Fld.CL_CL_STATUS_SPARE_AVAIL (c / 8) = 0 →
      Answers (exec (.quiescePoint c) s) fun t => IsHole t c) ∧
    (∀ cl < 8, ∀ q < 9, s.get Fld.CL_PC_STATE_STATE (cl * 9 + q) = 6 → (∀ p < q, s.get Fld.CL_PC_STATE_STATE (cl * 9 + p) ≠ 6) →
      s.get Fld.CL_PC_STATE_LOGICAL (cl * 9 + q) < 8 →
      Answers (exec (.recoveryTestEnd cl true) s) fun t =>
        let n := cl * 8 + s.get Fld.CL_PC_STATE_LOGICAL (cl * 9 + q)
        t.get Fld.CORE_CORE_STATE_STATE n = 1 ∧ t.get Fld.CORE_CORE_STATE_PHYS n = q ∧ t.get Fld.CL_PC_STATE_STATE (cl * 9 + q) = 0 ∧
        t.core n = CoreSt.init ∧ t.get Fld.CL_PAGE_EVENT_SPARE_USED cl = 1 ∧ ∀ m, m ≠ n → t.core m = s.core m) ∧
    (∀ cl < 8, ∀ q < 9, s.get Fld.CL_PC_STATE_STATE (cl * 9 + q) = 6 → (∀ p < q, s.get Fld.CL_PC_STATE_STATE (cl * 9 + p) ≠ 6) →
      s.get Fld.CL_PC_STATE_LOGICAL (cl * 9 + q) < 8 →
      Answers (exec (.recoveryTestEnd cl false) s) fun t =>
        t.get Fld.CL_PC_STATE_STATE (cl * 9 + q) = 5 ∧ IsHole t (cl * 8 + s.get Fld.CL_PC_STATE_LOGICAL (cl * 9 + q)) ∧
        PlatGains s t (1 + 16 * cl + 256 * q))

/-- A core in service without a kernel enters TEST and leaves it with its state zeroed and its split dropped, and a test kernel starts at
`TEST_PC`, but none after a die-fatal error (R102, R107, R437). Beyond these rules it rests on the model's reading: assumptions 19, 31
and 97. -/
def Obligations.CoreTestEntersRunsAndLeaves : Prop :=
  ∀ (s : State) (a : Acc), ∀ c < 64, a.cls = .dbg → s.portOpen a = true → s.unlocked = true → s.get Fld.BOOT_BOOT_STATE_PHASE ≠ 2 → s.isHole c = false → (s.core c).run = 0 →
    (s.get Fld.CORE_CORE_STATE_STATE c = 1 → Answers (exec (.coreTestEnter a c) s) fun t =>
      t.get Fld.CORE_CORE_STATE_STATE c = 3 ∧ t.ctl.code = 0 ∧ t.cores = s.cores) ∧
    (s.get Fld.CORE_CORE_STATE_STATE c = 3 → s.fatal = true → Answers (exec (.coreTestStart a c) s) fun t =>
      t.cores = s.cores ∧ t.get Fld.CORE_PAGE_EVENT_TEST_REFUSED c = 1) ∧
    (s.get Fld.CORE_CORE_STATE_STATE c = 3 → s.domActive (s.get Fld.CORE_CORE_TEST_TEST_DOM c) = true → s.fatal = false →
      Answers (exec (.coreTestStart a c) s) fun t =>
        (t.core c).run = 1 ∧ (t.core c).test = true ∧ (t.core c).pc = s.get Fld.CORE_TEST_PC_ADDR c ∧
        (t.core c).codeLen = s.get Fld.CORE_TEST_LEN_LEN c ∧ (t.core c).dom = s.get Fld.CORE_CORE_TEST_TEST_DOM c ∧ (t.core c).kinst = 0 ∧
        t.ctl.code = 0 ∧ ∀ m, m ≠ c → t.core m = s.core m) ∧
    (s.get Fld.CORE_CORE_STATE_STATE c = 3 → Answers (exec (.coreTestLeave a c) s) fun t =>
      t.get Fld.CORE_CORE_STATE_STATE c = 1 ∧ t.core c = CoreSt.init ∧ t.get Fld.CORE_CORE_CFG_ACC_SPLIT c = 0 ∧
      t.get Fld.CORE_CORE_CFG_SPLIT_BARE c = 0 ∧ t.ctl.code = 0 ∧ ∀ m, m ≠ c → t.core m = s.core m)

/-! ### Control accesses -/

/-- A write of MP to a plain register stores its writable bits and clears the W1C bits that it writes as 1; every other word, and all
that is no register, stands (R51). -/
def Sys2Proof.Machine.PlainWriteStoresWritableBits : Prop :=
  ∀ (s : State) (a : Acc) (page off v : Nat) (w : RegW), a.cls = .mp → LiveReg s page off → page ≠ 0xD → v < 2 ^ 32 →
    regWord (blkOf page) false off = some w → w.ws = 0 → ctlAct s a page 0 off v = none →
    Answers (exec (.registerWrite a (pageAddr page off) 4 v) s) fun t =>
      t = { s with regs := t.regs, ctl := { code := 0, data := 0 } } ∧
      t.word (regKey page 0 off) = plainValue (s.word (regKey page 0 off)) (BitVec.ofNat 32 v) w ∧
      ∀ k, k ≠ regKey page 0 off → t.word k = s.word k

/-- A read returns the live value of a word, write-only and reserved bits as 0; the bits that clear as they are read clear, but not for
the DBG class; nothing else changes (R51). -/
def Obligations.ReadReturnsTheWordAndClearsRc : Prop :=
  ∀ (s : State) (a : Acc) (page off : Nat) (w : RegW), (a.cls = .mp ∨ (a.cls = .dbg ∧ s.portOpen a = true ∧ s.unlocked = true)) → LiveReg s page off →
    regWord (blkOf page) false off = some w → ctlView s page 0 off = none →
    Answers (exec (.rcRead a (pageAddr page off) 4) s) fun t =>
      t = { s with regs := t.regs, ctl := t.ctl, epiUnread := t.epiUnread } ∧
      t.ctl = { code := 0, data := (s.word (regKey page 0 off) &&& BitVec.ofNat 32 w.readMask).toNat } ∧
      t.word (regKey page 0 off) = (if a.cls = .dbg then s.word (regKey page 0 off) else s.word (regKey page 0 off) &&& ~~~BitVec.ofNat 32 w.rc) ∧
      ∀ k, k ≠ regKey page 0 off → t.word k = s.word k

/-- The DBG class writes no register of a locked die but the unlock registers of its own page: the access is refused with "protection",
`ACCESS_REFUSED` sets on the page, and nothing else happens, whatever else of it would fail (the model's choice of the first check).
While the control segment of the test port is closed, a write of that class does nothing and a read returns zeros (R53, R54, R449,
R476). Beyond these rules it rests on the model's reading: assumption 79. -/
def Sys2Proof.Machine.LockedDebugWritesNothing : Prop :=
  ∀ (s : State) (a : Acc) (page off v : Nat), a.cls = .dbg → populated page = true → off < 0x10000 → off % 4 = 0 →
    (s.portOpen a = true → s.unlocked = false → unlockReg page off = false →
      Answers (exec (.registerWrite a (pageAddr page off) 4 v) s) fun t =>
        t.ctl = { code := 1, data := 0 } ∧ (t.word (pageEvent page)).getLsbD 30 = true ∧ Reports s { t with ctl := s.ctl }) ∧
    (bitOf s.tap.segments 0 = false ∨ s.bypassed = true →
      exec (.registerWrite a (pageAddr page off) 4 v) s = .next { s with ctl := { code := 0, data := 0 } } ∧
      exec (.rcRead a (pageAddr page off) 4) s = .next { s with ctl := { code := 0, data := 0 } })

/-- A write of MP to a plain register stores its writable bits and clears the W1C bits that it writes as 1; every other word, and all that
is no register, stands (R51). The DBG class writes no register of a locked die but the unlock registers of its own page: the access is
refused with "protection", `ACCESS_REFUSED` sets on the page, and nothing else happens, whatever else of it would fail (the model's
choice of the first check). While the control segment of the test port is closed, a write of that class does nothing and a read returns
zeros (R53, R54, R449, R476). Beyond these rules it rests on the model's reading: assumption 79. -/
def Obligations.RegisterWritesStoreOrAreRefused : Prop :=
  PlainWriteStoresWritableBits ∧ LockedDebugWritesNothing

/-- A staged write of MP waits in the staging copy of its page: the live staged bits stand, and the page reports staging (R58, R59). -/
def Sys2Proof.Machine.StagedWriteWaitsForCommit : Prop :=
  ∀ (s : State) (a : Acc) (page off v : Nat) (w : RegW), a.cls = .mp → LiveReg s page off → page ≠ 0xD → v < 2 ^ 32 →
    regWord (blkOf page) false off = some w → w.ws ≠ 0 → w.rw = 0 → w.w1c = 0 → ctlAct s a page 0 off v = none → s.stageTest a page = 0 →
    Answers (exec (.stagedWrite a (pageAddr page off) 4 v) s) fun t =>
      t = { s with regs := t.regs, staged := t.staged, ctl := { code := 0, data := 0 } } ∧ t.stagedPending page = true ∧
      t.word (regKey page 0 off) = s.word (regKey page 0 off) ∧
      (let e := tget noStage (regKey page 0 off) t.staged
       let old := tget noStage (regKey page 0 off) s.staged
       e.mask = old.mask ||| BitVec.ofNat 32 w.ws ∧
       e.val = (old.val &&& ~~~BitVec.ofNat 32 w.ws) ||| (BitVec.ofNat 32 v &&& BitVec.ofNat 32 w.ws)) ∧
      ∀ k, k ≠ regKey page 0 off → tget noStage k t.staged = tget noStage k s.staged

/-- COMMIT by the owner of the staging copy makes the page busy, DISCARD empties it, and an instance's application takes its staged words
out, and each live word takes its staged bits but those that are fixed until reset; the last one ends the COMMIT (R60-R62). A control
period boundary is the one safe point of the PWR page (R434). Beyond these rules it rests on the model's reading: assumption 27. -/
def Sys2Proof.Machine.CommitDiscardAndApply : Prop :=
  ∀ s : State,
    (∀ (a : Acc) (page : Nat), a.cls = .mp → page ≠ 0xD → populated page = true → s.stagedPending page = true →
      s.ownsStage a page = true → s.commitBusy page = false →
      (Answers (exec (.commit a page) s) fun t => t.commitBusy page = true ∧ t.staged = s.staged ∧ t.ctl.code = 0) ∧
      (Answers (exec (.discard a page) s) fun t =>
        t.stagedPending page = false ∧ (∀ e ∈ t.staged, e.1 / 2 ^ 32 ≠ page) ∧
        (∀ k, k / 2 ^ 32 ≠ page → tget noStage k t.staged = tget noStage k s.staged) ∧ (t.word (pageEvent page)).getLsbD 25 = true ∧ t.ctl.code = 0)) ∧
    (∀ page inst, s.commitBusy page = true → s.stagedOf page inst ≠ [] → s.safePoint page inst = true →
      Answers (exec (.instanceApply page inst) s) fun t =>
        (∀ e ∈ t.staged, e ∈ s.staged ∧ e.1 ∉ (s.stagedOf page inst).map (·.1)) ∧
        ((∀ e ∈ s.staged, e.1 / 2 ^ 32 = page → e ∈ s.stagedOf page inst) →
          t.commitBusy page = false ∧ t.stagedPending page = false ∧ (t.word (pageEvent page)).getLsbD 24 = true)) ∧
    (∀ page inst, s.commitBusy page = true → s.stagedOf page inst ≠ [] → s.safePoint page inst = true → s.get Fld.BOOT_BOOT_STATE_PHASE ≠ 7 →
      s.bringUpCommit page = false → blkOf page ≠ 0x10 → blkOf page ≠ 0x40 → page ∉ [0, 4, 9, 0xA, 0xB, 0xC, 0x100, 0x102] →
      twf noStage s.staged = true →
      Answers (exec (.instanceApply page inst) s) fun t => ∀ e ∈ s.stagedOf page inst, reportKey e.1 = false → e.1 ≠ regKey page 0 0xC →
        e.1 ≠ regKey page 0 0x10 →
        let fixed := match regWord (blkOf page) (e.1 / 2 ^ 14 % 2 ^ 18 != 0) (e.1 % 2 ^ 14) with
          | some w => BitVec.ofNat 32 w.fixed
          | none => 0
        let m := e.2.mask &&& ~~~fixed
        t.word e.1 = (s.word e.1 &&& ~~~m) ||| (e.2.val &&& m)) ∧
    (∀ inst, exec (.instanceApply 4 inst) s = .next s)

/-- A staged write of MP waits in the staging copy of its page: the live staged bits stand, and the page reports staging (R58, R59). COMMIT
by the owner of the staging copy makes the page busy, DISCARD empties it, and an instance's application takes its staged words out, and
each live word takes its staged bits but those that are fixed until reset; the last one ends the COMMIT (R60-R62). A control period
boundary is the one safe point of the PWR page (R434). Beyond these rules it rests on the model's reading: assumption 27. -/
def Obligations.StagedWritesWaitForTheirCommit : Prop :=
  StagedWriteWaitsForCommit ∧ CommitDiscardAndApply

/-- A packet of this die's own as it is sent: its source is this die, its `HOP` is 0 (R366). -/
def Sys2Proof.Machine.ownPacket (s : State) (p : Packet) : Packet := { p with src := s.sysId, skind := 0, hop := 0, len := p.data.length }

/-- The EVENT packet that carries a message to the host hub (R364, R483). -/
def Sys2Proof.Machine.eventPacket (s : State) (h : HostMsg) : Packet :=
  ownPacket s { pktOf 0x52 with dest := s.get Fld.DIE_DIE_CFG_HOST_HUB, dkind := 2, data := h.payload }

/-- The oldest host event message leaves as an EVENT packet on the route to the host hub, and is dropped and counted where that has no
path; the first waiting event record whose queue takes one joins the records that wait for that queue's ring, behind those that wait
already, and dispatch starts the next write (R29, R66, R297, R298, R483). -/
def Obligations.WaitingReportsLeave : Prop :=
  ∀ s : State,
    (∀ h rest, s.hostMsgs = h :: rest → ∃ t, exec .eventMessageSend s = .next t ∧
      (s.reachable (s.get Fld.DIE_DIE_CFG_HOST_HUB) 2 (pktKey (eventPacket s h)) = true →
        t = ({ s with
          hostMsgs := rest
          waiting := s.waiting ++ [{ entry := s.routeEntry (s.get Fld.DIE_DIE_CFG_HOST_HUB) 2, key := pktKey (eventPacket s h), pkt := eventPacket s h }] } :
            State).flushWaiting ∧ t.hostMsgs = rest) ∧
      (s.reachable (s.get Fld.DIE_DIE_CFG_HOST_HUB) 2 (pktKey (eventPacket s h)) = false →
        t = { s with hostMsgs := rest, pathDrops := s.pathDrops + 1 })) ∧
    (s.hostMsgs = [] → exec .eventMessageSend s = .next s) ∧
    (∀ r, s.evq.find? (fun r => s.takesEvents r.queue) = some r → ∃ u : State, exec .eventRecordPost s = .next (u.pumpRecords r.queue).settle ∧
      u = { s with evq := s.evq.erase r, records := s.records ++ [RecJob.mk r.queue none r.bytes 0 0] } ∧ u.evq.length + 1 = s.evq.length ∧
      s.qState r.queue = 1 ∧ r.bytes.length = 32) ∧
    ((∀ r ∈ s.evq, s.takesEvents r.queue = false) → exec .eventRecordPost s = .next s)

/-- `NEW_CLEAR` empties the list of new plat entries and leaves the retained plat; `CLEAR` empties a scale slot; an entry write stores its
step and its magnitude (R136, R144, R403). -/
def Sys2Proof.Machine.ListsAndSlotsClear : Prop :=
  ∀ (s : State) (a : Acc), a.cls = .mp →
    (Answers (exec (.newClear a) s) fun t =>
      t.get Fld.PLAT_PLAT_NEW_COUNT = 0 ∧ (∀ i < 256, t.get Fld.PLAT_PLAT_NEW_ENTRY 0 i = 0) ∧
      (∀ i < 64, t.get Fld.PLAT_PLAT_RET_ENTRY 0 i = s.get Fld.PLAT_PLAT_RET_ENTRY 0 i) ∧ t = { s with regs := t.regs, ctl := { code := 0, data := 0 } }) ∧
    (∀ slot < 4096, Answers (exec (.clear a slot) s) fun t =>
      (∀ e < 16, t.get Fld.SCL_ENTRY_VALID slot e = 0 ∧ t.get Fld.SCL_ENTRY_AMAX slot e = 0 ∧ t.get Fld.SCL_ENTRY_STEP slot e = 0) ∧
      t.get Fld.SCL_SLOT_STATUS_READ slot = 0 ∧ t = { s with regs := t.regs, ctl := { code := 0, data := 0 } } ∧
      ∀ j < 4096, j ≠ slot → ∀ e < 16, t.get Fld.SCL_ENTRY_AMAX j e = s.get Fld.SCL_ENTRY_AMAX j e) ∧
    (∀ slot < 4096, ∀ e < 16, ∀ v < 2 ^ 64, Answers (exec (.scaleEntryWrite a slot e v) s) fun t =>
      t.get Fld.SCL_ENTRY_STEP slot e = v / 2 ^ 32 ∧ t.word (Fld.SCL_ENTRY_AMAX.key slot e) = BitVec.ofNat 32 (amaxStored (v % 2 ^ 32)) ∧
      t.ctl.code = 0)

/-! ### Field notes, mailboxes, surveyor core -/

/-- Reading advances the field notes' read pointer, but never beyond what has been written (R438). -/
def Sys2Proof.Machine.NotesReadPointerStopsAtTheWritePointer : Prop :=
  ∀ (s : State) (a : Acc) (v : Nat), a.cls = .mp → v < 2 ^ 32 →
    Answers (exec (.fnRptrWrite a v) s) fun t =>
      t = { s with regs := t.regs, ctl := { code := 0, data := 0 } } ∧
      t.get Fld.ERR_FN_RPTR_COUNT =
        (if (s.get Fld.ERR_FN_WPTR_COUNT + 2 ^ 32 - s.get Fld.ERR_FN_RPTR_COUNT) % 2 ^ 32 < (v + 2 ^ 32 - s.get Fld.ERR_FN_RPTR_COUNT) % 2 ^ 32
         then s.get Fld.ERR_FN_WPTR_COUNT else v) ∧
      (t.get Fld.ERR_FN_WPTR_COUNT + 2 ^ 32 - t.get Fld.ERR_FN_RPTR_COUNT) % 2 ^ 32 ≤
        (s.get Fld.ERR_FN_WPTR_COUNT + 2 ^ 32 - s.get Fld.ERR_FN_RPTR_COUNT) % 2 ^ 32

/-- `NEW_CLEAR` empties the list of new plat entries and leaves the retained plat; `CLEAR` empties a scale slot; an entry write stores its
step and its magnitude (R136, R144, R403). Reading advances the field notes' read pointer, but never beyond what has been written
(R438). -/
def Obligations.ListsSlotsAndPointersFollowTheirWrites : Prop :=
  ListsAndSlotsClear ∧ NotesReadPointerStopsAtTheWritePointer

/-- Mailbox `i` keeps its state, its owner, its request and its reply. -/
def Sys2Proof.Machine.MailboxStands (s t : State) (i : Nat) : Prop :=
  t.get Fld.MBX_MB_STATE_STATE i = s.get Fld.MBX_MB_STATE_STATE i ∧ t.get Fld.MBX_MB_STATE_OWNER i = s.get Fld.MBX_MB_STATE_OWNER i ∧
    t.get Fld.MBX_MB_STATE_DOMAIN i = s.get Fld.MBX_MB_STATE_DOMAIN i ∧ t.get Fld.MBX_MB_STATE_REQ_LEN i = s.get Fld.MBX_MB_STATE_REQ_LEN i ∧
    t.get Fld.MBX_MB_RSP_INFO_RSP_LEN i = s.get Fld.MBX_MB_RSP_INFO_RSP_LEN i ∧
    ∀ k < 64, t.get Fld.MBX_MB_REQ i k = s.get Fld.MBX_MB_REQ i k ∧ t.get Fld.MBX_MB_RSP i k = s.get Fld.MBX_MB_RSP i k

/-- A mailbox goes from EMPTY by the first word of a request to FILLING, by a post from EMPTY, FILLING or its owner's REPLIED to POSTED, by
the surveyor core's take to TAKEN, by its reply to REPLIED, and by its owner's release to EMPTY. A post to a mailbox that is not free is
answered busy, and one of another class than DBG to mailbox 15 is refused with "protection": neither changes the mailbox (R443). Beyond
these rules it rests on the model's reading: assumptions 61 and 90. -/
def Obligations.MailboxGoesRound : Prop :=
  ∀ (s : State) (a : Acc), ∀ i < 15, a.cls = .mp →
    (∀ off < 256, ∀ v < 2 ^ 32, s.get Fld.MBX_MB_STATE_STATE i = 0 → Answers (exec (.mbReqWrite a i off v) s) fun t =>
      t.get Fld.MBX_MB_STATE_STATE i = 1 ∧ t.get Fld.MBX_MB_STATE_OWNER i = 0 ∧ t.get Fld.MBX_MB_REQ i (off / 4) = v ∧ t.ctl.code = 0) ∧
    (∀ len, 1 ≤ len → len ≤ 256 → s.mbClosed i = false → s.get Fld.MBX_MB_STATE_STATE i = 1 → s.mbOwns a i = true →
      Answers (exec (.post a i len) s) fun t =>
        t.get Fld.MBX_MB_STATE_STATE i = 2 ∧ t.get Fld.MBX_MB_STATE_REQ_LEN i = len ∧ t.get Fld.MBX_MB_STATE_LAST_POST i = 1 ∧
        t.get Fld.MBX_PAGE_EVENT_MB_POSTED = 1 ∧ t.ctl.code = 0) ∧
    (a.loc = true → s.get Fld.MBX_MB_STATE_STATE i = 2 → Answers (exec (.take a i) s) fun t =>
      t.get Fld.MBX_MB_STATE_STATE i = 3 ∧ t.ctl.code = 0) ∧
    (∀ len ≤ 256, a.loc = true → s.get Fld.MBX_MB_STATE_STATE i = 3 → Answers (exec (.reply a i len) s) fun t =>
      t.get Fld.MBX_MB_STATE_STATE i = 4 ∧ t.get Fld.MBX_MB_RSP_INFO_RSP_LEN i = len ∧ t.get Fld.MBX_MB_RSP_INFO_RSP_STATUS i = 0 ∧ t.ctl.code = 0) ∧
    (s.mbOwns a i = true → Answers (exec (.mbRelease a i) s) fun t => t.get Fld.MBX_MB_STATE_STATE i = 0 ∧ t.ctl.code = 0) ∧
    (∀ len, 1 ≤ len → len ≤ 256 → s.mbClosed i = false →
      s.get Fld.MBX_MB_STATE_STATE i = 0 ∨ (s.get Fld.MBX_MB_STATE_STATE i = 4 ∧ s.get Fld.MBX_MB_STATE_OWNER i = 0) →
      Answers (exec (.post a i len) s) fun t =>
        t.get Fld.MBX_MB_STATE_STATE i = 2 ∧ t.get Fld.MBX_MB_STATE_OWNER i = 0 ∧ t.get Fld.MBX_MB_STATE_REQ_LEN i = len ∧
        t.get Fld.MBX_MB_STATE_LAST_POST i = 1 ∧ t.get Fld.MBX_PAGE_EVENT_MB_POSTED = 1 ∧ t.ctl.code = 0) ∧
    (∀ len < 512, s.get Fld.MBX_MB_STATE_STATE i = 2 ∨ s.get Fld.MBX_MB_STATE_STATE i = 3 ∨
        (s.get Fld.MBX_MB_STATE_STATE i ∈ [1, 4] ∧ s.get Fld.MBX_MB_STATE_OWNER i ≠ 0) →
      Answers (exec (.post a i len) s) fun t => MailboxStands s t i ∧ t.get Fld.MBX_MB_STATE_LAST_POST i = 2 ∧
        t.get Fld.MBX_PAGE_EVENT_MB_BUSY = 1 ∧ t.ctl.code = 0) ∧
    (∀ len < 512, Answers (exec (.post a 15 len) s) fun t => MailboxStands s t 15 ∧ t.get Fld.MBX_MB_STATE_LAST_POST 15 = 3 ∧
      t.get Fld.MBX_PAGE_EVENT_MB_BUSY = s.get Fld.MBX_PAGE_EVENT_MB_BUSY ∧ t.ctl.code = 1) ∧
    (∀ b : Acc, b.cls = .dbg → s.portOpen b = true → s.unlocked = true → ∀ len, 1 ≤ len → len ≤ 256 → s.mbClosed 15 = false →
      s.get Fld.MBX_MB_STATE_STATE 15 = 0 → Answers (exec (.post b 15 len) s) fun t =>
        t.get Fld.MBX_MB_STATE_STATE 15 = 2 ∧ t.get Fld.MBX_MB_STATE_OWNER 15 = clsCode .dbg ∧ t.get Fld.MBX_MB_STATE_LAST_POST 15 = 1 ∧
        t.ctl.code = 0)

/-- The surveyor core's load sets its level, its mirror takes a numbered snapshot, its kick is heard, a missed watchdog restarts it and
answers every request that it held, an uncorrectable error in its code halts it, a correctable one is mended, and the end of a restart
counts (R435, R444-R446). Beyond these rules it rests on the model's reading: assumptions 63 and 90. -/
def Obligations.SurveyorCoreIsWatched : Prop :=
  ∀ s : State,
    (∀ p ≤ 100, s.get Fld.MBX_SVY_STATE_STATE = 0 → Answers (exec (.loadWindow p) s) fun t =>
      t.get Fld.MBX_SVY_STATE_LOAD = p ∧ t.get Fld.MBX_SVY_STATE_LEVEL = (if p < 75 then 0 else if p < 90 then 1 else 2)) ∧
    (Answers (exec .mirrorSnapshot s) fun t =>
      t = { s with regs := t.regs } ∧ t.get Fld.MBX_MIR_SEQ0_SEQ = (s.get Fld.MBX_MIR_SEQ0_SEQ + 1) % 2 ^ 32 ∧
      t.get Fld.MBX_MIR_SEQ1_SEQ = t.get Fld.MBX_MIR_SEQ0_SEQ ∧ t.get Fld.MBX_Mirror_VALUE 0 0 = (s.word (regKey 1 0 0x100)).toNat ∧
      t.get Fld.MBX_MIR_LNK_UP_VALUE = s.get Fld.LNK_LNK_UP_ACTIVE) ∧
    (∀ (a : Acc) v, a.cls = .mp → a.loc = true → v % 256 = 0xA5 → exec (.wdtKick a v) s =
      .next { s with kickedAt := s.now, ctl := { code := 0, data := 0 } }) ∧
    (s.get Fld.MBX_SVY_STATE_STATE = 0 → s.kickedAt + 10000000 ≤ s.now →
      (s.svyTimes.filter (fun t => decide (s.now < t + 100000000))).length < 2 →
      Answers (exec .watchdogExpiry s) fun t => t.get Fld.MBX_SVY_STATE_STATE = 1 ∧ t.irq = [] ∧
        ∀ i < 16, s.get Fld.MBX_MB_STATE_STATE i = 2 ∨ s.get Fld.MBX_MB_STATE_STATE i = 3 →
          t.get Fld.MBX_MB_STATE_STATE i = 4 ∧ t.get Fld.MBX_MB_RSP_INFO_RSP_LEN i = 0 ∧ t.get Fld.MBX_MB_RSP_INFO_RSP_STATUS i = 1) ∧
    (∀ addr < 0x200000, s.get Fld.MBX_SVY_STATE_STATE = 0 →
      (s.flips (eccSurveyor (addr / 8)) ≠ 1 → addr < s.svyCode → Answers (exec (.surveyorMemoryError addr) s) fun t =>
        t.get Fld.MBX_SVY_STATE_STATE = 2 ∧ t.get Fld.MBX_PAGE_EVENT_SVY_HALT = 1) ∧
      (s.flips (eccSurveyor (addr / 8)) = 1 → Answers (exec (.surveyorMemoryError addr) s) fun t =>
        t.get Fld.MBX_SVY_STATE_STATE = 0 ∧ t.flips (eccSurveyor (addr / 8)) = 0 ∧ t.svyMem = s.svyMem)) ∧
    (s.get Fld.MBX_SVY_STATE_STATE = 1 → Answers (exec .surveyorRestartEnd s) fun t =>
      t.get Fld.MBX_SVY_STATE_STATE = 0 ∧
      t.get Fld.MBX_SVY_RESTARTS_COUNT = satAdd Fld.MBX_SVY_RESTARTS_COUNT.len (s.get Fld.MBX_SVY_RESTARTS_COUNT) 1 ∧ t.kickedAt = s.now)

/-- A die-fatal error stops every kernel, takes every module but a hub's DOWN, where it stays until a reset, and is latched with its unit
(R437). Beyond these rules it rests on the model's reading: assumption 97. -/
def Obligations.DieFatalStopsTheDie : Prop :=
  ∀ (s : State) (unit : Nat), 1 ≤ unit → unit ≤ 6 → s.get Fld.ERR_ERR_FATAL_FATAL = 0 →
    Answers (exec (.dieFatal unit) s) fun t =>
      t.get Fld.ERR_ERR_FATAL_FATAL = 1 ∧ t.get Fld.ERR_ERR_FATAL_UNIT = unit ∧ t.get Fld.ERR_PAGE_EVENT_DIE_FATAL = 1 ∧ t.gangs = [] ∧
      (∀ n < 64, (t.core n).run ≠ 1) ∧
      ∀ m < 40, s.get Fld.LNK_MOD_CFG_MOD_ROLE m ≠ 3 → s.modState m ≠ 0 → t.modState m = 8 ∧
        (t.get Fld.LNK_MOD_STATE_DOWN_CAUSE m = 10 → ∀ a : Acc, a.cls = .mp → Answers (exec (.retrain a m) t) fun u => u.modState m = 8)

/-! ### Measured boot, quotes and the debug lock -/

/-- A measurement register of the surveyor core is extended by hashing, and a quote takes the nonce and the measurements of the moment it is
asked for (R447, R448). Beyond these rules it rests on the model's reading: assumptions 62 and 65. -/
def Sys2Proof.Machine.MeasurementsExtendAndQuotesCarryTheNonce : Prop :=
  ∀ (s : State) (a : Acc), a.cls = .mp →
    (∀ i, 4 ≤ i → i < 8 → a.loc = true → exec (.extend a i) s =
      .next { s.setMeas i (sha384 (s.meas i ++ s.getBytes Fld.SEC_MEAS_DATA 0 0 12)) with ctl := { code := 0, data := 0 } }) ∧
    (∀ i < 4, a.loc = true → exec (.extend a i) s = .next { s with ctl := { code := 0, data := 0 } }) ∧
    (s.get Fld.SEC_SEC_STATE_QUOTE_BUSY = 0 → Answers (exec (.quoteReq a) s) fun t =>
      t.get Fld.SEC_SEC_STATE_QUOTE_BUSY = 1 ∧ sub t.quoteDraft 64 32 = s.getBytes Fld.SEC_QUOTE_NONCE 0 0 8 ∧
      t.quoteDraft.drop 96 = ((List.range 8).map s.meas).flatten ∧ t.ctl.code = 0) ∧
    (s.get Fld.SEC_SEC_STATE_QUOTE_BUSY = 1 → Answers (exec .quoteDone s) fun t =>
      t.get Fld.SEC_SEC_STATE_QUOTE_BUSY = 0 ∧ t.quoteDraft = [] ∧ t.get Fld.SEC_PAGE_EVENT_QUOTE_DONE = 1)

/-- A submission unlocks the die and extends measurement register 3 when it passes every test of R451, and otherwise counts a refusal and
leaves the lock and the measurements as they were; either way the challenge is the entropy source's next six draws, which `DBG_CHAL`
shows (R450, R451). Beyond these rules it rests on the model's reading: assumption 65. -/
def Sys2Proof.Machine.OnlyAnAcceptedTokenUnlocks : Prop :=
  ∀ (s : State) (a : Acc), a.cls = .dbg → s.portOpen a = true →
    (s.unlockTest = 0 → Answers (exec (.submit a) s) fun t =>
      t.unlocked = true ∧ t.get Fld.DBG_DBG_STATUS_UNLOCK_CODE = 0 ∧ t.free = s.free + 6 ∧ t.refusals = s.refusals ∧
      t.get Fld.SEC_PAGE_EVENT_UNLOCKED = 1 ∧ t.chal = drawChallenge s.free ∧
      (∀ i < 12, ctlView t 0xD 0 (0x1000 + 4 * i) = some (leAt (drawChallenge s.free) (4 * i) 4)) ∧
      t.meas 3 = fit (sha384 (s.meas 3 ++ sha384 (s.chal ++ s.getBytes Fld.DBG_DBG_TOKEN 0 0 24))) 48) ∧
    (s.unlockTest ≠ 0 → Answers (exec (.submit a) s) fun t =>
      t.unlocked = s.unlocked ∧ t.get Fld.DBG_DBG_STATUS_UNLOCK_CODE = s.unlockTest ∧ t.refusals = s.refusals + 1 ∧
      t.free = s.free + 6 ∧ t.get Fld.SEC_PAGE_EVENT_UNLOCK_REFUSED = 1 ∧ t.chal = drawChallenge s.free ∧ t.meas 3 = s.meas 3)

/-- An unlocked die starts one memory access of the DBG page at a time, an access to a stack frame waits for its base die, and the end frees
the unit (R452). Beyond these rules it rests on the model's reading: assumption 64. -/
def Sys2Proof.Machine.DebugMemoryAccessRuns : Prop :=
  ∀ s : State,
    (∀ a : Acc, a.cls = .dbg → s.portOpen a = true → s.unlocked = true → s.get Fld.DBG_DBG_STATUS_MA_BUSY = 0 →
      (Answers (exec (.maRead a) s) fun t => t.get Fld.DBG_DBG_STATUS_MA_BUSY = 1 ∧ t.ctl.code = 0 ∧ ∃ m, t.maAccess = some m ∧ m.write = false ∧
        (bitOf (s.get Fld.DBG_DBG_MA_ADDR_ADDR) 63 = false → m = { write := false, tag := none, reply := none })) ∧
      (Answers (exec (.maWrite a) s) fun t => t.get Fld.DBG_DBG_STATUS_MA_BUSY = 1 ∧ t.ctl.code = 0 ∧ ∃ m, t.maAccess = some m ∧ m.write = true ∧
        (bitOf (s.get Fld.DBG_DBG_MA_ADDR_ADDR) 63 = false → m = { write := true, tag := none, reply := none }))) ∧
    (∀ a : Acc, a.cls = .dbg → s.portOpen a = true → s.unlocked = false →
      (Answers (exec (.maRead a) s) fun t => t.maAccess = s.maAccess ∧ t.ctl.code = 1)) ∧
    (∀ m, s.maAccess = some m → (m.tag = none ∨ m.reply.isSome = true) →
      Answers (exec .maComplete s) fun t => t.get Fld.DBG_DBG_STATUS_MA_BUSY = 0 ∧ t.maAccess = none) ∧
    (∀ m, s.maAccess = some m → m.tag.isSome = true → m.reply = none → exec .maComplete s = .next s)

/-- A measurement register of the surveyor core is extended by hashing, and a quote takes the nonce and the measurements of the moment it is
asked for (R447, R448). Beyond these rules it rests on the model's reading: assumptions 62 and 65. A submission unlocks the die and
extends measurement register 3 when it passes every test of R451, and otherwise counts a refusal and leaves the lock and the
measurements as they were; either way the challenge is the entropy source's next six draws, which `DBG_CHAL` shows (R450, R451). Beyond
these rules it rests on the model's reading: assumption 65. An unlocked die starts one memory access of the DBG page at a time, an
access to a stack frame waits for its base die, and the end frees the unit (R452). Beyond these rules it rests on the model's reading:
assumption 64. -/
def Obligations.MeasurementsTokensAndDebugAccesses : Prop :=
  MeasurementsExtendAndQuotesCarryTheNonce ∧ OnlyAnAcceptedTokenUnlocks ∧ DebugMemoryAccessRuns

/-! ### The sequencer of a core -/

/-- The sequencer of core `c` holds the decoded instruction `d`. -/
def Sys2Proof.Machine.AtSequencer (s : State) (c : Nat) (d : Dec) : Prop := c < 64 ∧ (s.core c).cur = some d

/-- Nothing changed but core `c`, and it became `k`. -/
def Sys2Proof.Machine.CoreBecomes (s t : State) (c : Nat) (k : CoreSt) : Prop := t = { s with cores := t.cores } ∧ t.core c = k ∧ ∀ m, m ≠ c → t.core m = s.core m

/-- The control instructions: NOP lets decode go on, LOOP opens a level over the instructions after it, JUMP takes decode to its target,
FENCE waits for its units and then lets decode go on, END stops decode; nothing but the core changes. END with a pass open that no MMA
in the queue could close faults with 0x06 (R76, R106). Beyond these rules it rests on the model's reading: assumptions 14 and 15. -/
def Obligations.ControlInstructionsSteerDecode : Prop :=
  ∀ (s : State) (c : Nat) (d : Dec), AtSequencer s c d →
    (iMajor d.word = 0x00 → Answers (exec (.nop c) s) fun t => CoreBecomes s t c { s.core c with cur := none }) ∧
    (iMajor d.word = 0x02 → Answers (exec (.loop c) s) fun t => CoreBecomes s t c { s.core c with
      cur := none, loops := { start := (s.core c).pc, stop := (s.core c).pc + 16 * loopBody d.word, left := loopCount d.word } :: (s.core c).loops }) ∧
    (iMajor d.word = 0x03 → Answers (exec (.jump c) s) fun t => CoreBecomes s t c { s.core c with
      cur := none, pc := (((s.core c).pc : Int) - 16 + 16 * jumpOff d.word).toNat }) ∧
    (iMajor d.word = 0x50 → (s.core c).fenced (fenceMask d.word) = true →
      Answers (exec (.fence c) s) fun t => CoreBecomes s t c { s.core c with cur := none }) ∧
    (iMajor d.word = 0x50 → (s.core c).fenced (fenceMask d.word) = false → exec (.fence c) s = .next s) ∧
    (iMajor d.word = 0x01 → (s.core c).passOpen = false →
      Answers (exec (.endInstr c) s) fun t => CoreBecomes s t c { s.core c with waiting := some d.seq }) ∧
    (iMajor d.word = 0x01 → (s.core c).passOpen = true → (∀ e ∈ (s.core c).aq, iMajor e.word ≠ 0x20) → (s.core c).run = 1 → (s.core c).test = false →
      Answers (exec (.endInstr c) s) fun t =>
        t.get Fld.CORE_CORE_FAULT_CODE c = 0x06 ∧ t.get Fld.CORE_FAULT_SEQ_SEQ c = d.seq % 2 ^ 32 ∧ (t.core c).run = 3)

/-- A core that has executed END and whose units are all idle has completed: its kernel has ended, and a test kernel reports it (R76,
R102). -/
def Obligations.KernelCompletesWhenEveryUnitIsIdle : Prop :=
  ∀ (s : State) (c : Nat) (d : Dec) (n : Nat), AtSequencer s c d → iMajor d.word = 0x01 → (s.core c).waiting = some n → (s.core c).run = 1 →
    (s.core c).moveIdle = true → (s.core c).loaderIdle = true → (s.core c).arrayIdle = true → (s.core c).vq = [] → (s.core c).epis = [] →
    (s.core c).traverseIdle = true →
    ((s.core c).test = false → Answers (exec (.kernelCompletion c) s) fun t =>
      t = { s with cores := t.cores } ∧ (t.core c).run = 2 ∧ ∀ m, m ≠ c → t.core m = s.core m) ∧
    ((s.core c).test = true → Answers (exec (.kernelCompletion c) s) fun t =>
      (t.core c).run = 0 ∧ t.get Fld.CORE_PAGE_EVENT_TEST_DONE c = 1 ∧ t.mem = s.mem ∧ ∀ m, m ≠ c → t.core m = s.core m)

/-- Decode takes the instruction at the core's program counter to the queue of its unit, numbers it, and goes on behind it or back to the
start of a loop; a check that fails stops the core with the lowest code instead (R72, R74-R76, R104). Beyond these rules it rests on the
model's reading: assumptions 14, 16 and 86. -/
def Obligations.DecodeQueuesInOrder : Prop :=
  ∀ (s : State) (n : Nat), n < 64 → (s.core n).stalled = false → (s.fetch n (s.core n).pc).code = 0 → (s.fetch n (s.core n).pc).state.core n = s.core n →
    let w := ((s.core n).resolve (s.fetch n (s.core n).pc).word).1
    let faults := wordFaults n false w ++ ((s.core n).resolve (s.fetch n (s.core n).pc).word).2 ++ (s.core n).flowFaults w
    (faults = [] → (s.core n).full (unitOfWord w) = false →
      let l := wrapLoops (s.core n).loops ((s.core n).pc + 16)
      (s.decode1 n).core n = CoreSt.enqueue { s.core n with loops := l.1, pc := l.2, nextSeq := ((s.core n).nextSeq + 1) % 2 ^ 32 }
        { seq := (s.core n).nextSeq, word := w } (unitOfWord w) ∧
      (s.decode1 n).get Fld.CORE_SEQ_NUM_SEQ n = (s.core n).nextSeq % 2 ^ 32) ∧
    (faults ≠ [] → (s.core n).test = false → ∃ code ∈ faults, (∀ x ∈ faults, code ≤ x) ∧
      (s.decode1 n).get Fld.CORE_CORE_FAULT_CODE n = code % 2 ^ Fld.CORE_CORE_FAULT_CODE.len ∧
      (s.decode1 n).get Fld.CORE_FAULT_SEQ_SEQ n = (s.core n).nextSeq % 2 ^ 32 ∧ ((s.decode1 n).core n).run = 3)

/-- A core fault latches its code and sequence number, stops the core with every queue, set and half cleared, and sets the core page's
`FAULT`; the memories stand (R104). -/
def Sys2Proof.Machine.CoreFaultStopsTheCore : Prop :=
  ∀ (s : State) (n code seq : Nat), n < 64 → (s.core n).run = 1 → (s.core n).test = false → code < 16 →
    let t := s.coreFault n code seq
    t.get Fld.CORE_CORE_FAULT_CODE n = code ∧ t.get Fld.CORE_FAULT_SEQ_SEQ n = seq % 2 ^ 32 ∧ t.get Fld.CORE_PAGE_EVENT_FAULT n = 1 ∧
    (t.core n).run = 3 ∧ (t.core n).aq = [] ∧ (t.core n).vq = [] ∧ (t.core n).lq = [] ∧ (t.core n).mq = [] ∧ (t.core n).tq = [] ∧
    (t.core n).sets = [] ∧ (t.core n).halves = [] ∧ (t.core n).vregs = (s.core n).vregs ∧ t.mem = s.mem ∧
    (∀ m, (s.core m).run ≠ 1 → t.core m = s.core m) ∧ ∀ m, m ≠ n → (s.core m).gang ≠ (s.core n).gang → t.core m = s.core m

/-- The seven conditions of a residency deadlock of core `c` (R92), a core in normal service whose array and loader queues hold `l`. -/
structure Sys2Proof.Machine.Deadlocked (s : State) (c : Nat) (l : List Dec) : Prop where
  core : c < 64 ∧ (s.core c).run = 1 ∧ (s.core c).test = false ∧ s.split c = none
  noSet : ∀ e ∈ (s.core c).sets, e.2.feeding = false ∧ e.2.state ≠ 1 ∧ e.2.state ≠ 4 ∧ e.2.state ≠ 5
  noClaim : s.claimable c = none
  noLoad : (s.core c).loading = [] ∧ ∀ h ∈ (s.core c).halves, h.2.state ≠ 3
  array : ∀ d q, (s.core c).aq = d :: q → iMajor d.word = 0x20 ∧ mmaOpen d.word = (s.core c).openPass.isNone ∧
    ((s.core c).mmaResident d.word = false ∨ (mmaOpen d.word = true ∧ (s.core c).openTarget d = none))
  loader : ∀ d q, (s.core c).lq = d :: q → ((s.core c).half (opldHalf d.word)).state ≠ 0
  queues : (s.core c).aq ++ (s.core c).lq = l
  stall : (∃ e, (s.core c).cur = some e ∧
      (iMajor e.word = 0x01 ∨ (iMajor e.word = 0x50 ∧ (bitOf (fenceMask e.word) 1 = true ∨ bitOf (fenceMask e.word) 2 = true)))) ∨
    (s.decodeAll c = s ∧ s.deadStall c = true)

/-- A residency deadlock faults the core with 0x0B at any of the stalls of R92; that it names the array instruction that waits, else the
OPLD, is the model's choice. Beyond these rules it rests on the model's reading: assumption 91. -/
def Sys2Proof.Machine.ResidencyDeadlockFaults : Prop :=
  ∀ (s : State) (c : Nat) (d : Dec) (l : List Dec), Deadlocked s c (d :: l) →
    Answers (exec (.residencyDeadlock c) s) fun t =>
      t.get Fld.CORE_CORE_FAULT_CODE c = 0x0B ∧ t.get Fld.CORE_FAULT_SEQ_SEQ c = d.seq % 2 ^ 32 ∧ (t.core c).run = 3

/-- A core fault latches its code and sequence number, stops the core with every queue, set and half cleared, and sets the core page's
`FAULT`; the memories stand (R104). A residency deadlock faults the core with 0x0B at any of the stalls of R92; that it names the array
instruction that waits, else the OPLD, is the model's choice. Beyond these rules it rests on the model's reading: assumption 91. -/
def Obligations.CoreFaultsStopTheCore : Prop :=
  CoreFaultStopsTheCore ∧ ResidencyDeadlockFaults

/-! ### The matrix array -/

/-- The array queue of core `c` has `d` at its head. -/
def Sys2Proof.Machine.AtArray (s : State) (c : Nat) (d : Dec) (q : List Dec) : Prop := c < 64 ∧ (s.core c).aq = d :: q

/-- Where the MMA `d` goes, set or slot `u`, and what it finds there, `x`: a fresh IDLE set, with the first set before the second; the READY
set that was filled for it; the set of the open pass, whose descriptor, limits, mask and mode it repeats; or in a split the first free
slot (R90, R93-R95, R99, R103). -/
def Sys2Proof.Machine.MmaGoes (s : State) (c : Nat) (d : Dec) (u : Nat) (x : AccSet) : Prop :=
  let w := d.word
  let k := s.core c
  let starts : Bool := pdStart (tget (fun _ => 0) (mmaPd w) k.pd)
  (s.split c = none ∧ mmaOpen w = true ∧ k.openPass = none ∧ starts = false ∧ x = k.openSet w d.seq 3 ∧
    ((k.setFree 0 = true ∧ u = 0) ∨ (k.setFree 0 = false ∧ k.setFree 1 = true ∧ u = 1))) ∨
  (s.split c = none ∧ mmaOpen w = true ∧ k.openPass = none ∧ starts = true ∧
    k.sets.find? (fun e => e.2.state == 2 && e.2.claimSeq == some d.seq) = some (u, x)) ∨
  (s.split c = none ∧ mmaOpen w = false ∧ k.openPass = some (u, x) ∧ mmaPd w = x.pd ∧ mmaMM1 w = x.mM1 ∧ mmaNM1 w = x.nM1 ∧
    mmaMask w = x.maskSel ∧ iMinor w = x.mode) ∨
  (∃ sp, s.split c = some sp ∧ mmaOpen w = true ∧ mmaClose w = true ∧ starts = false ∧ mmaMM1 w < (splitShape sp.1).1 ∧
    mmaNM1 w < (splitShape sp.1).2 ∧ (List.range (splitSlots sp.1 sp.2)).find? k.setFree = some u ∧ x = k.openSet w d.seq 3)

/-- The MMA `d` may issue now on set or slot `u`, whose contents are `x` (R90, R93, R103, R214, R415). -/
structure Sys2Proof.Machine.MmaIssues (s : State) (c : Nat) (d : Dec) (u : Nat) (x : AccSet) : Prop where
  major : iMajor d.word = 0x20
  goes : MmaGoes s c d u x
  resident : (s.core c).mmaResident d.word = true
  fits : (s.core c).mmaMismatch d.word = false
  feeder : (s.core c).notFeeding = true
  clean : s.halfErrors c (mmaAHalf d.word) x.rows (mmaK d.word) = [] ∧ s.halfErrors c (mmaBHalf d.word) x.cols (mmaK d.word) = []
  account : s.heldBack (2 * c) = false
  noTrap : (s.core c).trap = false

/-- The command of an MMA mode. -/
def Sys2Proof.Machine.mmaCommand (c : Nat) : Nat → Instr
  | 0 => .mmaMultiplyAdd c
  | 1 => .mmaL1Distance c
  | 2 => .mmaSquaredDifference c
  | 3 => .mmaMaxPlus c
  | 4 => .mmaMinPlus c
  | 5 => .mmaMaxTimes c
  | _ => .mmaEqualityCount c

/-- An MMA of any of the seven modes leaves the queue and adds to every enabled element of its set or slot the mode's combine of row and
column records, group after group from what the set holds: the mode's fresh value in a pass that opens fresh, the filled record where
`START` = 1, the sum so far in an open pass, and in the bare form no compensation. A released half starts its release, the counts grow,
and the MMA feeds until FEED_END (R78, R88, R93, R95, R99, R100, R103, R148-R151, R156). Beyond these rules it rests on the model's
reading: assumption 86. -/
def Sys2Proof.Machine.IssuedMmaAddsItsCombine : Prop :=
  ∀ (s : State) (c : Nat) (d : Dec) (q : List Dec) (mode u : Nat) (x : AccSet), AtArray s c d q → MmaIssues s c d u x → mode ≤ 6 →
    iMinor d.word = mode →
    Answers (exec (mmaCommand c mode) s) fun t =>
      let w := d.word
      let k := s.core c
      let size := groupSize (mmaAFmt w) (mmaBFmt w)
      let m : MmaCtx := { mode := mode, b64 := mmaAFmt w == 8, fp32 := mmaAFmt w == 7, bare := (s.split c).any (·.2), seq := d.seq, set := u % 2
                          orgM := mmaOrgM w, orgN := mmaOrgN w, kblk := mmaKblk w }
      let rows := k.halfGroups (mmaAHalf w) (mmaMM1 w + 1) 0 size (mmaK w)
      let cols := k.halfGroups (mmaBHalf w) (mmaNM1 w + 1) (tget (fun _ => 0) (mmaWt w) k.wt) size (mmaK w)
      let pe (e : Nat × Nat) : PeSt := peGroups m (e.1 / 128) (e.1 % 128) 0
        { s := contSum m.b64 e.2, c := contComp m.b64 e.2, ovf := false, ev := EvSum.none } (rows.getD (e.1 / 128) []) (cols.getD (e.1 % 128) [])
      let y := (t.core c).set u
      y.state = 3 ∧ y.mode = x.mode ∧ y.acc = x.acc.map (fun e => (e.1, contOf m.b64 (pe e).s (pe e).c)) ∧
      (x = k.openSet w d.seq 3 → x.acc.map (·.1) = enabledElems (k.enabled w).1 (k.enabled w).2 ∧
        ∀ e ∈ x.acc, e.2 = contOf m.b64 (freshSum mode) vzero) ∧
      y.products = x.products + mmaK w ∧
      y.groupAdds = x.groupAdds + (if m.b64 then 0 else if m.fp32 then 3 * ceilDiv (mmaK w) 4 else ceilDiv (mmaK w) size) ∧
      y.feeding = true ∧ y.closeSeq = (if mmaClose w then some d.seq else none) ∧ (t.core c).aq = q ∧
      ((t.core c).half (mmaAHalf w)).state = (if mmaRelA w then 3 else 2) ∧ ((t.core c).half (mmaBHalf w)).state = (if mmaRelB w then 3 else 2) ∧
      (∀ v, v ≠ u → (t.core c).set v = k.set v) ∧ t.mem = s.mem ∧ ∀ n, n ≠ c → t.core n = s.core n

/-- An MMA that would open a pass while one is open, or go on with none open, faults with 0x06; one that does not fit its resident halves
faults with 0x05 (R90, R93, R95, R104). -/
def Sys2Proof.Machine.MisplacedMmaFaults : Prop :=
  ∀ (s : State) (c : Nat) (d : Dec) (q : List Dec) (mode : Nat), AtArray s c d q → mode ≤ 6 → iMajor d.word = 0x20 → iMinor d.word = mode →
    s.split c = none → (s.core c).run = 1 → (s.core c).test = false →
    (mmaOpen d.word = (s.core c).openPass.isSome → Answers (exec (mmaCommand c mode) s) fun t =>
      t.get Fld.CORE_CORE_FAULT_CODE c = 0x06 ∧ (t.core c).run = 3) ∧
    (mmaOpen d.word = true → (s.core c).openPass = none → (s.core c).openTarget d ≠ none → (s.core c).mmaResident d.word = true →
      (s.core c).mmaMismatch d.word = true → Answers (exec (mmaCommand c mode) s) fun t =>
        t.get Fld.CORE_CORE_FAULT_CODE c = 0x05 ∧ (t.core c).run = 3)

/-- An MMA of any of the seven modes leaves the queue and adds to every enabled element of its set or slot the mode's combine of row and
column records, group after group from what the set holds: the mode's fresh value in a pass that opens fresh, the filled record where
`START` = 1, the sum so far in an open pass, and in the bare form no compensation. A released half starts its release, the counts grow,
and the MMA feeds until FEED_END (R78, R88, R93, R95, R99, R100, R103, R148-R151, R156). Beyond these rules it rests on the model's
reading: assumption 86. An MMA that would open a pass while one is open, or go on with none open, faults with 0x06; one that does not
fit its resident halves faults with 0x05 (R90, R93, R95, R104). -/
def Obligations.MmaOpensAPassOrFaults : Prop :=
  IssuedMmaAddsItsCombine ∧ MisplacedMmaFaults

/-- The reads of an OPLD's records, one after another. -/
def Sys2Proof.Machine.opldReads (s : State) (c w : Nat) : Rd × List Bytes :=
  (List.range (opldCnt w)).foldl (fun (a : Rd × List Bytes) i =>
    if a.1.status ≠ 0 then a
    else
      let r := a.1.state.readMem (a.1.state.coreWho c 3) (iAddr32 w + i * opldStride w) (recordSize (opldFmt w) (opldK w))
      (r, a.2 ++ [r.bytes])) (⟨s, 0, []⟩, [])

/-- The states of an operand half: an OPLD takes an EMPTY half to LOADING with the records it reads, the end of the transfer to RESIDENT,
OPFREE each RESIDENT half it names to RELEASING, waiting for those still LOADING, and the end of the release back to EMPTY (R82,
R87-R89). Beyond these rules it rests on the model's reading: assumption 95. -/
def Obligations.OperandHalfGoesRound : Prop :=
  ∀ (s : State) (c : Nat), c < 64 →
    (∀ d q, (s.core c).lq = d :: q → ((s.core c).half (opldHalf d.word)).state = 0 → (opldReads s c d.word).1.status = 0 →
      (opldReads s c d.word).1.state.core c = s.core c → Answers (exec (.opld c) s) fun t =>
        (t.core c).half (opldHalf d.word) = { state := 1, fmt := opldFmt d.word, k := opldK d.word, recs := (opldReads s c d.word).2 } ∧
        (t.core c).lq = q ∧ (t.core c).loading = (s.core c).loading ++ [opldHalf d.word]) ∧
    (∀ h l, (s.core c).loading = h :: l → Answers (exec (.loadComplete c) s) fun t =>
      t = { s with cores := t.cores } ∧ (t.core c).half h = { (s.core c).half h with state := 2 } ∧ (t.core c).loading = l ∧
      (∀ j, j ≠ h → (t.core c).half j = (s.core c).half j) ∧ ∀ m, m ≠ c → t.core m = s.core m) ∧
    (∀ d q, (s.core c).aq = d :: q → iMajor d.word = 0x22 →
      let left := (maskIdx 4 (iSel d.word)).filter (fun h => ((s.core c).half h).state == 1)
      Answers (exec (.opfree c) s) fun t =>
        t = { s with cores := t.cores } ∧
        (t.core c).aq = (if left = [] then q else { d with word := bitsPut d.word 24 4 (idxMask left) } :: q) ∧
        (∀ h, ((t.core c).half h).state =
          (if h ∈ maskIdx 4 (iSel d.word) ∧ ((s.core c).half h).state = 2 then 3 else ((s.core c).half h).state)) ∧
        ∀ m, m ≠ c → t.core m = s.core m) ∧
    (∀ h < 4, ((s.core c).half h).state = 3 → Answers (exec (.halfReleaseEnd c h) s) fun t =>
      t = { s with cores := t.cores } ∧ ((t.core c).half h).state = 0 ∧ ((t.core c).half h).recs = [] ∧
      (∀ j, j ≠ h → (t.core c).half j = (s.core c).half j) ∧ ∀ m, m ≠ c → t.core m = s.core m)

/-- PDSET, MSKSET and WTSET load a descriptor, a mask pair and a weight table from the core's window once nothing uses the old one
(R84-R86, R119, R291). -/
def Obligations.TablesLoadFromTheWindow : Prop :=
  ∀ (s : State) (c : Nat) (d : Dec) (q : List Dec), AtArray s c d q →
    (let r := s.readMem (s.coreWho c 3) (iAddr32 d.word) 32
     iMajor d.word = 0x23 → (∀ e ∈ (s.core c).sets, e.2.pd ≠ iSel d.word) → r.status = 0 → r.state.core c = s.core c →
       r.state.pdFaults c ((s.core c).resolvePd (leVal r.bytes)).1 ((s.core c).resolvePd (leVal r.bytes)).2 = [] →
       Answers (exec (.pdset c) s) fun t => tget (fun _ => 0) (iSel d.word) (t.core c).pd = ((s.core c).resolvePd (leVal r.bytes)).1 ∧
         (t.core c).aq = q ∧ t.mem = r.state.mem ∧ ∀ i, i ≠ iSel d.word → tget (fun _ => 0) i (t.core c).pd = tget (fun _ => 0) i (s.core c).pd) ∧
    (let r := s.readMem (s.coreWho c 3) (iAddr32 d.word) 32
     iMajor d.word = 0x24 → (∀ e ∈ (s.core c).sets, e.2.state = 3 ∨ e.2.state = 4 → e.2.maskSel ≠ bitsAt d.word 24 2) → r.status = 0 → r.state.core c = s.core c →
       Answers (exec (.mskset c) s) fun t =>
         tget (fun _ => (0, 0)) (bitsAt d.word 24 2) (t.core c).mr = (leVal r.bytes % 2 ^ 128, leVal r.bytes / 2 ^ 128) ∧ (t.core c).aq = q) ∧
    (let r := s.readMem (s.coreWho c 3) (iAddr32 d.word) 16
     iMajor d.word = 0x25 → (∀ e ∈ (s.core c).sets, e.2.feeding = true → e.2.feedWt ≠ some (bitsAt d.word 24 2)) → r.status = 0 → r.state.core c = s.core c →
       (∀ e < 16, bitsAt (leVal r.bytes) (8 * e + 6) 2 = 0) → Answers (exec (.wtset c) s) fun t =>
         tget (fun _ => 0) (bitsAt d.word 24 2) (t.core c).wt = leVal r.bytes ∧ (t.core c).aq = q)

/-- The states of an accumulator set: a claim takes an IDLE set to FILLING; its fill waits while an earlier pass has not finished its drain
to the record (R158), takes the containers, the counts and `LAPSED` of an open record of its mode and kind, and starts the set fresh
with `REC_INVALID` from any other; it is READY then. The end of a closing MMA's feeding takes an ACTIVE set to FINISHING, that of
another MMA leaves it ACTIVE, and the parcel's last result takes it to DRAINING (R93, R94, R156, R158, R163). Beyond these rules it
rests on the model's reading: assumptions 18 and 91. -/
def Obligations.AccumulatorSetGoesThroughItsStates : Prop :=
  ∀ (s : State) (c : Nat), c < 64 →
    (∀ u d, (s.core c).aq ≠ [] → s.claimable c = some (u, d) → Answers (exec (.accClaim c) s) fun t =>
      t = { s with cores := t.cores } ∧ ((t.core c).set u).state = 1 ∧ ((t.core c).set u).claimSeq = some d.seq ∧
      ((t.core c).set u).desc = tget (fun _ => 0) (mmaPd d.word) (s.core c).pd) ∧
    (∀ u < 2, ((s.core c).set u).state = 1 → (s.core c).recordBusy u (pdPassBase ((s.core c).set u).desc) = true →
      exec (.fillComplete c u) s = .next s) ∧
    (∀ u < 2, ((s.core c).set u).state = 1 → (s.core c).recordBusy u (pdPassBase ((s.core c).set u).desc) = false →
      let r := s.readMem (s.passWho c) (pdPassBase ((s.core c).set u).desc) 64
      r.status = 0 → hdrFlag r.bytes 0 = false ∨ leAt r.bytes 1 1 ≠ ((s.core c).set u).mode ∨ hdrFlag r.bytes 2 ≠ ((s.core c).set u).b64 →
        r.state.core c = s.core c → Answers (exec (.fillComplete c u) s) fun t =>
        (t.core c).set u = { (s.core c).set u with state := 2 } ∧ bitOf (t.core c).nsw nswRecInvalid = true ∧ t.mem = r.state.mem) ∧
    (∀ u < 2, ((s.core c).set u).state = 1 → (s.core c).recordBusy u (pdPassBase ((s.core c).set u).desc) = false →
      let x := (s.core c).set u
      let r := s.readMem (s.passWho c) (pdPassBase x.desc) 64
      let q := r.state.readElems c (pdPassBase x.desc) 9 passOff (x.acc.map (·.1))
      r.status = 0 → hdrFlag r.bytes 0 = true → leAt r.bytes 1 1 = x.mode → hdrFlag r.bytes 2 = x.b64 → q.1.status = 0 →
        q.1.state.core c = s.core c → Answers (exec (.fillComplete c u) s) fun t =>
          (t.core c).set u = { x with
            state := 2, acc := q.2, hdr := r.bytes, resumed := true, lapsed := hdrFlag r.bytes 3, ovf := hdrFlag r.bytes 4
            hdrAdds := leAt r.bytes 4 4, hdrProducts := leAt r.bytes 8 8 } ∧
          (hdrFlag r.bytes 3 = true → bitOf (t.core c).nsw nswLapsed = true) ∧
          (∀ v, v ≠ u → (t.core c).set v = (s.core c).set v) ∧ t.mem = q.1.state.mem) ∧
    (∀ u < 64, ((s.core c).set u).state = 3 → ((s.core c).set u).feeding = true → ((s.core c).set u).closeSeq = none →
      Answers (exec (.feedEnd c u) s) fun t =>
        t = { s with cores := t.cores } ∧ (t.core c).set u = { (s.core c).set u with feeding := false, feedWt := none } ∧
        (t.core c).epis = (s.core c).epis) ∧
    (∀ u < 64, ((s.core c).set u).state = 3 → ((s.core c).set u).feeding = true → ((s.core c).set u).closeSeq.isSome = true →
      pdFinal ((s.core c).set u).desc = false →
      Answers (exec (.feedEnd c u) s) fun t =>
        t = { s with cores := t.cores } ∧ (t.core c).set u = { (s.core c).set u with state := 4, feeding := false, feedWt := none } ∧
        (t.core c).epis = (s.core c).epis) ∧
    (∀ u < 64, ((s.core c).set u).state = 3 → ((s.core c).set u).feeding = true → ((s.core c).set u).closeSeq.isSome = true →
      pdFinal ((s.core c).set u).desc = true → (s.core c).epis ≠ [] →
      Answers (exec (.feedEnd c u) s) fun t =>
        t = { s with cores := t.cores } ∧ ((t.core c).set u).state = 4 ∧ ∃ e : Epi, (t.core c).epis = (s.core c).epis ++ [e] ∧ e.set = u ∧
          e.pc = pdEpiPc ((s.core c).set u).desc ∧ e.started = false ∧ e.taken = 0) ∧
    (∀ u < 64, ((s.core c).set u).state = 4 → Answers (exec (.parcelFinal c u) s) fun t =>
      t = { s with cores := t.cores } ∧ (t.core c).set u = { (s.core c).set u with state := 5 } ∧
      (∀ v, v ≠ u → (t.core c).set v = (s.core c).set v) ∧ ∀ m, m ≠ c → t.core m = s.core m)

/-- FOLD of R161 for one value: a ledger entry takes it with its rounding error, or becomes infinite or NaN. -/
def Sys2Proof.Machine.foldStep (l : Val × Val) (v : Val) : Val × Val :=
  if l.1.isNan || v.isNan then (.nan, vzero)
  else if l.1.isInf || v.isInf then (vadd l.1 v, vzero)
  else
    let t := fB64.rne (vadd l.1 v)
    if t.isInf then (t, vzero) else (t, fB64.rne (vadd l.2 (vsub (vadd l.1 v) t)))

/-- FOLD of R161: the comparing modes keep the larger or the smaller value, the others add the sum and then its compensation. -/
def Sys2Proof.Machine.foldResult (mode : Nat) (l : Val × Val) (v c : Val) : Val × Val :=
  if 3 ≤ mode ∧ mode ≤ 5 then (if mode = 4 then vmin l.1 v else vmax l.1 v, vzero) else foldStep (foldStep l v) c

/-- A spill adds its counts to the record's and ORs its rows and columns into the touched ones. Below the spill interval it writes every
element's container to the pass area. At the interval, where the sums stay finite, it folds: the first time every element's sum and
compensation become its ledger entry, later they are added to it; the pass area starts fresh, and a pass that covers what the record has
touched ends the count. Then it writes the header of the record and frees the set. Drains to one record wait for the passes that closed
earlier, and a record that the core may not write faults with 0x09 (R95, R155, R156, R159-R161, R303). -/
def Obligations.SpillWritesThePassRecord : Prop :=
  ∀ (s : State) (c u : Nat), c < 64 → u < 64 → ((s.core c).set u).state = 5 → pdFinal ((s.core c).set u).desc = false →
    ((s.core c).sets.any (fun e => e.1 != u && e.2.closeSeq.isSome && decide (e.2.order < ((s.core c).set u).order) && pdUsesRecord e.2.desc &&
        pdPassBase e.2.desc == pdPassBase ((s.core c).set u).desc) = true → exec (.spillDrainComplete c u) s = .next s) ∧
    ((∀ e ∈ (s.core c).sets, e.1 = u ∨ pdPassBase e.2.desc ≠ pdPassBase ((s.core c).set u).desc) → s.split c = none →
      s.mayWritePass c (pdPassBase ((s.core c).set u).desc) = true →
      let x := (s.core c).set u
      let base := pdPassBase x.desc
      let h (o n : Nat) : Nat := if x.resumed then leAt x.hdr o n else 0
      let led : Bool := x.resumed && hdrFlag x.hdr 1
      let adds := h 4 4 + x.groupAdds
      let products := h 8 8 + x.products
      let rows := h 16 16 ||| x.rows
      let cols := h 32 16 ||| x.cols
      let flags (l : Bool) : Nat := 1 + 2 * b2n l + 4 * b2n x.b64 + 8 * b2n x.lapsed + 16 * b2n x.ovf
      let frees (v : State × Nat) : Prop := v.2 = 0 → Answers (exec (.spillDrainComplete c u) s) fun t =>
        t = v.1.setCore c ((v.1.core c).freeSet u) ∧ (t.core c).setFree u = true
      (h 2 1 + 1 < (s.core c).spill + 1 →
        let w := s.writeElems c base 9 passOff x.acc
        w.2 = 0 → frees (w.1.writeMem (w.1.passWho c) base (headerBytes (flags led) x.mode (h 2 1 + 1) adds products rows cols))) ∧
      ((s.core c).spill + 1 ≤ h 2 1 + 1 →
        let r := if led then s.readElems c base 16 ledgerOff (x.acc.map (·.1)) else (⟨s, 0, []⟩, x.acc.map (fun e => (e.1, 0)))
        let entry (e : (Nat × Nat) × (Nat × Nat)) : Val × Val :=
          if led then foldResult x.mode (fB64.dec (e.2.2 % 2 ^ 64), fB64.dec (e.2.2 / 2 ^ 64)) (contSum x.b64 e.1.2) (contComp x.b64 e.1.2)
          else (contSum x.b64 e.1.2, contComp x.b64 e.1.2)
        let w := r.1.state.writeElems c base 16 ledgerOff
          ((x.acc.zip r.2).map (fun e => (e.1.1, fB64.enc (entry e).1 + 2 ^ 64 * fB64.enc (entry e).2)))
        let z := w.1.writeElems c base 9 passOff (x.acc.map (fun e => (e.1, contOf x.b64 (freshSum x.mode) vzero)))
        let covered : Bool := rows == 0 || cols == 0 || (rows == x.rows && cols == x.cols)
        r.1.status = 0 → (led = true → ¬(3 ≤ x.mode ∧ x.mode ≤ 5) → ∀ e ∈ x.acc.zip r.2, (entry e).1.isInf = false ∧ (entry e).1.isNan = false) →
        w.2 = 0 → z.2 = 0 → frees (z.1.writeMem (z.1.passWho c) base (headerBytes (flags true) x.mode 0 (if covered then 0 else adds) products
          (if covered then 0 else rows) (if covered then 0 else cols))))) ∧
    ((∀ e ∈ (s.core c).sets, e.1 = u ∨ pdPassBase e.2.desc ≠ pdPassBase ((s.core c).set u).desc) →
      s.mayWritePass c (pdPassBase ((s.core c).set u).desc) = false → (s.core c).run = 1 → (s.core c).test = false →
      Answers (exec (.spillDrainComplete c u) s) fun t => t.get Fld.CORE_CORE_FAULT_CODE c = 0x09 ∧ (t.core c).run = 3)

/-! ### The lanelet vector engine -/

/-- The next vector instruction of core `c` in a context is `d`; it may issue now, and no register that it reads holds an error (R201, R206,
R208, R415, R435, R436). -/
structure Sys2Proof.Machine.VecReady (s : State) (c : Nat) (epi : Bool) (d : Dec) : Prop where
  core : c < 64
  clean : s.vecFlips c d.word = []
  count : vCount d.word ≤ 8192
  noTrap : (s.core c).trap = false
  main : epi = false → (∃ q, (s.core c).vq = d :: q) ∧ (s.core c).sharedWait d = false ∧ s.heldBack (2 * c + 1) = false
  epilogue : epi = true → ∃ e q, (s.core c).epis = e :: q ∧ e.started = true ∧ (s.core c).epiCode[e.ip]? = some d.word ∧ d.seq = e.seq

/-- The core after an instruction of a context has left: the queue's head is gone, or the running epilogue stands at its next
instruction. -/
def Sys2Proof.Machine.vecNext (epi : Bool) (k : CoreSt) : CoreSt :=
  if epi then (match k.epis with
    | [] => k
    | e :: q => { k with epis := { e with ip := e.ip + 1 } :: q })
  else { k with vq := k.vq.drop 1 }

/-- The state in which an instruction runs: its issue is counted, and charged to the lanelets' account (R211, R415). -/
def Sys2Proof.Machine.vecStart (s : State) (c : Nat) (epi : Bool) (w : Nat) : State :=
  if epi then s.count Fld.CORE_VEC_EPI_CK_COUNT 1 c
  else (s.charge (2 * c + 1) ((s.core c).vecOccupancy c w)).count Fld.CORE_VEC_ISSUE_CK_COUNT 1 c

/-- The frame of a register instruction: it leaves its queue; memories, other cores and all of this core but its vector registers,
predicates and numeric status word stand, and so does every register but those of the core's page and those that reports write. -/
structure Sys2Proof.Machine.VecFrame (s t : State) (c : Nat) (epi : Bool) : Prop where
  mem : t.mem = s.mem ∧ t.ecc = s.ecc
  others : ∀ m, m ≠ c → t.core m = s.core m
  core : t.core c = { vecNext epi (s.core c) with vregs := (t.core c).vregs, preds := (t.core c).preds, nsw := (t.core c).nsw }
  regs : ∀ k, reportKey k = false → k / 2 ^ 32 ≠ 0x40 + c → t.word k = s.word k

/-- Every word of the vector registers outside `rs` stands. -/
def Sys2Proof.Machine.KeepsRegisters (s t : State) (c : Nat) (rs : List Nat) : Prop :=
  ∀ r, r ∉ rs → ∀ i < 8192, (t.core c).vword r i = (s.core c).vword r i

/-- The VALU command of a minor opcode that works lane by lane on one result. -/
def Sys2Proof.Machine.valuCommand (c : Nat) (epi : Bool) : Nat → Option Instr
  | 0x00 => some (.valuAdd c epi)
  | 0x01 => some (.valuSub c epi)
  | 0x02 => some (.valuMul c epi)
  | 0x03 => some (.valuFma c epi)
  | 0x04 => some (.valuFnma c epi)
  | 0x05 => some (.valuMax c epi)
  | 0x06 => some (.valuMin c epi)
  | 0x07 => some (.valuAbs c epi)
  | 0x08 => some (.valuNeg c epi)
  | 0x09 => some (.valuMov c epi)
  | 0x0B => some (.valuI2f c epi)
  | 0x0C => some (.valuF2i c epi)
  | 0x0D => some (.valuWiden c epi)
  | 0x0E => some (.valuNarrow c epi)
  | 0x0F => some (.valuAnd c epi)
  | 0x10 => some (.valuOr c epi)
  | 0x11 => some (.valuXor c epi)
  | 0x12 => some (.valuNot c epi)
  | 0x13 => some (.valuShl c epi)
  | 0x14 => some (.valuShr c epi)
  | 0x15 => some (.valuSar c epi)
  | _ => none

/-- A floating-point result of a VALU instruction by its element type, or an int32 one as a signed integer that wraps (R185, R186). -/
def Sys2Proof.Machine.valuPick (et : Nat) (fp : Val) (int : Int) : Nat := if et = 2 then (int % 2 ^ 32).toNat else etEnc et fp

/-- What a VALU instruction of minor `mi` and element type `et` makes of the raw operands `x`, `y` and `z` (R123, R185, R186). -/
def Sys2Proof.Machine.valuResult (mi et x y z : Nat) : Nat :=
  let a := etVal et x
  let b := etVal et y
  let i := signed 32 x
  let j := signed 32 y
  match mi with
  | 0x00 => valuPick et (vadd a b) (i + j)
  | 0x01 => valuPick et (vadd a (vneg b)) (i - j)
  | 0x02 => valuPick et (vmul a b) (i * j)
  | 0x03 => etEnc et (vadd (vmul a b) (etVal et z))
  | 0x04 => etEnc et (vadd (vmul (vneg a) b) (etVal et z))
  | 0x05 => valuPick et (vmax a b) (max i j)
  | 0x06 => valuPick et (vmin a b) (min i j)
  | 0x07 => valuPick et (vabs a) (if i < 0 then -i else i)
  | 0x08 => valuPick et (vneg a) (-i)
  | 0x09 => etCanon et x
  | 0x0B => etEnc 0 (vint i)
  | 0x0C => (f2i (fB32.dec x)).raw
  | 0x0D => etEnc 0 (fBF16.dec x)
  | 0x0E => etEnc 1 (fB32.dec x)
  | 0x0F => x &&& y
  | 0x10 => x ||| y
  | 0x11 => Nat.xor x y
  | 0x12 => 2 ^ 32 - 1 - x
  | 0x13 => x * 2 ^ (y % 32) % 2 ^ 32
  | 0x14 => x / 2 ^ (y % 32)
  | _ => ((i / (2 ^ (y % 32) : Nat)) % 2 ^ 32).toNat

/-- The element type of a VALU result (R185). -/
def Sys2Proof.Machine.valuDest (mi et : Nat) : Nat :=
  if mi = 0x0B ∨ mi = 0x0D then 0 else if mi = 0x0E then 1 else if mi = 0x0C ∨ 0x0F ≤ mi then 2 else et

/-- A lane holds `v`, cut to its element's width. -/
def Sys2Proof.Machine.LaneIs (k : CoreSt) (dt r e v : Nat) : Prop := k.vget dt r e = v % 2 ^ (if dt = 1 then 16 else 32)

/-- F2I saturates: the operand is NaN or infinite, or rounds to an integer below −2³¹ or above 2³¹ − 1 (R185). -/
def Sys2Proof.Machine.f2iSaturates (v : Val) : Bool := v.isNan || v.isInf || vlt v (.fin (-(2 ^ 32 + 1)) (-1)) || !vlt v (.fin (2 ^ 32 - 1) (-1))

/-- The lanelet cause that a VALU instruction meets on raw operands, or 0: zero times infinity in a product, and infinities of opposite sign
in a sum (R210). -/
def Sys2Proof.Machine.valuCause (mi et x y z : Nat) : Nat :=
  let a := etVal et x
  let b := etVal et y
  let c := etVal et z
  let zeroInf : Bool := (a.isZero && b.isInf) || (a.isInf && b.isZero)
  let opposite (p q : Val) : Bool := p.isInf && q.isInf && (vadd p q).isNan
  if et = 2 then 0
  else match mi with
    | 0x00 => if opposite a b then 0x11 else 0
    | 0x01 => if opposite a (vneg b) then 0x11 else 0
    | 0x02 => if zeroInf then 0x10 else 0
    | 0x03 => if zeroInf then 0x10 else if opposite (vmul a b) c then 0x11 else 0
    | 0x04 => if zeroInf then 0x10 else if opposite (vmul (vneg a) b) c then 0x11 else 0
    | _ => 0

/-- The lane-by-lane VALU instructions put their result into every active element below `COUNT`, +0 into every inactive one under `ZM`, and
leave every other element and register alone. F2I sets `INT_SAT` where an element saturates; each active element that meets a cause counts
as a numeric event, and the first of them is recorded where no event has been (R172, R182, R183, R185, R186, R210). -/
def Obligations.ValuLanesHoldTheirResults : Prop :=
  ∀ (s : State) (c : Nat) (epi : Bool) (d : Dec) (mi : Nat) (i : Instr), VecReady s c epi d → isOp 0x30 mi d.word = true →
    valuCommand c epi mi = some i →
    Answers (exec i s) fun t =>
      let w := d.word
      let k := s.core c
      let dt := valuDest mi (vEt w)
      let cause (e : Nat) : Nat := valuCause mi (vEt w) (k.vget (vEt w) (vVa w) e) (operandB k w e) (k.vget (vEt w) (vVc w) e)
      let events := (List.range (vCount w)).filter (fun e => k.active w e && cause e != 0)
      let saturated : Bool := mi == 0x0C && (List.range (vCount w)).any (fun e => k.active w e && f2iSaturates (fB32.dec (k.vget (vEt w) (vVa w) e)))
      (∀ e < vCount w, k.active w e = true →
        LaneIs (t.core c) dt (vVd w) e (valuResult mi (vEt w) (k.vget (vEt w) (vVa w) e) (operandB k w e) (k.vget (vEt w) (vVc w) e))) ∧
      (∀ e < vCount w, k.active w e = false → (t.core c).vget dt (vVd w) e = if vZm w then 0 else k.vget dt (vVd w) e) ∧
      (∀ e, vCount w ≤ e → e < 8192 → (t.core c).vget dt (vVd w) e = k.vget dt (vVd w) e) ∧
      t.get Fld.CORE_VEC_STATUS_INT_SAT c = (if saturated then 1 else s.get Fld.CORE_VEC_STATUS_INT_SAT c) ∧
      t.get Fld.CORE_NER_COUNT_COUNT c = satAdd Fld.CORE_NER_COUNT_COUNT.len (s.get Fld.CORE_NER_COUNT_COUNT c) events.length ∧
      (∀ e rest, events = e :: rest → s.get Fld.CORE_NER_INFO_VALID c = 0 → t.get Fld.CORE_NER_INFO_VALID c = 1 ∧
        t.get Fld.CORE_NER_INFO_UNIT c = 2 ∧ t.get Fld.CORE_NER_INFO_CAUSE c = cause e ∧ t.get Fld.CORE_NER_SEQ_SEQ c = d.seq % 2 ^ 32) ∧
      KeepsRegisters s t c [vVd w] ∧ (t.core c).preds = k.preds ∧ VecFrame s t c epi

/-- VALU_SEL writes every element below `COUNT` with a where active and b where not, whatever `ZM` says; VALU_SPLIT writes the pair of R142,
hi and lo, to `VD` and the register after it (R142, R185). -/
def Sys2Proof.Machine.SelectAndSplitWriteTheirElements : Prop :=
  ∀ (s : State) (c : Nat) (epi : Bool) (d : Dec), VecReady s c epi d →
    let w := d.word
    let k := s.core c
    (isOp 0x30 0x0A w = true → Answers (exec (.valuSel c epi) s) fun t =>
      (∀ e < vCount w, LaneIs (t.core c) (vEt w) (vVd w) e
        (etCanon (vEt w) (if k.active w e then k.vget (vEt w) (vVa w) e else operandB k w e))) ∧
      KeepsRegisters s t c [vVd w] ∧ VecFrame s t c epi) ∧
    (isOp 0x30 0x16 w = true → Answers (exec (.valuSplit c epi) s) fun t =>
      (∀ e < vCount w, k.active w e = true →
        let v := fB32.dec (k.vget 0 (vVa w) e)
        let hi := fBF16.rne v
        LaneIs (t.core c) 1 (vVd w) e (fBF16.enc hi) ∧
        LaneIs (t.core c) 1 (vVd w + 1) e (fBF16.enc (if hi.isInf || hi.isNan then vzero else fBF16.rne (vsub v hi)))) ∧
      KeepsRegisters s t c [vVd w, vVd w + 1] ∧ VecFrame s t c epi)

/-- The VSFU command of a minor opcode. -/
def Sys2Proof.Machine.vsfuCommand (c : Nat) (epi : Bool) : Nat → Option Instr
  | 0x00 => some (.vsfuRcp c epi)
  | 0x01 => some (.vsfuRsq c epi)
  | 0x02 => some (.vsfuSqrt c epi)
  | 0x03 => some (.vsfuDiv c epi)
  | 0x04 => some (.vsfuExp2 c epi)
  | 0x05 => some (.vsfuLog2 c epi)
  | 0x06 => some (.vsfuExp c epi)
  | 0x07 => some (.vsfuLog c epi)
  | 0x08 => some (.vsfuTanh c epi)
  | 0x09 => some (.vsfuSigmoid c epi)
  | 0x0A => some (.vsfuSilu c epi)
  | 0x0B => some (.vsfuGelu c epi)
  | 0x0C => some (.vsfuErf c epi)
  | 0x0D => some (.vsfuSin c epi)
  | 0x0E => some (.vsfuCos c epi)
  | _ => none

/-- The bound of R188 on a result `r` of a function whose exact value is `x`: so many units in the last place of `x`, or the absolute bound. -/
def Sys2Proof.Machine.withinUlps (n : Int) (x r : Val) : Prop :=
  vlt (.fin n ((if x.isZero then -126 else max (vlog2 x) (-126)) - 23)) (vabs (vsub r x)) = false

/-- A result within an absolute bound of the exact value (R188). -/
def Sys2Proof.Machine.withinAbs (b x r : Val) : Prop := vlt b (vabs (vsub r x)) = false

/-- The bounds of R188 for an operand that is no special case and whose exact value `x`, to hundreds of bits, rounds to no infinity; beyond
them SIN and COS may give the exact value correctly rounded. -/
def Sys2Proof.Machine.sfuBounded (f : Nat) (a x r : Val) : Prop :=
  match f with
  | 0x00 | 0x01 | 0x04 => withinUlps 1 x r
  | 0x05 => withinUlps 1 x r ∨ withinAbs (.fin 1 (-22)) x r
  | 0x06 | 0x08 | 0x09 | 0x0C => withinUlps 2 x r
  | 0x07 => withinUlps 2 x r ∨ withinAbs (.fin 1 (-22)) x r
  | 0x0A => withinUlps 3 x r
  | 0x0B => withinUlps 4 x r
  | _ => r = fB32.rne x ∨ (if vlt (.fin 1 18) (vabs a) then withinAbs (.fin 1 (-20)) x r else withinUlps 2 x r ∨ withinAbs (.fin 1 (-24)) x r)

/-- The special functions put their binary32 value, rounded to the element type, into every active element and leave the rest as a VALU
instruction does; equal operands give equal results in every lane, core and run, since the value is a function of the operand's value
alone. The values: NaN gives NaN without an event, the special cases are those of the table, SQRT is correctly rounded, and every other
result lies within its bound (R188, R189, R190). Beyond these rules it rests on the model's reading: assumption 75. -/
def Sys2Proof.Machine.SpecialFunctionLanesHoldTheirValue : Prop :=
  (∀ f ≤ 0x0E, f ≠ 3 → sfuEval f .nan = (.nan, 0)) ∧
  (∀ n, sfuEval 0x00 (.inf n) = (vzero, 0)) ∧ (∀ e, sfuEval 0x00 (.fin 0 e) = (.inf false, 0)) ∧ sfuEval 0x01 (.inf false) = (vzero, 0) ∧
  (∀ f ∈ [0x01, 0x02], ∀ (m : Int) e, m < 0 → sfuEval f (.fin m e) = (.nan, 0x13) ∧ sfuEval f (.inf true) = (.nan, 0x13)) ∧
  (∀ f ∈ [0x04, 0x06], sfuEval f (.inf true) = (vzero, 0) ∧ sfuEval f (.inf false) = (.inf false, 0)) ∧
  (∀ f ∈ [0x05, 0x07], sfuEval f (.inf false) = (.inf false, 0) ∧ (∀ e, sfuEval f (.fin 0 e) = (.inf true, 0)) ∧
    ∀ (m : Int) e, m < 0 → sfuEval f (.fin m e) = (.nan, 0x14)) ∧
  (∀ f ∈ [0x08, 0x0C], ∀ n, sfuEval f (.inf n) = (vint (if n then -1 else 1), 0)) ∧
  (sfuEval 0x09 (.inf true) = (vzero, 0) ∧ sfuEval 0x09 (.inf false) = (vint 1, 0)) ∧
  (∀ f ∈ [0x0A, 0x0B], sfuEval f (.inf true) = (vzero, 0) ∧ sfuEval f (.inf false) = (.inf false, 0)) ∧
  (∀ f ∈ [0x0D, 0x0E], ∀ n, sfuEval f (.inf n) = (.nan, 0x17)) ∧
  (∀ (m : Int) e, 0 < m → (sfuEval 0x02 (.fin m e)).1 = fB32.rne (vsqrt (.fin m e))) ∧
  (∀ f ≤ 0x0E, f ≠ 2 → f ≠ 3 → ∀ a : Val, sfuSpecial f a = none →
    let x := sfuExact f a
    ((fB32.rne x).isInf = true → sfuEval f a = (fB32.rne x, 0)) ∧ ((fB32.rne x).isInf = false → sfuBounded f a x (sfuEval f a).1)) ∧
  ∀ (s : State) (c : Nat) (epi : Bool) (d : Dec) (f : Nat) (i : Instr), VecReady s c epi d → isOp 0x31 f d.word = true →
    vsfuCommand c epi f = some i →
    Answers (exec i s) fun t =>
      let w := d.word
      let k := s.core c
      let et := vEt w
      (∀ e < vCount w, k.active w e = true → LaneIs (t.core c) et (vVd w) e
        (etEnc et (if f = 0x03 then (sfuDiv (etVal et (k.vget et (vVa w) e)) (etVal et (operandB k w e))).1
          else (sfuEval f (etVal et (k.vget et (vVa w) e))).1))) ∧
      (∀ e < vCount w, k.active w e = false → (t.core c).vget et (vVd w) e = if vZm w then 0 else k.vget et (vVd w) e) ∧
      KeepsRegisters s t c [vVd w] ∧ (t.core c).preds = k.preds ∧ VecFrame s t c epi

/-- VALU_SEL writes every element below `COUNT` with a where active and b where not, whatever `ZM` says; VALU_SPLIT writes the pair of R142,
hi and lo, to `VD` and the register after it (R142, R185). The special functions put their binary32 value, rounded to the element type,
into every active element and leave the rest as a VALU instruction does; equal operands give equal results in every lane, core and run,
since the value is a function of the operand's value alone. The values: NaN gives NaN without an event, the special cases are those of
the table, SQRT is correctly rounded, and every other result lies within its bound (R188, R189, R190). Beyond these rules it rests on
the model's reading: assumption 75. -/
def Obligations.SelectSplitAndSpecialFunctions : Prop :=
  SelectAndSplitWriteTheirElements ∧ SpecialFunctionLanesHoldTheirValue

/-- The VCMP command of a minor opcode, with its test of two values (R123, R187). -/
def Sys2Proof.Machine.vcmpCommand (c : Nat) (epi : Bool) : Nat → Option (Instr × (Val → Val → Bool))
  | 0 => some (.vcmpEq c epi, veq)
  | 1 => some (.vcmpNe c epi, fun a b => !veq a b)
  | 2 => some (.vcmpLt c epi, vlt)
  | 3 => some (.vcmpLe c epi, fun a b => vlt a b || veq a b)
  | 4 => some (.vcmpGt c epi, fun a b => vlt b a)
  | 5 => some (.vcmpGe c epi, fun a b => vlt b a || veq a b)
  | 6 => some (.vcmpUnordered c epi, fun a b => a.isNan || b.isNan)
  | _ => none

/-- A compare writes the predicate's bit of every active element below `COUNT`, clears that of an inactive one under `ZM`, and leaves every
other bit, predicate and register alone; a reserved minor opcode is fault 0x01, a write of `VP0` fault 0x02, and an element type that the
test does not allow fault 0x03 (R179, R183, R187). -/
def Obligations.ComparesWriteTheirPredicate : Prop :=
  (∀ (s : State) (c : Nat) (epi : Bool) (d : Dec) (mi : Nat) (i : Instr) (f : Val → Val → Bool), VecReady s c epi d →
    isOp 0x32 mi d.word = true → vcmpCommand c epi mi = some (i, f) → bitsAt d.word 24 3 ≠ 0 →
    Answers (exec i s) fun t =>
      let w := d.word
      let k := s.core c
      let p := bitsAt w 24 3
      (∀ e < vCount w, bitOf ((t.core c).pred p) e =
        (if k.active w e then f (etVal (vEt w) (k.vget (vEt w) (vVa w) e)) (etVal (vEt w) (operandB k w e))
         else if vZm w then false else bitOf (k.pred p) e)) ∧
      (∀ e, vCount w ≤ e → bitOf ((t.core c).pred p) e = bitOf (k.pred p) e) ∧ (∀ q, q ≠ p → (t.core c).pred q = k.pred q) ∧
      (t.core c).vregs = k.vregs ∧ VecFrame s t c epi) ∧
  ∀ (n : Nat) (epi : Bool) (v : Nat), iMajor v = 0x32 → (7 ≤ iMinor v → 1 ∈ wordFaults n epi v) ∧
    (iMinor v ≤ 6 → bitsAt v 24 3 = 0 → 2 ∈ wordFaults n epi v) ∧ (iMinor v = 6 → 2 ≤ vEt v → 3 ∈ wordFaults n epi v)

/-- The int32 and predicate reductions put into element 0 of `VD` the sum modulo 2^32, the bitwise AND, OR and XOR and the count of ones of
the active elements, and whether all, any, an odd number and how many of the active predicate bits are 1 (R191). -/
def Sys2Proof.Machine.BitReductionsFoldTheActiveElements : Prop :=
  ∀ (s : State) (c : Nat) (epi : Bool) (d : Dec), VecReady s c epi d →
    let w := d.word
    let k := s.core c
    let xs := (k.actives w).map (k.vget 2 (vVa w))
    let ps := (k.actives w).filter (bitOf (k.pred (bitsAt w 28 3)))
    let gives (i : Instr) (v : Nat) : Prop := Answers (exec i s) fun t =>
      LaneIs (t.core c) 2 (vVd w) 0 v ∧ (∀ e, 1 ≤ e → e < 8192 → (t.core c).vget 2 (vVd w) e = k.vget 2 (vVd w) e) ∧
      KeepsRegisters s t c [vVd w] ∧ (t.core c).preds = k.preds ∧ VecFrame s t c epi
    (isOp 0x33 0x00 w = true → vEt w = 2 → gives (.vredSum c epi) (xs.sum % 2 ^ 32)) ∧
    (isOp 0x33 0x03 w = true → gives (.vredAnd c epi) (idxMask ((List.range 32).filter (fun b => xs.all (fun x => bitOf x b))))) ∧
    (isOp 0x33 0x04 w = true → gives (.vredOr c epi) (idxMask ((List.range 32).filter (fun b => xs.any (fun x => bitOf x b))))) ∧
    (isOp 0x33 0x05 w = true → gives (.vredXor c epi)
      (idxMask ((List.range 32).filter (fun b => (xs.filter (fun x => bitOf x b)).length % 2 == 1)))) ∧
    (isOp 0x33 0x06 w = true → gives (.vredPopc c epi) ((xs.map (popcount 32)).sum % 2 ^ 32)) ∧
    (isOp 0x33 0x10 w = true → gives (.vredPall c epi) (b2n (ps.length == (k.actives w).length))) ∧
    (isOp 0x33 0x11 w = true → gives (.vredPany c epi) (b2n (ps.length != 0))) ∧
    (isOp 0x33 0x12 w = true → gives (.vredPpar c epi) (ps.length % 2)) ∧
    (isOp 0x33 0x13 w = true → gives (.vredPcnt c epi) ps.length)

/-- The maximum and minimum of the active elements, from −∞ and +∞, and their sum in the order of R192 go to element 0 of `VD` (R123,
R191, R192). -/
def Sys2Proof.Machine.ValueReductionsFoldInOrder : Prop :=
  (∀ (s : State) (c : Nat) (epi : Bool) (d : Dec), VecReady s c epi d →
    let w := d.word
    let k := s.core c
    let et := vEt w
    let xs := (k.actives w).map (fun e => (e, etVal et (k.vget et (vVa w) e)))
    let ints : List Int := (k.actives w).map (fun e => signed 32 (k.vget 2 (vVa w) e))
    let gives (i : Instr) (v : Nat) : Prop := Answers (exec i s) fun t =>
      LaneIs (t.core c) et (vVd w) 0 v ∧ (∀ e, 1 ≤ e → e < 8192 → (t.core c).vget et (vVd w) e = k.vget et (vVd w) e) ∧
      KeepsRegisters s t c [vVd w] ∧ (t.core c).preds = k.preds ∧ VecFrame s t c epi
    (isOp 0x33 0x01 w = true → et ≠ 2 → gives (.vredMax c epi) (etEnc et ((xs.map (·.2)).foldl vmax (.inf true)))) ∧
    (isOp 0x33 0x02 w = true → et ≠ 2 → gives (.vredMin c epi) (etEnc et ((xs.map (·.2)).foldl vmin (.inf false)))) ∧
    (isOp 0x33 0x01 w = true → et = 2 → gives (.vredMax c epi) ((ints.foldl max (-(2 ^ 31))) % 2 ^ 32).toNat) ∧
    (isOp 0x33 0x02 w = true → et = 2 → gives (.vredMin c epi) ((ints.foldl min (2 ^ 31 - 1)) % 2 ^ 32).toNat) ∧
    (isOp 0x33 0x00 w = true → et ≠ 2 → gives (.vredSum c epi)
      (etEnc et (let r := laneSum d.seq xs
        if r.s.isNan || r.s.isInf then r.s else vadd r.s r.c)))) ∧
  ∀ (n : Nat) (epi : Bool) (v : Nat), iMajor v = 0x33 →
    (7 ≤ iMinor v ∧ iMinor v ≤ 15 ∨ 20 ≤ iMinor v → 1 ∈ wordFaults n epi v) ∧
    (iMinor v ≤ 6 → vEt v = 3 ∨ (3 ≤ iMinor v ∧ vEt v ≠ 2) → 3 ∈ wordFaults n epi v)

/-- The int32 and predicate reductions put into element 0 of `VD` the sum modulo 2^32, the bitwise AND, OR and XOR and the count of ones of
the active elements, and whether all, any, an odd number and how many of the active predicate bits are 1 (R191). The maximum and minimum
of the active elements, from −∞ and +∞, and their sum in the order of R192 go to element 0 of `VD` (R123, R191, R192). -/
def Obligations.ReductionsFoldTheActiveElements : Prop :=
  BitReductionsFoldTheActiveElements ∧ ValueReductionsFoldInOrder

/-- A permutation moves the element that its index names; an index out of range gives +0 and sets `IDX_RANGE`, or with `STRICT` faults the
core with 0x09 and writes nothing (R193). Beyond these rules it rests on the model's reading: assumption 98. -/
def Sys2Proof.Machine.PermutationFollowsItsIndexes : Prop :=
  (∀ (s : State) (c : Nat) (epi : Bool) (d : Dec), VecReady s c epi d → isOp 0x34 0 d.word = true →
    let w := d.word
    let k := s.core c
    let out (e : Nat) : Prop := k.active w e = true ∧ vCount w ≤ k.vword (vVb w) e
    (vBit17 w = false ∨ (∀ e < vCount w, ¬ out e) → ∃ t, exec (.vperm c epi) s = .next t ∧
      (∀ e < vCount w, k.active w e = true → LaneIs (t.core c) (vEt w) (vVd w) e
        (if vCount w ≤ k.vword (vVb w) e then 0 else etCanon (vEt w) (k.vget (vEt w) (vVa w) (k.vword (vVb w) e)))) ∧
      (∀ e < vCount w, k.active w e = false → (t.core c).vget (vEt w) (vVd w) e = if vZm w then 0 else k.vget (vEt w) (vVd w) e) ∧
      ((∃ e < vCount w, out e) → t.get Fld.CORE_VEC_STATUS_IDX_RANGE c = 1) ∧
      ((∀ e < vCount w, ¬ out e) → t.get Fld.CORE_VEC_STATUS_IDX_RANGE c = s.get Fld.CORE_VEC_STATUS_IDX_RANGE c) ∧
      KeepsRegisters s t c [vVd w] ∧ (t.core c).preds = k.preds ∧ VecFrame s t c epi) ∧
    (vBit17 w = true → (∃ e < vCount w, out e) → (s.core c).run = 1 → (s.core c).test = false → ∃ t, exec (.vperm c epi) s = .next t ∧
      t.get Fld.CORE_CORE_FAULT_CODE c = 9 ∧ (t.core c).vregs = k.vregs)) ∧
  ∀ (n : Nat) (epi : Bool) (v : Nat), iMajor v = 0x34 → (iMinor v ≠ 0 → 1 ∈ wordFaults n epi v) ∧
    (iMinor v = 0 → vEt v = 3 → 3 ∈ wordFaults n epi v)

/-- The VLD command of a minor opcode. -/
def Sys2Proof.Machine.vldCommand (c : Nat) (epi : Bool) : Nat → Instr
  | 0 => .vldUnitStride c epi
  | 1 => .vldStrided c epi
  | 2 => .vldGather c epi
  | 3 => .vldRepeat c epi
  | _ => .vldBroadcast c epi

/-- A load of any of the five address forms puts the little-endian element at its address into every active element of `VD`; memory stands
(R17, R194, R195). -/
def Sys2Proof.Machine.LoadsReadTheirElements : Prop :=
  ∀ (s : State) (c : Nat) (epi : Bool) (d : Dec) (mi : Nat), VecReady s c epi d → mi ≤ 4 → isOp 0x35 mi d.word = true → s.ecc = [] →
    (∀ e < vCount d.word, (s.core c).active d.word e = true → elemAddrOk (elemAddr (s.core c) d.word e) (etSize (vEt d.word)) = true ∧
      s.checkAccess (s.coreWho c 2) (elemAddr (s.core c) d.word e).toNat (etSize (vEt d.word)) = 0) →
    Answers (exec (vldCommand c epi mi) s) fun t =>
      let w := d.word
      let k := s.core c
      (∀ e < vCount w, k.active w e = true → LaneIs (t.core c) (vEt w) (vVd w) e
        (etCanon (vEt w) (leVal (s.bytesAt (elemAddr k w e).toNat (etSize (vEt w)))))) ∧
      (∀ e < vCount w, k.active w e = false → (t.core c).vget (vEt w) (vVd w) e = if vZm w then 0 else k.vget (vEt w) (vVd w) e) ∧
      KeepsRegisters s t c [vVd w] ∧ (t.core c).preds = k.preds ∧ VecFrame s t c epi

/-- The VST command of a minor opcode. -/
def Sys2Proof.Machine.vstCommand (c : Nat) (epi : Bool) : Nat → Instr
  | 0 => .vstUnitStride c epi
  | 1 => .vstStrided c epi
  | _ => .vstScatter c epi

/-- A store of any of the three address forms writes every active element at its address, a later element over an earlier one; every byte
outside the active elements' addresses, and all of the core but its queue, stands (R17, R194, R195). -/
def Sys2Proof.Machine.StoresWriteTheirElementsOnly : Prop :=
  ∀ (s : State) (c : Nat) (epi : Bool) (d : Dec) (mi : Nat), VecReady s c epi d → mi ≤ 2 → isOp 0x36 mi d.word = true → s.ecc = [] →
    let w := d.word
    let k := s.core c
    let size := etSize (vEt w)
    let at_ (e : Nat) : Nat := (elemAddr k w e).toNat
    (∀ e < vCount w, k.active w e = true → elemAddrOk (elemAddr k w e) size = true ∧ s.checkAccess (s.coreWho c 2) (at_ e) size = 0 ∧
      s.groupMayWrite c (at_ e) (at_ e + size) = true) →
    Answers (exec (vstCommand c epi mi) s) fun t =>
      (∀ e < vCount w, k.active w e = true → (∀ f, e < f → f < vCount w → k.active w f = true → at_ f + size ≤ at_ e ∨ at_ e + size ≤ at_ f) →
        t.bytesAt (at_ e) size = leBytes size (etCanon (vEt w) (k.vget (vEt w) (vVa w) e))) ∧
      (∀ a, (∀ e < vCount w, k.active w e = true → a < at_ e ∨ at_ e + size ≤ a) →
        t.byteAt a = s.byteAt a) ∧
      t.core c = vecNext epi k ∧ ∀ m, m ≠ c → t.core m = s.core m

/-- A load of any of the five address forms puts the little-endian element at its address into every active element of `VD`; memory stands
(R17, R194, R195). A store of any of the three address forms writes every active element at its address, a later element over an earlier
one; every byte outside the active elements' addresses, and all of the core but its queue, stands (R17, R194, R195). -/
def Obligations.VectorMemoryMovesActiveElements : Prop :=
  LoadsReadTheirElements ∧ StoresWriteTheirElementsOnly

/-- The segments of a VCST in direct mode, each at its base with the lanes of its elements (R138, R198). -/
def Sys2Proof.Machine.vcstSegments (s : State) (c : Nat) (w : Nat) : List (Nat × List Lane) :=
  let k := s.core c
  let cnt := vCount w
  let seg := if vAux14 w = 0 then cnt else vAux14 w
  let lane (e : Nat) : Lane :=
    { val := if k.active w e then some (etVal (vEt w) (k.vget (vEt w) (vVd w) e)) else none
      index := (s.get Fld.CORE_VIDX_BASE_BASE c + e) % 2 ^ 48 }
  (List.range (ceilDiv cnt seg)).map (fun i => (iAddr64 w + i * vAux16 w, (List.range (min seg (cnt - i * seg))).map (fun j => lane (i * seg + j))))

/-- A VCST in direct mode converts its segments in order, writes what falls in one line at once, and leaves its queue, or faults with the
code of the first element that it may not write. One segment of a target without block scale puts every active element's rounded value
at its place; one block of an MX target puts its packed element codes and its scale byte, saturated, zero for an inactive lane, or all
of it NaN, and records its largest magnitude into an empty entry of its slot; every other byte stands. In output mode it stores whole
rows of the parcel through its descriptor, and the epilogue stands at its next instruction (R111, R127-R129, R132, R133, R138, R195,
R197-R200). Beyond these rules it rests on the model's reading: assumption 91. -/
def Obligations.ConvertAndStoreWritesItsSegments : Prop :=
  ∀ (s : State) (c : Nat) (epi : Bool) (d : Dec), VecReady s c epi d →
    let w := d.word
    (iMajor w = 0x38 → vBit17 w = false →
      let r := (vecStart s c epi w).convertStore c (iMinor w) (vSlot w) (vImm w) (vcstSegments s c w)
      ∃ t, exec (.vcstDirect c epi) s = .next t ∧ (r.2 = 0 → t = r.1.setCore c (vecNext epi (r.1.core c))) ∧
        (r.2 ≠ 0 → t = r.1.coreFault c r.2 d.seq)) ∧
    (iMajor w = 0x38 → vBit17 w = false → 6 ≤ iMinor w → vImm w = false → vAux14 w = 0 → s.ecc = [] →
      let k := s.core c
      let f := targetFmt (iMinor w)
      let size := f.bits / 8
      let at_ (e : Nat) : Nat := iAddr64 w + e * size
      let lane (e : Nat) : Lane := { val := none, index := (s.get Fld.CORE_VIDX_BASE_BASE c + e) % 2 ^ 48 }
      (∀ e < vCount w, k.active w e = true → at_ e % size = 0 ∧ inMemories (at_ e) (at_ e + size) = true ∧
        s.checkAccess (s.coreWho c 2) (at_ e) size = 0 ∧ s.groupMayWrite c (at_ e) (at_ e + size) = true) →
      ∃ t, exec (.vcstDirect c epi) s = .next t ∧
        (∀ e < vCount w, k.active w e = true → t.bytesAt (at_ e) size = leBytes size
          (f.enc (convPlain f (etVal (vEt w) (k.vget (vEt w) (vVd w) e)) (laneBits (s.slotStochastic (vSlot w)) k.seed (vSlot w) (lane e))).1)) ∧
        (∀ a, (∀ e < vCount w, k.active w e = true → a < at_ e ∨ at_ e + size ≤ a) → t.byteAt a = s.byteAt a) ∧
        t.core c = { vecNext epi k with nsw := (t.core c).nsw } ∧ ∀ m, m ≠ c → t.core m = s.core m) ∧
    (∀ X : Nat, iMajor w = 0x38 → vBit17 w = false → iMinor w ≤ 5 → vImm w = false → vAux14 w = 0 → 1 ≤ vCount w → vCount w ≤ 32 →
      s.ecc = [] → s.slotStochastic (vSlot w) = false →
      let k := s.core c
      let tgt := iMinor w
      let big := targetMax tgt
      let bits := targetBits tgt
      let base := iAddr64 w
      let size := ceilDiv (vCount w * bits) 8 + 1
      let v (e : Nat) : Val := etVal (vEt w) (k.vget (vEt w) (vVd w) e)
      let on (e : Nat) : Prop := e < vCount w ∧ k.active w e = true
      let vals := ((List.range (vCount w)).filter (k.active w)).map v
      let entry := k.step % 16
      (∀ p ∈ linesOf base size, s.elemCode c 2 1 ((p.1 : Int), zeros p.2) = 0) →
      ((s.get Fld.SCL_SLOT_CFG_SEL_MODE (vSlot w) = 1 ∧ (∀ h ∈ s.held, ¬(h.gang = k.gang ∧ h.slot = vSlot w ∧ h.target = tgt)) ∧
          X = s.get Fld.SCL_SLOT_CFG_INIT_SCALE (vSlot w)) ∨
        (s.get Fld.SCL_SLOT_CFG_SEL_MODE (vSlot w) = 2 ∧ X = scaleOf ((vals.filter (fun x => !x.isNan && !x.isInf)).foldl (fun m x => vmax m (vabs x)) vzero)
          (targetEmax tgt) (s.get Fld.SCL_SLOT_CFG_MARGIN (vSlot w)) (s.get Fld.SCL_SLOT_CFG_INIT_SCALE (vSlot w)))) →
      ∃ t, exec (.vcstDirect c epi) s = .next t ∧
        ((∀ e, on e → (v e).isNan = false ∧ (v e).isInf = false ∧ vlt (vscale big 127) (vabs (v e)) = false) →
          t.byteAt (base + size - 1) = BitVec.ofNat 8 X ∧
          ∀ e < vCount w, bitsAt (leVal (t.bytesAt base size)) (e * bits) bits =
            (if k.active w e then
              let u := vscale (v e) (127 - (X : Int))
              mxCode tgt (if vlt big (vabs u) then (if vlt u vzero then vneg big else big) else mxRound tgt u none)
            else 0)) ∧
        (2 ≤ tgt → (∃ e, on e ∧ ((v e).isNan = true ∨ (v e).isInf = true ∨ vlt (vscale big 127) (vabs (v e)) = true)) →
          t.bytesAt base size = zeros (size - 1) ++ [0xFF]) ∧
        (∀ a, a < base ∨ base + size ≤ a → t.byteAt a = s.byteAt a) ∧
        (∀ m, magMax vals = some m → s.get Fld.SCL_ENTRY_VALID (vSlot w) entry = 0 → t.get Fld.SCL_ENTRY_VALID (vSlot w) entry = 1 ∧
          t.get Fld.SCL_ENTRY_STEP (vSlot w) entry = k.step % 2 ^ 32 ∧ t.get Fld.SCL_ENTRY_AMAX (vSlot w) entry = fB32.enc (roundUp32 m) % 2 ^ 32) ∧
        t.core c = { vecNext epi k with nsw := (t.core c).nsw } ∧ ∀ m, m ≠ c → t.core m = s.core m) ∧
    (∀ e q, iMajor w = 0x38 → vBit17 w = true → bitOf w 16 = false → epi = true → (s.core c).epis = e :: q → iMinor w = pdOutFmt e.desc →
      vAux14 w + vCount w ≤ e.order.length → vAux14 w % popcount 128 e.cols = 0 → (vAux14 w + vCount w) % popcount 128 e.cols = 0 →
      let u := vecStart s c true w
      let vals := ((List.range (vCount w)).zip ((e.order.drop (vAux14 w)).take (vCount w))).map (fun x =>
        (x.2, if (s.core c).active w x.1 then some (etVal (vEt w) ((s.core c).vget (vEt w) (vVd w) x.1)) else none))
      let r := u.storeRows c e vals
      ∃ t, exec (.vcstOutput c) s = .next t ∧ (r.2 = 0 → t = r.1.setCore c (vecNext true (r.1.core c))) ∧
        (r.2 ≠ 0 → t = r.1.coreFault c r.2 d.seq))

/-- The epilogue of a parcel: it starts when its set drains and the earlier main-context instructions are through; VDRN takes the next
elements of the drain, exact results rounded to binary32, all that are left where it asks for more, which sets `DRAIN_SHORT`, and the
last of them ends the drain; VEEND discards what was not taken, frees the set and ends it (R162, R201-R205). -/
def Obligations.EpilogueDrainsItsParcel : Prop :=
  ∀ (s : State) (c : Nat) (e : Epi) (q : List Epi), c < 64 → (s.core c).epis = e :: q →
    (e.started = false → ((s.core c).set e.set).state = 5 → (∀ d ∈ (s.core c).vq, e.seq ≤ d.seq) → (s.core c).epiPc = some e.pc →
      Answers (exec (.epilogueStart c) s) fun t => CoreBecomes s t c { s.core c with epis := { e with started := true } :: q }) ∧
    (∀ d : Dec, VecReady s c true d → isOp 0x37 0 d.word = true → ((s.core c).set e.set).resumed = false →
      ((s.core c).set e.set).closeSeq = some e.seq → e.order.length = ((s.core c).set e.set).acc.length →
      let w := d.word
      let k := s.core c
      let x := k.set e.set
      let cnt := min (vCount w) (e.order.length - e.taken)
      let res (j : Nat) : Val := (exactResult x (x.acc.getD (e.taken + j) (0, 0)).2 none).1
      ∃ t, exec (.vdrn c) s = .next t ∧
        (∀ j < cnt, k.active w j = true → LaneIs (t.core c) 0 (vVd w) j (fB32.enc (fB32.rne (res j))) ∧
          (vImm w = true → LaneIs (t.core c) 0 (vVd w + 1) j (fB32.enc (splitPair fB32 (res j)).2))) ∧
        (∀ j < cnt, k.active w j = false → (t.core c).vget 0 (vVd w) j = if vZm w then 0 else k.vget 0 (vVd w) j) ∧
        (∀ j, cnt ≤ j → j < 8192 → (t.core c).vget 0 (vVd w) j = k.vget 0 (vVd w) j) ∧
        KeepsRegisters s t c [vVd w, vVd w + 1] ∧ (cnt < vCount w → t.get Fld.CORE_VEC_STATUS_DRAIN_SHORT c = 1) ∧
        (t.core c).epis = { e with taken := e.taken + cnt, ip := e.ip + 1 } :: q ∧
        (cnt = 0 ∨ e.taken + cnt < e.order.length → (t.core c).sets = k.sets) ∧
        (0 < cnt → e.taken + cnt = e.order.length → (t.core c).setFree e.set = true) ∧
        t.mem = s.mem ∧ ∀ m, m ≠ c → t.core m = s.core m) ∧
    (∀ d : Dec, VecReady s c true d → isOp 0x39 0 d.word = true → ((s.core c).set e.set).resumed = false →
      ((s.core c).setFree e.set = true ∨ ((s.core c).set e.set).closeSeq = some e.seq) → (∀ x ∈ q, x.seq ≠ e.seq) →
      Answers (exec (.veend c) s) fun t =>
        (t.core c).epis = q ∧ (t.core c).setFree e.set = true ∧ (e.taken < e.order.length → t.get Fld.CORE_VEC_STATUS_DRAIN_UNTAKEN c = 1) ∧
        t.get Fld.CORE_EPI_DONE_COUNT c = (s.get Fld.CORE_EPI_DONE_COUNT c + 1) % 2 ^ Fld.CORE_EPI_DONE_COUNT.len ∧ t.mem = s.mem ∧
        ∀ m, m ≠ c → t.core m = s.core m)

/-- Engine control: VSETI sets the index base, VCAPS delivers the core page's capabilities, VPOP combines two predicates and VPFIRST sets
the first bits of one, in the elements below `COUNT` only; VEEND in the main context and a reserved minor opcode are fault 0x01, and a
write of `VP0` is fault 0x02 (R179, R207). Beyond these rules it rests on the model's reading: assumption 91. -/
def Sys2Proof.Machine.EngineControlSetsIndexAndPredicates : Prop :=
  ∀ (s : State) (c : Nat) (epi : Bool) (d : Dec), VecReady s c epi d →
    let w := d.word
    let k := s.core c
    let p := bitsAt w 24 3
    let bits (i : Instr) (f : Nat → Bool) : Prop := Answers (exec i s) fun t =>
      (∀ e < vCount w, bitOf ((t.core c).pred p) e = f e) ∧ (∀ e, vCount w ≤ e → bitOf ((t.core c).pred p) e = bitOf (k.pred p) e) ∧
      (∀ q, q ≠ p → (t.core c).pred q = k.pred q) ∧ (t.core c).vregs = k.vregs ∧ VecFrame s t c epi
    let a (e : Nat) : Bool := bitOf (k.pred (bitsAt w 28 3)) e
    let b (e : Nat) : Bool := bitOf (k.pred (bitsAt w 32 3)) e
    (isOp 0x39 1 w = true → Answers (exec (.vseti c epi) s) fun t =>
      t.get Fld.CORE_VIDX_BASE_BASE c = vAux16 w * 2 ^ 32 + vImm32 w ∧ (t.core c).vregs = k.vregs ∧ (t.core c).preds = k.preds ∧ VecFrame s t c epi) ∧
    (isOp 0x39 2 w = true → Answers (exec (.vcaps c epi) s) fun t =>
      LaneIs (t.core c) 2 (vVd w) 0 (s.headerRead (0x40 + c) 8) ∧ KeepsRegisters s t c [vVd w] ∧ VecFrame s t c epi) ∧
    (isOp 0x39 3 w = true → p ≠ 0 → bits (.vpop c epi) (fun e => match vImm32 w % 4 with
      | 0 => a e && b e
      | 1 => a e || b e
      | 2 => a e != b e
      | _ => a e && !b e)) ∧
    (isOp 0x39 4 w = true → p ≠ 0 → bits (.vpfirst c epi) (fun e => decide (e < vImm32 w))) ∧
    ∀ n v, iMajor v = 0x39 → (iMinor v = 0 → 1 ∈ wordFaults n false v) ∧ (5 ≤ iMinor v → 1 ∈ wordFaults n epi v) ∧
      (iMinor v = 3 ∨ iMinor v = 4 → bitsAt v 24 3 = 0 → 2 ∈ wordFaults n epi v)

/-- A permutation moves the element that its index names; an index out of range gives +0 and sets `IDX_RANGE`, or with `STRICT` faults the
core with 0x09 and writes nothing (R193). Beyond these rules it rests on the model's reading: assumption 98. Engine control: VSETI sets
the index base, VCAPS delivers the core page's capabilities, VPOP combines two predicates and VPFIRST sets the first bits of one, in the
elements below `COUNT` only; VEEND in the main context and a reserved minor opcode are fault 0x01, and a write of `VP0` is fault 0x02
(R179, R207). Beyond these rules it rests on the model's reading: assumption 91. -/
def Obligations.PermutationAndEngineControlTakeEffect : Prop :=
  PermutationFollowsItsIndexes ∧ EngineControlSetsIndexAndPredicates

/-- The numeric events of an instruction are counted; the first one of a kernel is recorded and reported, a later one takes its place only
where it comes before the recorded one in order, which sets `REPLACED` and signals nothing; under `NUM_TRAP` it stops the kernel with
0x0E (R172, R173, R175). Beyond these rules it rests on the model's reading: assumption 91. -/
def Obligations.NumericEventsAreRecordedInOrder : Prop :=
  ∀ (s : State) (n : Nat) (a : EvSum) (e : NumEv), n < 64 → a.best = some e → (s.core n).run = 1 → (s.core n).test = false →
    let t := s.numEvents n a
    t.get Fld.CORE_NER_COUNT_COUNT n = satAdd Fld.CORE_NER_COUNT_COUNT.len (s.get Fld.CORE_NER_COUNT_COUNT n) a.count ∧
    t.get Fld.CORE_NER_INFO_VALID n = 1 ∧
    (s.get Fld.CORE_NER_INFO_VALID n = 0 → t.get Fld.CORE_NER_INFO_CAUSE n = e.cause % 2 ^ Fld.CORE_NER_INFO_CAUSE.len ∧
      t.get Fld.CORE_NER_SEQ_SEQ n = e.seq % 2 ^ 32 ∧ t.get Fld.CORE_PAGE_EVENT_NUMERIC n = 1) ∧
    (s.get Fld.CORE_NER_INFO_VALID n = 1 → keyLt e.key (s.nerKey n) = false →
      t.get Fld.CORE_NER_SEQ_SEQ n = s.get Fld.CORE_NER_SEQ_SEQ n ∧ t.get Fld.CORE_NER_INFO_CAUSE n = s.get Fld.CORE_NER_INFO_CAUSE n ∧
      t.get Fld.CORE_NER_INFO_REPLACED n = s.get Fld.CORE_NER_INFO_REPLACED n) ∧
    (s.get Fld.CORE_NER_INFO_VALID n = 1 → keyLt e.key (s.nerKey n) = true →
      t.get Fld.CORE_NER_SEQ_SEQ n = e.seq % 2 ^ 32 ∧ t.get Fld.CORE_NER_INFO_CAUSE n = e.cause % 2 ^ Fld.CORE_NER_INFO_CAUSE.len ∧
      t.get Fld.CORE_NER_INFO_UNIT n = e.unit % 2 ^ Fld.CORE_NER_INFO_UNIT.len ∧ t.get Fld.CORE_NER_INFO_REPLACED n = 1) ∧
    (s.get Fld.CORE_NER_INFO_VALID n = 1 → t.get Fld.CORE_PAGE_EVENT_NUMERIC n = s.get Fld.CORE_PAGE_EVENT_NUMERIC n ∧
      ((s.core n).trap = false → t.irq = s.irq ∧ t.hostMsgs = s.hostMsgs ∧ t.evq = s.evq)) ∧
    ((s.core n).trap = true → t.get Fld.CORE_CORE_FAULT_CODE n = 0x0E ∧ t.get Fld.CORE_FAULT_SEQ_SEQ n = e.seq % 2 ^ 32 ∧ (t.core n).run = 3) ∧
    ((s.core n).trap = false → (t.core n).run = 1 ∧ (t.core n).vregs = (s.core n).vregs)

/-! ### Core memory and field memory -/

/-- An access within one line whose check fails changes nothing and gives its status: a granule that is not ALLOC, or is another domain's,
is "protection", a sealed line that the array's pass traffic does not reach is "sealed line", and the window of a core whose memory is
lost is "unit retired"; a data access of this die to the control aperture is refused, or on an unpopulated page reads 0, writes nothing
and is counted. A write that every check allows, in memory without errors, is what a read then returns; every byte outside it, and all
but memory, stands (R17, R42, R53, R221, R235, R241). -/
def Obligations.MemoryKeepsDomainsApart : Prop :=
  ∀ (s : State) (w : Who) (addr : Nat) (b : Bytes),
    (b ≠ [] → addr % 64 + b.length ≤ 64 → inAperture addr = false → s.checkAccess w addr b.length ≠ 0 →
      s.writeMem w addr b = (s, s.checkAccess w addr b.length) ∧ s.readMem w addr b.length = ⟨s, s.checkAccess w addr b.length, []⟩) ∧
    (b ≠ [] → addr % 64 + b.length ≤ 64 → inAperture addr = true → w.own = true →
      (populated (aperturePage addr) = true → (s.writeMem w addr b).2 = stProtection ∧ (s.readMem w addr b.length).status = stProtection) ∧
      (populated (aperturePage addr) = false → (s.writeMem w addr b).2 = 0 ∧ (s.readMem w addr b.length).status = 0 ∧
        (s.readMem w addr b.length).bytes = zeros b.length ∧ (s.writeMem w addr b).1.get Fld.ERR_ERR_UNPOP_COUNT =
          satAdd Fld.ERR_ERR_UNPOP_COUNT.len (s.get Fld.ERR_ERR_UNPOP_COUNT) 1)) ∧
    (∀ u < 64, memUnit addr = some u → s.coreGone u = true → s.checkAccess w addr b.length = stRetired) ∧
    (∀ u, memUnit addr = some u → (u < 64 → s.coreGone u = false) →
      (s.granState u (granOf u addr) ≠ 1 ∨ s.granDomain u (granOf u addr) ≠ w.dom → s.checkAccess w addr b.length = stProtection) ∧
      (s.granState u (granOf u addr) = 1 → s.granDomain u (granOf u addr) = w.dom → s.granSealed u (granOf u addr) = true → w.pass = false →
        s.checkAccess w addr b.length = stSealed)) ∧
    (s.ecc = [] → s.fixups = [] → (∀ c ∈ linesOf addr b.length, s.checkAccess w c.1 c.2 = 0) →
      let t := (s.writeMem w addr b).1
      (s.writeMem w addr b).2 = 0 ∧ t = { s with mem := t.mem } ∧ t.readMem w addr b.length = ⟨t, 0, b⟩ ∧
      ∀ a, a < addr ∨ addr + b.length ≤ a → t.byteAt a = s.byteAt a)

/-- A CLOSING region goes to SCRUB together, or to HELD under `SCRUB_HOLD`; a scrubbed granule holds zeros and is FREE, and no other
granule or byte changes; a write of `SCRUB_HOLD` = 0 by DBG sends every HELD granule to SCRUB; a corrected unit is written back clean;
and a patrol pass ends its period, changes no byte
while no core is in its recovery test, and sets `PATROL_PASS` (R229, R230, R236-R238). -/
def Obligations.RegionsCloseAndAreScrubbed : Prop :=
  ∀ s : State,
    (∀ u < 72, ∀ g < granCount u, s.granState u g = 2 → s.granHead u g = true → g + s.granLen u g ≤ granCount u →
      (∀ i < s.granLen u g, s.granState u (g + i) = 2) → Answers (exec (.regionCloseEnd u g) s) fun t =>
        (∀ i < s.granLen u g, t.granState u (g + i) = if s.get Fld.FLD_FLD_DBGCTL_SCRUB_HOLD = 1 then 4 else 3) ∧ t.mem = s.mem ∧
        ∀ v < 72, ∀ h < granCount v, (v ≠ u ∨ h < g ∨ g + s.granLen u g ≤ h) → t.gran v h = s.gran v h) ∧
    (∀ u < 72, ∀ g < granCount u, s.granState u g = 3 → Answers (exec (.scrubComplete u g) s) fun t =>
      t.gran u g = 0 ∧
      (∀ a, t.byteAt a =
        if unitBase u + g * granSize u ≤ a ∧ a < unitBase u + (g + 1) * granSize u then 0 else s.byteAt a) ∧
      ∀ v < 72, ∀ h < granCount v, (v ≠ u ∨ h ≠ g) → t.gran v h = s.gran v h) ∧
    (∀ word ∈ s.fixups, Answers (exec (.correctedWriteback word) s) fun t =>
      (∀ i < (s.unitOf word).2, t.flips (word + i) = 0) ∧ word ∉ t.fixups ∧
      (s.unitFlips word ≤ (if (s.unitOf word).2 = 1 then 1 else 2) → t.mem = s.mem) ∧
      ∀ k, k < word ∨ word + (s.unitOf word).2 ≤ k → t.flips k = s.flips k) ∧
    (s.get Fld.FLD_FLD_CFG_PATROL_HOURS ≠ 0 → s.patrolFrom + s.patrolSpan ≤ s.now → (∀ i < 72, s.get Fld.CL_PC_STATE_STATE i ≠ 6) →
      Answers (exec .patrolPeriod s) fun t =>
        t.get Fld.FLD_PAGE_EVENT_PATROL_PASS = 1 ∧ t.patrolFrom = s.patrolFrom + s.patrolSpan ∧ t.mem = s.mem) ∧
    (s.get Fld.FLD_FLD_CFG_PATROL_HOURS = 0 ∨ s.now < s.patrolFrom + s.patrolSpan → exec .patrolPeriod s = .next s) ∧
    (∀ a : Acc, a.cls = .dbg → s.portOpen a = true → s.unlocked = true →
      (Answers (exec (.scrubHoldWrite a false) s) fun t => t.ctl.code = 0 ∧ t.get Fld.FLD_FLD_DBGCTL_SCRUB_HOLD = 0 ∧
        ∀ v < 72, ∀ h < granCount v, t.granState v h = if s.granState v h = 4 then 3 else s.granState v h) ∧
      (Answers (exec (.scrubHoldWrite a true) s) fun t => t.ctl.code = 0 ∧ t.get Fld.FLD_FLD_DBGCTL_SCRUB_HOLD = 1 ∧
        ∀ v < 72, ∀ h < granCount v, t.gran v h = s.gran v h))

/-! ### The move engines -/

/-- Slot `k` holds a descriptor of operation `op` that may start (R249, R251). -/
structure Sys2Proof.Machine.MoveReady (s : State) (k op : Nat) : Prop where
  slot : k < 2048
  held : s.moveHeld k = true
  live : (s.move k).status = none ∧ (s.move k).dead = false
  op : mvOp (s.move k).w = op
  order : (s.move k).started = true ∨ s.moveBlocked (s.move k) = false

/-- The descriptor in slot `k` copies or fills one row of this die's memory that needs one access on each side; no memory access of it
meets an error. -/
structure Sys2Proof.Machine.OneRow (s : State) (k : Nat) : Prop where
  fresh : (s.move k).wait = .run ∧ (s.move k).row = 0 ∧ (s.move k).off = 0 ∧ (s.move k).got = [] ∧ (s.move k).walked = none
  item : ∃ q serial pos, (s.move k).owner = .item q serial pos
  here : mvDKind (s.move k).w = 0 ∧ mvDst (s.move k).w + mvRowLen (s.move k).w ≤ 2 ^ 32
  row : mvRowsM1 (s.move k).w = 0 ∧ 0 < mvRowLen (s.move k).w ∧ mvDst (s.move k).w % 256 + mvRowLen (s.move k).w ≤ 256
  clean : s.ecc = [] ∧ s.fixups = []
  writable : ∀ c ∈ linesOf (mvDst (s.move k).w) (mvRowLen (s.move k).w), s.checkAccess (s.moveWho k) c.1 c.2 = 0

/-- MOVE gives its descriptor to an engine in its core's turn and counts it, MWAIT lets decode go on at a count of 0; a descriptor that is
invalid ends with status 1; NOP, COPY and FILL end OK with the bytes moved; and the end of a core's descriptor frees its slot and its
count, with a core fault when it failed (R246-R254). Beyond these rules it rests on the model's reading: assumptions 13, 73 and 77. -/
def Obligations.DescriptorsRunToTheirEnd : Prop :=
  ∀ s : State,
    (∀ c < 64, ∀ d q k, (s.core c).mq = d :: q → iMajor d.word = 0x10 → (s.core c).mvCnt.getD (iSel d.word) 0 < 255 →
      s.moveTurn c = true → s.freeSlot (c / 8 * 2) (c / 8 * 2 + 2) = some k → (s.readMem (s.coreWho c 0) (iAddr32 d.word) 64).status = 0 →
      (s.readMem (s.coreWho c 0) (iAddr32 d.word) 64).state.core c = s.core c → Answers (exec (.move c) s) fun t =>
        let w := leVal (s.readMem (s.coreWho c 0) (iAddr32 d.word) 64).bytes
        t.moveHeld k = true ∧ (t.move k).w = w ∧ (t.move k).dom = (s.core c).dom ∧ (t.move k).started = false ∧
        (t.move k).owner = .core c (iSel d.word) d.seq (s.core c).gang ∧ t.core c = { s.core c with
          mq := q, mvCnt := (s.core c).mvCnt.set (iSel d.word) ((s.core c).mvCnt.getD (iSel d.word) 0 + 1) } ∧
        tget (fun _ => 7) (c / 8) t.moveLast = c % 8 ∧
        ((mvUsed (mvOp w) = none ∨ mvSKind w = 3 ∨ mvDKind w = 3) → (t.move k).status = some 1)) ∧
    (∀ c < 64, ∀ d q, (s.core c).mq = d :: q → iMajor d.word = 0x10 → s.moveTurn c = false → exec (.move c) s = .next s) ∧
    (∀ c < 64, ∀ d q, (s.core c).mq = d :: q → iMajor d.word = 0x11 →
      (if waitAll d.word then (s.core c).mvCnt.all (· == 0) else (s.core c).mvCnt.getD (iSel d.word) 0 == 0) = true →
      Answers (exec (.mwait c) s) fun t => CoreBecomes s t c { s.core c with mq := q }) ∧
    (∀ k, MoveReady s k 0 → Answers (exec (.moveNop k) s) fun t =>
      t = { s with moves := t.moves } ∧ t.move k = { s.move k with started := true, status := some 0, wait := .run } ∧
      ∀ j, j ≠ k → t.move j = s.move j) ∧
    (∀ k, MoveReady s k 2 → OneRow s k → Answers (exec (.moveFill k) s) fun t =>
      let w := (s.move k).w
      t = { s with moves := t.moves, mem := t.mem } ∧ (t.move k).status = some 0 ∧
      t.bytesAt (mvDst w) (mvRowLen w) = (List.range (mvRowLen w)).map (fun i => (leBytes 4 (mvPattern w)).getD (i % 4) 0) ∧
      ∀ a, a < mvDst w ∨ mvDst w + mvRowLen w ≤ a → t.byteAt a = s.byteAt a) ∧
    (∀ k, MoveReady s k 1 → OneRow s k → mvSKind (s.move k).w = 0 → mvSrc (s.move k).w + mvRowLen (s.move k).w ≤ 2 ^ 32 →
      mvSrc (s.move k).w % 256 + mvRowLen (s.move k).w ≤ 256 →
      (∀ c ∈ linesOf (mvSrc (s.move k).w) (mvRowLen (s.move k).w), s.checkAccess (s.moveWho k) c.1 c.2 = 0) →
      Answers (exec (.moveCopy k) s) fun t =>
        let w := (s.move k).w
        t = { s with moves := t.moves, mem := t.mem } ∧ (t.move k).status = some 0 ∧
        t.bytesAt (mvDst w) (mvRowLen w) = s.bytesAt (mvSrc w) (mvRowLen w) ∧
        ∀ a, a < mvDst w ∨ mvDst w + mvRowLen w ≤ a → t.byteAt a = s.byteAt a) ∧
    (∀ k < 2048, ∀ st c ctr seq, (s.move k).status = some st → (s.move k).owner = .core c ctr seq (s.core c).gang →
      Answers (exec (.moveComplete k) s) fun t =>
        t.moveHeld k = false ∧ (∀ j, j ≠ k → t.move j = s.move j) ∧
        (st = 0 → t.core c = { s.core c with mvCnt := (s.core c).mvCnt.set ctr ((s.core c).mvCnt.getD ctr 0 - 1) }) ∧
        (st ≠ 0 → (s.core c).run = 1 → (s.core c).test = false → c < 64 →
          t.get Fld.CORE_CORE_FAULT_CODE c = (if st = 1 then 2 else if st = 5 then 0xA else if st = 8 then 0xC else 9) ∧
          t.get Fld.CORE_FAULT_SEQ_SEQ c = seq % 2 ^ 32 ∧ (t.core c).run = 3))

/-! ### Paging -/

/-- Every frame under a page is mapped and not FREE, and no frame lies under two pages (R258, R261). -/
def Sys2Proof.Machine.PagesApart (s : State) : Prop :=
  (∀ e ∈ s.pages, ∀ i < pageFrames e.2.size, (s.frame (e.2.frame + i)).mapped = true ∧ (s.frame (e.2.frame + i)).code ≠ 0) ∧
  ∀ e ∈ s.pages, ∀ f ∈ s.pages, e.1 ≠ f.1 → ∀ i < pageFrames e.2.size, ∀ j < pageFrames f.2.size, e.2.frame + i ≠ f.2.frame + j

/-- A MAP of pages that are free makes every page of its range translate to frames of its own: frames of the pool that were FREE, or PENDING
and unmapped, before, each under one of its pages only. A page that is mapped already refuses the whole MAP with "already mapped". Where
no frame lay under two pages, none does after any MAP (R250, R257, R258, R261, R263, R268). Beyond these rules it rests on the model's
reading: assumption 12. -/
def Sys2Proof.Machine.MapGivesEveryPageItsFrames : Prop :=
  ∀ (s : State) (k : Nat), MoveReady s k 3 → (s.move k).started = false → s.xltBusy k (s.move k) = false →
    mvBeyond (s.move k).w = false → s.domActive (s.move k).dom = true → mvClass (s.move k).w = 0 → mvPgsz (s.move k).w < 3 →
    let w := (s.move k).w
    let dom := (s.move k).dom
    let size := pageBytes (mvPgsz w)
    let u := s.setMove k { s.move k with started := true }
    (s.pagesIn dom (mvDst w) (mvDst w + mvRowLen w) ≠ [] → Answers (exec (.moveMap k) s) fun t =>
      t = { s with moves := t.moves } ∧ (t.move k).status = some 0xC) ∧
    ((u.mapRange dom (mvDst w) (mvRowLen w) (mvPgsz w) 0 (mvWrite w) true).2 = 0 → Answers (exec (.moveMap k) s) fun t =>
      (t.move k).status = some 0 ∧ t.mem = s.mem ∧
      (∀ i < mvRowLen w / size, let p := t.pageAt dom (mvDst w + i * size)
        p.size = mvPgsz w ∧ p.write = mvWrite w ∧ p.live = true ∧ ∀ j < pageFrames (mvPgsz w), (t.frame (p.frame + j)).mapped = true ∧
          s.poolLo ≤ p.frame + j ∧ p.frame + j < s.poolHi ∧
          ((s.frame (p.frame + j)).code = 0 ∨ s.frame (p.frame + j) = { code := 2, mapped := false })) ∧
      (∀ i < mvRowLen w / size, ∀ j < mvRowLen w / size, i ≠ j → ∀ a < pageFrames (mvPgsz w), ∀ b < pageFrames (mvPgsz w),
        (t.pageAt dom (mvDst w + i * size)).frame + a ≠ (t.pageAt dom (mvDst w + j * size)).frame + b) ∧
      ∀ key, (∀ i < mvRowLen w / size, key ≠ pageKey dom (mvDst w + i * size)) →
        tget (fun _ => Page.none) key t.pages = tget (fun _ => Page.none) key s.pages) ∧
    (PagesApart s → Answers (exec (.moveMap k) s) PagesApart)

/-- UNMAP takes every page of its range away and, once no access of before is under way, gives their frames back PENDING; a TOUCH of a page
that the die TLB holds ends at once and of another starts a walk; a walk that has read its tables fills the TLBs that wait for it; the
end of the zero writes of a PENDING frame makes it MAPPED, or ends the write that asked for them with their status; and the scrubber
starts the 16 zero writes of a frame, whose last reply makes it FREE (R251, R264, R267, R271, R272). Beyond these rules it rests on the
model's reading: assumptions 12, 13 and 76. -/
def Sys2Proof.Machine.PagesAndFramesComeAndGo : Prop :=
  ∀ s : State,
    (∀ k, MoveReady s k 4 → (s.move k).started = false → s.xltBusy k (s.move k) = false → mvBeyond (s.move k).w = false →
      s.domActive (s.move k).dom = true → Answers (exec (.moveUnmap k) s) fun t =>
        let lo := mvDst (s.move k).w
        let hi := lo + mvRowLen (s.move k).w
        t.pagesIn (s.move k).dom lo hi = [] ∧ (t.move k).wait = .drain ∧ t.frames = s.frames ∧ t.mem = s.mem ∧
        (t.move k).held = ((s.pagesIn (s.move k).dom lo hi).map (fun e => (List.range (pageFrames e.2.size)).map (e.2.frame + ·))).flatten ∧
        ∀ key, (∀ e ∈ s.pagesIn (s.move k).dom lo hi, key ≠ pageKey (s.move k).dom e.1) →
          tget (fun _ => Page.none) key t.pages = tget (fun _ => Page.none) key s.pages) ∧
    (∀ k < 2048, (s.move k).wait = .drain → s.framesBusy (s.move k).held = false → Answers (exec (.unmapComplete k) s) fun t =>
      (t.move k).status = some 0 ∧ ∀ f ∈ (s.move k).held, (t.frame f).mapped = false ∧ ((t.frame f).code = 2 ∨ (t.frame f).code = 3)) ∧
    (∀ k, MoveReady s k 5 → (s.move k).started = false → (s.move k).off = 0 → (s.move k).held = [] → mvRowLen (s.move k).w = 4096 →
      mvDst (s.move k).w % 4096 = 0 → mvBeyond (s.move k).w = false → (∀ e ∈ s.ecc, e.1 < eccTlb 0 0) →
      ((s.tlbHit (s.move k).dom (mvDst (s.move k).w) 8).isSome = true → Answers (exec (.moveTouch k) s) fun t =>
        t = { s with moves := t.moves } ∧ (t.move k).status = some 0) ∧
      ((s.tlbHit (s.move k).dom (mvDst (s.move k).w) 8).isSome = false → s.walks = [] → Answers (exec (.moveTouch k) s) fun t =>
        (∃ w, t.walks = [w] ∧ w.dom = (s.move k).dom ∧ w.vpn = mvDst (s.move k).w / 4096 ∧ w.cls = [8]) ∧ (t.move k).status = none ∧
        t.get Fld.XLT_XLT_WALKS_COUNT = (s.get Fld.XLT_XLT_WALKS_COUNT + 1) % 2 ^ Fld.XLT_XLT_WALKS_COUNT.len)) ∧
    (∀ dom < 256, ∀ cl < 9, ∀ va base p, s.moves = [] → s.pageOf dom va = some (base, p) → p.live = true →
      s.walks = [{ dom := dom, vpn := va / 4096, cls := [cl], reads := [], tag := none, bad := none }] →
      ∃ u : State, exec (.walkComplete dom va cl) s = .next u.settle ∧ u.walks = [] ∧ pageKey dom base ∈ u.tlb 8 ∧ pageKey dom base ∈ u.tlb cl ∧
        u.pages = s.pages ∧ u.frames = s.frames ∧ u.mem = s.mem) ∧
    (∀ f, s.frame f = { code := 2, mapped := true } → s.zeroing = [{ frame := f, waiters := [], left := 0, status := 0, scrub := false, first := none }] →
      ∃ u : State, exec (.pendingZeroWriteDone f true) s = .next u.settle ∧ u = { s with zeroing := [], frames := u.frames } ∧
        u.frame f = { code := 1, mapped := true } ∧ ∀ g, g ≠ f → u.frame g = s.frame g) ∧
    (∀ f k st, st ≠ 0 → s.zeroing = [{ frame := f, waiters := [k], left := 0, status := st, scrub := false, first := none }] →
      ∃ u : State, exec (.pendingZeroWriteDone f false) s = .next u.settle ∧ u = { s with zeroing := [], moves := u.moves } ∧
        (u.move k).status = some st ∧ ∀ j, j ≠ k → u.move j = s.move j) ∧
    (∀ f, s.poolLo ≤ f → f < s.poolHi → s.frame f = { code := 2, mapped := false } → s.get Fld.XLT_XLT_CFG_SCRUB_RATE ≠ 0 → s.scrubHold = false →
      (∀ z ∈ s.zeroing, z.frame ≠ f) →
      (∀ i < 16, s.reachable (s.stackOf f) 1 (pktKey (s.stackWrite f (i * 256) 0 (zeros 256))) = true) →
      Answers (exec (.frameScrub f) s) fun t =>
        t.frames = s.frames ∧ t.zeroing = s.zeroing ++ [{ frame := f, waiters := [], left := 16, status := 0, scrub := true, first := none }] ∧
        t.reqs.length = s.reqs.length + 16) ∧
    (∀ f, s.frame f = { code := 2, mapped := false } → s.zeroing = [{ frame := f, waiters := [], left := 1, status := 0, scrub := true, first := none }] →
      (s.zeroReply f 0).zeroing = [] ∧ (s.zeroReply f 0).frame f = { code := 0, mapped := false })

/-- A MAP of pages that are free makes every page of its range translate to frames of its own: frames of the pool that were FREE, or PENDING
and unmapped, before, each under one of its pages only. A page that is mapped already refuses the whole MAP with "already mapped". Where
no frame lay under two pages, none does after any MAP (R250, R257, R258, R261, R263, R268). Beyond these rules it rests on the model's
reading: assumption 12. UNMAP takes every page of its range away and, once no access of before is under way, gives their frames back
PENDING; a TOUCH of a page that the die TLB holds ends at once and of another starts a walk; a walk that has read its tables fills the
TLBs that wait for it; the end of the zero writes of a PENDING frame makes it MAPPED, or ends the write that asked for them with their
status; and the scrubber starts the 16 zero writes of a frame, whose last reply makes it FREE (R251, R264, R267, R271, R272). Beyond
these rules it rests on the model's reading: assumptions 12, 13 and 76. -/
def Obligations.PagesAreMappedAndReturned : Prop :=
  MapGivesEveryPageItsFrames ∧ PagesAndFramesComeAndGo

/-! ### Dispatch -/

/-- A doorbell moves `TAIL`, is ignored while its queue is DISABLED or DRAINING, or is refused; a queue is enabled empty, or its ENABLE
is refused with an event; it drains to DISABLED, resumes after an error, or drops what waits;
and `CHEAD` moves over records that were written (R281, R282, R299, R310). -/
def Obligations.QueuesObeyTheirRegisters : Prop :=
  ∀ (s : State) (a : Acc) (q : Nat), a.cls = .mp → q < 65536 →
    (s.qState q = 1 ∨ s.qState q = 2 → ∀ tail < 65536,
      let n := s.qSize q
      let head := s.get Fld.DSP_Q_PTRS_HEAD q
      Answers (exec (.doorbell a q tail) s) fun t => t.ctl.code = 0 ∧ t.items = s.items ∧
        t.get Fld.DSP_Q_PTRS_HEAD q = head ∧
        (if tail < n ∧ (s.get Fld.DSP_Q_PTRS_TAIL q + n - head) % n ≤ (tail + n - head) % n then t.get Fld.DSP_Q_PTRS_TAIL q = tail
         else t.get Fld.DSP_Q_PTRS_TAIL q = s.get Fld.DSP_Q_PTRS_TAIL q ∧ t.get Fld.DSP_PAGE_EVENT_DOORBELL_BAD = 1)) ∧
    (s.qState q = 4 → ∀ tail < 65536, Answers (exec (.doorbell a q tail) s) fun t =>
      t.ctl.code = 1 ∧ t.get Fld.DSP_Q_PTRS_TAIL q = s.get Fld.DSP_Q_PTRS_TAIL q) ∧
    (s.qState q = 0 ∨ s.qState q = 3 → ∀ tail < 65536, Answers (exec (.doorbell a q tail) s) fun t =>
      t.ctl.code = 0 ∧ t.get Fld.DSP_Q_PTRS_TAIL q = s.get Fld.DSP_Q_PTRS_TAIL q ∧ t.get Fld.DSP_PAGE_EVENT_DOORBELL_BAD = 1 ∧ t.items = s.items) ∧
    (s.qState q ≠ 0 ∨ s.get Fld.DSP_Q_RING_LOG2 q = 0 ∨ 16 < s.get Fld.DSP_Q_RING_LOG2 q ∨ s.domActive (s.qDom q) = false →
      Answers (exec (.qEnable a q) s) fun t => t.get Fld.DSP_PAGE_EVENT_Q_ENABLE_REFUSED = 1 ∧
        t.get Fld.DSP_Q_STATE_STATE q = s.get Fld.DSP_Q_STATE_STATE q ∧ t.get Fld.DSP_Q_PTRS_HEAD q = s.get Fld.DSP_Q_PTRS_HEAD q ∧
        t.get Fld.DSP_Q_PTRS_TAIL q = s.get Fld.DSP_Q_PTRS_TAIL q ∧ t.items = s.items) ∧
    (s.qState q = 0 → 1 ≤ s.get Fld.DSP_Q_RING_LOG2 q → s.get Fld.DSP_Q_RING_LOG2 q ≤ 16 → s.domActive (s.qDom q) = true →
      Answers (exec (.qEnable a q) s) fun t =>
        t.ctl.code = 0 ∧ t.get Fld.DSP_Q_STATE_STATE q = 1 ∧ t.get Fld.DSP_Q_PTRS_HEAD q = 0 ∧ t.get Fld.DSP_Q_PTRS_TAIL q = 0 ∧
        t.get Fld.DSP_Q_CMPL_CTAIL q = 0 ∧ t.get Fld.DSP_Q_CMPL_CHEAD q = 0 ∧ t.get Fld.DSP_Q_SERIAL_SERIAL q = 0 ∧ t.queueSt q = QueueSt.idle) ∧
    (1 ≤ s.qState q → s.qState q ≤ 2 → Answers (exec (.qDisable a q) s) fun t =>
      t.get Fld.DSP_Q_STATE_STATE q = (if s.inFlight q = [] then 0 else 3) ∧ t.items = s.items) ∧
    (s.qState q = 2 →
      (Answers (exec (.qResume a q) s) fun t => t.get Fld.DSP_Q_STATE_STATE q = 1 ∧ t.get Fld.DSP_Q_PTRS_HEAD q = s.get Fld.DSP_Q_PTRS_HEAD q) ∧
      (Answers (exec (.qFlush a q) s) fun t => t.get Fld.DSP_Q_STATE_STATE q = 1 ∧ t.get Fld.DSP_Q_PTRS_HEAD q = s.get Fld.DSP_Q_PTRS_TAIL q ∧
        t.items = s.items)) ∧
    (∀ v < 65536,
      let n : Int := s.qSize q
      let head : Int := s.get Fld.DSP_Q_CMPL_CHEAD q
      let tail : Int := s.get Fld.DSP_Q_CMPL_CTAIL q
      Answers (exec (.cheadWrite a q v) s) fun t =>
        (if 1 ≤ s.qState q ∧ s.qState q ≤ 3 ∧ (v : Int) < n ∧ (v - head) % n ≤ (tail - head) % n then t.get Fld.DSP_Q_CMPL_CHEAD q = v
         else t.get Fld.DSP_Q_CMPL_CHEAD q = s.get Fld.DSP_Q_CMPL_CHEAD q ∧ t.get Fld.DSP_PAGE_EVENT_CHEAD_BAD = 1) ∧
        t.get Fld.DSP_Q_CMPL_CTAIL q = s.get Fld.DSP_Q_CMPL_CTAIL q)

/-- A domain is activated with its root of 8 frames of its own, waits for the cadastre, or is refused by its limit; its teardown stops its
queues at once, and its end leaves it inactive without a page, a table or a signal, and its queues DISABLED (R258-R260, R300, R301).
Beyond these rules it rests on the model's reading: assumption 12. -/
def Obligations.DomainsComeAndGo : Prop :=
  ∀ (s : State) (a : Acc) (dom : Nat), a.cls = .mp → dom < 256 →
    (s.get Fld.DSP_DOM_CMD_STATUS_BUSY = 0 → s.cadastre = true → s.get Fld.DSP_DOM_CFG_STATE 0 dom = 0 → ∀ kind < 3,
      (s.get Fld.XLT_DOM_LIMIT_FRAMES dom = 0 → Answers (exec (.domActivate a dom kind) s) fun t =>
        t.get Fld.DSP_DOM_CMD_STATUS_RESULT = 2 ∧ t.get Fld.DSP_DOM_CFG_STATE 0 dom = 0) ∧
      (1 ≤ s.get Fld.XLT_DOM_LIMIT_FRAMES dom →
        s.get Fld.XLT_DOM_LIMIT_FRAMES dom < 8 ∨ (s.put Fld.DSP_DOM_CMD_STATUS_DOMAIN dom).allocRoot dom = none → Answers (exec (.domActivate a dom kind) s) fun t =>
        t.get Fld.DSP_DOM_CMD_STATUS_RESULT = 1 ∧ t.get Fld.DSP_DOM_CFG_STATE 0 dom = 0) ∧
      (8 ≤ s.get Fld.XLT_DOM_LIMIT_FRAMES dom → s.frameSpace ≤ 2 ^ 30 → ((s.put Fld.DSP_DOM_CMD_STATUS_DOMAIN dom).allocRoot dom).isSome = true →
        Answers (exec (.domActivate a dom kind) s) fun t =>
          t.get Fld.DSP_DOM_CMD_STATUS_RESULT = 0 ∧ t.get Fld.DSP_DOM_CMD_STATUS_BUSY = 0 ∧ t.get Fld.DSP_DOM_CFG_STATE 0 dom = 1 ∧
          t.get Fld.DSP_DOM_CFG_KIND 0 dom = kind ∧ t.get Fld.XLT_DOM_USED_FRAMES dom = 8 ∧ t.ctl.code = 0 ∧
          (∀ i < 8, let f := t.tableFrame (tableKey dom 0 i)
            f ≠ 2 ^ 30 ∧ (t.frame f).mapped = true ∧ s.poolLo ≤ f ∧ f < s.poolHi ∧
            ((s.frame f).code = 0 ∨ s.frame f = { code := 2, mapped := false })) ∧
          ∀ i < 8, ∀ j < 8, i ≠ j → t.tableFrame (tableKey dom 0 i) ≠ t.tableFrame (tableKey dom 0 j))) ∧
    (s.get Fld.DSP_DOM_CMD_STATUS_BUSY = 0 → s.cadastre = false → ∀ kind < 4, Answers (exec (.domActivate a dom kind) s) fun t =>
      t.domWait = some (dom, kind) ∧ t.get Fld.DSP_DOM_CMD_STATUS_BUSY = 1 ∧ t.frames = s.frames) ∧
    (s.released = true → s.domWait = none → exec .cadastreWritten s = .next { s with cadastre := true, domWait := none }) ∧
    (s.get Fld.DSP_DOM_CMD_STATUS_BUSY = 0 → s.get Fld.DSP_DOM_CFG_STATE 0 dom = 1 → Answers (exec (.domTearDown a dom) s) fun t =>
      t.get Fld.DSP_DOM_CFG_STATE 0 dom = 2 ∧ t.get Fld.DSP_DOM_CMD_STATUS_BUSY = 1 ∧ (∀ q < 65536, s.qDom q = dom → t.qState q = 4) ∧
      t.mem = s.mem) ∧
    (s.domDying dom = true → (∀ g ∈ s.gangs, g.dom ≠ dom) → (∀ e ∈ s.moves, e.2.dom ≠ dom) → Answers (exec (.teardownComplete dom) s) fun t =>
      t.get Fld.DSP_DOM_CFG_STATE 0 dom = 0 ∧ t.get Fld.DSP_DOM_CMD_STATUS_BUSY = 0 ∧ t.get Fld.DSP_DOM_CMD_STATUS_RESULT = 0 ∧
      (∀ q < 65536, s.qDom q = dom → t.qState q = 0 ∧ t.get Fld.DSP_Q_STATE_STATE q = 0) ∧
      t.get Fld.DSP_PAGE_EVENT_DOM_DOWN = 1 ∧ t.get Fld.XLT_DOM_USED_FRAMES dom = 0 ∧ (∀ e ∈ t.tables, e.1 / 2 ^ 24 ≠ dom) ∧ (∀ e ∈ t.pages, e.1 / 2 ^ 30 ≠ dom) ∧
      (∀ i ∈ t.items, s.qDom i.queue ≠ dom) ∧ (∀ c < 1024, s.sigOwner c = dom → t.sig c = 0) ∧
      ∀ u < 72, ∀ g < granCount u, ¬(t.granState u g = 1 ∧ t.granHead u g = true ∧ t.granDomain u g = dom))

/-- The item `w`, which dispatch has read, stands at the head of queue `q`, may start, and is next in turn (R283, R286, R288). -/
structure Sys2Proof.Machine.HeadItem (s : State) (q w : Nat) : Prop where
  queue : q < 65536
  start : s.mayStart q = true
  fresh : s.rerun q = none
  waits : s.get Fld.DSP_Q_PTRS_HEAD q ≠ s.get Fld.DSP_Q_PTRS_TAIL q
  read : (s.queueSt q).head = some (0, w)
  valid : s.itemInvalid q w = false
  ready : s.itemReady q w = true
  turn : s.qTurn q = true

/-- The head item has left the ring with its serial. -/
def Sys2Proof.Machine.ItemTaken (s t : State) (q : Nat) : Prop :=
  t.get Fld.DSP_Q_PTRS_HEAD q = (s.get Fld.DSP_Q_PTRS_HEAD q + 1) % s.qSize q % 65536 ∧
  t.get Fld.DSP_Q_SERIAL_SERIAL q = (s.get Fld.DSP_Q_SERIAL_SERIAL q + 1) % 2 ^ 40

/-- The end of an item of queue `q` waits for the write of its record, behind the records of before. -/
def Sys2Proof.Machine.RecordsItem (s u : State) (q status : Nat) (it : Item → Prop) : Prop :=
  ∃ (r : RecJob) (i : Item), u.records = s.records ++ [r] ∧ r.queue = q ∧ r.status = status ∧ r.item = some i ∧ it i

/-- The items: NOP ends; a kernel starts on the lowest free cores that `PLACE` allows with every region that it requests, or waits for cores
or for space, when what it took has been released (CLOSING); one of an open replay group starts at its level's code address and may
write the group's staging regions; a list of descriptors is read one by one, each for the first free slot of the die engines; a region
is allocated or released; a replay group opens, and RGEND takes it out of the queue; an item that waited is placed by its retry; and an
item that has not been read yet is read first (R236, R283, R285, R287-R292, R302-R304). Beyond these rules it rests on the model's
reading: assumptions 52 and 53. -/
def Obligations.ItemsDoWhatTheirKindSays : Prop :=
  (∀ (s : State) (q w : Nat), HeadItem s q w →
    let serial := s.get Fld.DSP_Q_SERIAL_SERIAL q
    let mine (i : Item) : Prop := i.queue = q ∧ i.serial = serial ∧ i.w = w
    (wiKind w = 0 → ∃ u : State, exec (.itemNop q) s = .next u.settle ∧ ItemTaken s u q ∧ RecordsItem s u q 0 mine ∧ u.cores = s.cores ∧
      u.gangs = s.gangs) ∧
    (wiKind w = 1 → (s.queueSt q).group = none → wiReqs w = 0 →
      (∀ cores, pickCores s.coreFree (wiPlace w) (wiGang w) = some cores → handleAddr (fun _ => (0, 0)) (wiBase w) = some (wiBase w) →
        ∃ u : State, exec (.itemKernel q) s = .next u.settle ∧
          ItemTaken s u q ∧ u.mem = s.mem ∧ (∃ i ∈ u.items, mine i) ∧
          (∃ g : Gang, u.gangs = s.gangs ++ [g] ∧ g.members = cores ∧ g.queue = q ∧ g.dom = s.qDom q ∧ g.stop = none ∧
            g.kinst = q * 2 ^ 48 + serial % 2 ^ 40 * 256) ∧
          (∀ n ∈ cores, (u.core n).run = 1 ∧ (u.core n).pc = wiBase w ∧ (u.core n).codeLen = wiLen w ∧ (u.core n).step = wiStep w ∧
            (u.core n).seed = wiSeed w ∧ (u.core n).trap = wiTrap w ∧ (u.core n).dom = s.qDom q) ∧
          ∀ n, n ∉ cores → u.core n = s.core n) ∧
      (pickCores s.coreFree (wiPlace w) (wiGang w) = none → (pickCores (fun n => !s.isHole n) (wiPlace w) (wiGang w)).isSome = true →
        ∃ u : State, exec (.itemKernel q) s = .next u.settle ∧ u = { s with queues := u.queues } ∧ (u.queueSt q).forCores = true)) ∧
    (∀ b cores, wiKind w = 1 → (s.queueSt q).group = none → 0 < wiReqs w → (s.queueSt q).reqs = some (0, b) →
      let reqs := (List.range (wiReqs w)).map (fun i => req1 (leAt b (8 * i) 8))
      let slice := cores.headD 0 / 8
      (∀ e ∈ reqs, e.bad = false ∧ e.staging = false) → (reqs.map (·.handle)).eraseDups.length = wiReqs w →
      pickCores s.coreFree (wiPlace w) (wiGang w) = some cores →
      (∀ v own, s.allocAll (s.qDom q) cores slice slice reqs = (v, .ok own) → handleAddr (fun _ => (0, 0)) (wiBase w) = some (wiBase w) →
        ∃ u : State, exec (.itemKernel q) s = .next u.settle ∧ ItemTaken s u q ∧ u.mem = s.mem ∧
          (∃ g : Gang, u.gangs = s.gangs ++ [g] ∧ g.members = cores ∧ g.regions = own.map (fun p => (p.unit, p.gran)) ∧
            g.writable = own.map (fun p => (p.base, p.bytes))) ∧
          (∀ p ∈ own, u.granHead p.unit p.gran = true ∧ u.granLen p.unit p.gran = p.len ∧ ∀ i < p.len,
            s.granState p.unit (p.gran + i) = 0 ∧ u.granState p.unit (p.gran + i) = 1 ∧ u.granDomain p.unit (p.gran + i) = s.qDom q ∧
            u.granLife p.unit (p.gran + i) = 0) ∧
          ∀ i < cores.length, (u.core (cores.getD i 0)).run = 1 ∧ (u.core (cores.getD i 0)).pc = wiBase w ∧
            ∀ p ∈ own, p.member = none ∨ p.member = some i → (u.core (cores.getD i 0)).handle p.handle = (p.base, p.bytes)) ∧
      (∀ v, s.allocAll (s.qDom q) cores slice slice reqs = (v, .error 5) →
        ∃ u : State, exec (.itemKernel q) s = .next u.settle ∧ u = { v with queues := u.queues } ∧ (u.queueSt q).since.isSome = true ∧
          ∀ x < 72, ∀ g < granCount x, u.granState x g = s.granState x g ∨ (s.granState x g = 0 ∧ u.granState x g = 2))) ∧
    (∀ gr cores, wiKind w = 1 → (s.queueSt q).group = some gr → gr.aborted = false → wiReqs w = 0 →
      pickCores s.coreFree (wiPlace w) (wiGang w) = some cores →
      let code := (wiBase w + (gr.level - gr.first) * wiStride w) % 2 ^ 32
      handleAddr (fun _ => (0, 0)) code = some code →
      ∃ u : State, exec (.itemKernel q) s = .next u.settle ∧ ItemTaken s u q ∧ u.mem = s.mem ∧
        (∃ g : Gang, u.gangs = s.gangs ++ [g] ∧ g.members = cores ∧ g.group = true ∧ g.level = gr.level ∧
          g.kinst = q * 2 ^ 48 + serial % 2 ^ 40 * 256 + gr.attempt % 256 ∧
          g.writable = gr.staging.map (fun r => (unitBase r.2.1 + r.2.2.1 * granSize r.2.1, r.2.2.2 * granSize r.2.1))) ∧
        (u.queueSt q).group = some { gr with members := gr.members ++
          [{ ring := s.get Fld.DSP_Q_PTRS_HEAD q, serial := serial, w := w, recorded := false }] } ∧
        (∀ n ∈ cores, (u.core n).run = 1 ∧ (u.core n).pc = code) ∧ ∀ n, n ∉ cores → u.core n = s.core n) ∧
    ((s.queueSt q).since.isSome = true ∨ (s.queueSt q).forCores = true → ∃ t, exec (.placementRetry q) s = .next t ∧
      (wiKind w = 1 → exec (.itemKernel q) s = .next t) ∧ (wiKind w = 3 → exec (.itemRalloc q) s = .next t) ∧
      (wiKind w = 5 → exec (.rgbegin q) s = .next t)) ∧
    (wiKind w = 2 ∨ (wiKind w = 6 ∧ (s.queueSt q).group.any (fun g => !g.aborted) = true) →
      ∃ u : State, exec (if wiKind w = 2 then .itemMove q else .rgend q) s = .next u.settle ∧ ItemTaken s u q ∧
        (∃ i ∈ u.items, mine i ∧ i.next = 0 ∧ i.left = 0 ∧ i.group = if wiKind w = 6 then (s.queueSt q).group else none) ∧
        (wiKind w = 6 → (u.queueSt q).group = none) ∧
        ((s.freeSlot 16 32).isSome = true → u.accessing (.list q serial 0) = true)) ∧
    (∀ v x g, wiKind w = 3 → (req1 (wiReq w)).bad = false → (req1 (wiReq w)).staging = false →
      s.allocIn (if (req1 (wiReq w)).mem = 0 then [wiBase w % 64] else if (req1 (wiReq w)).mem = 1 then [64 + wiBase w % 8] else sliceOrder 0)
        { unit := 0, len := (req1 (wiReq w)).len, cls := (req1 (wiReq w)).cls, sealed := (req1 (wiReq w)).sealed, life := 1, dom := s.qDom q } = (v, .ok (x, g)) →
      ∃ u : State, exec (.itemRalloc q) s = .next u.settle ∧ ItemTaken s u q ∧ RecordsItem s u q 0 mine ∧ u.mem = s.mem ∧
        u.granHead x g = true ∧ u.granLen x g = (req1 (wiReq w)).len ∧
        ∀ i < (req1 (wiReq w)).len, s.granState x (g + i) = 0 ∧ u.granState x (g + i) = 1 ∧ u.granDomain x (g + i) = s.qDom q ∧ u.granLife x (g + i) = 1) ∧
    (∀ x g, wiKind w = 4 → s.regionAt (s.qDom q) (wiBase w) = some (x, g) → g + s.granLen x g ≤ granCount x →
      ∃ u : State, exec (.itemRfree q) s = .next u.settle ∧ ItemTaken s u q ∧ RecordsItem s u q 0 mine ∧
        ∀ i < s.granLen x g, u.granState x (g + i) = 2) ∧
    (wiKind w = 5 → wiReqs w = 0 → ∃ u : State, exec (.rgbegin q) s = .next u.settle ∧ ItemTaken s u q ∧ RecordsItem s u q 0 mine ∧
      ∃ g : Group, (u.queueSt q).group = some g ∧
        g.first = bitsAt w 320 2 ∧ g.last = bitsAt w 322 2 ∧ g.level = g.first ∧ g.attempt = 0 ∧ g.members = [] ∧ g.staging = []) ∧
    (wiKind w = 6 → (s.queueSt q).group.any (fun g => g.aborted) = true → ∃ u : State, exec (.rgend q) s = .next u.settle ∧
      ItemTaken s u q ∧ RecordsItem s u q 0xA mine ∧ (u.queueSt q).group = none)) ∧
  (∀ (s : State) (q serial pos k : Nat) (it : Item) (data : Bytes), s.items.find? (fun i => i.queue == q && i.serial == serial) = some it →
    it.next = pos → s.freeSlot 16 32 = some k →
    let v := s.takeDescriptor q serial pos 0 data
    (v.move k).w = leVal data ∧ (v.move k).dom = s.qDom q ∧ (v.move k).owner = .item q serial pos ∧
      ∃ i ∈ v.items, i.queue = q ∧ i.serial = serial ∧ i.next = pos + 1 ∧ i.left = it.left + 1) ∧
  ∀ (s : State) (q : Nat), q < 65536 → s.mayStart q = true → s.rerun q = none → s.get Fld.DSP_Q_PTRS_HEAD q ≠ s.get Fld.DSP_Q_PTRS_TAIL q →
    (s.queueSt q).head = none → ∀ c ∈ [Instr.itemNop q, .itemKernel q, .itemMove q, .itemRalloc q, .itemRfree q, .rgbegin q, .rgend q],
      ∃ u : State, exec c s = .next u.settle ∧ u.accessing (.item q) = true

/-- The gang-lifetime regions of a gang lie within their units and overlap none of each other (R289, R290). -/
def Sys2Proof.Machine.RegionsApart (s : State) (x : Gang) : Prop :=
  (∀ r ∈ x.regions, r.1 < 72 ∧ r.2 + s.granLen r.1 r.2 ≤ granCount r.1) ∧
  ∀ r ∈ x.regions, ∀ r' ∈ x.regions, r ≠ r' → r.1 ≠ r'.1 ∨ r.2 + s.granLen r.1 r.2 ≤ r'.2 ∨ r'.2 + s.granLen r.1 r'.2 ≤ r.2

/-- Every gang-lifetime region that stands is CLOSING in `u` (R236, R293). -/
def Sys2Proof.Machine.RegionsClose (s u : State) (x : Gang) : Prop :=
  ∀ r ∈ x.regions, s.granState r.1 r.2 = 1 → s.granHead r.1 r.2 = true → ∀ i < s.granLen r.1 r.2, u.granState r.1 (r.2 + i) = 2

/-- An item that has waited longer than `PLACE_LIMIT` for space ends with "no space" and stops its queue; a kernel stops when its time is up
or when its members wait at a barrier that the others will not reach; once every member is quiet its end releases its regions, frees the
cores, sends the record on its way, and replays its group where the numeric status asks (R290, R293, R304); and an item completes when
its record has been written (R283, R297). Beyond these rules it rests on the model's reading: assumptions 20 and 51. -/
def Obligations.KernelsAndItemsEnd : Prop :=
  ∀ s : State,
    (∀ q < 65536, ∀ t0, s.get Fld.ERR_ERR_FATAL_FATAL = 0 → (s.queueSt q).since = some t0 → (s.queueSt q).group = none → (s.queueSt q).limit ≠ 0 → t0 + (s.queueSt q).limit < s.now →
      s.qState q = 1 → ∃ u : State, exec (.placeLimitExpiry q) s = .next u.settle ∧ ItemTaken s u q ∧ u.get Fld.DSP_Q_STATE_STATE q = 2 ∧
        u.get Fld.DSP_Q_STATE_ERR_STATUS q = 5 ∧ u.get Fld.DSP_PAGE_EVENT_QUEUE_ERROR = 1) ∧
    (∀ g x, s.gang? g = some x → x.limit ≠ 0 → x.started + x.limit ≤ s.now → x.stop = none → (∃ m ∈ x.members, (s.core m).run ≠ 2) →
      Answers (exec (.kernelTimeout g) s) fun t => t = { s with gangs := t.gangs, cores := t.cores } ∧
        (∃ y, t.gang? g = some y ∧ y.stop = some { status := 3, detail := 0, member := 0, seq := 0 }) ∧
        ∀ m ∈ x.members, (s.core m).gang = g → (t.core m).run ≠ 1) ∧
    (∀ g x, s.gang? g = some x → x.stop = none → (∃ m ∈ x.members, (s.core m).run = 2) → (∃ m ∈ x.members, (s.core m).run = 1) →
      (∀ m ∈ x.members, (s.core m).run = 2 ∨ s.atBarrier x m = true) → Answers (exec (.barrierBroken g) s) fun t =>
        (∃ y, t.gang? g = some y ∧ y.stop = some { status := 0xB, detail := 0, member := 0, seq := 0 }) ∧
        ∀ m ∈ x.members, (s.core m).gang = g → (t.core m).run ≠ 1) ∧
    (∀ g x it, s.gang? g = some x → x.stop = none → (∀ m ∈ x.members, (s.core m).run = 2 ∧ (s.core m).mvCnt.all (· == 0) = true ∧ (s.core m).tvCnt.all (· == 0) = true) →
      s.items.find? (fun i => i.queue == x.queue && i.serial == x.kinst / 256 % 2 ^ 40) = some it → s.get Fld.ERR_ERR_FATAL_FATAL = 0 →
      RegionsApart s x →
      (x.group = false → s.qState x.queue ≠ 4 → ∃ u : State, exec (.kernelEnd g) s = .next u.settle ∧ u.gang? g = none ∧
        RecordsItem s u x.queue 0 (fun i => i = it) ∧ u.items = s.items ∧ RegionsClose s u x ∧ (∀ m ∈ x.members, (u.core m).run = 0) ∧
        ∀ m, m ∉ x.members → u.core m = s.core m) ∧
      (∀ gr, x.group = true → (s.queueSt x.queue).group = some gr → s.get Fld.DSP_Q_STATE_STATE x.queue = 1 →
        (bitOf (s.gangNsw x) 0 || bitOf (s.gangNsw x) 3) = true → gr.level < gr.last → ∃ u : State, exec (.kernelEnd g) s = .next u.settle ∧
          u.gang? g = none ∧ RegionsClose s u x ∧ ∃ y : Group, (u.queueSt x.queue).group = some y ∧ y.level = gr.level + 1 ∧ y.attempt = gr.attempt + 1 ∧ y.pos = 0 ∧ y.nsw = 0)) ∧
    (∀ q r it, s.get Fld.ERR_ERR_FATAL_FATAL = 0 → s.records.find? (fun r => r.queue == q) = some r → r.item = some it → it.queue = q →
      (∀ i ∈ (s.recordDone q 0).items, i.queue = q → i.serial ≠ it.serial) ∧
      (s.qSize q ≤ 65536 → (s.recordDone q 0).get Fld.DSP_Q_CMPL_CTAIL q = (s.get Fld.DSP_Q_CMPL_CTAIL q + 1) % s.qSize q) ∧
      (s.get Fld.DSP_Q_STATE_STATE q = 1 → ∀ st, st ≠ 0 → (s.recordDone q st).get Fld.DSP_Q_STATE_STATE q = 2 ∧
        (s.recordDone q st).get Fld.DSP_Q_STATE_ERR_STATUS q = 8))

/-! ### Synchronisation -/

/-- GINFO writes the gang information block; GBAR waits until every member has arrived as often; SIGNAL adds to a counter of its domain,
SWAIT waits for one, and a foreign counter faults with 0x09; QPOST starts the write of an item into a queue's ring, and once it has been
performed the queue is rung and decode goes on (R282, R295, R296). -/
def Obligations.CoresSynchronise : Prop :=
  ∀ (s : State) (c : Nat) (d : Dec), AtSequencer s c d →
    let k := s.core c
    let resumed : CoreSt := { k with cur := none, waiting := none }
    (iMajor d.word = 0x51 → (s.coreWrite c 2 (iAddr32 d.word) (s.gangBlock c)).2 = 0 → (s.coreWrite c 2 (iAddr32 d.word) (s.gangBlock c)).1.core c = k →
      Answers (exec (.ginfo c) s) fun t => t.core c = resumed ∧ t.mem = (s.coreWrite c 2 (iAddr32 d.word) (s.gangBlock c)).1.mem) ∧
    (iMajor d.word = 0x52 → k.waiting = none → k.syncFenced = true → k.barriers.length = 16 →
      let b := bitsAt d.word 24 4
      let n := k.barriers.getD b 0 + 1
      let members := if k.test then [c] else ((s.gang? k.gang).map (·.members)).getD [c]
      ((∀ m ∈ members, m ≠ c → n ≤ (s.core m).barriers.getD b 0) → Answers (exec (.gbar c) s) fun t =>
        CoreBecomes s t c { resumed with barriers := k.barriers.set b n }) ∧
      ((∃ m ∈ members, m ≠ c ∧ (s.core m).barriers.getD b 0 < n) → Answers (exec (.gbar c) s) fun t =>
        CoreBecomes s t c { k with waiting := some d.seq, barriers := k.barriers.set b n })) ∧
    (iMajor d.word = 0x53 → k.syncFenced = true → s.sigOwner (sigCtr d.word) = k.dom → Answers (exec (.signal c) s) fun t =>
      t.core c = resumed ∧ t.sig (sigCtr d.word) = (s.sig (sigCtr d.word) + sigVal d.word) % 2 ^ 32 ∧ t = { s with regs := t.regs, cores := t.cores }) ∧
    (iMajor d.word = 0x54 → s.sigOwner (sigCtr d.word) = k.dom →
      (s.sigReached (sigCtr d.word) (sigVal d.word) = true → Answers (exec (.swait c) s) fun t => CoreBecomes s t c resumed) ∧
      (s.sigReached (sigCtr d.word) (sigVal d.word) = false → exec (.swait c) s = .next s)) ∧
    (k.run = 1 → k.test = false → s.sigOwner (sigCtr d.word) ≠ k.dom →
      (iMajor d.word = 0x53 → k.syncFenced = true → Answers (exec (.signal c) s) fun t => t.get Fld.CORE_CORE_FAULT_CODE c = 9 ∧
        t.sig (sigCtr d.word) = s.sig (sigCtr d.word)) ∧
      (iMajor d.word = 0x54 → Answers (exec (.swait c) s) fun t => t.get Fld.CORE_CORE_FAULT_CODE c = 9)) ∧
    (iMajor d.word = 0x55 → k.syncFenced = true →
      let q := qpostQueue d.word
      let tail := s.get Fld.DSP_Q_PTRS_TAIL q
      let r := s.readMem (s.coreWho c 4) (iAddr64 d.word) 64
      let ring := s.get Fld.DSP_Q_RING_BASE_VA q * 4096 + tail * 64
      s.qDom q = k.dom → (s.qState q = 1 ∨ s.qState q = 2) → (tail + 1) % s.qSize q ≠ s.get Fld.DSP_Q_PTRS_HEAD q →
        s.groupMayWrite c 0 (2 ^ 64) = true → s.posting q = false → r.status = 0 →
        ∃ u : State, exec (.qpost c) s = .next u.settle ∧ u = r.state.dispatchAccess (.post c d.seq) k.dom ring 64 (some r.bytes) ∧
          u.accessing (.post c d.seq) = true) ∧
    (iMajor d.word = 0x55 → k.run = 1 →
      let q := qpostQueue d.word
      let tail := s.get Fld.DSP_Q_PTRS_TAIL q
      let u := s.postDone c d.seq 0
      (s.qState q = 1 ∨ s.qState q = 2) → (tail + 1) % s.qSize q ≠ s.get Fld.DSP_Q_PTRS_HEAD q → s.get Fld.DSP_Q_PTRS_HEAD q < s.qSize q →
        tail < s.qSize q → s.qSize q ≤ 65536 → u.core c = resumed ∧ u.get Fld.DSP_Q_PTRS_TAIL q = (tail + 1) % s.qSize q)

/-! ### Collectives -/

/-- The traverse instruction `d` heads the queue of core `c`, and its descriptor `w` is read from memory without errors (R315-R317). -/
structure Sys2Proof.Machine.TravReady (s : State) (c : Nat) (d : Dec) (q : List Dec) (w : Nat) : Prop where
  core : c < 64
  head : (s.core c).tq = d :: q
  major : iMajor d.word = 0x40
  counter : (s.core c).tvCnt.getD (travCtr d.word) 0 < 255
  desc : s.readMem (s.coreWho c 5) (iAddr32 d.word) 64 = ⟨s, 0, leBytes 64 w⟩
  word : w < 2 ^ 512

/-- TRAV enters its descriptor into the chain's round and counts it, and faults with 0x02 on a chain that is not its domain's, whose last
status is then 1; TWAIT lets decode go on at a count of 0 (R315, R316, R320). Beyond these rules it rests on the model's reading:
assumption 88. -/
def Sys2Proof.Machine.TraversalsJoinTheirRound : Prop :=
  ∀ (s : State) (c : Nat) (d : Dec) (q : List Dec),
    (∀ w, TravReady s c d q w → (s.chain (tdChain w)).round = none → s.chOn (tdChain w) = true →
      s.get Fld.TRV_CH_CFG_DOMAIN (tdChain w) = (s.core c).dom → (s.core c).member < s.contributors (tdChain w) (tdOp w) →
      2 ≤ s.contributors (tdChain w) (tdOp w) → Answers (exec (.trav c) s) fun t =>
        t = { s with cores := t.cores, chains := t.chains } ∧
        t.core c = { s.core c with tq := q, tvCnt := (s.core c).tvCnt.set (travCtr d.word) ((s.core c).tvCnt.getD (travCtr d.word) 0 + 1) } ∧
        (∀ m, m ≠ c → t.core m = s.core m) ∧ ∃ r : Round, (t.chain (tdChain w)).round = some r ∧ r.started = false ∧ r.gang = (s.core c).gang ∧
          r.contribs = [{ member := (s.core c).member, core := c, seq := d.seq, ctr := travCtr d.word, desc := w }]) ∧
    (∀ w, TravReady s c d q w → (s.core c).run = 1 → (s.core c).test = false →
      (s.chOn (tdChain w) = false ∨ s.get Fld.TRV_CH_CFG_DOMAIN (tdChain w) ≠ (s.core c).dom) → Answers (exec (.trav c) s) fun t =>
        t.get Fld.CORE_CORE_FAULT_CODE c = 2 ∧ t.get Fld.CORE_FAULT_SEQ_SEQ c = d.seq % 2 ^ 32 ∧ (t.core c).run = 3 ∧ t.mem = s.mem ∧
        t.get Fld.TRV_CH_STATUS_LAST_STATUS (tdChain w) = 1) ∧
    (c < 64 → (s.core c).tq = d :: q → iMajor d.word = 0x41 →
      (if waitAll d.word then (s.core c).tvCnt.all (· == 0) else (s.core c).tvCnt.getD (travCtr d.word) 0 == 0) = true →
      Answers (exec (.twait c) s) fun t => CoreBecomes s t c { s.core c with tq := q })

/-- A started round `r` of operation `op` runs on chain `ch` (R320). -/
def Sys2Proof.Machine.RoundRuns (s : State) (ch op : Nat) (r : Round) : Prop :=
  ch < 256 ∧ (s.chain ch).round = some r ∧ r.started = true ∧ tdOp r.desc = op

/-- The row of a collective operation. -/
def Sys2Proof.Machine.roundCommand (ch : Nat) : Nat → Instr
  | 1 => .allreduce ch
  | 2 => .redscat ch
  | 3 => .allgather ch
  | 4 => .permute ch
  | 5 => .rpass ch
  | _ => .hmerge ch

/-- A round sends as its successor's window allows: its last reduce segment with its own contributions combined, its last gather segment as
it stands in memory, or its last run of a PERMUTE; a ring pass grants its first two steps; and where no window is granted the round
waits unchanged; a segment without a path fails it with status 5; no station number is taken before a packet leaves (R43, R321,
R324-R331, R336). Beyond these rules it rests on the model's reading: assumption 33. -/
def Obligations.RoundsSendWithinTheirWindows : Prop :=
  ∀ (s : State) (ch : Nat) (r : Round),
    (∀ op k off codes u, (op = 1 ∨ op = 2 ∨ op = 6) → RoundRuns s ch op r → 2 ≤ s.chN ch → s.chP ch < s.chN ch → k = (s.chP ch + s.chN ch - 1) % s.chN ch →
      (sendsReduce r.desc (s.chN ch) (s.chP ch) r.shards).drop r.sentR = [(k, off)] →
      (∀ g ∈ sendsGather r.desc (s.chN ch) (s.chP ch) r.shards, g.1 = s.chP ch ∧ r.sentG = 0 ∧ r.results = [] ∧ 0 < shardLen r.shards (s.chP ch)) →
      r.sent < s.granted ch (s.chNext ch) → s.reachable (s.chNext ch) 0 ch = true →
      s.rndCombine ch r k off (List.replicate (min (segReduce r.desc) (shardLen r.shards k - off)) (redIdentity (tdRop r.desc) (tdDt r.desc))) = (u, 0, codes) →
      Answers (exec (roundCommand ch op) s) fun t => (t.chain ch).round = some { r with sentR := r.sentR + 1, sent := r.sent + 1 } ∧ t.mem = u.mem) ∧
    (∀ off b, RoundRuns s ch 3 r → 2 ≤ s.chN ch → (sendsGather r.desc (s.chN ch) (s.chP ch) r.shards).drop r.sentG = [(s.chP ch, off)] →
      r.sent < s.granted ch (s.chNext ch) → s.reachable (s.chNext ch) 0 ch = true →
      (let z := dtSize (tdDt r.desc)
       s.rndRead ch (tdSrc r.desc + off * z) (min (segGather r.desc) (shardLen r.shards (s.chP ch) - off) * z) = ⟨s, 0, b⟩) →
      Answers (exec (roundCommand ch 3) s) fun t =>
        (t.chain ch).round = some { r with sentG := r.sentG + 1, sent := r.sent + 1 } ∧ t.mem = s.mem ∧ t.cores = s.cores ∧
        t.station = s.station) ∧
    (∀ k, RoundRuns s ch 4 r → s.permNext ch r = some k →
      (let i := tget (fun _ => 0) k r.sentTo
       let r' : Round := { r with sent := r.sent + 1, sentTo := tset (fun _ => 0) k (i + 1) r.sentTo }
       let z := dtSize (tdDt r.desc)
       let run := permRun r.olds r.shards (s.chP ch) k
       let g := run.1 + i * segGather r.desc
       s.permNext ch r' = none → s.reachable (r.posmap.getD k 0) 0 ch = true →
       (s.rndRead ch (tdSrc r.desc + (g - shardOff r.olds (s.chP ch)) * z) (min (segGather r.desc) (run.2 - g) * z)).status = 0 →
       (s.rndRead ch (tdSrc r.desc + (g - shardOff r.olds (s.chP ch)) * z) (min (segGather r.desc) (run.2 - g) * z)).state = s →
       Answers (exec (roundCommand ch 4) s) fun t => (t.chain ch).round = some r' ∧ t.mem = s.mem ∧ t.station = s.station)) ∧
    (RoundRuns s ch 5 r → r.gStep = 0 → r.sStep = 1 → r.sOff = 0 → r.rStep = 1 → (s.chain ch).steps = [] → 1 ≤ tdSteps r.desc →
      (∀ k < s.chN ch, 0 < shardLen r.shards k) → s.chP ch < s.chN ch → s.reachable (s.chPrev ch) 0 ch = true →
      Answers (exec (roundCommand ch 5) s) fun t =>
        (t.chain ch).round = some { r with gStep := min 2 (tdSteps r.desc) } ∧ t.mem = s.mem ∧ t.cores = s.cores) ∧
    (∀ op, (op = 1 ∨ op = 2 ∨ op = 3 ∨ op = 6) → RoundRuns s ch op r → 2 ≤ s.chN ch → s.granted ch (s.chNext ch) ≤ r.sent →
      exec (roundCommand ch op) s = .next s) ∧
    (∀ k off, RoundRuns s ch 3 r → 2 ≤ s.chN ch → (sendsGather r.desc (s.chN ch) (s.chP ch) r.shards).drop r.sentG = [(k, off)] →
      r.sent < s.granted ch (s.chNext ch) → s.reachable (s.chNext ch) 0 ch = false → Answers (exec (roundCommand ch 3) s) fun t =>
        (t.chain ch).round = none ∧ t.get Fld.TRV_CH_STATUS_LAST_STATUS ch = 5 ∧ t.mem = s.mem)

/-- A round that is done completes its traversals and the next epoch begins; a round without progress for `RND_TIMEOUT` fails with status 6
(R327, R336). -/
def Sys2Proof.Machine.RoundsEndOrTimeOut : Prop :=
  ∀ (s : State) (ch : Nat) (r : Round), ch < 256 → (s.chain ch).round = some r →
    (s.roundDone ch r = true → Answers (exec (.roundComplete ch) s) fun t =>
      (t.chain ch).round = none ∧ t.get Fld.TRV_CH_EPOCH_EPOCH ch = (s.get Fld.TRV_CH_EPOCH_EPOCH ch + 1) % 2 ^ 32 ∧
      t.get Fld.TRV_CH_STATUS_LAST_STATUS ch = 0 ∧ t.get Fld.TRV_CH_STATUS_ACTIVE ch = 0 ∧
      t.get Fld.TRV_CH_ROUNDS_COUNT ch = (s.get Fld.TRV_CH_ROUNDS_COUNT ch + 1) % 2 ^ 64 ∧ t.mem = s.mem ∧
      (∀ x, r.contribs = [x] → (s.core x.core).gang = r.gang → t.core x.core = { s.core x.core with
        tvCnt := (s.core x.core).tvCnt.set x.ctr ((s.core x.core).tvCnt.getD x.ctr 0 - 1) })) ∧
    (s.get Fld.TRV_TRV_CFG_RND_TIMEOUT ≠ 0 → r.progress + s.get Fld.TRV_TRV_CFG_RND_TIMEOUT * 100000 ≤ s.now →
      Answers (exec (.roundTimeout ch) s) fun t =>
        (t.chain ch).round = none ∧ t.get Fld.TRV_CH_STATUS_LAST_STATUS ch = 6 ∧ t.get Fld.TRV_PAGE_EVENT_ROUND_FAIL = 1 ∧
        t.get Fld.TRV_CH_EPOCH_EPOCH ch = (s.get Fld.TRV_CH_EPOCH_EPOCH ch + 1) % 2 ^ 32 ∧ t.mem = s.mem)

/-- TRAV enters its descriptor into the chain's round and counts it, and faults with 0x02 on a chain that is not its domain's, whose last
status is then 1; TWAIT lets decode go on at a count of 0 (R315, R316, R320). Beyond these rules it rests on the model's reading:
assumption 88. A round that is done completes its traversals and the next epoch begins; a round without progress for `RND_TIMEOUT` fails
with status 6 (R327, R336). -/
def Obligations.TraversalsJoinRoundsThatEnd : Prop :=
  TraversalsJoinTheirRound ∧ RoundsEndOrTimeOut

/-- The data of a segment is written into slot `n` of the chain buffer (R326). -/
def Sys2Proof.Machine.segWrite (s : State) (p : Packet) (n : Nat) : State × Nat :=
  (s.heardFrom p).writeMem (Who.self (s.get Fld.TRV_CH_CFG_DOMAIN p.chain) 5) (s.get Fld.TRV_CH_BUF_ADDR p.chain + n * 4096) p.data

/-- A segment of the round `r` arrives from the predecessor, and slot `n` of the chain buffer takes its data (R326). -/
structure Sys2Proof.Machine.SegLands (s : State) (p : Packet) (r : Round) (n : Nat) : Prop where
  taken : s.chainTakes p = true ∧ (s.chain p.chain).round = some r ∧ r.started = true ∧ s.chEpoch p.chain = p.epoch
  shape : p.src = s.chPrev p.chain ∧ r.shapeOk p = true ∧ tdOp r.desc ∈ [1, 2, 3]
  free : s.bufSlot p.chain r = some n
  lands : (segWrite s p n).2 = 0 ∧ (segWrite s p n).1.reachable p.src 0 p.chain = true

/-- The die once a segment stands in slot `n` of the chain buffer and its CACK has been sent (R326, R327). -/
def Sys2Proof.Machine.segTaken (s : State) (p : Packet) (r : Round) (n : Nat) : State :=
  let b := (segWrite s p n).1
  b.send { pktOf 0x33 with
    dest := p.src, dom := b.get Fld.TRV_CH_CFG_DOMAIN p.chain, arg := 1, chain := p.chain, op := tdOp r.desc, rop := tdRop r.desc
    dt := tdDt r.desc, epoch := b.chEpoch p.chain, count := tdCount r.desc }

/-- Chain messages: a grant that fits its sender's order is held for its epoch; an acknowledgement counts, up to what was sent; a segment
from the predecessor is put into the chain buffer and acknowledged: one of another position's reduction waits to go on, one of the own
shard is combined with this die's contributions, rounded and written, and a gathered result is written, once for each `DST`, and goes on
unless the successor owns its shard, when the predecessor gets a grant in its place; a run of a PERMUTE is written where the shards say;
an ABORT or a refusal ends the round, but for an ABORT that comes after the round's last result; a segment from another die than the
predecessor is ignored; and a message to a chain that is off, or of another domain, is refused, counted and, but for a CREFUSE, answered
with CREFUSE (R321, R324-R328, R336, R337). Beyond these rules it rests on the model's reading: assumption 87. -/
def Obligations.ChainMessagesReachTheirRound : Prop :=
  ∀ (s : State) (p : Packet),
    (s.chainTakes p = true → (s.chain p.chain).round = none → p.arg % 65536 ≠ 0 → p.arg / 65536 = 0 → s.stand p false = .fits →
      let u := s.heardFrom p
      s.gotGrant p = u.setChain p.chain { u.chain p.chain with
        grants := (s.chain p.chain).grants ++ [(p.epoch, p.src, p.arg % 65536)]
        early := ((s.chain p.chain).early ++ [(p.epoch, p.src, p.op, p.rop, p.dt, p.count)]).eraseDups }) ∧
    (∀ r slot, SegLands s p r slot →
      let me := s.chP p.chain
      let z := dtSize (tdDt r.desc)
      let a := segTaken s p r slot
      let held : InSeg := { slot := slot, phase := p.phase, shard := p.shard, off := p.elemOff, len := p.data.length }
      let got0 : Round := { r with progress := a.now, gotR := r.gotR + 1 }
      let got1 : Round := { r with progress := a.now, gotG := r.gotG + 1 }
      (p.phase = 0 → p.shard ≠ me →
        s.gotSeg p = (a.setRound p.chain { got0 with held := r.held ++ [held] }).chainRun p.chain) ∧
      (∀ u codes dst v, p.phase = 0 → p.shard = me → (r.contribs.map (fun x => tdDst x.desc)).eraseDups = [dst] →
        a.rndCombine p.chain got0 me p.elemOff (bytesCodes (wireSize (tdRop r.desc) (tdDt r.desc)) p.data) = (u, 0, codes) →
        (∀ c ∈ codes, (redResult (tdRop r.desc) (tdDt r.desc) c).2 = false) →
        u.rndWrite p.chain r.core (dst + (if tdOp r.desc = 2 then p.elemOff else shardOff r.shards me + p.elemOff) * z)
          (codesBytes z (codes.map (fun c => (redResult (tdRop r.desc) (tdDt r.desc) c).1))) = (v, 0) →
        s.gotSeg p = ((v.setRound p.chain { got0 with
          results := r.results ++ codes.map (fun c => (redResult (tdRop r.desc) (tdDt r.desc) c).1) }).grantSegs p.chain (v.chPrev p.chain) 1 r.desc).chainRun p.chain) ∧
      (∀ dst v, p.phase = 1 → tdOp r.desc ≠ 2 → (r.contribs.map (fun x => tdDst x.desc)).eraseDups = [dst] →
        a.rndWrite p.chain r.core (dst + (shardOff r.shards p.shard + p.elemOff) * z) (codesBytes z (bytesCodes z p.data)) = (v, 0) →
        s.gotSeg p = if p.shard = (me + 1) % s.chN p.chain then ((v.setRound p.chain got1).grantSegs p.chain (v.chPrev p.chain) 1 r.desc).chainRun p.chain
          else (v.setRound p.chain { got1 with held := r.held ++ [held] }).chainRun p.chain)) ∧
    (∀ r, s.chainTakes p = true → (s.chain p.chain).round = some r → r.started = true → s.chEpoch p.chain = p.epoch →
      (r.opOk p = true → s.gotCack p = (s.heardFrom p).setRound p.chain { r with acked := min (r.acked + p.arg % 65536) r.sent }) ∧
      ((s.gotAbort p).get Fld.TRV_CH_STATUS_LAST_STATUS p.chain = (if s.roundDone p.chain r then 0 else s.abortStatus p r) ∧
        ((s.gotAbort p).chain p.chain).round = none) ∧
      (p.arg ≠ 7 → s.abortStatus p r = 8) ∧
      ((s.gotCrefuse p).get Fld.TRV_CH_STATUS_LAST_STATUS p.chain = 9 ∧ ((s.gotCrefuse p).chain p.chain).round = none) ∧
      (r.opOk p = true → p.src ≠ s.chPrev p.chain → s.gotSeg p = (s.heardFrom p).bump Fld.TRV_TRV_REFUSED_COUNT) ∧
      (let me := s.chP p.chain
       let z := dtSize (tdDt r.desc)
       let u := s.rndWrite p.chain r.core (tdDst r.desc + (p.elemOff - shardOff r.shards me) * z) p.data
       s.ecc = [] → r.shapeOk p = true → tdOp r.desc = 4 → p.shard = me → shardOff r.shards me ≤ p.elemOff →
       p.elemOff + p.data.length / z ≤ shardOff r.shards me + shardLen r.shards me → u.2 = 0 → (s.gotPerm p).mem = u.1.mem)) ∧
    (s.chainTakes p = false → p.typ = 0x34 ∨ p.typ = 0x35 →
      (s.gotAbort p).get Fld.TRV_PAGE_EVENT_PEER_REFUSED = 1 ∧ (s.gotAbort p).chains = s.chains ∧ (s.gotCrefuse p).chains = s.chains) ∧
    (s.chainTakes p = false → ∀ got ∈ [s.gotSeg p, s.gotPerm p, s.gotGrant p, s.gotCack p, s.gotAbort p, s.gotCrefuse p], ∃ v : State,
      v.chains = s.chains ∧ v.cores = s.cores ∧ v.mem = s.mem ∧ v.get Fld.TRV_PAGE_EVENT_PEER_REFUSED = 1 ∧
      v.get Fld.TRV_TRV_LAST_CHAIN = p.chain % 256 ∧
      v.get Fld.TRV_TRV_REFUSED_COUNT = satAdd Fld.TRV_TRV_REFUSED_COUNT.len (s.get Fld.TRV_TRV_REFUSED_COUNT) 1 ∧
      got = if p.typ = 0x35 then v else v.send { pktOf 0x35 with
        dest := p.src, dkind := p.skind, dom := p.dom, chain := p.chain, op := p.op, rop := p.rop, dt := p.dt, phase := p.phase
        epoch := p.epoch, count := p.count })

/-! ### Stage queues -/

/-- SPUSH to an open end with a credit counts and sends its bytes in packets of at most 4,096, or hands them to an end of this die; SPOP
takes an arrived push and sends its credit; and either faults with 0x09 on an end that is not its domain's, of the wrong role or not
open, SPUSH also where `LEN` is above the slot size, SPOP where nothing has arrived. Data that arrives in order is written in its slot,
counted and signalled; acknowledgements and credits complete the oldest pushes; an OPEN of the producer's shape opens both ends, one of
another shape fails them with cause 7, and one that comes too early is held; and a SERR puts the end in its error state, with its cause,
and faults the cores of its pushes (R332-R334, R339). Beyond these rules it rests on the model's reading: assumption 89. -/
def Obligations.StageQueuesCarryPushes : Prop :=
  ∀ s : State,
    (∀ c < 64, ∀ d tail b, (s.core c).tq = d :: tail → iMajor d.word = 0x42 → (s.core c).tvCnt.getD (spushCtr d.word) 0 < 255 →
      let q := stageQ d.word
      let m := s.get Fld.TRV_SQ_MOVED_COUNT 0 q
      s.sqDomain q = (s.core c).dom → s.sqRole q = 1 → s.sqState q = 2 → spushLen d.word ≤ s.sqSlot q → s.groupMayWrite c 0 (2 ^ 64) = true →
      s.sigReached (s.sqSig q) (m + 1) = true → s.readMem (s.coreWho c 5) (iAddr32 d.word) (spushLen d.word) = ⟨s, 0, b⟩ →
      (s.sqDie q ≠ s.sysId → s.sqReach q = true → Answers (exec (.spush c) s) fun t =>
        (∃ v : State, v.mods = s.mods ∧ v.waiting = s.waiting ∧ t = (s.sqPieces q m b).foldl (fun u p => u.send p) v ∧
          v.reqs = s.reqs ++ [{ tag := s.nextTag, pkt := s.sqPacket q 0x40 0 m, owner := .stage q, due := none }]) ∧
        t.get Fld.TRV_SQ_MOVED_COUNT 0 q = (m + 1) % 2 ^ 32 ∧ t.sqState q = 2 ∧ t.mem = s.mem ∧
        (t.stageEnd q).pushes = (s.stageEnd q).pushes ++ [{ num := m, core := c, ctr := spushCtr d.word, gang := (s.core c).gang, seq := d.seq }] ∧
        t.core c = { s.core c with tq := tail, tvCnt := (s.core c).tvCnt.set (spushCtr d.word) ((s.core c).tvCnt.getD (spushCtr d.word) 0 + 1) }) ∧
      (s.sqDie q = s.sysId → Answers (exec (.spush c) s) fun t => ∃ v : State,
        v.get Fld.TRV_SQ_MOVED_COUNT 0 q = (m + 1) % 2 ^ 32 ∧ v.mem = s.mem ∧ v.sqState q = 2 ∧ v.reqs = s.reqs ∧
        (v.stageEnd q).pushes = (s.stageEnd q).pushes ++ [{ num := m, core := c, ctr := spushCtr d.word, gang := (s.core c).gang, seq := d.seq }] ∧
        t = (s.sqPieces q m b).foldl (fun u p => if u.sqState q = 2 then u.gotSdata { p with src := u.sysId, skind := 0 } else u) v)) ∧
    (∀ c < 64, ∀ d tail, (s.core c).tq = d :: tail → iMajor d.word = 0x42 → (s.core c).tvCnt.getD (spushCtr d.word) 0 < 255 →
      let q := stageQ d.word
      s.sqDomain q ≠ (s.core c).dom ∨ s.sqRole q ≠ 1 ∨ s.sqState q ≠ 2 ∨ s.sqSlot q < spushLen d.word → (s.core c).run = 1 →
      (s.core c).test = false → Answers (exec (.spush c) s) fun t => t.get Fld.CORE_CORE_FAULT_CODE c = 9 ∧
        t.get Fld.CORE_FAULT_SEQ_SEQ c = d.seq % 2 ^ 32 ∧ (t.core c).run = 3 ∧ t.mem = s.mem ∧ t.reqs = s.reqs ∧
        t.get Fld.TRV_SQ_MOVED_COUNT 0 q = s.get Fld.TRV_SQ_MOVED_COUNT 0 q) ∧
    (∀ c < 64, ∀ d tail, (s.core c).tq = d :: tail → iMajor d.word = 0x43 → (s.core c).moveIdle = true → (s.core c).vectorIdle = true →
      let q := stageQ d.word
      (s.sqDomain q = (s.core c).dom → s.sqRole q = 2 → s.sqState q = 2 → s.get Fld.TRV_SQ_POPPED_COUNT 0 q ≠ s.get Fld.TRV_SQ_MOVED_COUNT 0 q →
        s.sqDie q ≠ s.sysId → s.sqReach q = true → Answers (exec (.spop c) s) fun t =>
          (∃ v : State, v.mods = s.mods ∧ v.waiting = s.waiting ∧ t = v.send (s.sqPacket q 0x43 1 0)) ∧
          t.get Fld.TRV_SQ_POPPED_COUNT 0 q = (s.get Fld.TRV_SQ_POPPED_COUNT 0 q + 1) % 2 ^ 32 ∧ t.core c = { s.core c with tq := tail } ∧ t.mem = s.mem) ∧
      (s.sqDomain q ≠ (s.core c).dom ∨ s.sqRole q ≠ 2 ∨ s.sqState q ≠ 2 ∨
          s.get Fld.TRV_SQ_POPPED_COUNT 0 q = s.get Fld.TRV_SQ_MOVED_COUNT 0 q → (s.core c).run = 1 → (s.core c).test = false →
        Answers (exec (.spop c) s) fun t => t.get Fld.CORE_CORE_FAULT_CODE c = 9 ∧ (t.core c).run = 3 ∧
          t.get Fld.TRV_SQ_POPPED_COUNT 0 q = s.get Fld.TRV_SQ_POPPED_COUNT 0 q)) ∧
    (∀ p : Packet, p.sq < 64 → s.fromPeer p.sq p = true →
      (s.sqRole p.sq = 1 → s.sqState p.sq = 2 →
        (s.gotScredit p).sig (s.sqSig p.sq) = (s.sig (s.sqSig p.sq) + p.arg) % 2 ^ 32 ∧
        ((s.gotSack p).stageEnd p.sq).pushes = (s.stageEnd p.sq).pushes.drop p.arg) ∧
      (s.sqRole p.sq = 2 → (s.sqState p.sq = 1 ∨ s.sqState p.sq = 2) → p.push = s.get Fld.TRV_SQ_MOVED_COUNT 0 p.sq → p.arg = (s.stageEnd p.sq).got →
        p.arg + p.data.length ≤ p.total → p.total ≤ s.sqSlot p.sq → s.ecc = [] → s.fixups = [] →
        let at_ := s.get Fld.TRV_SQ_BASE_ADDR 0 p.sq / 65536 * 65536 + s.get Fld.TRV_SQ_MOVED_COUNT 0 p.sq % s.sqDepth p.sq * s.sqSlot p.sq + p.arg
        (∀ c ∈ linesOf at_ p.data.length, s.checkAccess (Who.self (s.sqDomain p.sq) 5) c.1 c.2 = 0) →
        (p.arg + p.data.length < p.total → (s.gotSdata p).bytesAt at_ p.data.length = p.data ∧
          ((s.gotSdata p).stageEnd p.sq).got = p.arg + p.data.length ∧
          (s.gotSdata p).get Fld.TRV_SQ_MOVED_COUNT 0 p.sq = s.get Fld.TRV_SQ_MOVED_COUNT 0 p.sq) ∧
        (p.arg + p.data.length = p.total → p.skind = 0 → p.src ≠ s.sysId → (s.gotSdata p).bytesAt at_ p.data.length = p.data ∧
          (s.gotSdata p).get Fld.TRV_SQ_MOVED_COUNT 0 p.sq = (s.get Fld.TRV_SQ_MOVED_COUNT 0 p.sq + 1) % 2 ^ 32 ∧
          (s.gotSdata p).sig (s.sqSig p.sq) = (s.sig (s.sqSig p.sq) + 1) % 2 ^ 32)) ∧
      (s.sqRole p.sq = 1 → s.sqState p.sq = 1 →
        (p.arg % 2 ^ 24 = s.sqShape p.sq → (s.gotSopen p).sqState p.sq = 2 ∧ (s.gotSopen p).sig (s.sqSig p.sq) = s.sqDepth p.sq ∧
          (s.sqDie p.sq = s.sysId → s.sqPeer p.sq ≠ p.sq → s.sqState (s.sqPeer p.sq) = 1 → (s.gotSopen p).sqState (s.sqPeer p.sq) = 2)) ∧
        (p.arg % 2 ^ 24 ≠ s.sqShape p.sq → s.sqDie p.sq ≠ s.sysId → s.sqReach p.sq = true →
          s.gotSopen p = (s.sqError p.sq 7).send (s.sqPacket p.sq 0x44 7 0))) ∧
      (s.sqRole p.sq ≠ 1 ∨ s.sqState p.sq ≠ 1 → s.gotSopen p = s.setStage p.sq { s.stageEnd p.sq with
        opened := (s.stageEnd p.sq).opened.filter (fun o => !(o.1 == openFrom p && o.2.1 == p.dom)) ++ [(openFrom p, p.dom, p.arg % 2 ^ 24)] }) ∧
      (s.sqState p.sq = 1 ∨ s.sqState p.sq = 2 → s.gotSerr p = s.sqError p.sq (p.arg % 256)) ∧
      (s.sqState p.sq = 0 → s.gotSerr p = s.trvRefused)) ∧
    (∀ q < 64, s.sqState q = 1 ∨ s.sqState q = 2 → ∀ cause < 256,
      let t := s.sqError q cause
      t.sqState q = 3 ∧ t.get Fld.TRV_SQ_STATE_CAUSE 0 q = cause ∧ t.get Fld.TRV_TRV_LAST_SQ = q ∧ t.get Fld.TRV_PAGE_EVENT_SQ_ERROR = 1 ∧
      (t.stageEnd q).pushes = [] ∧ (∀ r ∈ t.reqs, r.owner ≠ .stage q) ∧ t.mem = s.mem ∧
      ∀ x, (s.stageEnd q).pushes = [x] → x.core < 64 → (s.core x.core).gang = x.gang → (s.core x.core).run = 1 → (s.core x.core).test = false →
        t.get Fld.CORE_CORE_FAULT_CODE x.core = 9 ∧ t.get Fld.CORE_FAULT_SEQ_SEQ x.core = x.seq % 2 ^ 32)

/-! ### Link modules -/

/-- The sideband and the feature exchange: a module without an answer stays in SBINIT, with one it sends its own record; an acceptable
record starts training at the rates in use and gives the partner's identity and the features in common, a record of another kind takes
the module DOWN with cause 1; a record that does not come counts as malformed; and a quarantined module answers with "quarantined" alone
(R348-R350, R353-R356). Beyond these rules it rests on the model's reading: assumptions 38 and 39. -/
def Sys2Proof.Machine.FeaturesAreExchanged : Prop :=
  ∀ (s : State), ∀ m < 40,
    (s.modState m = 2 → (Answers (exec (.sbinitRetry m) s) fun t => t.modState m = 2 ∧ (t.mod m).entered = s.now) ∧
      (Answers (exec (.sbinitDone m) s) fun t => t.modState m = 3 ∧ (t.mod m).entered = s.now ∧
        (t.mod m).sideband = some (.feature (BitVec.ofNat 512 (leVal (s.ownRecord m)))))) ∧
    (∀ r : BitVec 512, s.modState m = 3 → s.roled = true → s.mayTrain m = true → badFeature r = false →
      let kind := recAt r 1 1
      (kind = s.get Fld.LNK_MOD_CFG_PARTNER_KIND m → (kind = 0 → recAt r 0 1 = 0) → recAt r 2 2 = s.get Fld.LNK_MOD_CFG_PARTNER_ID m → 0x10 ≤ recAt r 4 1 →
        (∀ v < 6, minCredits v ≤ bitsAt (recAt r 12 8) (10 * v) 10) → Answers (exec (.featureRecord m r) s) fun t =>
          t.modState m = 4 ∧ t.get Fld.LNK_MOD_PEER_KIND m = kind ∧ t.get Fld.LNK_MOD_PEER_IDENT m = recAt r 2 2 ∧ (t.mod m).boot = false ∧
          t.get Fld.LNK_MOD_STATE_LEVEL m = (if recAt r 4 1 < 0x20 then 0x10 else min ownLevel (recAt r 4 1)) ∧
          t.get Fld.LNK_MOD_FEAT_COMMON m = commonFeatures (recAt r 0 1) (if recAt r 4 1 < 0x20 then 0x10 else min ownLevel (recAt r 4 1)) (recAt r 10 2) ∧
          ∀ x ∈ (t.mod m).rates, x ≤ s.get Fld.LNK_MOD_CFG_MAX_RATE m ∧ x ≤ recAt r 7 1) ∧
      (kind ≠ s.get Fld.LNK_MOD_CFG_PARTNER_KIND m → Answers (exec (.featureRecord m r) s) fun t =>
        t.modState m = 8 ∧ t.get Fld.LNK_MOD_STATE_DOWN_CAUSE m = 1 ∧ t.get Fld.LNK_PAGE_EVENT_PARTNER_MISMATCH = 1)) ∧
    (s.modState m = 3 → (s.mod m).entered + 5000 ≤ s.now → s.roled = true → s.get Fld.LNK_LNK_QUAR_VIOL_LIMIT = 0 →
      ((s.mod m).malformed = false → Answers (exec (.exchangeTimeout m) s) fun t => t.modState m = 3 ∧ (t.mod m).malformed = true) ∧
      ((s.mod m).malformed = true → Answers (exec (.exchangeTimeout m) s) fun t =>
        t.modState m = 8 ∧ t.get Fld.LNK_MOD_STATE_DOWN_CAUSE m = 9)) ∧
    (∀ r : BitVec 512, s.modState m = 9 → exec (.featureRecord m r) s = .next (s.sendSideband m .quarantined))

/-- Training and the closure check: lanes that pass at a rate propose it in the closure record, else the module steps down the rate list;
sides that agree make the module ACTIVE with its bit in `LNK_UP`; the first mismatches count and train again; and a module leaves ACTIVE
for RETRAIN, for SBINIT, or by command as R349, R361, R376 and R377 say, unless a die-fatal error holds it down (R348, R351, R352).
Beyond these rules it rests on the model's reading: assumptions 39 and 97. -/
def Sys2Proof.Machine.ModulesTrainAndRetrain : Prop :=
  ∀ (s : State), ∀ m < 40,
    (∀ rate rest w map, (s.modState m = 4 ∨ s.modState m = 7) → s.mayTrain m = true → s.capped m (s.mod m).rates = rate :: rest → (s.mod m).boot = false →
      map = map % 65536 &&& (65535 - tget (fun _ => 0) m s.laneBad) →
      (widest map 0 (s.common m 1) = some w → w.1 ≤ s.get Fld.LNK_MOD_CFG_MIN_WIDTH m → Answers (exec (.rateAttempt m map true) s) fun t =>
        t.modState m = 5 ∧ (t.mod m).propRate = rate ∧ (t.mod m).propWidth = w.1 ∧ (t.mod m).propSet = w.2 ∧
        t.get Fld.LNK_MOD_LANES_OWN_MAP m = map ∧
        (t.mod m).sideband = some (.closure map rate w.1 w.2 (s.get Fld.LNK_MOD_CFG_MIN_WIDTH m) (s.get Fld.BOOT_BOOT_RESETS_RESET_COUNT))) ∧
      (rest ≠ [] → Answers (exec (.rateAttempt m map false) s) fun t => t.modState m = 4 ∧ (t.mod m).rates = rest)) ∧
    (∀ peerMap < 65536, ∀ rate ≤ 4, ∀ width ≤ 2, ∀ set < 2 ^ width, ∀ min ≤ 2, ∀ resets < 65536, s.modState m = 5 →
      ((s.mod m).propRate = rate → (s.mod m).propWidth = width → (s.mod m).propSet = set →
        Answers (exec (.closureRecord m peerMap rate width set min resets) s) fun t =>
          t.modState m = 6 ∧ t.get Fld.LNK_MOD_STATE_RATE m = rate ∧ t.get Fld.LNK_MOD_STATE_WIDTH m = width ∧ t.get Fld.LNK_MOD_STATE_SET m = set ∧
          bitOf (t.get Fld.LNK_LNK_UP_ACTIVE) m = true ∧ (t.mod m).held = false ∧ t.get Fld.LNK_MOD_LANES_PEER_MAP m = peerMap) ∧
      ((s.mod m).propRate ≠ rate → (s.mod m).mismatch < 2 → Answers (exec (.closureRecord m peerMap rate width set min resets) s) fun t =>
        t.get Fld.LNK_MOD_CLOSURE_MISMATCHES m = satAdd Fld.LNK_MOD_CLOSURE_MISMATCHES.len (s.get Fld.LNK_MOD_CLOSURE_MISMATCHES m) 1 ∧
        t.modState m = 4 ∧ (t.mod m).mismatch = (s.mod m).mismatch + 1)) ∧
    (s.modState m = 6 → (Answers (exec (.partnerRetrainRequest m) s) fun t => t.modState m = 7 ∧ (t.mod m).held = true ∧
        t.get Fld.LNK_MOD_RETRAINS_COUNT m = satAdd Fld.LNK_MOD_RETRAINS_COUNT.len (s.get Fld.LNK_MOD_RETRAINS_COUNT m) 1) ∧
      ∀ a : Acc, a.cls = .mp → Answers (exec (.retrain a m) s) fun t => t.modState m = 7 ∧ (t.mod m).held = true ∧ t.ctl.code = 0) ∧
    (s.modState m = 7 → (s.mod m).held = true → (s.mod m).entered + 100000 ≤ s.now → Answers (exec (.retrainTimeout m) s) fun t =>
      t.modState m = 8 ∧ t.get Fld.LNK_MOD_STATE_DOWN_CAUSE m = 6 ∧ (t.mod m).replay = []) ∧
    (s.shutDown m = false → 3 ≤ s.modState m → s.modState m ≤ 7 → Answers (exec (.sidebandLoss m) s) fun t => t.modState m = 2 ∧
      ∃ l, (t.mod m).replay = (s.mod m).replay ++ l ∧ ((s.mod m).stream = [] → l = [])) ∧
    (s.shutDown m = false → s.modState m = 8 → 4 ≤ s.get Fld.LNK_MOD_STATE_DOWN_CAUSE m → s.get Fld.LNK_MOD_STATE_DOWN_CAUSE m ≤ 9 →
      Answers (exec (.partnerSidebandRestart m) s) fun t => t.modState m = 2) ∧
    (∀ a : Acc, s.shutDown m = false → a.cls = .mp → s.modState m = 9 → Answers (exec (.unquarantine a m) s) fun t => t.modState m = 2 ∧ t.ctl.code = 0) ∧
    (∀ a : Acc, a.cls = .mp → 1 ≤ s.modState m → s.modState m ≤ 7 → Answers (exec (.takeDown a m) s) fun t =>
      t.modState m = 8 ∧ t.get Fld.LNK_MOD_STATE_DOWN_CAUSE m = 10 ∧ t.ctl.code = 0)

/-- The sideband and the feature exchange: a module without an answer stays in SBINIT, with one it sends its own record; an acceptable
record starts training at the rates in use and gives the partner's identity and the features in common, a record of another kind takes
the module DOWN with cause 1; a record that does not come counts as malformed; and a quarantined module answers with "quarantined" alone
(R348-R350, R353-R356). Beyond these rules it rests on the model's reading: assumptions 38 and 39. Training and the closure check: lanes
that pass at a rate propose it in the closure record, else the module steps down the rate list; sides that agree make the module ACTIVE
with its bit in `LNK_UP`; the first mismatches count and train again; and a module leaves ACTIVE for RETRAIN, for SBINIT, or by command
as R349, R361, R376 and R377 say, unless a die-fatal error holds it down (R348, R351, R352). Beyond these rules it rests on the model's
reading: assumptions 39 and 97. -/
def Obligations.ModulesExchangeFeaturesAndTrain : Prop :=
  FeaturesAreExchanged ∧ ModulesTrainAndRetrain

/-- No boot link is to take its role outcome: the loader has sections left, or each such link has the last chunk still to deliver (R396). -/
def Sys2Proof.Machine.LinksKeep (s : State) : Prop :=
  s.inPhase 7 = true → ∀ k < 40, (s.mod k).boot = true → s.boot.relayOver = false ∧ s.serving k = true

/-- A flit that an ACTIVE module owes an acknowledgement goes out with 256 bytes and its CRC; a NULL flit without acknowledgement or credits
changes nothing, the next flit in sequence counts and is owed an acknowledgement, one out of sequence asks for a resend, and a flit with
a bad CRC counts and asks for a resend (R358-R360). Beyond these rules it rests on the model's reading: assumptions 37, 38 and 40. -/
def Obligations.FlitsAreCheckedAndAcknowledged : Prop :=
  ∀ (s : State), ∀ m < 40, s.modState m = 6 →
    (0 < (s.mod m).ackOwed → (∀ f ∈ (s.mod m).replay, f.bytes.length = 256) → Answers (exec (.ackDue m) s) fun t =>
      (t.mod m).ackOwed = 0 ∧ (t.mod m).lastTx.length = 256 ∧ crc64 ((t.mod m).lastTx.take 248) = leAt (t.mod m).lastTx 248 8 ∧ t.mem = s.mem) ∧
    (LinksKeep s → ∀ bits : BitVec 2048,
      let b := leBytes 256 bits.toNat
      let w := leAt b 0 4
      (crc64 (b.take 248) ≠ leAt b 248 8 → s.get Fld.LNK_MOD_TUNE_CRC_THRESH m = 0 → Answers (exec (.flit m bits) s) fun t =>
        t.get Fld.PTR_PT_CRC_ERR_COUNT m = satAdd Fld.PTR_PT_CRC_ERR_COUNT.len (s.get Fld.PTR_PT_CRC_ERR_COUNT m) 1 ∧
        (t.mod m).nakSent = true ∧ (t.mod m).rxSeq = (s.mod m).rxSeq ∧ t.modState m = 6 ∧ t.mem = s.mem) ∧
      (crc64 (b.take 248) = leAt b 248 8 → bitsAt w 24 2 = 0 → bitsAt w 27 5 = 0 → (∀ i < 3, leAt b (4 + 2 * i) 2 % 8 = 7) →
        bitsAt (leAt b 10 2) 6 10 = 0 → s.waiting = [] →
        (bitOf w 26 = true → exec (.flit m bits) s = .next s) ∧
        (bitOf w 26 = false → w % 4096 = (s.mod m).rxSeq → (s.mod m).rxSkip = false → (s.mod m).rxBuf = [] → sub b 12 236 = zeros 236 →
          Answers (exec (.flit m bits) s) fun t =>
            (t.mod m).rxSeq = ((s.mod m).rxSeq + 1) % 4096 ∧ (t.mod m).ackOwed = (s.mod m).ackOwed + 1 ∧ (t.mod m).rxBuf = [] ∧
            t.get Fld.PTR_PT_RX_FLITS_COUNT m = (s.get Fld.PTR_PT_RX_FLITS_COUNT m + 1) % 2 ^ Fld.PTR_PT_RX_FLITS_COUNT.len ∧ t.mem = s.mem) ∧
        (bitOf w 26 = false → w % 4096 ≠ (s.mod m).rxSeq → Answers (exec (.flit m bits) s) fun t =>
          (t.mod m).nakSent = true ∧ (t.mod m).rxSeq = (s.mod m).rxSeq ∧ t.mem = s.mem)))

/-! ### Packets -/

/-- The fields of a packet lie in their widths, and those that its type does not carry are 0 (R362-R364). -/
structure Sys2Proof.Machine.PacketFits (p : Packet) : Prop where
  typ : vcOf p.typ ≠ 6 ∧ lenFits p.typ p.data.length p.arg = true ∧ p.len = p.data.length ∧ p.rsv = false
  header : p.vc < 8 ∧ p.hop < 8 ∧ p.dest < 2 ^ 12 ∧ p.dkind < 8 ∧ p.src < 2 ^ 12 ∧ p.skind < 8 ∧ p.dom < 2 ^ 8 ∧ p.tag < 2 ^ 24 ∧
    p.arg < 2 ^ 32 ∧ p.arg &&& (2 ^ 32 - 1 - argMask p.typ) = 0
  addr : p.addr < (if p.typ = 0x01 ∨ p.typ = 0x02 ∨ p.typ = 0x20 ∨ p.typ = 0x50 ∨ p.typ = 0x53 then (if p.dkind = 1 then 2 ^ 40 else 2 ^ 32) else 1)
  station : p.station < (if p.typ = 0x50 ∨ (0x51 ≤ p.typ ∧ p.typ ≤ 0x58) ∨ (0x30 ≤ p.typ ∧ p.typ ≤ 0x35) then 2 ^ 64 else 1)
  chain : if 0x30 ≤ p.typ ∧ p.typ ≤ 0x35 then p.chain < 2 ^ 8 ∧ p.op < 16 ∧ p.rop < 16 ∧ p.dt < 8 ∧ p.phase < 2 ∧ p.epoch < 2 ^ 32 ∧
      p.count < 2 ^ 32 ∧ p.shard < 2 ^ 12 ∧ p.shardLen < 2 ^ 32 ∧ p.elemOff < 2 ^ 32
    else p.chain = 0 ∧ p.op = 0 ∧ p.rop = 0 ∧ p.dt = 0 ∧ p.phase = 0 ∧ p.epoch = 0 ∧ p.count = 0 ∧ p.shard = 0 ∧ p.shardLen = 0 ∧ p.elemOff = 0
  stage : if 0x40 ≤ p.typ ∧ p.typ ≤ 0x44 then p.sq < 64 ∧ p.push < 2 ^ 32 ∧ p.total < 2 ^ 32 else p.sq = 0 ∧ p.push = 0 ∧ p.total = 0

/-- Every packet that fits its fields is read back from its bytes as it was, whatever follows it in the stream (R359, R362-R364). -/
def Obligations.PacketsReadBackAsTheyWereSent : Prop :=
  ∀ (p : Packet) (n : Nat) (rest : Bytes) (l : List Packet), PacketFits p →
    cutPackets (n + 1) (packetBytes p ++ rest) l = cutPackets n rest (l ++ [p])

/-- The packet `p` of type `t` is accepted on module `m`: it is ACTIVE, its partner an Etzotal die, the packet fits its fields and its
credits, and it is for this die; a boot link carries easement only (R357, R364, R365, R375, R392). -/
structure Sys2Proof.Machine.Accepted (s : State) (m t : Nat) (p : Packet) : Prop where
  module : m < 40 ∧ s.modState m = 6 ∧ s.peerKind m = 0 ∧ ((s.mod m).boot = true → vcOf t = 5)
  fits : PacketFits p
  typ : p.typ = t ∧ p.vc = vcOf t
  credits : tget (fun _ => 0) (credKey p) (s.mod m).rxHeld + creditsOf p ≤ ownCredits p.vc
  here : p.dkind < 4 ∧ s.forMe m p = true
  station : p.station ≤ s.station + 2 ^ 48
  alive : s.get Fld.ERR_ERR_FATAL_FATAL = 0

/-- The state in which an accepted packet is handled: its credits are owed back, and a collective or easement packet has moved the
station number (R44, R365). -/
def Sys2Proof.Machine.arrived (s : State) (m : Nat) (p : Packet) : State :=
  let t := s.receiveAll m [p]
  let x := t.mod m
  t.setMod m { x with rxHeld := tset (fun _ => 0) (credKey p) (tget (fun _ => 0) (credKey p) x.rxHeld + creditsOf p) x.rxHeld
                      retCred := tset (fun _ => 0) (credKey p) (tget (fun _ => 0) (credKey p) x.retCred + creditsOf p) x.retCred }

/-- Who asks for the access of a memory request of another die (R235). -/
def Sys2Proof.Machine.asker (p : Packet) : Who := { dom := p.dom, unit := 9, own := false, die := p.src, tag := p.tag, pass := false }

/-- The answer to a memory request: a reply, or an error response with the status of R253. -/
def Sys2Proof.Machine.memReply (st : Nat) (ok : Packet) : Packet := if st = 0 then ok else { pktOf 0x12 with arg := st }

/-- The arrival of an accepted packet leaves memory, the cores and the module's queue, and moves the station number for a collective or
easement packet (R44). Beyond these rules it rests on the model's reading: assumptions 33 and 37. -/
def Sys2Proof.Machine.ArrivalMovesTheStationNumber : Prop :=
  ∀ (s : State) (m t : Nat) (p : Packet), Accepted s m t p →
    (arrived s m p).mem = s.mem ∧ ((arrived s m p).mod m).queue = (s.mod m).queue ∧ (arrived s m p).cores = s.cores ∧
      (arrived s m p).station = (if p.vc = 3 ∨ p.vc = 5 then
        min (max s.station (if s.get Fld.LNK_MOD_STATE_LEVEL m < 0x20 then 0 else p.station) + 1) stationMax else s.station)

/-- An accepted memory request is performed and answered, and an accepted reply ends the request that it answers, an error response of a
stack with status 0x08 (R53, R235, R253, R254, R364, R367). Beyond these rules it rests on the model's reading: assumption 37. -/
def Sys2Proof.Machine.MemoryPacketsComplete : Prop :=
  ∀ (s : State) (m : Nat) (p : Packet),
    let u := arrived s m p
    (Accepted s m 0x01 p → outsideBlock p = false →
      exec (.rd m p) s = .next (let r := u.readMem (asker p) p.addr (p.arg % 512)
        r.state.answer p (memReply r.status { pktOf 0x10 with data := r.bytes }))) ∧
    (Accepted s m 0x02 p → outsideBlock p = false →
      exec (.wr m p) s = .next (let r := u.writeMem (asker p) p.addr p.data
        r.1.answer p (memReply r.2 (pktOf 0x11)))) ∧
    (Accepted s m 0x20 p → outsideBlock p = false →
      exec (.bwr m p) s = .next (let r := u.writeMem (asker p) p.addr p.data
        r.1.answer p (memReply r.2 (pktOf 0x11)))) ∧
    (∀ r, s.reqs.find? (fun r => r.tag == p.tag && answers p.typ r.pkt.typ) = some r →
      (Accepted s m 0x10 p → exec (.rdata m p) s = .next (u.endRequest p.tag 0 p.data)) ∧
      (Accepted s m 0x11 p → exec (.wack m p) s = .next (u.endRequest p.tag 0 p.data)) ∧
      (Accepted s m 0x12 p → 2 ≤ p.arg % 256 → p.arg % 256 ≤ 0xA → exec (.ersp m p) s = .next (
        let code := if p.skind = 1 then 8 else p.arg % 256
        ((u.bump Fld.ERR_ERR_ERSP_RX_COUNT).note (errNote code (u.ownerUnit r.owner).1 (u.ownerUnit r.owner).2
          r.pkt.addr (p.src + 4096 * p.skind) r.pkt.dom (if r.owner = .debug then 0 else p.tag))).endRequest p.tag code p.data)) ∧
      (Accepted s m 0x51 p → p.arg % 256 = 0 → exec (.crsp m p) s = .next (u.endRequest p.tag 0 p.data)) ∧
      (Accepted s m 0x54 p → exec (.fcack m p) s = .next (u.endRequest p.tag (p.arg % 256) p.data)) ∧
      (Accepted s m 0x58 p → exec (.mack m p) s = .next (u.endRequest p.tag (p.arg % 256) p.data)))

/-- An accepted packet of a chain or a stage queue does what ChainMessagesReachTheirRound and StageQueuesCarryPushes say of it
(R326-R328, R332-R339, R364). -/
def Sys2Proof.Machine.ChainAndStagePacketsComplete : Prop :=
  ∀ (s : State) (m : Nat) (p : Packet),
    let u := arrived s m p
    (Accepted s m 0x30 p → exec (.seg m p) s = .next (u.gotSeg p)) ∧
    (Accepted s m 0x31 p → exec (.perm m p) s = .next (u.gotPerm p)) ∧
    (Accepted s m 0x32 p → exec (.grant m p) s = .next (u.gotGrant p)) ∧
    (Accepted s m 0x33 p → exec (.cack m p) s = .next (u.gotCack p)) ∧
    (Accepted s m 0x34 p → exec (.abort m p) s = .next (u.gotAbort p)) ∧
    (Accepted s m 0x35 p → exec (.crefuse m p) s = .next (u.gotCrefuse p)) ∧
    (Accepted s m 0x40 p → exec (.sdata m p) s = .next (u.gotSdata p)) ∧
    (Accepted s m 0x41 p → exec (.sack m p) s = .next (u.gotSack p)) ∧
    (Accepted s m 0x42 p → exec (.sopen m p) s = .next (u.gotSopen p)) ∧
    (Accepted s m 0x43 p → exec (.scredit m p) s = .next (u.gotScredit p)) ∧
    (Accepted s m 0x44 p → exec (.serr m p) s = .next (u.gotSerr p))

/-- An accepted easement packet: a CREQ of a die performs its control access and answers with its code and data, a FRAME_CODE that asks a
die is answered as not offered, an MSG is posted and acknowledged, an IMAGE chunk in its turn joins the boot stream, an EVENT is the
host's concern and changes nothing more, and an ENOTE counts (R53, R364, R367, R374, R392, R438, R443, R483). Beyond these rules it
rests on the model's reading: assumptions 41, 43, 44 and 47. -/
def Sys2Proof.Machine.EasementPacketsComplete : Prop :=
  ∀ (s : State) (m : Nat) (p : Packet),
    let u := arrived s m p
    let size := if bitOf p.arg 1 then 8 else 4
    let a : Acc := { cls := .mp, dom := p.dom, loc := false }
    s.easementWaiting < 64 →
    (Accepted s m 0x50 p → bitsAt p.arg 2 2 = 0 → bitOf p.arg 0 = true → p.data.length = size →
      exec (.creq m p) s = .next (let t := u.ctlWrite a p.addr size (leVal p.data)
        t.answerOn m p { pktOf 0x51 with arg := t.ctl.code })) ∧
    (Accepted s m 0x50 p → bitsAt p.arg 2 2 = 0 → bitOf p.arg 0 = false →
      exec (.creq m p) s = .next (let t := u.ctlRead a p.addr size
        t.answerOn m p { pktOf 0x51 with arg := t.ctl.code, data := if t.ctl.code ≠ 0 then [] else leBytes size t.ctl.data })) ∧
    (Accepted s m 0x53 p → exec (.frameCode m p) s = .next (u.answerOn m p { pktOf 0x54 with arg := 1 })) ∧
    (Accepted s m 0x55 p → exec (.msg m p) s = .next (let r := u.mbMessage a (p.arg % 16) p.data
      r.1.answerOn m p { pktOf 0x58 with arg := r.2 })) ∧
    (Accepted s m 0x56 p → (s.mod m).boot = true → s.inPhase 5 = true → s.get Fld.CLK_CLK_AON_CFG_MASTER = 0 →
      (s.boot.source = none ∨ s.boot.source = some m) → s.lateTags.contains p.tag = false → p.arg * 256 = s.boot.stream.length →
      p.arg ≠ 2 ^ 32 - 1 → Answers (exec (.image m p) s) fun t =>
        t.boot.stream = s.boot.stream ++ p.data ∧ t.boot.source = some m ∧ t.get Fld.BOOT_BOOT_STATE_SRC = 1 ∧
        t.get Fld.BOOT_BOOT_STATE_SRC_MODULE = m ∧ (∀ r ∈ t.reqs, r.owner ≠ .image m) ∧ t.mem = s.mem) ∧
    (Accepted s m 0x52 p → exec (.event m p) s = .next u) ∧
    (Accepted s m 0x57 p → exec (.enote m p) s = .next (u.bump Fld.ERR_ERR_ENOTE_RX_COUNT))

/-- The row of a packet type. -/
def Sys2Proof.Machine.packetCommand (m : Nat) (p : Packet) : Nat → Instr
  | 0x01 => .rd m p
  | 0x02 => .wr m p
  | 0x20 => .bwr m p
  | 0x10 => .rdata m p
  | 0x11 => .wack m p
  | 0x12 => .ersp m p
  | 0x30 => .seg m p
  | 0x31 => .perm m p
  | 0x32 => .grant m p
  | 0x33 => .cack m p
  | 0x34 => .abort m p
  | 0x35 => .crefuse m p
  | 0x40 => .sdata m p
  | 0x41 => .sack m p
  | 0x42 => .sopen m p
  | 0x43 => .scredit m p
  | 0x44 => .serr m p
  | 0x50 => .creq m p
  | 0x51 => .crsp m p
  | 0x52 => .event m p
  | 0x53 => .frameCode m p
  | 0x54 => .fcack m p
  | 0x55 => .msg m p
  | 0x56 => .image m p
  | 0x57 => .enote m p
  | _ => .mack m p

/-- A packet beyond the credits it was given is dropped with violation 4, and one of a module that is not ACTIVE is no event (R365, R375).
Beyond these rules it rests on the model's reading: assumption 37. -/
def Sys2Proof.Machine.PacketsBeyondTheirCreditsAreDropped : Prop :=
  ∀ (s : State) (m t : Nat) (p : Packet), vcOf t ≠ 6 →
    (m < 40 → s.modState m = 6 → PacketFits p → p.typ = t → p.vc = vcOf t →
      ownCredits p.vc < tget (fun _ => 0) (credKey p) (s.mod m).rxHeld + creditsOf p → s.get Fld.LNK_LNK_QUAR_VIOL_LIMIT = 0 →
      Answers (exec (packetCommand m p t) s) fun u => u.get Fld.LNK_MOD_VIOL_LAST_CODE m = 4 ∧ u.mem = s.mem ∧
        u.get Fld.PTR_PT_DROPPED_COUNT m = satAdd Fld.PTR_PT_DROPPED_COUNT.len (s.get Fld.PTR_PT_DROPPED_COUNT m) 1) ∧
    (m < 40 → s.modState m ≠ 6 → p.typ = t → exec (packetCommand m p t) s = .next s)

/-- The arrival of an accepted packet leaves memory, the cores and the module's queue, and moves the station number for a collective or
easement packet (R44). Beyond these rules it rests on the model's reading: assumptions 33 and 37. An accepted memory request is
performed and answered, and an accepted reply ends the request that it answers, an error response of a stack with status 0x08 (R53,
R235, R253, R254, R364, R367). Beyond these rules it rests on the model's reading: assumption 37. An accepted packet of a chain or a
stage queue does what ChainMessagesReachTheirRound and StageQueuesCarryPushes say of it (R326-R328, R332-R339, R364). An accepted
easement packet: a CREQ of a die performs its control access and answers with its code and data, a FRAME_CODE that asks a die is
answered as not offered, an MSG is posted and acknowledged, an IMAGE chunk in its turn joins the boot stream, an EVENT is the host's
concern and changes nothing more, and an ENOTE counts (R53, R364, R367, R374, R392, R438, R443, R483). Beyond these rules it rests on
the model's reading: assumptions 41, 43, 44 and 47. A packet beyond the credits it was given is dropped with violation 4, and one of a
module that is not ACTIVE is no event (R365, R375). Beyond these rules it rests on the model's reading: assumption 37. -/
def Obligations.AcceptedPacketsAreHandled : Prop :=
  ArrivalMovesTheStationNumber ∧ MemoryPacketsComplete ∧ ChainAndStagePacketsComplete ∧ EasementPacketsComplete ∧ PacketsBeyondTheirCreditsAreDropped

/-- What the endpoint does with a request of another die: a read is answered with its bytes, a write is performed and acknowledged, a
refused access is answered with its status, an access out of its block counts as violation 15 and is answered with "reserved" (ERSP
0x03), a CREQ with the control access's result, and a FRAME_CODE that asks a die for what only a base die does is turned down (R53,
R235, R254, R364, R367, R375). Beyond these rules it rests on the model's reading: assumptions 41, 43, 47 and 50. -/
def Sys2Proof.Machine.RequestsAreAnswered : Prop :=
  ∀ (s : State) (m : Nat) (p : Packet), (s.mod m).boot = false → s.get Fld.LNK_MOD_CFG_PARTNER_KIND m = 0 →
    let w : Who := { dom := p.dom, unit := 9, own := false, die := p.src, tag := p.tag, pass := false }
    let back (r : Packet) : Packet := { r with dest := p.src, dkind := p.skind, dom := p.dom, tag := p.tag }
    (p.typ = 0x01 → outsideBlock p = false →
      s.endpoint m p = (let r := s.readMem w p.addr (p.arg % 512)
        r.state.send (back (if r.status = 0 then { pktOf 0x10 with data := r.bytes } else { pktOf 0x12 with arg := r.status })))) ∧
    (p.typ = 0x02 ∨ p.typ = 0x20 → outsideBlock p = false →
      s.endpoint m p = (let r := s.writeMem w p.addr p.data
        r.1.send (back (if r.2 = 0 then pktOf 0x11 else { pktOf 0x12 with arg := r.2 })))) ∧
    (p.typ = 0x01 ∨ p.typ = 0x02 ∨ p.typ = 0x20 → outsideBlock p = true → s.get Fld.LNK_LNK_QUAR_VIOL_LIMIT = 0 →
      ∃ v : State, v.mem = s.mem ∧ v.get Fld.LNK_MOD_VIOL_LAST_CODE m = 15 ∧
        v.get Fld.LNK_MOD_VIOL_COUNT m = satAdd Fld.LNK_MOD_VIOL_COUNT.len (s.get Fld.LNK_MOD_VIOL_COUNT m) 1 ∧
        s.endpoint m p = v.send (back { pktOf 0x12 with arg := 3 })) ∧
    (p.typ = 0x50 → s.easementWaiting < 64 → bitsAt p.arg 2 2 = 0 → bitOf p.arg 0 = true → p.data.length = (if bitOf p.arg 1 then 8 else 4) →
      s.endpoint m p = (let t := s.ctlWrite { cls := .mp, dom := p.dom, loc := false } p.addr p.data.length (leVal p.data)
        t.answerOn m p { pktOf 0x51 with arg := t.ctl.code })) ∧
    (p.typ = 0x50 → s.easementWaiting < 64 → bitsAt p.arg 2 2 = 1 ∨ bitsAt p.arg 2 2 = 3 → (s.endpoint m p).mem = s.mem) ∧
    (p.typ = 0x53 → s.easementWaiting < 64 → s.endpoint m p = s.send (back { pktOf 0x54 with arg := 1 })) ∧
    (p.typ = 0x57 → s.endpoint m p = s.bump Fld.ERR_ERR_ENOTE_RX_COUNT) ∧
    (p.typ = 0x52 → s.endpoint m p = s)

/-- A reply ends the request that it answers, and a reply to no request is violation 6; a request without a reply for `REQ_TIMEOUT` since it
was sent ends with "timeout", not before, and its late reply counts in `LNK_LATE_RSP`; and the hold of a route whose group changed ends
after `REQ_TIMEOUT` (R364, R373-R375). Beyond these rules it rests on the model's reading: assumption 35. -/
def Sys2Proof.Machine.RequestsEnd : Prop :=
  ∀ s : State,
    (∀ m p r, s.reqs.find? (fun r => r.tag == p.tag && answers p.typ r.pkt.typ) = some r → p.typ = 0x10 ∨ p.typ = 0x11 →
      (∀ x ∈ s.reqs, x.tag = p.tag → x = r) → r.owner = .debug → s.endpoint m p = { s with
        reqs := s.reqs.filter (fun x => x.tag != p.tag)
        maAccess := s.maAccess.map (fun a => if a.tag = some p.tag then { a with reply := some (0, p.data) } else a) }) ∧
    (∀ m < 40, ∀ p, s.reqs = [] → s.lateTags = [] → p.typ = 0x10 ∨ p.typ = 0x11 ∨ p.typ = 0x12 ∨ p.typ = 0x51 ∨ p.typ = 0x54 ∨ p.typ = 0x58 →
      s.get Fld.LNK_LNK_QUAR_VIOL_LIMIT = 0 → (s.endpoint m p).get Fld.LNK_MOD_VIOL_LAST_CODE m = 6 ∧ (s.endpoint m p).mem = s.mem) ∧
    (∀ m p, s.reqs.find? (fun r => r.tag == p.tag && answers p.typ r.pkt.typ) = none → p.tag ∈ s.lateTags →
      p.typ ∈ [0x10, 0x11, 0x12, 0x51, 0x54, 0x58] →
      s.endpoint m p = { s with regs := (s.endpoint m p).regs, lateTags := s.lateTags.erase p.tag } ∧
      (s.endpoint m p).get Fld.LNK_LNK_LATE_RSP_COUNT = satAdd Fld.LNK_LNK_LATE_RSP_COUNT.len (s.get Fld.LNK_LNK_LATE_RSP_COUNT) 1) ∧
    (∀ tag r d m, s.reqs.find? (fun r => r.tag == tag) = some r → r.due = some d → d ≤ s.now → r.owner = .image m →
      exec (.requestTimeout tag) s = .next { s with lateTags := s.lateTags ++ [tag], reqs := s.reqs.filter (fun x => x.tag != tag) }) ∧
    (∀ tag r, s.reqs.find? (fun r => r.tag == tag) = some r → (r.due = none ∨ ∃ d, r.due = some d ∧ s.now < d) →
      exec (.requestTimeout tag) s = .next s) ∧
    (∀ tag r d k, s.reqs.find? (fun r => r.tag == tag) = some r → r.due = some d → d ≤ s.now → r.owner = .move k → (s.move k).wait = .reply tag →
      (∀ z ∈ s.zeroing, z.first ≠ some k) →
      ∃ u : State, exec (.requestTimeout tag) s = .next u.settle ∧ (u.move k).status = some 0xA ∧ (∀ x ∈ u.reqs, x.tag ≠ tag) ∧
        tag ∈ u.lateTags ∧ u.mem = s.mem) ∧
    (∀ e < 64, ∀ h, s.holds.find? (fun h => h.1 == e) = some h → h.2 + s.reqTimeout ≤ s.now → s.waiting = [] →
      (∀ i < 64, s.get Fld.RTE_RT_CTL_VALID i = 0) → (∀ q < 64, s.sqState q = 0) → Answers (exec (.routeHoldEnd e) s) fun t =>
        t.get Fld.RTE_RT_CTL_HOLDING e = 0 ∧ (∀ x ∈ t.holds, x.1 ≠ e) ∧ t.mods = s.mods)

/-- What the endpoint does with a request of another die: a read is answered with its bytes, a write is performed and acknowledged, a
refused access is answered with its status, an access out of its block counts as violation 15 and is answered with "reserved" (ERSP
0x03), a CREQ with the control access's result, and a FRAME_CODE that asks a die for what only a base die does is turned down (R53,
R235, R254, R364, R367, R375). Beyond these rules it rests on the model's reading: assumptions 41, 43, 47 and 50. A reply ends the
request that it answers, and a reply to no request is violation 6; a request without a reply for `REQ_TIMEOUT` since it was sent ends
with "timeout", not before, and its late reply counts in `LNK_LATE_RSP`; and the hold of a route whose group changed ends after
`REQ_TIMEOUT` (R364, R373-R375). Beyond these rules it rests on the model's reading: assumption 35. -/
def Obligations.RequestsAreAnsweredOrEnd : Prop :=
  RequestsAreAnswered ∧ RequestsEnd

/-! ### Power -/

/-- The controller's 10 ns step moves the allowance towards what the limits and the demand allow, no further than the grade, and sets the
issue fraction from it; a 1 µs window of a rail gives its average and its peak, and a rail that stays below its reset threshold for 1 µs
is removed; the scan gives the hottest junction; and the energy counter adds. Apart from a removed rail none of them changes a memory or
a core (R10, R407, R413, R414, R424, R430, R465, R471). Beyond these rules it rests on the model's reading: assumptions 55, 56 and 78. -/
def Sys2Proof.Machine.PowerMeasuresAndLimitsIssue : Prop :=
  ∀ s : State,
    (∀ demand, Answers (exec (.issueFractionUpdate demand) s) fun t =>
      t.allowance = max (s.allowance - 1760 / s.get Fld.PWR_PWR_GRADE_GRADE_DOWN)
        (min (s.allowance + 1760 / s.get Fld.PWR_PWR_GRADE_GRADE_UP) (s.allowanceWanted demand)) ∧
      t.phi = max 1 (if demand = 0 then 4 * s.get Fld.PWR_PWR_STATUS_DUTY else min (4 * s.get Fld.PWR_PWR_STATUS_DUTY) (64 * t.allowance / demand)) ∧
      t.mem = s.mem ∧ t.cores = s.cores) ∧
    (s.aon.noVaon = false → ∀ rail < 5, ∀ mv < 65536, ∀ i < 65536, mv < resetThreshold rail → 99 ≤ (s.rail rail).low →
      (rail = 4 → exec (.railSample rail mv i) s = exec .vaonLoss (s.railSample rail mv i)) ∧
      (rail ≠ 4 → s.aon.railOut = false → exec (.railSample rail mv i) s = exec (.warmResetByPin (some rail)) (s.railSample rail mv i))) ∧
    (s.aon.noVaon = false → ∀ rail < 5, ∀ mv < 65536, ∀ i < 65536, resetThreshold rail ≤ mv ∨ (s.rail rail).low < 99 → Answers (exec (.railSample rail mv i) s) fun t =>
      t.get Fld.PWR_RAIL_MEAS_MV rail = mv ∧ t.mem = s.mem ∧ t.cores = s.cores ∧
      ((s.rail rail).counts = [99, 99, 99] → (s.rail rail).sums.length = 3 → (s.rail rail).avgs.length = 3 →
        (∀ k < 3, (s.rail rail).sums.getD k 0 ≤ 99 * 65535) →
        t.get Fld.PWR_RAIL_MEAS_I_1US rail = ((s.rail rail).sums.getD 0 0 + i) / 100 ∧
        t.get Fld.PWR_RAIL_PEAK_I_PEAK rail = max (s.get Fld.PWR_RAIL_PEAK_I_PEAK rail) (((s.rail rail).sums.getD 0 0 + i) / 100))) ∧
    (∀ x : List Int, x.length = 96 → (∀ y ∈ x, -2048 ≤ y ∧ y < 2048) → Answers (exec (.temperatureScan x) s) fun t =>
      (∀ y ∈ x, y ≤ signed 12 (t.get Fld.PWR_PWR_TJ_TJ)) ∧ x[t.get Fld.PWR_PWR_TJ_SENSOR]? = some (signed 12 (t.get Fld.PWR_PWR_TJ_TJ)) ∧
      t.aon.tj = signed 12 (t.get Fld.PWR_PWR_TJ_TJ) ∧
      t = { s with regs := t.regs, aon := t.aon, episodes := t.episodes, coolRun := t.coolRun }) ∧
    (∀ e, exec (.energyUpdate e) s = .next (s.put Fld.PWR_PWR_ENERGY_COUNT (s.get Fld.PWR_PWR_ENERGY_COUNT + e)))

/-- The 100 µs control period, in which a waiting COMMIT of the PWR page has been applied first, follows the junction temperature in
`TH_CAP` and gives the power over `CAP_TAU`; floors above the budget force the lowest operating point at duty 1 with the least
fractions; the period never raises the operating point itself but asks for the VCORE of the next; it is raised only once VCORE has
reached it, and a step whose rail is not ready is cancelled. Before the release the period leaves the bring-up point (R408, R409, R421,
R422, R425, R431, R432, R467). Beyond these rules it rests on the model's reading: assumptions 57, 58, 60 and 96. -/
def Sys2Proof.Machine.ControlPeriodKeepsTheBudget : Prop :=
  ∀ s : State,
    (∀ p : PowerEstimate, let a := s.powerApply
      (s.commitBusy 4 = false → a = s) ∧
      (a.released = false → Answers (exec (.controlPeriod p) s) fun t =>
        t = { a with regs := t.regs, powers := t.powers, rails := t.rails } ∧ ∀ k, k ≠ Fld.PWR_PWR_POWER_AVG.key 0 0 → t.word k = a.word k) ∧
      (a.released = true → Answers (exec (.controlPeriod p) s) fun t =>
        let tj := signed 12 (a.get Fld.PWR_PWR_TJ_TJ)
        let lim : Int := 4 * a.get Fld.PWR_THERM_CFG_THERM_LIMIT
        let cap := a.get Fld.PWR_PWR_POWER_TH_CAP
        let cap' := if lim ≤ tj then cap - 8 else if tj ≤ lim - 12 then min 900 (cap + 4) else cap
        let powers := (a.periodPower :: a.powers).take (10 * max 1 (a.get Fld.PWR_PWR_CAP_CAP_TAU))
        t.get Fld.PWR_PWR_POWER_TH_CAP = cap' ∧ t.mem = a.mem ∧ t.cores = a.cores ∧
        t.get Fld.PWR_PWR_POWER_AVG = min (powers.sum / powers.length) (2 ^ 14 - 1) ∧
        a.get Fld.PWR_PWR_STATUS_OP ≤ t.get Fld.PWR_PWR_STATUS_OP ∧
        (∀ o, t.opTarget = some o → o + 1 = a.get Fld.PWR_PWR_STATUS_OP ∧ t.get Fld.PWR_PWR_STATUS_OP = a.get Fld.PWR_PWR_STATUS_OP ∧
          t.get Fld.CLK_CLK_FREQ_MHZ = a.get Fld.CLK_CLK_FREQ_MHZ ∧ t.vcoreSet = a.fuses.vcore.getD o 0) ∧
        ((min (a.get Fld.PWR_PWR_CAP_CAP_W) cap' : Int) < p.static + (p.floorCompute + p.floorMemory + p.floorLinks : Nat) →
          t.get Fld.PWR_PWR_STATUS_DUTY = 1 ∧ t.memBudget = 4 ∧ t.linkBudget = 2 ∧
          (a.get Fld.PWR_PWR_CFG_FIXED = 0 → t.get Fld.PWR_PWR_STATUS_OP = 7 ∧ t.get Fld.CLK_CLK_FREQ_MHZ = 800)))) ∧
    (∀ op < 8, s.opTarget = some op → Answers (exec .vcoreReached s) fun t =>
      t.opTarget = none ∧ t.get Fld.PWR_PWR_STATUS_OP = op ∧ t.get Fld.CLK_CLK_FREQ_MHZ = opMhz op ∧
      t.vcoreSet = s.fuses.vcore.getD op 0 ∧ t.mem = s.mem) ∧
    (∀ miss op, s.opTarget = some op → Answers (exec (.vcoreReadyTimeout miss) s) fun t =>
      t.opTarget = none ∧ t.get Fld.PWR_PWR_STATUS_OP = s.get Fld.PWR_PWR_STATUS_OP ∧ t.get Fld.PWR_PAGE_EVENT_RAIL_NOT_READY = 1 ∧
      t.vcoreSet = s.fuses.vcore.getD (s.get Fld.PWR_PWR_STATUS_OP) 0 ∧ t.mem = s.mem) ∧
    (∀ miss, s.opTarget = none → s.get Fld.BOOT_BOOT_STATE_PHASE < 8 → Answers (exec (.vcoreReadyTimeout miss) s) fun t =>
      t.vcoreSet = 810 ∧ t.vsramSet = 810 ∧ t.vsramDue = none ∧ t.get Fld.PWR_PAGE_EVENT_RAIL_NOT_READY = 1 ∧ t.mem = s.mem)

/-- The controller's 10 ns step moves the allowance towards what the limits and the demand allow, no further than the grade, and sets the
issue fraction from it; a 1 µs window of a rail gives its average and its peak, and a rail that stays below its reset threshold for 1 µs
is removed; the scan gives the hottest junction; and the energy counter adds. Apart from a removed rail none of them changes a memory or
a core (R10, R407, R413, R414, R424, R430, R465, R471). Beyond these rules it rests on the model's reading: assumptions 55, 56 and 78.
The 100 µs control period, in which a waiting COMMIT of the PWR page has been applied first, follows the junction temperature in
`TH_CAP` and gives the power over `CAP_TAU`; floors above the budget force the lowest operating point at duty 1 with the least
fractions; the period never raises the operating point itself but asks for the VCORE of the next; it is raised only once VCORE has
reached it, and a step whose rail is not ready is cancelled. Before the release the period leaves the bring-up point (R408, R409, R421,
R422, R425, R431, R432, R467). Beyond these rules it rests on the model's reading: assumptions 57, 58, 60 and 96. -/
def Obligations.PowerIsMeasuredAndLimited : Prop :=
  PowerMeasuresAndLimitsIssue ∧ ControlPeriodKeepsTheBudget

/-! ### The whole die -/

/-- Every step keeps memory and the registers in canonical form, so that equal contents are equal states. Beyond these rules it rests on the
model's reading: assumption 11. -/
def Obligations.EveryStepKeepsTheTablesCanonical : Prop :=
  ∀ s t : State, s.Canonical → step s = .next t → t.Canonical

/-- The tables are in canonical form at reset. Beyond these rules it rests on the model's reading: assumption 11. -/
def Obligations.ResetIsCanonical : Prop := State.reset.Canonical
end

