-- ==== Sys2Proof/Laws/Dispatch.lean ====
section
/-! SUPPORT. The arm of each command, one equation a row, so that no proof unfolds the dispatch. -/

namespace Sys2Proof.Machine

@[simp] theorem exec_coldPowerUp (s : State) : exec (.coldPowerUp) s = execColdPowerUp s := rfl
@[simp] theorem exec_warmResetByPin (s : State) rail : exec (.warmResetByPin rail) s = execWarmResetByPin rail s := rfl
@[simp] theorem exec_rstNDeassert (s : State) datumEn cfgMaster diepos : exec (.rstNDeassert datumEn cfgMaster diepos) s = execRstNDeassert datumEn cfgMaster diepos s := rfl
@[simp] theorem exec_vaonLoss (s : State) : exec (.vaonLoss) s = execVaonLoss s := rfl
@[simp] theorem exec_vsramBelowVcore (s : State) : exec (.vsramBelowVcore) s = execVsramBelowVcore s := rfl
@[simp] theorem exec_referenceGlitch (s : State) : exec (.referenceGlitch) s = execReferenceGlitch s := rfl
@[simp] theorem exec_referenceLost (s : State) : exec (.referenceLost) s = execReferenceLost s := rfl
@[simp] theorem exec_referenceReturn (s : State) : exec (.referenceReturn) s = execReferenceReturn s := rfl
@[simp] theorem exec_pllLost (s : State) island : exec (.pllLost island) s = execPllLost island s := rfl
@[simp] theorem exec_secondReferenceSeen (s : State) : exec (.secondReferenceSeen) s = execSecondReferenceSeen s := rfl
@[simp] theorem exec_thermalTrip (s : State) sensor : exec (.thermalTrip sensor) s = execThermalTrip sensor s := rfl
@[simp] theorem exec_aonPhase (s : State) : exec (.aonPhase) s = execAonPhase s := rfl
@[simp] theorem exec_fusePhase (s : State) : exec (.fusePhase) s = execFusePhase s := rfl
@[simp] theorem exec_bist (s : State) findings codes fatal : exec (.bist findings codes fatal) s = execBist findings codes fatal s := rfl
@[simp] theorem exec_reconcile (s : State) : exec (.reconcile) s = execReconcile s := rfl
@[simp] theorem exec_sideband (s : State) : exec (.sideband) s = execSideband s := rfl
@[simp] theorem exec_fetchQspi (s : State) stream : exec (.fetchQspi stream) s = execFetchQspi stream s := rfl
@[simp] theorem exec_fetchBootLink (s : State) : exec (.fetchBootLink) s = execFetchBootLink s := rfl
@[simp] theorem exec_verify (s : State) : exec (.verify) s = execVerify s := rfl
@[simp] theorem exec_commitPhase (s : State) : exec (.commitPhase) s = execCommitPhase s := rfl
@[simp] theorem exec_writeRecord (s : State) : exec (.writeRecord) s = execWriteRecord s := rfl
@[simp] theorem exec_relayHoldExpiry (s : State) : exec (.relayHoldExpiry) s = execRelayHoldExpiry s := rfl
@[simp] theorem exec_releaseCompute (s : State) : exec (.releaseCompute) s = execReleaseCompute s := rfl
@[simp] theorem exec_cadastreWritten (s : State) : exec (.cadastreWritten) s = execCadastreWritten s := rfl
@[simp] theorem exec_release (s : State) a : exec (.release a) s = execRelease a s := rfl
@[simp] theorem exec_refetch (s : State) a : exec (.refetch a) s = execRefetch a s := rfl
@[simp] theorem exec_warmReset (s : State) a : exec (.warmReset a) s = execWarmReset a s := rfl
@[simp] theorem exec_registerWrite (s : State) a addr size value : exec (.registerWrite a addr size value) s = execRegisterWrite a addr size value s := rfl
@[simp] theorem exec_rcRead (s : State) a addr size : exec (.rcRead a addr size) s = execRcRead a addr size s := rfl
@[simp] theorem exec_stagedWrite (s : State) a addr size value : exec (.stagedWrite a addr size value) s = execStagedWrite a addr size value s := rfl
@[simp] theorem exec_commit (s : State) a page : exec (.commit a page) s = execCommit a page s := rfl
@[simp] theorem exec_discard (s : State) a page : exec (.discard a page) s = execDiscard a page s := rfl
@[simp] theorem exec_instanceApply (s : State) page inst : exec (.instanceApply page inst) s = execInstanceApply page inst s := rfl
@[simp] theorem exec_eventMessageSend (s : State) : exec (.eventMessageSend) s = execEventMessageSend s := rfl
@[simp] theorem exec_eventRecordPost (s : State) : exec (.eventRecordPost) s = execEventRecordPost s := rfl
@[simp] theorem exec_nop (s : State) c : exec (.nop c) s = execNop c s := rfl
@[simp] theorem exec_endInstr (s : State) c : exec (.endInstr c) s = execEndInstr c s := rfl
@[simp] theorem exec_kernelCompletion (s : State) c : exec (.kernelCompletion c) s = execKernelCompletion c s := rfl
@[simp] theorem exec_loop (s : State) c : exec (.loop c) s = execLoop c s := rfl
@[simp] theorem exec_jump (s : State) c : exec (.jump c) s = execJump c s := rfl
@[simp] theorem exec_fence (s : State) c : exec (.fence c) s = execFence c s := rfl
@[simp] theorem exec_mmaMultiplyAdd (s : State) c : exec (.mmaMultiplyAdd c) s = execMmaMultiplyAdd c s := rfl
@[simp] theorem exec_mmaL1Distance (s : State) c : exec (.mmaL1Distance c) s = execMmaL1Distance c s := rfl
@[simp] theorem exec_mmaSquaredDifference (s : State) c : exec (.mmaSquaredDifference c) s = execMmaSquaredDifference c s := rfl
@[simp] theorem exec_mmaMaxPlus (s : State) c : exec (.mmaMaxPlus c) s = execMmaMaxPlus c s := rfl
@[simp] theorem exec_mmaMinPlus (s : State) c : exec (.mmaMinPlus c) s = execMmaMinPlus c s := rfl
@[simp] theorem exec_mmaMaxTimes (s : State) c : exec (.mmaMaxTimes c) s = execMmaMaxTimes c s := rfl
@[simp] theorem exec_mmaEqualityCount (s : State) c : exec (.mmaEqualityCount c) s = execMmaEqualityCount c s := rfl
@[simp] theorem exec_residencyDeadlock (s : State) c : exec (.residencyDeadlock c) s = execResidencyDeadlock c s := rfl
@[simp] theorem exec_opld (s : State) c : exec (.opld c) s = execOpld c s := rfl
@[simp] theorem exec_loadComplete (s : State) c : exec (.loadComplete c) s = execLoadComplete c s := rfl
@[simp] theorem exec_opfree (s : State) c : exec (.opfree c) s = execOpfree c s := rfl
@[simp] theorem exec_halfReleaseEnd (s : State) c half : exec (.halfReleaseEnd c half) s = execHalfReleaseEnd c half s := rfl
@[simp] theorem exec_pdset (s : State) c : exec (.pdset c) s = execPdset c s := rfl
@[simp] theorem exec_mskset (s : State) c : exec (.mskset c) s = execMskset c s := rfl
@[simp] theorem exec_wtset (s : State) c : exec (.wtset c) s = execWtset c s := rfl
@[simp] theorem exec_accClaim (s : State) c : exec (.accClaim c) s = execAccClaim c s := rfl
@[simp] theorem exec_fillComplete (s : State) c u : exec (.fillComplete c u) s = execFillComplete c u s := rfl
@[simp] theorem exec_feedEnd (s : State) c u : exec (.feedEnd c u) s = execFeedEnd c u s := rfl
@[simp] theorem exec_parcelFinal (s : State) c u : exec (.parcelFinal c u) s = execParcelFinal c u s := rfl
@[simp] theorem exec_spillDrainComplete (s : State) c u : exec (.spillDrainComplete c u) s = execSpillDrainComplete c u s := rfl
@[simp] theorem exec_coreTestEnter (s : State) a c : exec (.coreTestEnter a c) s = execCoreTestEnter a c s := rfl
@[simp] theorem exec_coreTestStart (s : State) a c : exec (.coreTestStart a c) s = execCoreTestStart a c s := rfl
@[simp] theorem exec_coreTestLeave (s : State) a c : exec (.coreTestLeave a c) s = execCoreTestLeave a c s := rfl
@[simp] theorem exec_valuAdd (s : State) c epi : exec (.valuAdd c epi) s = execValuAdd c epi s := rfl
@[simp] theorem exec_valuSub (s : State) c epi : exec (.valuSub c epi) s = execValuSub c epi s := rfl
@[simp] theorem exec_valuMul (s : State) c epi : exec (.valuMul c epi) s = execValuMul c epi s := rfl
@[simp] theorem exec_valuFma (s : State) c epi : exec (.valuFma c epi) s = execValuFma c epi s := rfl
@[simp] theorem exec_valuFnma (s : State) c epi : exec (.valuFnma c epi) s = execValuFnma c epi s := rfl
@[simp] theorem exec_valuMax (s : State) c epi : exec (.valuMax c epi) s = execValuMax c epi s := rfl
@[simp] theorem exec_valuMin (s : State) c epi : exec (.valuMin c epi) s = execValuMin c epi s := rfl
@[simp] theorem exec_valuAbs (s : State) c epi : exec (.valuAbs c epi) s = execValuAbs c epi s := rfl
@[simp] theorem exec_valuNeg (s : State) c epi : exec (.valuNeg c epi) s = execValuNeg c epi s := rfl
@[simp] theorem exec_valuMov (s : State) c epi : exec (.valuMov c epi) s = execValuMov c epi s := rfl
@[simp] theorem exec_valuSel (s : State) c epi : exec (.valuSel c epi) s = execValuSel c epi s := rfl
@[simp] theorem exec_valuI2f (s : State) c epi : exec (.valuI2f c epi) s = execValuI2f c epi s := rfl
@[simp] theorem exec_valuF2i (s : State) c epi : exec (.valuF2i c epi) s = execValuF2i c epi s := rfl
@[simp] theorem exec_valuWiden (s : State) c epi : exec (.valuWiden c epi) s = execValuWiden c epi s := rfl
@[simp] theorem exec_valuNarrow (s : State) c epi : exec (.valuNarrow c epi) s = execValuNarrow c epi s := rfl
@[simp] theorem exec_valuAnd (s : State) c epi : exec (.valuAnd c epi) s = execValuAnd c epi s := rfl
@[simp] theorem exec_valuOr (s : State) c epi : exec (.valuOr c epi) s = execValuOr c epi s := rfl
@[simp] theorem exec_valuXor (s : State) c epi : exec (.valuXor c epi) s = execValuXor c epi s := rfl
@[simp] theorem exec_valuNot (s : State) c epi : exec (.valuNot c epi) s = execValuNot c epi s := rfl
@[simp] theorem exec_valuShl (s : State) c epi : exec (.valuShl c epi) s = execValuShl c epi s := rfl
@[simp] theorem exec_valuShr (s : State) c epi : exec (.valuShr c epi) s = execValuShr c epi s := rfl
@[simp] theorem exec_valuSar (s : State) c epi : exec (.valuSar c epi) s = execValuSar c epi s := rfl
@[simp] theorem exec_valuSplit (s : State) c epi : exec (.valuSplit c epi) s = execValuSplit c epi s := rfl
@[simp] theorem exec_vsfuRcp (s : State) c epi : exec (.vsfuRcp c epi) s = execVsfuRcp c epi s := rfl
@[simp] theorem exec_vsfuRsq (s : State) c epi : exec (.vsfuRsq c epi) s = execVsfuRsq c epi s := rfl
@[simp] theorem exec_vsfuSqrt (s : State) c epi : exec (.vsfuSqrt c epi) s = execVsfuSqrt c epi s := rfl
@[simp] theorem exec_vsfuDiv (s : State) c epi : exec (.vsfuDiv c epi) s = execVsfuDiv c epi s := rfl
@[simp] theorem exec_vsfuExp2 (s : State) c epi : exec (.vsfuExp2 c epi) s = execVsfuExp2 c epi s := rfl
@[simp] theorem exec_vsfuLog2 (s : State) c epi : exec (.vsfuLog2 c epi) s = execVsfuLog2 c epi s := rfl
@[simp] theorem exec_vsfuExp (s : State) c epi : exec (.vsfuExp c epi) s = execVsfuExp c epi s := rfl
@[simp] theorem exec_vsfuLog (s : State) c epi : exec (.vsfuLog c epi) s = execVsfuLog c epi s := rfl
@[simp] theorem exec_vsfuTanh (s : State) c epi : exec (.vsfuTanh c epi) s = execVsfuTanh c epi s := rfl
@[simp] theorem exec_vsfuSigmoid (s : State) c epi : exec (.vsfuSigmoid c epi) s = execVsfuSigmoid c epi s := rfl
@[simp] theorem exec_vsfuSilu (s : State) c epi : exec (.vsfuSilu c epi) s = execVsfuSilu c epi s := rfl
@[simp] theorem exec_vsfuGelu (s : State) c epi : exec (.vsfuGelu c epi) s = execVsfuGelu c epi s := rfl
@[simp] theorem exec_vsfuErf (s : State) c epi : exec (.vsfuErf c epi) s = execVsfuErf c epi s := rfl
@[simp] theorem exec_vsfuSin (s : State) c epi : exec (.vsfuSin c epi) s = execVsfuSin c epi s := rfl
@[simp] theorem exec_vsfuCos (s : State) c epi : exec (.vsfuCos c epi) s = execVsfuCos c epi s := rfl
@[simp] theorem exec_vcmpEq (s : State) c epi : exec (.vcmpEq c epi) s = execVcmpEq c epi s := rfl
@[simp] theorem exec_vcmpNe (s : State) c epi : exec (.vcmpNe c epi) s = execVcmpNe c epi s := rfl
@[simp] theorem exec_vcmpLt (s : State) c epi : exec (.vcmpLt c epi) s = execVcmpLt c epi s := rfl
@[simp] theorem exec_vcmpLe (s : State) c epi : exec (.vcmpLe c epi) s = execVcmpLe c epi s := rfl
@[simp] theorem exec_vcmpGt (s : State) c epi : exec (.vcmpGt c epi) s = execVcmpGt c epi s := rfl
@[simp] theorem exec_vcmpGe (s : State) c epi : exec (.vcmpGe c epi) s = execVcmpGe c epi s := rfl
@[simp] theorem exec_vcmpUnordered (s : State) c epi : exec (.vcmpUnordered c epi) s = execVcmpUnordered c epi s := rfl
@[simp] theorem exec_vredSum (s : State) c epi : exec (.vredSum c epi) s = execVredSum c epi s := rfl
@[simp] theorem exec_vredMax (s : State) c epi : exec (.vredMax c epi) s = execVredMax c epi s := rfl
@[simp] theorem exec_vredMin (s : State) c epi : exec (.vredMin c epi) s = execVredMin c epi s := rfl
@[simp] theorem exec_vredAnd (s : State) c epi : exec (.vredAnd c epi) s = execVredAnd c epi s := rfl
@[simp] theorem exec_vredOr (s : State) c epi : exec (.vredOr c epi) s = execVredOr c epi s := rfl
@[simp] theorem exec_vredXor (s : State) c epi : exec (.vredXor c epi) s = execVredXor c epi s := rfl
@[simp] theorem exec_vredPopc (s : State) c epi : exec (.vredPopc c epi) s = execVredPopc c epi s := rfl
@[simp] theorem exec_vredPall (s : State) c epi : exec (.vredPall c epi) s = execVredPall c epi s := rfl
@[simp] theorem exec_vredPany (s : State) c epi : exec (.vredPany c epi) s = execVredPany c epi s := rfl
@[simp] theorem exec_vredPpar (s : State) c epi : exec (.vredPpar c epi) s = execVredPpar c epi s := rfl
@[simp] theorem exec_vredPcnt (s : State) c epi : exec (.vredPcnt c epi) s = execVredPcnt c epi s := rfl
@[simp] theorem exec_vperm (s : State) c epi : exec (.vperm c epi) s = execVperm c epi s := rfl
@[simp] theorem exec_vldUnitStride (s : State) c epi : exec (.vldUnitStride c epi) s = execVldUnitStride c epi s := rfl
@[simp] theorem exec_vldStrided (s : State) c epi : exec (.vldStrided c epi) s = execVldStrided c epi s := rfl
@[simp] theorem exec_vldGather (s : State) c epi : exec (.vldGather c epi) s = execVldGather c epi s := rfl
@[simp] theorem exec_vldRepeat (s : State) c epi : exec (.vldRepeat c epi) s = execVldRepeat c epi s := rfl
@[simp] theorem exec_vldBroadcast (s : State) c epi : exec (.vldBroadcast c epi) s = execVldBroadcast c epi s := rfl
@[simp] theorem exec_vstUnitStride (s : State) c epi : exec (.vstUnitStride c epi) s = execVstUnitStride c epi s := rfl
@[simp] theorem exec_vstStrided (s : State) c epi : exec (.vstStrided c epi) s = execVstStrided c epi s := rfl
@[simp] theorem exec_vstScatter (s : State) c epi : exec (.vstScatter c epi) s = execVstScatter c epi s := rfl
@[simp] theorem exec_vdrn (s : State) c : exec (.vdrn c) s = execVdrn c s := rfl
@[simp] theorem exec_vcstDirect (s : State) c epi : exec (.vcstDirect c epi) s = execVcstDirect c epi s := rfl
@[simp] theorem exec_vcstOutput (s : State) c : exec (.vcstOutput c) s = execVcstOutput c s := rfl
@[simp] theorem exec_veend (s : State) c : exec (.veend c) s = execVeend c s := rfl
@[simp] theorem exec_vseti (s : State) c epi : exec (.vseti c epi) s = execVseti c epi s := rfl
@[simp] theorem exec_vcaps (s : State) c epi : exec (.vcaps c epi) s = execVcaps c epi s := rfl
@[simp] theorem exec_vpop (s : State) c epi : exec (.vpop c epi) s = execVpop c epi s := rfl
@[simp] theorem exec_vpfirst (s : State) c epi : exec (.vpfirst c epi) s = execVpfirst c epi s := rfl
@[simp] theorem exec_epilogueStart (s : State) c : exec (.epilogueStart c) s = execEpilogueStart c s := rfl
@[simp] theorem exec_regionCloseEnd (s : State) unit head : exec (.regionCloseEnd unit head) s = execRegionCloseEnd unit head s := rfl
@[simp] theorem exec_scrubComplete (s : State) unit gran : exec (.scrubComplete unit gran) s = execScrubComplete unit gran s := rfl
@[simp] theorem exec_correctedWriteback (s : State) word : exec (.correctedWriteback word) s = execCorrectedWriteback word s := rfl
@[simp] theorem exec_patrolPeriod (s : State) : exec (.patrolPeriod) s = execPatrolPeriod s := rfl
@[simp] theorem exec_scrubHoldWrite (s : State) a hold : exec (.scrubHoldWrite a hold) s = execScrubHoldWrite a hold s := rfl
@[simp] theorem exec_move (s : State) c : exec (.move c) s = execMove c s := rfl
@[simp] theorem exec_mwait (s : State) c : exec (.mwait c) s = execMwait c s := rfl
@[simp] theorem exec_moveNop (s : State) k : exec (.moveNop k) s = execMoveNop k s := rfl
@[simp] theorem exec_moveCopy (s : State) k : exec (.moveCopy k) s = execMoveCopy k s := rfl
@[simp] theorem exec_moveFill (s : State) k : exec (.moveFill k) s = execMoveFill k s := rfl
@[simp] theorem exec_moveMap (s : State) k : exec (.moveMap k) s = execMoveMap k s := rfl
@[simp] theorem exec_moveUnmap (s : State) k : exec (.moveUnmap k) s = execMoveUnmap k s := rfl
@[simp] theorem exec_unmapComplete (s : State) k : exec (.unmapComplete k) s = execUnmapComplete k s := rfl
@[simp] theorem exec_moveTouch (s : State) k : exec (.moveTouch k) s = execMoveTouch k s := rfl
@[simp] theorem exec_moveComplete (s : State) k : exec (.moveComplete k) s = execMoveComplete k s := rfl
@[simp] theorem exec_walkComplete (s : State) dom va cluster : exec (.walkComplete dom va cluster) s = execWalkComplete dom va cluster s := rfl
@[simp] theorem exec_pendingZeroWriteDone (s : State) frame ok : exec (.pendingZeroWriteDone frame ok) s = execPendingZeroWriteDone frame ok s := rfl
@[simp] theorem exec_frameScrub (s : State) frame : exec (.frameScrub frame) s = execFrameScrub frame s := rfl
@[simp] theorem exec_doorbell (s : State) a q tail : exec (.doorbell a q tail) s = execDoorbell a q tail s := rfl
@[simp] theorem exec_itemNop (s : State) q : exec (.itemNop q) s = execItemNop q s := rfl
@[simp] theorem exec_itemKernel (s : State) q : exec (.itemKernel q) s = execItemKernel q s := rfl
@[simp] theorem exec_itemMove (s : State) q : exec (.itemMove q) s = execItemMove q s := rfl
@[simp] theorem exec_itemRalloc (s : State) q : exec (.itemRalloc q) s = execItemRalloc q s := rfl
@[simp] theorem exec_itemRfree (s : State) q : exec (.itemRfree q) s = execItemRfree q s := rfl
@[simp] theorem exec_rgbegin (s : State) q : exec (.rgbegin q) s = execRgbegin q s := rfl
@[simp] theorem exec_rgend (s : State) q : exec (.rgend q) s = execRgend q s := rfl
@[simp] theorem exec_placementRetry (s : State) q : exec (.placementRetry q) s = execPlacementRetry q s := rfl
@[simp] theorem exec_placeLimitExpiry (s : State) q : exec (.placeLimitExpiry q) s = execPlaceLimitExpiry q s := rfl
@[simp] theorem exec_kernelTimeout (s : State) g : exec (.kernelTimeout g) s = execKernelTimeout g s := rfl
@[simp] theorem exec_barrierBroken (s : State) g : exec (.barrierBroken g) s = execBarrierBroken g s := rfl
@[simp] theorem exec_kernelEnd (s : State) g : exec (.kernelEnd g) s = execKernelEnd g s := rfl
@[simp] theorem exec_qEnable (s : State) a q : exec (.qEnable a q) s = execQEnable a q s := rfl
@[simp] theorem exec_qDisable (s : State) a q : exec (.qDisable a q) s = execQDisable a q s := rfl
@[simp] theorem exec_qResume (s : State) a q : exec (.qResume a q) s = execQResume a q s := rfl
@[simp] theorem exec_qFlush (s : State) a q : exec (.qFlush a q) s = execQFlush a q s := rfl
@[simp] theorem exec_cheadWrite (s : State) a q value : exec (.cheadWrite a q value) s = execCheadWrite a q value s := rfl
@[simp] theorem exec_domActivate (s : State) a dom kind : exec (.domActivate a dom kind) s = execDomActivate a dom kind s := rfl
@[simp] theorem exec_domTearDown (s : State) a dom : exec (.domTearDown a dom) s = execDomTearDown a dom s := rfl
@[simp] theorem exec_teardownComplete (s : State) dom : exec (.teardownComplete dom) s = execTeardownComplete dom s := rfl
@[simp] theorem exec_ginfo (s : State) c : exec (.ginfo c) s = execGinfo c s := rfl
@[simp] theorem exec_gbar (s : State) c : exec (.gbar c) s = execGbar c s := rfl
@[simp] theorem exec_signal (s : State) c : exec (.signal c) s = execSignal c s := rfl
@[simp] theorem exec_swait (s : State) c : exec (.swait c) s = execSwait c s := rfl
@[simp] theorem exec_qpost (s : State) c : exec (.qpost c) s = execQpost c s := rfl
@[simp] theorem exec_trav (s : State) c : exec (.trav c) s = execTrav c s := rfl
@[simp] theorem exec_twait (s : State) c : exec (.twait c) s = execTwait c s := rfl
@[simp] theorem exec_spush (s : State) c : exec (.spush c) s = execSpush c s := rfl
@[simp] theorem exec_spop (s : State) c : exec (.spop c) s = execSpop c s := rfl
@[simp] theorem exec_allreduce (s : State) ch : exec (.allreduce ch) s = execAllreduce ch s := rfl
@[simp] theorem exec_redscat (s : State) ch : exec (.redscat ch) s = execRedscat ch s := rfl
@[simp] theorem exec_allgather (s : State) ch : exec (.allgather ch) s = execAllgather ch s := rfl
@[simp] theorem exec_permute (s : State) ch : exec (.permute ch) s = execPermute ch s := rfl
@[simp] theorem exec_rpass (s : State) ch : exec (.rpass ch) s = execRpass ch s := rfl
@[simp] theorem exec_hmerge (s : State) ch : exec (.hmerge ch) s = execHmerge ch s := rfl
@[simp] theorem exec_roundComplete (s : State) ch : exec (.roundComplete ch) s = execRoundComplete ch s := rfl
@[simp] theorem exec_roundTimeout (s : State) ch : exec (.roundTimeout ch) s = execRoundTimeout ch s := rfl
@[simp] theorem exec_sbinitRetry (s : State) m : exec (.sbinitRetry m) s = execSbinitRetry m s := rfl
@[simp] theorem exec_sbinitDone (s : State) m : exec (.sbinitDone m) s = execSbinitDone m s := rfl
@[simp] theorem exec_featureRecord (s : State) m rec : exec (.featureRecord m rec) s = execFeatureRecord m rec s := rfl
@[simp] theorem exec_exchangeTimeout (s : State) m : exec (.exchangeTimeout m) s = execExchangeTimeout m s := rfl
@[simp] theorem exec_rateAttempt (s : State) m ownMap peerOk : exec (.rateAttempt m ownMap peerOk) s = execRateAttempt m ownMap peerOk s := rfl
@[simp] theorem exec_closureRecord (s : State) m peerMap peerRate peerWidth peerSet peerMin peerResets : exec (.closureRecord m peerMap peerRate peerWidth peerSet peerMin peerResets) s = execClosureRecord m peerMap peerRate peerWidth peerSet peerMin peerResets s := rfl
@[simp] theorem exec_partnerRetrainRequest (s : State) m : exec (.partnerRetrainRequest m) s = execPartnerRetrainRequest m s := rfl
@[simp] theorem exec_retrainTimeout (s : State) m : exec (.retrainTimeout m) s = execRetrainTimeout m s := rfl
@[simp] theorem exec_sidebandLoss (s : State) m : exec (.sidebandLoss m) s = execSidebandLoss m s := rfl
@[simp] theorem exec_retrain (s : State) a m : exec (.retrain a m) s = execRetrain a m s := rfl
@[simp] theorem exec_unquarantine (s : State) a m : exec (.unquarantine a m) s = execUnquarantine a m s := rfl
@[simp] theorem exec_takeDown (s : State) a m : exec (.takeDown a m) s = execTakeDown a m s := rfl
@[simp] theorem exec_flit (s : State) m bits : exec (.flit m bits) s = execFlit m bits s := rfl
@[simp] theorem exec_ackDue (s : State) m : exec (.ackDue m) s = execAckDue m s := rfl
@[simp] theorem exec_rd (s : State) m p : exec (.rd m p) s = execRd m p s := rfl
@[simp] theorem exec_wr (s : State) m p : exec (.wr m p) s = execWr m p s := rfl
@[simp] theorem exec_bwr (s : State) m p : exec (.bwr m p) s = execBwr m p s := rfl
@[simp] theorem exec_rdata (s : State) m p : exec (.rdata m p) s = execRdata m p s := rfl
@[simp] theorem exec_wack (s : State) m p : exec (.wack m p) s = execWack m p s := rfl
@[simp] theorem exec_ersp (s : State) m p : exec (.ersp m p) s = execErsp m p s := rfl
@[simp] theorem exec_seg (s : State) m p : exec (.seg m p) s = execSeg m p s := rfl
@[simp] theorem exec_perm (s : State) m p : exec (.perm m p) s = execPerm m p s := rfl
@[simp] theorem exec_grant (s : State) m p : exec (.grant m p) s = execGrant m p s := rfl
@[simp] theorem exec_cack (s : State) m p : exec (.cack m p) s = execCack m p s := rfl
@[simp] theorem exec_abort (s : State) m p : exec (.abort m p) s = execAbort m p s := rfl
@[simp] theorem exec_crefuse (s : State) m p : exec (.crefuse m p) s = execCrefuse m p s := rfl
@[simp] theorem exec_sdata (s : State) m p : exec (.sdata m p) s = execSdata m p s := rfl
@[simp] theorem exec_sack (s : State) m p : exec (.sack m p) s = execSack m p s := rfl
@[simp] theorem exec_sopen (s : State) m p : exec (.sopen m p) s = execSopen m p s := rfl
@[simp] theorem exec_scredit (s : State) m p : exec (.scredit m p) s = execScredit m p s := rfl
@[simp] theorem exec_serr (s : State) m p : exec (.serr m p) s = execSerr m p s := rfl
@[simp] theorem exec_creq (s : State) m p : exec (.creq m p) s = execCreq m p s := rfl
@[simp] theorem exec_crsp (s : State) m p : exec (.crsp m p) s = execCrsp m p s := rfl
@[simp] theorem exec_event (s : State) m p : exec (.event m p) s = execEvent m p s := rfl
@[simp] theorem exec_frameCode (s : State) m p : exec (.frameCode m p) s = execFrameCode m p s := rfl
@[simp] theorem exec_fcack (s : State) m p : exec (.fcack m p) s = execFcack m p s := rfl
@[simp] theorem exec_msg (s : State) m p : exec (.msg m p) s = execMsg m p s := rfl
@[simp] theorem exec_image (s : State) m p : exec (.image m p) s = execImage m p s := rfl
@[simp] theorem exec_enote (s : State) m p : exec (.enote m p) s = execEnote m p s := rfl
@[simp] theorem exec_mack (s : State) m p : exec (.mack m p) s = execMack m p s := rfl
@[simp] theorem exec_requestTimeout (s : State) tag : exec (.requestTimeout tag) s = execRequestTimeout tag s := rfl
@[simp] theorem exec_routeHoldEnd (s : State) entry : exec (.routeHoldEnd entry) s = execRouteHoldEnd entry s := rfl
@[simp] theorem exec_issueFractionUpdate (s : State) demand : exec (.issueFractionUpdate demand) s = execIssueFractionUpdate demand s := rfl
@[simp] theorem exec_railSample (s : State) rail milliVolt current : exec (.railSample rail milliVolt current) s = execRailSample rail milliVolt current s := rfl
@[simp] theorem exec_controlPeriod (s : State) p : exec (.controlPeriod p) s = execControlPeriod p s := rfl
@[simp] theorem exec_vcoreReached (s : State) : exec (.vcoreReached) s = execVcoreReached s := rfl
@[simp] theorem exec_vcoreReadyTimeout (s : State) miss : exec (.vcoreReadyTimeout miss) s = execVcoreReadyTimeout miss s := rfl
@[simp] theorem exec_temperatureScan (s : State) quarterDegrees : exec (.temperatureScan quarterDegrees) s = execTemperatureScan quarterDegrees s := rfl
@[simp] theorem exec_energyUpdate (s : State) energy : exec (.energyUpdate energy) s = execEnergyUpdate energy s := rfl
@[simp] theorem exec_fnRptrWrite (s : State) a value : exec (.fnRptrWrite a value) s = execFnRptrWrite a value s := rfl
@[simp] theorem exec_dieFatal (s : State) unit : exec (.dieFatal unit) s = execDieFatal unit s := rfl
@[simp] theorem exec_mbReqWrite (s : State) a mb off value : exec (.mbReqWrite a mb off value) s = execMbReqWrite a mb off value s := rfl
@[simp] theorem exec_post (s : State) a mb len : exec (.post a mb len) s = execPost a mb len s := rfl
@[simp] theorem exec_mbRelease (s : State) a mb : exec (.mbRelease a mb) s = execMbRelease a mb s := rfl
@[simp] theorem exec_take (s : State) a mb : exec (.take a mb) s = execTake a mb s := rfl
@[simp] theorem exec_reply (s : State) a mb len : exec (.reply a mb len) s = execReply a mb len s := rfl
@[simp] theorem exec_loadWindow (s : State) percent : exec (.loadWindow percent) s = execLoadWindow percent s := rfl
@[simp] theorem exec_mirrorSnapshot (s : State) : exec (.mirrorSnapshot) s = execMirrorSnapshot s := rfl
@[simp] theorem exec_wdtKick (s : State) a value : exec (.wdtKick a value) s = execWdtKick a value s := rfl
@[simp] theorem exec_watchdogExpiry (s : State) : exec (.watchdogExpiry) s = execWatchdogExpiry s := rfl
@[simp] theorem exec_surveyorMemoryError (s : State) addr : exec (.surveyorMemoryError addr) s = execSurveyorMemoryError addr s := rfl
@[simp] theorem exec_surveyorRestartEnd (s : State) : exec (.surveyorRestartEnd) s = execSurveyorRestartEnd s := rfl
@[simp] theorem exec_extend (s : State) a index : exec (.extend a index) s = execExtend a index s := rfl
@[simp] theorem exec_quoteReq (s : State) a : exec (.quoteReq a) s = execQuoteReq a s := rfl
@[simp] theorem exec_quoteDone (s : State) : exec (.quoteDone) s = execQuoteDone s := rfl
@[simp] theorem exec_submit (s : State) a : exec (.submit a) s = execSubmit a s := rfl
@[simp] theorem exec_maRead (s : State) a : exec (.maRead a) s = execMaRead a s := rfl
@[simp] theorem exec_maWrite (s : State) a : exec (.maWrite a) s = execMaWrite a s := rfl
@[simp] theorem exec_maComplete (s : State) : exec (.maComplete) s = execMaComplete s := rfl
@[simp] theorem exec_clRetire (s : State) a cl phys force : exec (.clRetire a cl phys force) s = execClRetire a cl phys force s := rfl
@[simp] theorem exec_quiescePoint (s : State) c : exec (.quiescePoint c) s = execQuiescePoint c s := rfl
@[simp] theorem exec_recoveryTestEnd (s : State) cl pass : exec (.recoveryTestEnd cl pass) s = execRecoveryTestEnd cl pass s := rfl
@[simp] theorem exec_newClear (s : State) a : exec (.newClear a) s = execNewClear a s := rfl
@[simp] theorem exec_clear (s : State) a slot : exec (.clear a slot) s = execClear a slot s := rfl
@[simp] theorem exec_scaleEntryWrite (s : State) a slot entry value : exec (.scaleEntryWrite a slot entry value) s = execScaleEntryWrite a slot entry value s := rfl
@[simp] theorem exec_testLogicReset (s : State) : exec (.testLogicReset) s = execTestLogicReset s := rfl
@[simp] theorem exec_extest (s : State) : exec (.extest) s = execExtest s := rfl
@[simp] theorem exec_idcode (s : State) : exec (.idcode) s = execIdcode s := rfl
@[simp] theorem exec_samplePreload (s : State) pins : exec (.samplePreload pins) s = execSamplePreload pins s := rfl
@[simp] theorem exec_clamp (s : State) : exec (.clamp) s = execClamp s := rfl
@[simp] theorem exec_highz (s : State) : exec (.highz) s = execHighz s := rfl
@[simp] theorem exec_ijtag (s : State) open_ : exec (.ijtag open_) s = execIjtag open_ s := rfl
@[simp] theorem exec_bypass (s : State) code : exec (.bypass code) s = execBypass code s := rfl
@[simp] theorem exec_mrSync (s : State) : exec (.mrSync) s = execMrSync s := rfl
@[simp] theorem exec_presInChange (s : State) level : exec (.presInChange level) s = execPresInChange level s := rfl
@[simp] theorem exec_partnerSidebandRestart (s : State) m : exec (.partnerSidebandRestart m) s = execPartnerSidebandRestart m s := rfl
@[simp] theorem exec_railsValid (s : State) : exec (.railsValid) s = execRailsValid s := rfl

end Sys2Proof.Machine
end

