-- ==== Sys2Proof/Laws/State.lean ====
section
/-! SUPPORT. One lemma per field and update of the state: what a write of a register word, a field, a link module or a
core leaves alone, so that no later proof unfolds a record update. -/

namespace Sys2Proof.Machine

/-! ### A register word -/

/-- A word write changes its word alone. -/
theorem State.setWord_eq (s : State) (k : Nat) (v : BitVec 32) : s.setWord k v = { s with regs := tset regReset k v s.regs } := by unfold State.setWord; exact Eq.refl _

@[simp] theorem State.setWord_pending (s : State) (k : Nat) (v : BitVec 32) : (s.setWord k v).pending = s.pending := by rw [State.setWord_eq]
@[simp] theorem State.setWord_staged (s : State) (k : Nat) (v : BitVec 32) : (s.setWord k v).staged = s.staged := by rw [State.setWord_eq]
@[simp] theorem State.setWord_ctl (s : State) (k : Nat) (v : BitVec 32) : (s.setWord k v).ctl = s.ctl := by rw [State.setWord_eq]
@[simp] theorem State.setWord_free (s : State) (k : Nat) (v : BitVec 32) : (s.setWord k v).free = s.free := by rw [State.setWord_eq]
@[simp] theorem State.setWord_ckFrac (s : State) (k : Nat) (v : BitVec 32) : (s.setWord k v).ckFrac = s.ckFrac := by rw [State.setWord_eq]
@[simp] theorem State.setWord_station (s : State) (k : Nat) (v : BitVec 32) : (s.setWord k v).station = s.station := by rw [State.setWord_eq]
@[simp] theorem State.setWord_bootNonce (s : State) (k : Nat) (v : BitVec 32) : (s.setWord k v).bootNonce = s.bootNonce := by rw [State.setWord_eq]
@[simp] theorem State.setWord_fuses (s : State) (k : Nat) (v : BitVec 32) : (s.setWord k v).fuses = s.fuses := by rw [State.setWord_eq]
@[simp] theorem State.setWord_irq (s : State) (k : Nat) (v : BitVec 32) : (s.setWord k v).irq = s.irq := by rw [State.setWord_eq]
@[simp] theorem State.setWord_evq (s : State) (k : Nat) (v : BitVec 32) : (s.setWord k v).evq = s.evq := by rw [State.setWord_eq]
@[simp] theorem State.setWord_hostMsgs (s : State) (k : Nat) (v : BitVec 32) : (s.setWord k v).hostMsgs = s.hostMsgs := by rw [State.setWord_eq]
@[simp] theorem State.setWord_mods (s : State) (k : Nat) (v : BitVec 32) : (s.setWord k v).mods = s.mods := by rw [State.setWord_eq]
@[simp] theorem State.setWord_reqs (s : State) (k : Nat) (v : BitVec 32) : (s.setWord k v).reqs = s.reqs := by rw [State.setWord_eq]
@[simp] theorem State.setWord_nextTag (s : State) (k : Nat) (v : BitVec 32) : (s.setWord k v).nextTag = s.nextTag := by rw [State.setWord_eq]
@[simp] theorem State.setWord_waiting (s : State) (k : Nat) (v : BitVec 32) : (s.setWord k v).waiting = s.waiting := by rw [State.setWord_eq]
@[simp] theorem State.setWord_pathDrops (s : State) (k : Nat) (v : BitVec 32) : (s.setWord k v).pathDrops = s.pathDrops := by rw [State.setWord_eq]
@[simp] theorem State.setWord_mem (s : State) (k : Nat) (v : BitVec 32) : (s.setWord k v).mem = s.mem := by rw [State.setWord_eq]
@[simp] theorem State.setWord_ecc (s : State) (k : Nat) (v : BitVec 32) : (s.setWord k v).ecc = s.ecc := by rw [State.setWord_eq]
@[simp] theorem State.setWord_fixups (s : State) (k : Nat) (v : BitVec 32) : (s.setWord k v).fixups = s.fixups := by rw [State.setWord_eq]
@[simp] theorem State.setWord_lastCe (s : State) (k : Nat) (v : BitVec 32) : (s.setWord k v).lastCe = s.lastCe := by rw [State.setWord_eq]
@[simp] theorem State.setWord_cores (s : State) (k : Nat) (v : BitVec 32) : (s.setWord k v).cores = s.cores := by rw [State.setWord_eq]
@[simp] theorem State.setWord_held (s : State) (k : Nat) (v : BitVec 32) : (s.setWord k v).held = s.held := by rw [State.setWord_eq]
@[simp] theorem State.setWord_touched (s : State) (k : Nat) (v : BitVec 32) : (s.setWord k v).touched = s.touched := by rw [State.setWord_eq]
@[simp] theorem State.setWord_gangs (s : State) (k : Nat) (v : BitVec 32) : (s.setWord k v).gangs = s.gangs := by rw [State.setWord_eq]
@[simp] theorem State.setWord_nextGang (s : State) (k : Nat) (v : BitVec 32) : (s.setWord k v).nextGang = s.nextGang := by rw [State.setWord_eq]
@[simp] theorem State.setWord_frames (s : State) (k : Nat) (v : BitVec 32) : (s.setWord k v).frames = s.frames := by rw [State.setWord_eq]
@[simp] theorem State.setWord_pages (s : State) (k : Nat) (v : BitVec 32) : (s.setWord k v).pages = s.pages := by rw [State.setWord_eq]
@[simp] theorem State.setWord_tables (s : State) (k : Nat) (v : BitVec 32) : (s.setWord k v).tables = s.tables := by rw [State.setWord_eq]
@[simp] theorem State.setWord_tlbs (s : State) (k : Nat) (v : BitVec 32) : (s.setWord k v).tlbs = s.tlbs := by rw [State.setWord_eq]
@[simp] theorem State.setWord_walkCache (s : State) (k : Nat) (v : BitVec 32) : (s.setWord k v).walkCache = s.walkCache := by rw [State.setWord_eq]
@[simp] theorem State.setWord_patrolFrom (s : State) (k : Nat) (v : BitVec 32) : (s.setWord k v).patrolFrom = s.patrolFrom := by rw [State.setWord_eq]
@[simp] theorem State.setWord_condemned (s : State) (k : Nat) (v : BitVec 32) : (s.setWord k v).condemned = s.condemned := by rw [State.setWord_eq]
@[simp] theorem State.setWord_records (s : State) (k : Nat) (v : BitVec 32) : (s.setWord k v).records = s.records := by rw [State.setWord_eq]
@[simp] theorem State.setWord_classLast (s : State) (k : Nat) (v : BitVec 32) : (s.setWord k v).classLast = s.classLast := by rw [State.setWord_eq]
@[simp] theorem State.setWord_tight (s : State) (k : Nat) (v : BitVec 32) : (s.setWord k v).tight = s.tight := by rw [State.setWord_eq]
@[simp] theorem State.setWord_boostRun (s : State) (k : Nat) (v : BitVec 32) : (s.setWord k v).boostRun = s.boostRun := by rw [State.setWord_eq]
@[simp] theorem State.setWord_coolRun (s : State) (k : Nat) (v : BitVec 32) : (s.setWord k v).coolRun = s.coolRun := by rw [State.setWord_eq]
@[simp] theorem State.setWord_trims (s : State) (k : Nat) (v : BitVec 32) : (s.setWord k v).trims = s.trims := by rw [State.setWord_eq]
@[simp] theorem State.setWord_walks (s : State) (k : Nat) (v : BitVec 32) : (s.setWord k v).walks = s.walks := by rw [State.setWord_eq]
@[simp] theorem State.setWord_zeroing (s : State) (k : Nat) (v : BitVec 32) : (s.setWord k v).zeroing = s.zeroing := by rw [State.setWord_eq]
@[simp] theorem State.setWord_moveLast (s : State) (k : Nat) (v : BitVec 32) : (s.setWord k v).moveLast = s.moveLast := by rw [State.setWord_eq]
@[simp] theorem State.setWord_opMaxRun (s : State) (k : Nat) (v : BitVec 32) : (s.setWord k v).opMaxRun = s.opMaxRun := by rw [State.setWord_eq]
@[simp] theorem State.setWord_powers (s : State) (k : Nat) (v : BitVec 32) : (s.setWord k v).powers = s.powers := by rw [State.setWord_eq]
@[simp] theorem State.setWord_vsramDue (s : State) (k : Nat) (v : BitVec 32) : (s.setWord k v).vsramDue = s.vsramDue := by rw [State.setWord_eq]
@[simp] theorem State.setWord_avs (s : State) (k : Nat) (v : BitVec 32) : (s.setWord k v).avs = s.avs := by rw [State.setWord_eq]
@[simp] theorem State.setWord_qspi (s : State) (k : Nat) (v : BitVec 32) : (s.setWord k v).qspi = s.qspi := by rw [State.setWord_eq]
@[simp] theorem State.setWord_chal (s : State) (k : Nat) (v : BitVec 32) : (s.setWord k v).chal = s.chal := by rw [State.setWord_eq]
@[simp] theorem State.setWord_moves (s : State) (k : Nat) (v : BitVec 32) : (s.setWord k v).moves = s.moves := by rw [State.setWord_eq]
@[simp] theorem State.setWord_nextMove (s : State) (k : Nat) (v : BitVec 32) : (s.setWord k v).nextMove = s.nextMove := by rw [State.setWord_eq]
@[simp] theorem State.setWord_chains (s : State) (k : Nat) (v : BitVec 32) : (s.setWord k v).chains = s.chains := by rw [State.setWord_eq]
@[simp] theorem State.setWord_stages (s : State) (k : Nat) (v : BitVec 32) : (s.setWord k v).stages = s.stages := by rw [State.setWord_eq]
@[simp] theorem State.setWord_queues (s : State) (k : Nat) (v : BitVec 32) : (s.setWord k v).queues = s.queues := by rw [State.setWord_eq]
@[simp] theorem State.setWord_items (s : State) (k : Nat) (v : BitVec 32) : (s.setWord k v).items = s.items := by rw [State.setWord_eq]
@[simp] theorem State.setWord_cadastre (s : State) (k : Nat) (v : BitVec 32) : (s.setWord k v).cadastre = s.cadastre := by rw [State.setWord_eq]
@[simp] theorem State.setWord_domWait (s : State) (k : Nat) (v : BitVec 32) : (s.setWord k v).domWait = s.domWait := by rw [State.setWord_eq]
@[simp] theorem State.setWord_laneBad (s : State) (k : Nat) (v : BitVec 32) : (s.setWord k v).laneBad = s.laneBad := by rw [State.setWord_eq]
@[simp] theorem State.setWord_modBad (s : State) (k : Nat) (v : BitVec 32) : (s.setWord k v).modBad = s.modBad := by rw [State.setWord_eq]
@[simp] theorem State.setWord_roled (s : State) (k : Nat) (v : BitVec 32) : (s.setWord k v).roled = s.roled := by rw [State.setWord_eq]
@[simp] theorem State.setWord_lateTags (s : State) (k : Nat) (v : BitVec 32) : (s.setWord k v).lateTags = s.lateTags := by rw [State.setWord_eq]
@[simp] theorem State.setWord_holds (s : State) (k : Nat) (v : BitVec 32) : (s.setWord k v).holds = s.holds := by rw [State.setWord_eq]
@[simp] theorem State.setWord_routeUp (s : State) (k : Nat) (v : BitVec 32) : (s.setWord k v).routeUp = s.routeUp := by rw [State.setWord_eq]
@[simp] theorem State.setWord_phi (s : State) (k : Nat) (v : BitVec 32) : (s.setWord k v).phi = s.phi := by rw [State.setWord_eq]
@[simp] theorem State.setWord_allowance (s : State) (k : Nat) (v : BitVec 32) : (s.setWord k v).allowance = s.allowance := by rw [State.setWord_eq]
@[simp] theorem State.setWord_shareW (s : State) (k : Nat) (v : BitVec 32) : (s.setWord k v).shareW = s.shareW := by rw [State.setWord_eq]
@[simp] theorem State.setWord_rails (s : State) (k : Nat) (v : BitVec 32) : (s.setWord k v).rails = s.rails := by rw [State.setWord_eq]
@[simp] theorem State.setWord_opTarget (s : State) (k : Nat) (v : BitVec 32) : (s.setWord k v).opTarget = s.opTarget := by rw [State.setWord_eq]
@[simp] theorem State.setWord_episodes (s : State) (k : Nat) (v : BitVec 32) : (s.setWord k v).episodes = s.episodes := by rw [State.setWord_eq]
@[simp] theorem State.setWord_epiUnread (s : State) (k : Nat) (v : BitVec 32) : (s.setWord k v).epiUnread = s.epiUnread := by rw [State.setWord_eq]
@[simp] theorem State.setWord_accounts (s : State) (k : Nat) (v : BitVec 32) : (s.setWord k v).accounts = s.accounts := by rw [State.setWord_eq]
@[simp] theorem State.setWord_memBudget (s : State) (k : Nat) (v : BitVec 32) : (s.setWord k v).memBudget = s.memBudget := by rw [State.setWord_eq]
@[simp] theorem State.setWord_linkBudget (s : State) (k : Nat) (v : BitVec 32) : (s.setWord k v).linkBudget = s.linkBudget := by rw [State.setWord_eq]
@[simp] theorem State.setWord_vcoreSet (s : State) (k : Nat) (v : BitVec 32) : (s.setWord k v).vcoreSet = s.vcoreSet := by rw [State.setWord_eq]
@[simp] theorem State.setWord_vsramSet (s : State) (k : Nat) (v : BitVec 32) : (s.setWord k v).vsramSet = s.vsramSet := by rw [State.setWord_eq]
@[simp] theorem State.setWord_svyMem (s : State) (k : Nat) (v : BitVec 32) : (s.setWord k v).svyMem = s.svyMem := by rw [State.setWord_eq]
@[simp] theorem State.setWord_svyCode (s : State) (k : Nat) (v : BitVec 32) : (s.setWord k v).svyCode = s.svyCode := by rw [State.setWord_eq]
@[simp] theorem State.setWord_svyTimes (s : State) (k : Nat) (v : BitVec 32) : (s.setWord k v).svyTimes = s.svyTimes := by rw [State.setWord_eq]
@[simp] theorem State.setWord_svyCause (s : State) (k : Nat) (v : BitVec 32) : (s.setWord k v).svyCause = s.svyCause := by rw [State.setWord_eq]
@[simp] theorem State.setWord_kickedAt (s : State) (k : Nat) (v : BitVec 32) : (s.setWord k v).kickedAt = s.kickedAt := by rw [State.setWord_eq]
@[simp] theorem State.setWord_refusals (s : State) (k : Nat) (v : BitVec 32) : (s.setWord k v).refusals = s.refusals := by rw [State.setWord_eq]
@[simp] theorem State.setWord_quoteDraft (s : State) (k : Nat) (v : BitVec 32) : (s.setWord k v).quoteDraft = s.quoteDraft := by rw [State.setWord_eq]
@[simp] theorem State.setWord_maAccess (s : State) (k : Nat) (v : BitVec 32) : (s.setWord k v).maAccess = s.maAccess := by rw [State.setWord_eq]
@[simp] theorem State.setWord_poolKept (s : State) (k : Nat) (v : BitVec 32) : (s.setWord k v).poolKept = s.poolKept := by rw [State.setWord_eq]
@[simp] theorem State.setWord_keySlot (s : State) (k : Nat) (v : BitVec 32) : (s.setWord k v).keySlot = s.keySlot := by rw [State.setWord_eq]
@[simp] theorem State.setWord_aon (s : State) (k : Nat) (v : BitVec 32) : (s.setWord k v).aon = s.aon := by rw [State.setWord_eq]
@[simp] theorem State.setWord_boot (s : State) (k : Nat) (v : BitVec 32) : (s.setWord k v).boot = s.boot := by rw [State.setWord_eq]
@[simp] theorem State.setWord_tap (s : State) (k : Nat) (v : BitVec 32) : (s.setWord k v).tap = s.tap := by rw [State.setWord_eq]

/-! ### A register field -/

/-- A field write changes registers alone. -/
theorem State.put_frame (s : State) (f : Fld) (v i e : Nat) : s.put f v i e = { s with regs := (s.put f v i e).regs } := by
  unfold State.put
  dsimp only
  split <;> simp only [State.setWord_eq]

@[simp] theorem State.put_pending (s : State) (f : Fld) (v i e : Nat) : (s.put f v i e).pending = s.pending := by rw [State.put_frame]
@[simp] theorem State.put_staged (s : State) (f : Fld) (v i e : Nat) : (s.put f v i e).staged = s.staged := by rw [State.put_frame]
@[simp] theorem State.put_ctl (s : State) (f : Fld) (v i e : Nat) : (s.put f v i e).ctl = s.ctl := by rw [State.put_frame]
@[simp] theorem State.put_free (s : State) (f : Fld) (v i e : Nat) : (s.put f v i e).free = s.free := by rw [State.put_frame]
@[simp] theorem State.put_ckFrac (s : State) (f : Fld) (v i e : Nat) : (s.put f v i e).ckFrac = s.ckFrac := by rw [State.put_frame]
@[simp] theorem State.put_station (s : State) (f : Fld) (v i e : Nat) : (s.put f v i e).station = s.station := by rw [State.put_frame]
@[simp] theorem State.put_bootNonce (s : State) (f : Fld) (v i e : Nat) : (s.put f v i e).bootNonce = s.bootNonce := by rw [State.put_frame]
@[simp] theorem State.put_fuses (s : State) (f : Fld) (v i e : Nat) : (s.put f v i e).fuses = s.fuses := by rw [State.put_frame]
@[simp] theorem State.put_irq (s : State) (f : Fld) (v i e : Nat) : (s.put f v i e).irq = s.irq := by rw [State.put_frame]
@[simp] theorem State.put_evq (s : State) (f : Fld) (v i e : Nat) : (s.put f v i e).evq = s.evq := by rw [State.put_frame]
@[simp] theorem State.put_hostMsgs (s : State) (f : Fld) (v i e : Nat) : (s.put f v i e).hostMsgs = s.hostMsgs := by rw [State.put_frame]
@[simp] theorem State.put_mods (s : State) (f : Fld) (v i e : Nat) : (s.put f v i e).mods = s.mods := by rw [State.put_frame]
@[simp] theorem State.put_reqs (s : State) (f : Fld) (v i e : Nat) : (s.put f v i e).reqs = s.reqs := by rw [State.put_frame]
@[simp] theorem State.put_nextTag (s : State) (f : Fld) (v i e : Nat) : (s.put f v i e).nextTag = s.nextTag := by rw [State.put_frame]
@[simp] theorem State.put_waiting (s : State) (f : Fld) (v i e : Nat) : (s.put f v i e).waiting = s.waiting := by rw [State.put_frame]
@[simp] theorem State.put_pathDrops (s : State) (f : Fld) (v i e : Nat) : (s.put f v i e).pathDrops = s.pathDrops := by rw [State.put_frame]
@[simp] theorem State.put_mem (s : State) (f : Fld) (v i e : Nat) : (s.put f v i e).mem = s.mem := by rw [State.put_frame]
@[simp] theorem State.put_ecc (s : State) (f : Fld) (v i e : Nat) : (s.put f v i e).ecc = s.ecc := by rw [State.put_frame]
@[simp] theorem State.put_fixups (s : State) (f : Fld) (v i e : Nat) : (s.put f v i e).fixups = s.fixups := by rw [State.put_frame]
@[simp] theorem State.put_lastCe (s : State) (f : Fld) (v i e : Nat) : (s.put f v i e).lastCe = s.lastCe := by rw [State.put_frame]
@[simp] theorem State.put_cores (s : State) (f : Fld) (v i e : Nat) : (s.put f v i e).cores = s.cores := by rw [State.put_frame]
@[simp] theorem State.put_held (s : State) (f : Fld) (v i e : Nat) : (s.put f v i e).held = s.held := by rw [State.put_frame]
@[simp] theorem State.put_touched (s : State) (f : Fld) (v i e : Nat) : (s.put f v i e).touched = s.touched := by rw [State.put_frame]
@[simp] theorem State.put_gangs (s : State) (f : Fld) (v i e : Nat) : (s.put f v i e).gangs = s.gangs := by rw [State.put_frame]
@[simp] theorem State.put_nextGang (s : State) (f : Fld) (v i e : Nat) : (s.put f v i e).nextGang = s.nextGang := by rw [State.put_frame]
@[simp] theorem State.put_frames (s : State) (f : Fld) (v i e : Nat) : (s.put f v i e).frames = s.frames := by rw [State.put_frame]
@[simp] theorem State.put_pages (s : State) (f : Fld) (v i e : Nat) : (s.put f v i e).pages = s.pages := by rw [State.put_frame]
@[simp] theorem State.put_tables (s : State) (f : Fld) (v i e : Nat) : (s.put f v i e).tables = s.tables := by rw [State.put_frame]
@[simp] theorem State.put_tlbs (s : State) (f : Fld) (v i e : Nat) : (s.put f v i e).tlbs = s.tlbs := by rw [State.put_frame]
@[simp] theorem State.put_walkCache (s : State) (f : Fld) (v i e : Nat) : (s.put f v i e).walkCache = s.walkCache := by rw [State.put_frame]
@[simp] theorem State.put_patrolFrom (s : State) (f : Fld) (v i e : Nat) : (s.put f v i e).patrolFrom = s.patrolFrom := by rw [State.put_frame]
@[simp] theorem State.put_condemned (s : State) (f : Fld) (v i e : Nat) : (s.put f v i e).condemned = s.condemned := by rw [State.put_frame]
@[simp] theorem State.put_records (s : State) (f : Fld) (v i e : Nat) : (s.put f v i e).records = s.records := by rw [State.put_frame]
@[simp] theorem State.put_classLast (s : State) (f : Fld) (v i e : Nat) : (s.put f v i e).classLast = s.classLast := by rw [State.put_frame]
@[simp] theorem State.put_tight (s : State) (f : Fld) (v i e : Nat) : (s.put f v i e).tight = s.tight := by rw [State.put_frame]
@[simp] theorem State.put_boostRun (s : State) (f : Fld) (v i e : Nat) : (s.put f v i e).boostRun = s.boostRun := by rw [State.put_frame]
@[simp] theorem State.put_coolRun (s : State) (f : Fld) (v i e : Nat) : (s.put f v i e).coolRun = s.coolRun := by rw [State.put_frame]
@[simp] theorem State.put_trims (s : State) (f : Fld) (v i e : Nat) : (s.put f v i e).trims = s.trims := by rw [State.put_frame]
@[simp] theorem State.put_walks (s : State) (f : Fld) (v i e : Nat) : (s.put f v i e).walks = s.walks := by rw [State.put_frame]
@[simp] theorem State.put_zeroing (s : State) (f : Fld) (v i e : Nat) : (s.put f v i e).zeroing = s.zeroing := by rw [State.put_frame]
@[simp] theorem State.put_moveLast (s : State) (f : Fld) (v i e : Nat) : (s.put f v i e).moveLast = s.moveLast := by rw [State.put_frame]
@[simp] theorem State.put_opMaxRun (s : State) (f : Fld) (v i e : Nat) : (s.put f v i e).opMaxRun = s.opMaxRun := by rw [State.put_frame]
@[simp] theorem State.put_powers (s : State) (f : Fld) (v i e : Nat) : (s.put f v i e).powers = s.powers := by rw [State.put_frame]
@[simp] theorem State.put_vsramDue (s : State) (f : Fld) (v i e : Nat) : (s.put f v i e).vsramDue = s.vsramDue := by rw [State.put_frame]
@[simp] theorem State.put_avs (s : State) (f : Fld) (v i e : Nat) : (s.put f v i e).avs = s.avs := by rw [State.put_frame]
@[simp] theorem State.put_qspi (s : State) (f : Fld) (v i e : Nat) : (s.put f v i e).qspi = s.qspi := by rw [State.put_frame]
@[simp] theorem State.put_chal (s : State) (f : Fld) (v i e : Nat) : (s.put f v i e).chal = s.chal := by rw [State.put_frame]
@[simp] theorem State.put_moves (s : State) (f : Fld) (v i e : Nat) : (s.put f v i e).moves = s.moves := by rw [State.put_frame]
@[simp] theorem State.put_nextMove (s : State) (f : Fld) (v i e : Nat) : (s.put f v i e).nextMove = s.nextMove := by rw [State.put_frame]
@[simp] theorem State.put_chains (s : State) (f : Fld) (v i e : Nat) : (s.put f v i e).chains = s.chains := by rw [State.put_frame]
@[simp] theorem State.put_stages (s : State) (f : Fld) (v i e : Nat) : (s.put f v i e).stages = s.stages := by rw [State.put_frame]
@[simp] theorem State.put_queues (s : State) (f : Fld) (v i e : Nat) : (s.put f v i e).queues = s.queues := by rw [State.put_frame]
@[simp] theorem State.put_items (s : State) (f : Fld) (v i e : Nat) : (s.put f v i e).items = s.items := by rw [State.put_frame]
@[simp] theorem State.put_cadastre (s : State) (f : Fld) (v i e : Nat) : (s.put f v i e).cadastre = s.cadastre := by rw [State.put_frame]
@[simp] theorem State.put_domWait (s : State) (f : Fld) (v i e : Nat) : (s.put f v i e).domWait = s.domWait := by rw [State.put_frame]
@[simp] theorem State.put_laneBad (s : State) (f : Fld) (v i e : Nat) : (s.put f v i e).laneBad = s.laneBad := by rw [State.put_frame]
@[simp] theorem State.put_modBad (s : State) (f : Fld) (v i e : Nat) : (s.put f v i e).modBad = s.modBad := by rw [State.put_frame]
@[simp] theorem State.put_roled (s : State) (f : Fld) (v i e : Nat) : (s.put f v i e).roled = s.roled := by rw [State.put_frame]
@[simp] theorem State.put_lateTags (s : State) (f : Fld) (v i e : Nat) : (s.put f v i e).lateTags = s.lateTags := by rw [State.put_frame]
@[simp] theorem State.put_holds (s : State) (f : Fld) (v i e : Nat) : (s.put f v i e).holds = s.holds := by rw [State.put_frame]
@[simp] theorem State.put_routeUp (s : State) (f : Fld) (v i e : Nat) : (s.put f v i e).routeUp = s.routeUp := by rw [State.put_frame]
@[simp] theorem State.put_phi (s : State) (f : Fld) (v i e : Nat) : (s.put f v i e).phi = s.phi := by rw [State.put_frame]
@[simp] theorem State.put_allowance (s : State) (f : Fld) (v i e : Nat) : (s.put f v i e).allowance = s.allowance := by rw [State.put_frame]
@[simp] theorem State.put_shareW (s : State) (f : Fld) (v i e : Nat) : (s.put f v i e).shareW = s.shareW := by rw [State.put_frame]
@[simp] theorem State.put_rails (s : State) (f : Fld) (v i e : Nat) : (s.put f v i e).rails = s.rails := by rw [State.put_frame]
@[simp] theorem State.put_opTarget (s : State) (f : Fld) (v i e : Nat) : (s.put f v i e).opTarget = s.opTarget := by rw [State.put_frame]
@[simp] theorem State.put_episodes (s : State) (f : Fld) (v i e : Nat) : (s.put f v i e).episodes = s.episodes := by rw [State.put_frame]
@[simp] theorem State.put_epiUnread (s : State) (f : Fld) (v i e : Nat) : (s.put f v i e).epiUnread = s.epiUnread := by rw [State.put_frame]
@[simp] theorem State.put_accounts (s : State) (f : Fld) (v i e : Nat) : (s.put f v i e).accounts = s.accounts := by rw [State.put_frame]
@[simp] theorem State.put_memBudget (s : State) (f : Fld) (v i e : Nat) : (s.put f v i e).memBudget = s.memBudget := by rw [State.put_frame]
@[simp] theorem State.put_linkBudget (s : State) (f : Fld) (v i e : Nat) : (s.put f v i e).linkBudget = s.linkBudget := by rw [State.put_frame]
@[simp] theorem State.put_vcoreSet (s : State) (f : Fld) (v i e : Nat) : (s.put f v i e).vcoreSet = s.vcoreSet := by rw [State.put_frame]
@[simp] theorem State.put_vsramSet (s : State) (f : Fld) (v i e : Nat) : (s.put f v i e).vsramSet = s.vsramSet := by rw [State.put_frame]
@[simp] theorem State.put_svyMem (s : State) (f : Fld) (v i e : Nat) : (s.put f v i e).svyMem = s.svyMem := by rw [State.put_frame]
@[simp] theorem State.put_svyCode (s : State) (f : Fld) (v i e : Nat) : (s.put f v i e).svyCode = s.svyCode := by rw [State.put_frame]
@[simp] theorem State.put_svyTimes (s : State) (f : Fld) (v i e : Nat) : (s.put f v i e).svyTimes = s.svyTimes := by rw [State.put_frame]
@[simp] theorem State.put_svyCause (s : State) (f : Fld) (v i e : Nat) : (s.put f v i e).svyCause = s.svyCause := by rw [State.put_frame]
@[simp] theorem State.put_kickedAt (s : State) (f : Fld) (v i e : Nat) : (s.put f v i e).kickedAt = s.kickedAt := by rw [State.put_frame]
@[simp] theorem State.put_refusals (s : State) (f : Fld) (v i e : Nat) : (s.put f v i e).refusals = s.refusals := by rw [State.put_frame]
@[simp] theorem State.put_quoteDraft (s : State) (f : Fld) (v i e : Nat) : (s.put f v i e).quoteDraft = s.quoteDraft := by rw [State.put_frame]
@[simp] theorem State.put_maAccess (s : State) (f : Fld) (v i e : Nat) : (s.put f v i e).maAccess = s.maAccess := by rw [State.put_frame]
@[simp] theorem State.put_poolKept (s : State) (f : Fld) (v i e : Nat) : (s.put f v i e).poolKept = s.poolKept := by rw [State.put_frame]
@[simp] theorem State.put_keySlot (s : State) (f : Fld) (v i e : Nat) : (s.put f v i e).keySlot = s.keySlot := by rw [State.put_frame]
@[simp] theorem State.put_aon (s : State) (f : Fld) (v i e : Nat) : (s.put f v i e).aon = s.aon := by rw [State.put_frame]
@[simp] theorem State.put_boot (s : State) (f : Fld) (v i e : Nat) : (s.put f v i e).boot = s.boot := by rw [State.put_frame]
@[simp] theorem State.put_tap (s : State) (f : Fld) (v i e : Nat) : (s.put f v i e).tap = s.tap := by rw [State.put_frame]

/-! ### A counter field -/

@[simp] theorem State.bump_pending (s : State) (f : Fld) (n i e : Nat) : (s.bump f n i e).pending = s.pending := by rw [State.bump, State.put_frame]
@[simp] theorem State.bump_staged (s : State) (f : Fld) (n i e : Nat) : (s.bump f n i e).staged = s.staged := by rw [State.bump, State.put_frame]
@[simp] theorem State.bump_ctl (s : State) (f : Fld) (n i e : Nat) : (s.bump f n i e).ctl = s.ctl := by rw [State.bump, State.put_frame]
@[simp] theorem State.bump_free (s : State) (f : Fld) (n i e : Nat) : (s.bump f n i e).free = s.free := by rw [State.bump, State.put_frame]
@[simp] theorem State.bump_ckFrac (s : State) (f : Fld) (n i e : Nat) : (s.bump f n i e).ckFrac = s.ckFrac := by rw [State.bump, State.put_frame]
@[simp] theorem State.bump_station (s : State) (f : Fld) (n i e : Nat) : (s.bump f n i e).station = s.station := by rw [State.bump, State.put_frame]
@[simp] theorem State.bump_bootNonce (s : State) (f : Fld) (n i e : Nat) : (s.bump f n i e).bootNonce = s.bootNonce := by rw [State.bump, State.put_frame]
@[simp] theorem State.bump_fuses (s : State) (f : Fld) (n i e : Nat) : (s.bump f n i e).fuses = s.fuses := by rw [State.bump, State.put_frame]
@[simp] theorem State.bump_irq (s : State) (f : Fld) (n i e : Nat) : (s.bump f n i e).irq = s.irq := by rw [State.bump, State.put_frame]
@[simp] theorem State.bump_evq (s : State) (f : Fld) (n i e : Nat) : (s.bump f n i e).evq = s.evq := by rw [State.bump, State.put_frame]
@[simp] theorem State.bump_hostMsgs (s : State) (f : Fld) (n i e : Nat) : (s.bump f n i e).hostMsgs = s.hostMsgs := by rw [State.bump, State.put_frame]
@[simp] theorem State.bump_mods (s : State) (f : Fld) (n i e : Nat) : (s.bump f n i e).mods = s.mods := by rw [State.bump, State.put_frame]
@[simp] theorem State.bump_reqs (s : State) (f : Fld) (n i e : Nat) : (s.bump f n i e).reqs = s.reqs := by rw [State.bump, State.put_frame]
@[simp] theorem State.bump_nextTag (s : State) (f : Fld) (n i e : Nat) : (s.bump f n i e).nextTag = s.nextTag := by rw [State.bump, State.put_frame]
@[simp] theorem State.bump_waiting (s : State) (f : Fld) (n i e : Nat) : (s.bump f n i e).waiting = s.waiting := by rw [State.bump, State.put_frame]
@[simp] theorem State.bump_pathDrops (s : State) (f : Fld) (n i e : Nat) : (s.bump f n i e).pathDrops = s.pathDrops := by rw [State.bump, State.put_frame]
@[simp] theorem State.bump_mem (s : State) (f : Fld) (n i e : Nat) : (s.bump f n i e).mem = s.mem := by rw [State.bump, State.put_frame]
@[simp] theorem State.bump_ecc (s : State) (f : Fld) (n i e : Nat) : (s.bump f n i e).ecc = s.ecc := by rw [State.bump, State.put_frame]
@[simp] theorem State.bump_fixups (s : State) (f : Fld) (n i e : Nat) : (s.bump f n i e).fixups = s.fixups := by rw [State.bump, State.put_frame]
@[simp] theorem State.bump_lastCe (s : State) (f : Fld) (n i e : Nat) : (s.bump f n i e).lastCe = s.lastCe := by rw [State.bump, State.put_frame]
@[simp] theorem State.bump_cores (s : State) (f : Fld) (n i e : Nat) : (s.bump f n i e).cores = s.cores := by rw [State.bump, State.put_frame]
@[simp] theorem State.bump_held (s : State) (f : Fld) (n i e : Nat) : (s.bump f n i e).held = s.held := by rw [State.bump, State.put_frame]
@[simp] theorem State.bump_touched (s : State) (f : Fld) (n i e : Nat) : (s.bump f n i e).touched = s.touched := by rw [State.bump, State.put_frame]
@[simp] theorem State.bump_gangs (s : State) (f : Fld) (n i e : Nat) : (s.bump f n i e).gangs = s.gangs := by rw [State.bump, State.put_frame]
@[simp] theorem State.bump_nextGang (s : State) (f : Fld) (n i e : Nat) : (s.bump f n i e).nextGang = s.nextGang := by rw [State.bump, State.put_frame]
@[simp] theorem State.bump_frames (s : State) (f : Fld) (n i e : Nat) : (s.bump f n i e).frames = s.frames := by rw [State.bump, State.put_frame]
@[simp] theorem State.bump_pages (s : State) (f : Fld) (n i e : Nat) : (s.bump f n i e).pages = s.pages := by rw [State.bump, State.put_frame]
@[simp] theorem State.bump_tables (s : State) (f : Fld) (n i e : Nat) : (s.bump f n i e).tables = s.tables := by rw [State.bump, State.put_frame]
@[simp] theorem State.bump_tlbs (s : State) (f : Fld) (n i e : Nat) : (s.bump f n i e).tlbs = s.tlbs := by rw [State.bump, State.put_frame]
@[simp] theorem State.bump_walkCache (s : State) (f : Fld) (n i e : Nat) : (s.bump f n i e).walkCache = s.walkCache := by rw [State.bump, State.put_frame]
@[simp] theorem State.bump_patrolFrom (s : State) (f : Fld) (n i e : Nat) : (s.bump f n i e).patrolFrom = s.patrolFrom := by rw [State.bump, State.put_frame]
@[simp] theorem State.bump_condemned (s : State) (f : Fld) (n i e : Nat) : (s.bump f n i e).condemned = s.condemned := by rw [State.bump, State.put_frame]
@[simp] theorem State.bump_records (s : State) (f : Fld) (n i e : Nat) : (s.bump f n i e).records = s.records := by rw [State.bump, State.put_frame]
@[simp] theorem State.bump_classLast (s : State) (f : Fld) (n i e : Nat) : (s.bump f n i e).classLast = s.classLast := by rw [State.bump, State.put_frame]
@[simp] theorem State.bump_tight (s : State) (f : Fld) (n i e : Nat) : (s.bump f n i e).tight = s.tight := by rw [State.bump, State.put_frame]
@[simp] theorem State.bump_boostRun (s : State) (f : Fld) (n i e : Nat) : (s.bump f n i e).boostRun = s.boostRun := by rw [State.bump, State.put_frame]
@[simp] theorem State.bump_coolRun (s : State) (f : Fld) (n i e : Nat) : (s.bump f n i e).coolRun = s.coolRun := by rw [State.bump, State.put_frame]
@[simp] theorem State.bump_trims (s : State) (f : Fld) (n i e : Nat) : (s.bump f n i e).trims = s.trims := by rw [State.bump, State.put_frame]
@[simp] theorem State.bump_walks (s : State) (f : Fld) (n i e : Nat) : (s.bump f n i e).walks = s.walks := by rw [State.bump, State.put_frame]
@[simp] theorem State.bump_zeroing (s : State) (f : Fld) (n i e : Nat) : (s.bump f n i e).zeroing = s.zeroing := by rw [State.bump, State.put_frame]
@[simp] theorem State.bump_moveLast (s : State) (f : Fld) (n i e : Nat) : (s.bump f n i e).moveLast = s.moveLast := by rw [State.bump, State.put_frame]
@[simp] theorem State.bump_opMaxRun (s : State) (f : Fld) (n i e : Nat) : (s.bump f n i e).opMaxRun = s.opMaxRun := by rw [State.bump, State.put_frame]
@[simp] theorem State.bump_powers (s : State) (f : Fld) (n i e : Nat) : (s.bump f n i e).powers = s.powers := by rw [State.bump, State.put_frame]
@[simp] theorem State.bump_vsramDue (s : State) (f : Fld) (n i e : Nat) : (s.bump f n i e).vsramDue = s.vsramDue := by rw [State.bump, State.put_frame]
@[simp] theorem State.bump_avs (s : State) (f : Fld) (n i e : Nat) : (s.bump f n i e).avs = s.avs := by rw [State.bump, State.put_frame]
@[simp] theorem State.bump_qspi (s : State) (f : Fld) (n i e : Nat) : (s.bump f n i e).qspi = s.qspi := by rw [State.bump, State.put_frame]
@[simp] theorem State.bump_chal (s : State) (f : Fld) (n i e : Nat) : (s.bump f n i e).chal = s.chal := by rw [State.bump, State.put_frame]
@[simp] theorem State.bump_moves (s : State) (f : Fld) (n i e : Nat) : (s.bump f n i e).moves = s.moves := by rw [State.bump, State.put_frame]
@[simp] theorem State.bump_nextMove (s : State) (f : Fld) (n i e : Nat) : (s.bump f n i e).nextMove = s.nextMove := by rw [State.bump, State.put_frame]
@[simp] theorem State.bump_chains (s : State) (f : Fld) (n i e : Nat) : (s.bump f n i e).chains = s.chains := by rw [State.bump, State.put_frame]
@[simp] theorem State.bump_stages (s : State) (f : Fld) (n i e : Nat) : (s.bump f n i e).stages = s.stages := by rw [State.bump, State.put_frame]
@[simp] theorem State.bump_queues (s : State) (f : Fld) (n i e : Nat) : (s.bump f n i e).queues = s.queues := by rw [State.bump, State.put_frame]
@[simp] theorem State.bump_items (s : State) (f : Fld) (n i e : Nat) : (s.bump f n i e).items = s.items := by rw [State.bump, State.put_frame]
@[simp] theorem State.bump_cadastre (s : State) (f : Fld) (n i e : Nat) : (s.bump f n i e).cadastre = s.cadastre := by rw [State.bump, State.put_frame]
@[simp] theorem State.bump_domWait (s : State) (f : Fld) (n i e : Nat) : (s.bump f n i e).domWait = s.domWait := by rw [State.bump, State.put_frame]
@[simp] theorem State.bump_laneBad (s : State) (f : Fld) (n i e : Nat) : (s.bump f n i e).laneBad = s.laneBad := by rw [State.bump, State.put_frame]
@[simp] theorem State.bump_modBad (s : State) (f : Fld) (n i e : Nat) : (s.bump f n i e).modBad = s.modBad := by rw [State.bump, State.put_frame]
@[simp] theorem State.bump_roled (s : State) (f : Fld) (n i e : Nat) : (s.bump f n i e).roled = s.roled := by rw [State.bump, State.put_frame]
@[simp] theorem State.bump_lateTags (s : State) (f : Fld) (n i e : Nat) : (s.bump f n i e).lateTags = s.lateTags := by rw [State.bump, State.put_frame]
@[simp] theorem State.bump_holds (s : State) (f : Fld) (n i e : Nat) : (s.bump f n i e).holds = s.holds := by rw [State.bump, State.put_frame]
@[simp] theorem State.bump_routeUp (s : State) (f : Fld) (n i e : Nat) : (s.bump f n i e).routeUp = s.routeUp := by rw [State.bump, State.put_frame]
@[simp] theorem State.bump_phi (s : State) (f : Fld) (n i e : Nat) : (s.bump f n i e).phi = s.phi := by rw [State.bump, State.put_frame]
@[simp] theorem State.bump_allowance (s : State) (f : Fld) (n i e : Nat) : (s.bump f n i e).allowance = s.allowance := by rw [State.bump, State.put_frame]
@[simp] theorem State.bump_shareW (s : State) (f : Fld) (n i e : Nat) : (s.bump f n i e).shareW = s.shareW := by rw [State.bump, State.put_frame]
@[simp] theorem State.bump_rails (s : State) (f : Fld) (n i e : Nat) : (s.bump f n i e).rails = s.rails := by rw [State.bump, State.put_frame]
@[simp] theorem State.bump_opTarget (s : State) (f : Fld) (n i e : Nat) : (s.bump f n i e).opTarget = s.opTarget := by rw [State.bump, State.put_frame]
@[simp] theorem State.bump_episodes (s : State) (f : Fld) (n i e : Nat) : (s.bump f n i e).episodes = s.episodes := by rw [State.bump, State.put_frame]
@[simp] theorem State.bump_epiUnread (s : State) (f : Fld) (n i e : Nat) : (s.bump f n i e).epiUnread = s.epiUnread := by rw [State.bump, State.put_frame]
@[simp] theorem State.bump_accounts (s : State) (f : Fld) (n i e : Nat) : (s.bump f n i e).accounts = s.accounts := by rw [State.bump, State.put_frame]
@[simp] theorem State.bump_memBudget (s : State) (f : Fld) (n i e : Nat) : (s.bump f n i e).memBudget = s.memBudget := by rw [State.bump, State.put_frame]
@[simp] theorem State.bump_linkBudget (s : State) (f : Fld) (n i e : Nat) : (s.bump f n i e).linkBudget = s.linkBudget := by rw [State.bump, State.put_frame]
@[simp] theorem State.bump_vcoreSet (s : State) (f : Fld) (n i e : Nat) : (s.bump f n i e).vcoreSet = s.vcoreSet := by rw [State.bump, State.put_frame]
@[simp] theorem State.bump_vsramSet (s : State) (f : Fld) (n i e : Nat) : (s.bump f n i e).vsramSet = s.vsramSet := by rw [State.bump, State.put_frame]
@[simp] theorem State.bump_svyMem (s : State) (f : Fld) (n i e : Nat) : (s.bump f n i e).svyMem = s.svyMem := by rw [State.bump, State.put_frame]
@[simp] theorem State.bump_svyCode (s : State) (f : Fld) (n i e : Nat) : (s.bump f n i e).svyCode = s.svyCode := by rw [State.bump, State.put_frame]
@[simp] theorem State.bump_svyTimes (s : State) (f : Fld) (n i e : Nat) : (s.bump f n i e).svyTimes = s.svyTimes := by rw [State.bump, State.put_frame]
@[simp] theorem State.bump_svyCause (s : State) (f : Fld) (n i e : Nat) : (s.bump f n i e).svyCause = s.svyCause := by rw [State.bump, State.put_frame]
@[simp] theorem State.bump_kickedAt (s : State) (f : Fld) (n i e : Nat) : (s.bump f n i e).kickedAt = s.kickedAt := by rw [State.bump, State.put_frame]
@[simp] theorem State.bump_refusals (s : State) (f : Fld) (n i e : Nat) : (s.bump f n i e).refusals = s.refusals := by rw [State.bump, State.put_frame]
@[simp] theorem State.bump_quoteDraft (s : State) (f : Fld) (n i e : Nat) : (s.bump f n i e).quoteDraft = s.quoteDraft := by rw [State.bump, State.put_frame]
@[simp] theorem State.bump_maAccess (s : State) (f : Fld) (n i e : Nat) : (s.bump f n i e).maAccess = s.maAccess := by rw [State.bump, State.put_frame]
@[simp] theorem State.bump_poolKept (s : State) (f : Fld) (n i e : Nat) : (s.bump f n i e).poolKept = s.poolKept := by rw [State.bump, State.put_frame]
@[simp] theorem State.bump_keySlot (s : State) (f : Fld) (n i e : Nat) : (s.bump f n i e).keySlot = s.keySlot := by rw [State.bump, State.put_frame]
@[simp] theorem State.bump_aon (s : State) (f : Fld) (n i e : Nat) : (s.bump f n i e).aon = s.aon := by rw [State.bump, State.put_frame]
@[simp] theorem State.bump_boot (s : State) (f : Fld) (n i e : Nat) : (s.bump f n i e).boot = s.boot := by rw [State.bump, State.put_frame]
@[simp] theorem State.bump_tap (s : State) (f : Fld) (n i e : Nat) : (s.bump f n i e).tap = s.tap := by rw [State.bump, State.put_frame]
@[simp] theorem State.count_pending (s : State) (f : Fld) (n i e : Nat) : (s.count f n i e).pending = s.pending := by rw [State.count, State.put_frame]
@[simp] theorem State.count_staged (s : State) (f : Fld) (n i e : Nat) : (s.count f n i e).staged = s.staged := by rw [State.count, State.put_frame]
@[simp] theorem State.count_ctl (s : State) (f : Fld) (n i e : Nat) : (s.count f n i e).ctl = s.ctl := by rw [State.count, State.put_frame]
@[simp] theorem State.count_free (s : State) (f : Fld) (n i e : Nat) : (s.count f n i e).free = s.free := by rw [State.count, State.put_frame]
@[simp] theorem State.count_ckFrac (s : State) (f : Fld) (n i e : Nat) : (s.count f n i e).ckFrac = s.ckFrac := by rw [State.count, State.put_frame]
@[simp] theorem State.count_station (s : State) (f : Fld) (n i e : Nat) : (s.count f n i e).station = s.station := by rw [State.count, State.put_frame]
@[simp] theorem State.count_bootNonce (s : State) (f : Fld) (n i e : Nat) : (s.count f n i e).bootNonce = s.bootNonce := by rw [State.count, State.put_frame]
@[simp] theorem State.count_fuses (s : State) (f : Fld) (n i e : Nat) : (s.count f n i e).fuses = s.fuses := by rw [State.count, State.put_frame]
@[simp] theorem State.count_irq (s : State) (f : Fld) (n i e : Nat) : (s.count f n i e).irq = s.irq := by rw [State.count, State.put_frame]
@[simp] theorem State.count_evq (s : State) (f : Fld) (n i e : Nat) : (s.count f n i e).evq = s.evq := by rw [State.count, State.put_frame]
@[simp] theorem State.count_hostMsgs (s : State) (f : Fld) (n i e : Nat) : (s.count f n i e).hostMsgs = s.hostMsgs := by rw [State.count, State.put_frame]
@[simp] theorem State.count_mods (s : State) (f : Fld) (n i e : Nat) : (s.count f n i e).mods = s.mods := by rw [State.count, State.put_frame]
@[simp] theorem State.count_reqs (s : State) (f : Fld) (n i e : Nat) : (s.count f n i e).reqs = s.reqs := by rw [State.count, State.put_frame]
@[simp] theorem State.count_nextTag (s : State) (f : Fld) (n i e : Nat) : (s.count f n i e).nextTag = s.nextTag := by rw [State.count, State.put_frame]
@[simp] theorem State.count_waiting (s : State) (f : Fld) (n i e : Nat) : (s.count f n i e).waiting = s.waiting := by rw [State.count, State.put_frame]
@[simp] theorem State.count_pathDrops (s : State) (f : Fld) (n i e : Nat) : (s.count f n i e).pathDrops = s.pathDrops := by rw [State.count, State.put_frame]
@[simp] theorem State.count_mem (s : State) (f : Fld) (n i e : Nat) : (s.count f n i e).mem = s.mem := by rw [State.count, State.put_frame]
@[simp] theorem State.count_ecc (s : State) (f : Fld) (n i e : Nat) : (s.count f n i e).ecc = s.ecc := by rw [State.count, State.put_frame]
@[simp] theorem State.count_fixups (s : State) (f : Fld) (n i e : Nat) : (s.count f n i e).fixups = s.fixups := by rw [State.count, State.put_frame]
@[simp] theorem State.count_lastCe (s : State) (f : Fld) (n i e : Nat) : (s.count f n i e).lastCe = s.lastCe := by rw [State.count, State.put_frame]
@[simp] theorem State.count_cores (s : State) (f : Fld) (n i e : Nat) : (s.count f n i e).cores = s.cores := by rw [State.count, State.put_frame]
@[simp] theorem State.count_held (s : State) (f : Fld) (n i e : Nat) : (s.count f n i e).held = s.held := by rw [State.count, State.put_frame]
@[simp] theorem State.count_touched (s : State) (f : Fld) (n i e : Nat) : (s.count f n i e).touched = s.touched := by rw [State.count, State.put_frame]
@[simp] theorem State.count_gangs (s : State) (f : Fld) (n i e : Nat) : (s.count f n i e).gangs = s.gangs := by rw [State.count, State.put_frame]
@[simp] theorem State.count_nextGang (s : State) (f : Fld) (n i e : Nat) : (s.count f n i e).nextGang = s.nextGang := by rw [State.count, State.put_frame]
@[simp] theorem State.count_frames (s : State) (f : Fld) (n i e : Nat) : (s.count f n i e).frames = s.frames := by rw [State.count, State.put_frame]
@[simp] theorem State.count_pages (s : State) (f : Fld) (n i e : Nat) : (s.count f n i e).pages = s.pages := by rw [State.count, State.put_frame]
@[simp] theorem State.count_tables (s : State) (f : Fld) (n i e : Nat) : (s.count f n i e).tables = s.tables := by rw [State.count, State.put_frame]
@[simp] theorem State.count_tlbs (s : State) (f : Fld) (n i e : Nat) : (s.count f n i e).tlbs = s.tlbs := by rw [State.count, State.put_frame]
@[simp] theorem State.count_walkCache (s : State) (f : Fld) (n i e : Nat) : (s.count f n i e).walkCache = s.walkCache := by rw [State.count, State.put_frame]
@[simp] theorem State.count_patrolFrom (s : State) (f : Fld) (n i e : Nat) : (s.count f n i e).patrolFrom = s.patrolFrom := by rw [State.count, State.put_frame]
@[simp] theorem State.count_condemned (s : State) (f : Fld) (n i e : Nat) : (s.count f n i e).condemned = s.condemned := by rw [State.count, State.put_frame]
@[simp] theorem State.count_records (s : State) (f : Fld) (n i e : Nat) : (s.count f n i e).records = s.records := by rw [State.count, State.put_frame]
@[simp] theorem State.count_classLast (s : State) (f : Fld) (n i e : Nat) : (s.count f n i e).classLast = s.classLast := by rw [State.count, State.put_frame]
@[simp] theorem State.count_tight (s : State) (f : Fld) (n i e : Nat) : (s.count f n i e).tight = s.tight := by rw [State.count, State.put_frame]
@[simp] theorem State.count_boostRun (s : State) (f : Fld) (n i e : Nat) : (s.count f n i e).boostRun = s.boostRun := by rw [State.count, State.put_frame]
@[simp] theorem State.count_coolRun (s : State) (f : Fld) (n i e : Nat) : (s.count f n i e).coolRun = s.coolRun := by rw [State.count, State.put_frame]
@[simp] theorem State.count_trims (s : State) (f : Fld) (n i e : Nat) : (s.count f n i e).trims = s.trims := by rw [State.count, State.put_frame]
@[simp] theorem State.count_walks (s : State) (f : Fld) (n i e : Nat) : (s.count f n i e).walks = s.walks := by rw [State.count, State.put_frame]
@[simp] theorem State.count_zeroing (s : State) (f : Fld) (n i e : Nat) : (s.count f n i e).zeroing = s.zeroing := by rw [State.count, State.put_frame]
@[simp] theorem State.count_moveLast (s : State) (f : Fld) (n i e : Nat) : (s.count f n i e).moveLast = s.moveLast := by rw [State.count, State.put_frame]
@[simp] theorem State.count_opMaxRun (s : State) (f : Fld) (n i e : Nat) : (s.count f n i e).opMaxRun = s.opMaxRun := by rw [State.count, State.put_frame]
@[simp] theorem State.count_powers (s : State) (f : Fld) (n i e : Nat) : (s.count f n i e).powers = s.powers := by rw [State.count, State.put_frame]
@[simp] theorem State.count_vsramDue (s : State) (f : Fld) (n i e : Nat) : (s.count f n i e).vsramDue = s.vsramDue := by rw [State.count, State.put_frame]
@[simp] theorem State.count_avs (s : State) (f : Fld) (n i e : Nat) : (s.count f n i e).avs = s.avs := by rw [State.count, State.put_frame]
@[simp] theorem State.count_qspi (s : State) (f : Fld) (n i e : Nat) : (s.count f n i e).qspi = s.qspi := by rw [State.count, State.put_frame]
@[simp] theorem State.count_chal (s : State) (f : Fld) (n i e : Nat) : (s.count f n i e).chal = s.chal := by rw [State.count, State.put_frame]
@[simp] theorem State.count_moves (s : State) (f : Fld) (n i e : Nat) : (s.count f n i e).moves = s.moves := by rw [State.count, State.put_frame]
@[simp] theorem State.count_nextMove (s : State) (f : Fld) (n i e : Nat) : (s.count f n i e).nextMove = s.nextMove := by rw [State.count, State.put_frame]
@[simp] theorem State.count_chains (s : State) (f : Fld) (n i e : Nat) : (s.count f n i e).chains = s.chains := by rw [State.count, State.put_frame]
@[simp] theorem State.count_stages (s : State) (f : Fld) (n i e : Nat) : (s.count f n i e).stages = s.stages := by rw [State.count, State.put_frame]
@[simp] theorem State.count_queues (s : State) (f : Fld) (n i e : Nat) : (s.count f n i e).queues = s.queues := by rw [State.count, State.put_frame]
@[simp] theorem State.count_items (s : State) (f : Fld) (n i e : Nat) : (s.count f n i e).items = s.items := by rw [State.count, State.put_frame]
@[simp] theorem State.count_cadastre (s : State) (f : Fld) (n i e : Nat) : (s.count f n i e).cadastre = s.cadastre := by rw [State.count, State.put_frame]
@[simp] theorem State.count_domWait (s : State) (f : Fld) (n i e : Nat) : (s.count f n i e).domWait = s.domWait := by rw [State.count, State.put_frame]
@[simp] theorem State.count_laneBad (s : State) (f : Fld) (n i e : Nat) : (s.count f n i e).laneBad = s.laneBad := by rw [State.count, State.put_frame]
@[simp] theorem State.count_modBad (s : State) (f : Fld) (n i e : Nat) : (s.count f n i e).modBad = s.modBad := by rw [State.count, State.put_frame]
@[simp] theorem State.count_roled (s : State) (f : Fld) (n i e : Nat) : (s.count f n i e).roled = s.roled := by rw [State.count, State.put_frame]
@[simp] theorem State.count_lateTags (s : State) (f : Fld) (n i e : Nat) : (s.count f n i e).lateTags = s.lateTags := by rw [State.count, State.put_frame]
@[simp] theorem State.count_holds (s : State) (f : Fld) (n i e : Nat) : (s.count f n i e).holds = s.holds := by rw [State.count, State.put_frame]
@[simp] theorem State.count_routeUp (s : State) (f : Fld) (n i e : Nat) : (s.count f n i e).routeUp = s.routeUp := by rw [State.count, State.put_frame]
@[simp] theorem State.count_phi (s : State) (f : Fld) (n i e : Nat) : (s.count f n i e).phi = s.phi := by rw [State.count, State.put_frame]
@[simp] theorem State.count_allowance (s : State) (f : Fld) (n i e : Nat) : (s.count f n i e).allowance = s.allowance := by rw [State.count, State.put_frame]
@[simp] theorem State.count_shareW (s : State) (f : Fld) (n i e : Nat) : (s.count f n i e).shareW = s.shareW := by rw [State.count, State.put_frame]
@[simp] theorem State.count_rails (s : State) (f : Fld) (n i e : Nat) : (s.count f n i e).rails = s.rails := by rw [State.count, State.put_frame]
@[simp] theorem State.count_opTarget (s : State) (f : Fld) (n i e : Nat) : (s.count f n i e).opTarget = s.opTarget := by rw [State.count, State.put_frame]
@[simp] theorem State.count_episodes (s : State) (f : Fld) (n i e : Nat) : (s.count f n i e).episodes = s.episodes := by rw [State.count, State.put_frame]
@[simp] theorem State.count_epiUnread (s : State) (f : Fld) (n i e : Nat) : (s.count f n i e).epiUnread = s.epiUnread := by rw [State.count, State.put_frame]
@[simp] theorem State.count_accounts (s : State) (f : Fld) (n i e : Nat) : (s.count f n i e).accounts = s.accounts := by rw [State.count, State.put_frame]
@[simp] theorem State.count_memBudget (s : State) (f : Fld) (n i e : Nat) : (s.count f n i e).memBudget = s.memBudget := by rw [State.count, State.put_frame]
@[simp] theorem State.count_linkBudget (s : State) (f : Fld) (n i e : Nat) : (s.count f n i e).linkBudget = s.linkBudget := by rw [State.count, State.put_frame]
@[simp] theorem State.count_vcoreSet (s : State) (f : Fld) (n i e : Nat) : (s.count f n i e).vcoreSet = s.vcoreSet := by rw [State.count, State.put_frame]
@[simp] theorem State.count_vsramSet (s : State) (f : Fld) (n i e : Nat) : (s.count f n i e).vsramSet = s.vsramSet := by rw [State.count, State.put_frame]
@[simp] theorem State.count_svyMem (s : State) (f : Fld) (n i e : Nat) : (s.count f n i e).svyMem = s.svyMem := by rw [State.count, State.put_frame]
@[simp] theorem State.count_svyCode (s : State) (f : Fld) (n i e : Nat) : (s.count f n i e).svyCode = s.svyCode := by rw [State.count, State.put_frame]
@[simp] theorem State.count_svyTimes (s : State) (f : Fld) (n i e : Nat) : (s.count f n i e).svyTimes = s.svyTimes := by rw [State.count, State.put_frame]
@[simp] theorem State.count_svyCause (s : State) (f : Fld) (n i e : Nat) : (s.count f n i e).svyCause = s.svyCause := by rw [State.count, State.put_frame]
@[simp] theorem State.count_kickedAt (s : State) (f : Fld) (n i e : Nat) : (s.count f n i e).kickedAt = s.kickedAt := by rw [State.count, State.put_frame]
@[simp] theorem State.count_refusals (s : State) (f : Fld) (n i e : Nat) : (s.count f n i e).refusals = s.refusals := by rw [State.count, State.put_frame]
@[simp] theorem State.count_quoteDraft (s : State) (f : Fld) (n i e : Nat) : (s.count f n i e).quoteDraft = s.quoteDraft := by rw [State.count, State.put_frame]
@[simp] theorem State.count_maAccess (s : State) (f : Fld) (n i e : Nat) : (s.count f n i e).maAccess = s.maAccess := by rw [State.count, State.put_frame]
@[simp] theorem State.count_poolKept (s : State) (f : Fld) (n i e : Nat) : (s.count f n i e).poolKept = s.poolKept := by rw [State.count, State.put_frame]
@[simp] theorem State.count_keySlot (s : State) (f : Fld) (n i e : Nat) : (s.count f n i e).keySlot = s.keySlot := by rw [State.count, State.put_frame]
@[simp] theorem State.count_aon (s : State) (f : Fld) (n i e : Nat) : (s.count f n i e).aon = s.aon := by rw [State.count, State.put_frame]
@[simp] theorem State.count_boot (s : State) (f : Fld) (n i e : Nat) : (s.count f n i e).boot = s.boot := by rw [State.count, State.put_frame]
@[simp] theorem State.count_tap (s : State) (f : Fld) (n i e : Nat) : (s.count f n i e).tap = s.tap := by rw [State.count, State.put_frame]

/-! ### A link module, the station number, a core -/

/-- Replacing a module changes modules alone. -/
theorem State.setMod_eq (s : State) (m : Nat) (x : ModSt) : s.setMod m x = { s with mods := tset (fun _ => ModSt.init) m x s.mods } := by unfold State.setMod; exact Eq.refl _

@[simp] theorem State.setMod_pending (s : State) (m : Nat) (x : ModSt) : (s.setMod m x).pending = s.pending := by rw [State.setMod_eq]
@[simp] theorem State.setMod_regs (s : State) (m : Nat) (x : ModSt) : (s.setMod m x).regs = s.regs := by rw [State.setMod_eq]
@[simp] theorem State.setMod_staged (s : State) (m : Nat) (x : ModSt) : (s.setMod m x).staged = s.staged := by rw [State.setMod_eq]
@[simp] theorem State.setMod_ctl (s : State) (m : Nat) (x : ModSt) : (s.setMod m x).ctl = s.ctl := by rw [State.setMod_eq]
@[simp] theorem State.setMod_free (s : State) (m : Nat) (x : ModSt) : (s.setMod m x).free = s.free := by rw [State.setMod_eq]
@[simp] theorem State.setMod_ckFrac (s : State) (m : Nat) (x : ModSt) : (s.setMod m x).ckFrac = s.ckFrac := by rw [State.setMod_eq]
@[simp] theorem State.setMod_station (s : State) (m : Nat) (x : ModSt) : (s.setMod m x).station = s.station := by rw [State.setMod_eq]
@[simp] theorem State.setMod_bootNonce (s : State) (m : Nat) (x : ModSt) : (s.setMod m x).bootNonce = s.bootNonce := by rw [State.setMod_eq]
@[simp] theorem State.setMod_fuses (s : State) (m : Nat) (x : ModSt) : (s.setMod m x).fuses = s.fuses := by rw [State.setMod_eq]
@[simp] theorem State.setMod_irq (s : State) (m : Nat) (x : ModSt) : (s.setMod m x).irq = s.irq := by rw [State.setMod_eq]
@[simp] theorem State.setMod_evq (s : State) (m : Nat) (x : ModSt) : (s.setMod m x).evq = s.evq := by rw [State.setMod_eq]
@[simp] theorem State.setMod_hostMsgs (s : State) (m : Nat) (x : ModSt) : (s.setMod m x).hostMsgs = s.hostMsgs := by rw [State.setMod_eq]
@[simp] theorem State.setMod_reqs (s : State) (m : Nat) (x : ModSt) : (s.setMod m x).reqs = s.reqs := by rw [State.setMod_eq]
@[simp] theorem State.setMod_nextTag (s : State) (m : Nat) (x : ModSt) : (s.setMod m x).nextTag = s.nextTag := by rw [State.setMod_eq]
@[simp] theorem State.setMod_waiting (s : State) (m : Nat) (x : ModSt) : (s.setMod m x).waiting = s.waiting := by rw [State.setMod_eq]
@[simp] theorem State.setMod_pathDrops (s : State) (m : Nat) (x : ModSt) : (s.setMod m x).pathDrops = s.pathDrops := by rw [State.setMod_eq]
@[simp] theorem State.setMod_mem (s : State) (m : Nat) (x : ModSt) : (s.setMod m x).mem = s.mem := by rw [State.setMod_eq]
@[simp] theorem State.setMod_ecc (s : State) (m : Nat) (x : ModSt) : (s.setMod m x).ecc = s.ecc := by rw [State.setMod_eq]
@[simp] theorem State.setMod_fixups (s : State) (m : Nat) (x : ModSt) : (s.setMod m x).fixups = s.fixups := by rw [State.setMod_eq]
@[simp] theorem State.setMod_lastCe (s : State) (m : Nat) (x : ModSt) : (s.setMod m x).lastCe = s.lastCe := by rw [State.setMod_eq]
@[simp] theorem State.setMod_cores (s : State) (m : Nat) (x : ModSt) : (s.setMod m x).cores = s.cores := by rw [State.setMod_eq]
@[simp] theorem State.setMod_held (s : State) (m : Nat) (x : ModSt) : (s.setMod m x).held = s.held := by rw [State.setMod_eq]
@[simp] theorem State.setMod_touched (s : State) (m : Nat) (x : ModSt) : (s.setMod m x).touched = s.touched := by rw [State.setMod_eq]
@[simp] theorem State.setMod_gangs (s : State) (m : Nat) (x : ModSt) : (s.setMod m x).gangs = s.gangs := by rw [State.setMod_eq]
@[simp] theorem State.setMod_nextGang (s : State) (m : Nat) (x : ModSt) : (s.setMod m x).nextGang = s.nextGang := by rw [State.setMod_eq]
@[simp] theorem State.setMod_frames (s : State) (m : Nat) (x : ModSt) : (s.setMod m x).frames = s.frames := by rw [State.setMod_eq]
@[simp] theorem State.setMod_pages (s : State) (m : Nat) (x : ModSt) : (s.setMod m x).pages = s.pages := by rw [State.setMod_eq]
@[simp] theorem State.setMod_tables (s : State) (m : Nat) (x : ModSt) : (s.setMod m x).tables = s.tables := by rw [State.setMod_eq]
@[simp] theorem State.setMod_tlbs (s : State) (m : Nat) (x : ModSt) : (s.setMod m x).tlbs = s.tlbs := by rw [State.setMod_eq]
@[simp] theorem State.setMod_walkCache (s : State) (m : Nat) (x : ModSt) : (s.setMod m x).walkCache = s.walkCache := by rw [State.setMod_eq]
@[simp] theorem State.setMod_patrolFrom (s : State) (m : Nat) (x : ModSt) : (s.setMod m x).patrolFrom = s.patrolFrom := by rw [State.setMod_eq]
@[simp] theorem State.setMod_condemned (s : State) (m : Nat) (x : ModSt) : (s.setMod m x).condemned = s.condemned := by rw [State.setMod_eq]
@[simp] theorem State.setMod_records (s : State) (m : Nat) (x : ModSt) : (s.setMod m x).records = s.records := by rw [State.setMod_eq]
@[simp] theorem State.setMod_classLast (s : State) (m : Nat) (x : ModSt) : (s.setMod m x).classLast = s.classLast := by rw [State.setMod_eq]
@[simp] theorem State.setMod_tight (s : State) (m : Nat) (x : ModSt) : (s.setMod m x).tight = s.tight := by rw [State.setMod_eq]
@[simp] theorem State.setMod_boostRun (s : State) (m : Nat) (x : ModSt) : (s.setMod m x).boostRun = s.boostRun := by rw [State.setMod_eq]
@[simp] theorem State.setMod_coolRun (s : State) (m : Nat) (x : ModSt) : (s.setMod m x).coolRun = s.coolRun := by rw [State.setMod_eq]
@[simp] theorem State.setMod_trims (s : State) (m : Nat) (x : ModSt) : (s.setMod m x).trims = s.trims := by rw [State.setMod_eq]
@[simp] theorem State.setMod_walks (s : State) (m : Nat) (x : ModSt) : (s.setMod m x).walks = s.walks := by rw [State.setMod_eq]
@[simp] theorem State.setMod_zeroing (s : State) (m : Nat) (x : ModSt) : (s.setMod m x).zeroing = s.zeroing := by rw [State.setMod_eq]
@[simp] theorem State.setMod_moveLast (s : State) (m : Nat) (x : ModSt) : (s.setMod m x).moveLast = s.moveLast := by rw [State.setMod_eq]
@[simp] theorem State.setMod_opMaxRun (s : State) (m : Nat) (x : ModSt) : (s.setMod m x).opMaxRun = s.opMaxRun := by rw [State.setMod_eq]
@[simp] theorem State.setMod_powers (s : State) (m : Nat) (x : ModSt) : (s.setMod m x).powers = s.powers := by rw [State.setMod_eq]
@[simp] theorem State.setMod_vsramDue (s : State) (m : Nat) (x : ModSt) : (s.setMod m x).vsramDue = s.vsramDue := by rw [State.setMod_eq]
@[simp] theorem State.setMod_avs (s : State) (m : Nat) (x : ModSt) : (s.setMod m x).avs = s.avs := by rw [State.setMod_eq]
@[simp] theorem State.setMod_qspi (s : State) (m : Nat) (x : ModSt) : (s.setMod m x).qspi = s.qspi := by rw [State.setMod_eq]
@[simp] theorem State.setMod_chal (s : State) (m : Nat) (x : ModSt) : (s.setMod m x).chal = s.chal := by rw [State.setMod_eq]
@[simp] theorem State.setMod_moves (s : State) (m : Nat) (x : ModSt) : (s.setMod m x).moves = s.moves := by rw [State.setMod_eq]
@[simp] theorem State.setMod_nextMove (s : State) (m : Nat) (x : ModSt) : (s.setMod m x).nextMove = s.nextMove := by rw [State.setMod_eq]
@[simp] theorem State.setMod_chains (s : State) (m : Nat) (x : ModSt) : (s.setMod m x).chains = s.chains := by rw [State.setMod_eq]
@[simp] theorem State.setMod_stages (s : State) (m : Nat) (x : ModSt) : (s.setMod m x).stages = s.stages := by rw [State.setMod_eq]
@[simp] theorem State.setMod_queues (s : State) (m : Nat) (x : ModSt) : (s.setMod m x).queues = s.queues := by rw [State.setMod_eq]
@[simp] theorem State.setMod_items (s : State) (m : Nat) (x : ModSt) : (s.setMod m x).items = s.items := by rw [State.setMod_eq]
@[simp] theorem State.setMod_cadastre (s : State) (m : Nat) (x : ModSt) : (s.setMod m x).cadastre = s.cadastre := by rw [State.setMod_eq]
@[simp] theorem State.setMod_domWait (s : State) (m : Nat) (x : ModSt) : (s.setMod m x).domWait = s.domWait := by rw [State.setMod_eq]
@[simp] theorem State.setMod_laneBad (s : State) (m : Nat) (x : ModSt) : (s.setMod m x).laneBad = s.laneBad := by rw [State.setMod_eq]
@[simp] theorem State.setMod_modBad (s : State) (m : Nat) (x : ModSt) : (s.setMod m x).modBad = s.modBad := by rw [State.setMod_eq]
@[simp] theorem State.setMod_roled (s : State) (m : Nat) (x : ModSt) : (s.setMod m x).roled = s.roled := by rw [State.setMod_eq]
@[simp] theorem State.setMod_lateTags (s : State) (m : Nat) (x : ModSt) : (s.setMod m x).lateTags = s.lateTags := by rw [State.setMod_eq]
@[simp] theorem State.setMod_holds (s : State) (m : Nat) (x : ModSt) : (s.setMod m x).holds = s.holds := by rw [State.setMod_eq]
@[simp] theorem State.setMod_routeUp (s : State) (m : Nat) (x : ModSt) : (s.setMod m x).routeUp = s.routeUp := by rw [State.setMod_eq]
@[simp] theorem State.setMod_phi (s : State) (m : Nat) (x : ModSt) : (s.setMod m x).phi = s.phi := by rw [State.setMod_eq]
@[simp] theorem State.setMod_allowance (s : State) (m : Nat) (x : ModSt) : (s.setMod m x).allowance = s.allowance := by rw [State.setMod_eq]
@[simp] theorem State.setMod_shareW (s : State) (m : Nat) (x : ModSt) : (s.setMod m x).shareW = s.shareW := by rw [State.setMod_eq]
@[simp] theorem State.setMod_rails (s : State) (m : Nat) (x : ModSt) : (s.setMod m x).rails = s.rails := by rw [State.setMod_eq]
@[simp] theorem State.setMod_opTarget (s : State) (m : Nat) (x : ModSt) : (s.setMod m x).opTarget = s.opTarget := by rw [State.setMod_eq]
@[simp] theorem State.setMod_episodes (s : State) (m : Nat) (x : ModSt) : (s.setMod m x).episodes = s.episodes := by rw [State.setMod_eq]
@[simp] theorem State.setMod_epiUnread (s : State) (m : Nat) (x : ModSt) : (s.setMod m x).epiUnread = s.epiUnread := by rw [State.setMod_eq]
@[simp] theorem State.setMod_accounts (s : State) (m : Nat) (x : ModSt) : (s.setMod m x).accounts = s.accounts := by rw [State.setMod_eq]
@[simp] theorem State.setMod_memBudget (s : State) (m : Nat) (x : ModSt) : (s.setMod m x).memBudget = s.memBudget := by rw [State.setMod_eq]
@[simp] theorem State.setMod_linkBudget (s : State) (m : Nat) (x : ModSt) : (s.setMod m x).linkBudget = s.linkBudget := by rw [State.setMod_eq]
@[simp] theorem State.setMod_vcoreSet (s : State) (m : Nat) (x : ModSt) : (s.setMod m x).vcoreSet = s.vcoreSet := by rw [State.setMod_eq]
@[simp] theorem State.setMod_vsramSet (s : State) (m : Nat) (x : ModSt) : (s.setMod m x).vsramSet = s.vsramSet := by rw [State.setMod_eq]
@[simp] theorem State.setMod_svyMem (s : State) (m : Nat) (x : ModSt) : (s.setMod m x).svyMem = s.svyMem := by rw [State.setMod_eq]
@[simp] theorem State.setMod_svyCode (s : State) (m : Nat) (x : ModSt) : (s.setMod m x).svyCode = s.svyCode := by rw [State.setMod_eq]
@[simp] theorem State.setMod_svyTimes (s : State) (m : Nat) (x : ModSt) : (s.setMod m x).svyTimes = s.svyTimes := by rw [State.setMod_eq]
@[simp] theorem State.setMod_svyCause (s : State) (m : Nat) (x : ModSt) : (s.setMod m x).svyCause = s.svyCause := by rw [State.setMod_eq]
@[simp] theorem State.setMod_kickedAt (s : State) (m : Nat) (x : ModSt) : (s.setMod m x).kickedAt = s.kickedAt := by rw [State.setMod_eq]
@[simp] theorem State.setMod_refusals (s : State) (m : Nat) (x : ModSt) : (s.setMod m x).refusals = s.refusals := by rw [State.setMod_eq]
@[simp] theorem State.setMod_quoteDraft (s : State) (m : Nat) (x : ModSt) : (s.setMod m x).quoteDraft = s.quoteDraft := by rw [State.setMod_eq]
@[simp] theorem State.setMod_maAccess (s : State) (m : Nat) (x : ModSt) : (s.setMod m x).maAccess = s.maAccess := by rw [State.setMod_eq]
@[simp] theorem State.setMod_poolKept (s : State) (m : Nat) (x : ModSt) : (s.setMod m x).poolKept = s.poolKept := by rw [State.setMod_eq]
@[simp] theorem State.setMod_keySlot (s : State) (m : Nat) (x : ModSt) : (s.setMod m x).keySlot = s.keySlot := by rw [State.setMod_eq]
@[simp] theorem State.setMod_aon (s : State) (m : Nat) (x : ModSt) : (s.setMod m x).aon = s.aon := by rw [State.setMod_eq]
@[simp] theorem State.setMod_boot (s : State) (m : Nat) (x : ModSt) : (s.setMod m x).boot = s.boot := by rw [State.setMod_eq]
@[simp] theorem State.setMod_tap (s : State) (m : Nat) (x : ModSt) : (s.setMod m x).tap = s.tap := by rw [State.setMod_eq]
/-- A stamp changes the station number alone. -/
theorem State.stamp_eq (s : State)  : s.stamp = { s with station := min (s.station + 1) stationMax } := by unfold State.stamp; exact Eq.refl _

@[simp] theorem State.stamp_pending (s : State)  : (s.stamp).pending = s.pending := by rw [State.stamp_eq]
@[simp] theorem State.stamp_regs (s : State)  : (s.stamp).regs = s.regs := by rw [State.stamp_eq]
@[simp] theorem State.stamp_staged (s : State)  : (s.stamp).staged = s.staged := by rw [State.stamp_eq]
@[simp] theorem State.stamp_ctl (s : State)  : (s.stamp).ctl = s.ctl := by rw [State.stamp_eq]
@[simp] theorem State.stamp_free (s : State)  : (s.stamp).free = s.free := by rw [State.stamp_eq]
@[simp] theorem State.stamp_ckFrac (s : State)  : (s.stamp).ckFrac = s.ckFrac := by rw [State.stamp_eq]
@[simp] theorem State.stamp_bootNonce (s : State)  : (s.stamp).bootNonce = s.bootNonce := by rw [State.stamp_eq]
@[simp] theorem State.stamp_fuses (s : State)  : (s.stamp).fuses = s.fuses := by rw [State.stamp_eq]
@[simp] theorem State.stamp_irq (s : State)  : (s.stamp).irq = s.irq := by rw [State.stamp_eq]
@[simp] theorem State.stamp_evq (s : State)  : (s.stamp).evq = s.evq := by rw [State.stamp_eq]
@[simp] theorem State.stamp_hostMsgs (s : State)  : (s.stamp).hostMsgs = s.hostMsgs := by rw [State.stamp_eq]
@[simp] theorem State.stamp_mods (s : State)  : (s.stamp).mods = s.mods := by rw [State.stamp_eq]
@[simp] theorem State.stamp_reqs (s : State)  : (s.stamp).reqs = s.reqs := by rw [State.stamp_eq]
@[simp] theorem State.stamp_nextTag (s : State)  : (s.stamp).nextTag = s.nextTag := by rw [State.stamp_eq]
@[simp] theorem State.stamp_waiting (s : State)  : (s.stamp).waiting = s.waiting := by rw [State.stamp_eq]
@[simp] theorem State.stamp_pathDrops (s : State)  : (s.stamp).pathDrops = s.pathDrops := by rw [State.stamp_eq]
@[simp] theorem State.stamp_mem (s : State)  : (s.stamp).mem = s.mem := by rw [State.stamp_eq]
@[simp] theorem State.stamp_ecc (s : State)  : (s.stamp).ecc = s.ecc := by rw [State.stamp_eq]
@[simp] theorem State.stamp_fixups (s : State)  : (s.stamp).fixups = s.fixups := by rw [State.stamp_eq]
@[simp] theorem State.stamp_lastCe (s : State)  : (s.stamp).lastCe = s.lastCe := by rw [State.stamp_eq]
@[simp] theorem State.stamp_cores (s : State)  : (s.stamp).cores = s.cores := by rw [State.stamp_eq]
@[simp] theorem State.stamp_held (s : State)  : (s.stamp).held = s.held := by rw [State.stamp_eq]
@[simp] theorem State.stamp_touched (s : State)  : (s.stamp).touched = s.touched := by rw [State.stamp_eq]
@[simp] theorem State.stamp_gangs (s : State)  : (s.stamp).gangs = s.gangs := by rw [State.stamp_eq]
@[simp] theorem State.stamp_nextGang (s : State)  : (s.stamp).nextGang = s.nextGang := by rw [State.stamp_eq]
@[simp] theorem State.stamp_frames (s : State)  : (s.stamp).frames = s.frames := by rw [State.stamp_eq]
@[simp] theorem State.stamp_pages (s : State)  : (s.stamp).pages = s.pages := by rw [State.stamp_eq]
@[simp] theorem State.stamp_tables (s : State)  : (s.stamp).tables = s.tables := by rw [State.stamp_eq]
@[simp] theorem State.stamp_tlbs (s : State)  : (s.stamp).tlbs = s.tlbs := by rw [State.stamp_eq]
@[simp] theorem State.stamp_walkCache (s : State)  : (s.stamp).walkCache = s.walkCache := by rw [State.stamp_eq]
@[simp] theorem State.stamp_patrolFrom (s : State)  : (s.stamp).patrolFrom = s.patrolFrom := by rw [State.stamp_eq]
@[simp] theorem State.stamp_condemned (s : State)  : (s.stamp).condemned = s.condemned := by rw [State.stamp_eq]
@[simp] theorem State.stamp_records (s : State)  : (s.stamp).records = s.records := by rw [State.stamp_eq]
@[simp] theorem State.stamp_classLast (s : State)  : (s.stamp).classLast = s.classLast := by rw [State.stamp_eq]
@[simp] theorem State.stamp_tight (s : State)  : (s.stamp).tight = s.tight := by rw [State.stamp_eq]
@[simp] theorem State.stamp_boostRun (s : State)  : (s.stamp).boostRun = s.boostRun := by rw [State.stamp_eq]
@[simp] theorem State.stamp_coolRun (s : State)  : (s.stamp).coolRun = s.coolRun := by rw [State.stamp_eq]
@[simp] theorem State.stamp_trims (s : State)  : (s.stamp).trims = s.trims := by rw [State.stamp_eq]
@[simp] theorem State.stamp_walks (s : State)  : (s.stamp).walks = s.walks := by rw [State.stamp_eq]
@[simp] theorem State.stamp_zeroing (s : State)  : (s.stamp).zeroing = s.zeroing := by rw [State.stamp_eq]
@[simp] theorem State.stamp_moveLast (s : State)  : (s.stamp).moveLast = s.moveLast := by rw [State.stamp_eq]
@[simp] theorem State.stamp_opMaxRun (s : State)  : (s.stamp).opMaxRun = s.opMaxRun := by rw [State.stamp_eq]
@[simp] theorem State.stamp_powers (s : State)  : (s.stamp).powers = s.powers := by rw [State.stamp_eq]
@[simp] theorem State.stamp_vsramDue (s : State)  : (s.stamp).vsramDue = s.vsramDue := by rw [State.stamp_eq]
@[simp] theorem State.stamp_avs (s : State)  : (s.stamp).avs = s.avs := by rw [State.stamp_eq]
@[simp] theorem State.stamp_qspi (s : State)  : (s.stamp).qspi = s.qspi := by rw [State.stamp_eq]
@[simp] theorem State.stamp_chal (s : State)  : (s.stamp).chal = s.chal := by rw [State.stamp_eq]
@[simp] theorem State.stamp_moves (s : State)  : (s.stamp).moves = s.moves := by rw [State.stamp_eq]
@[simp] theorem State.stamp_nextMove (s : State)  : (s.stamp).nextMove = s.nextMove := by rw [State.stamp_eq]
@[simp] theorem State.stamp_chains (s : State)  : (s.stamp).chains = s.chains := by rw [State.stamp_eq]
@[simp] theorem State.stamp_stages (s : State)  : (s.stamp).stages = s.stages := by rw [State.stamp_eq]
@[simp] theorem State.stamp_queues (s : State)  : (s.stamp).queues = s.queues := by rw [State.stamp_eq]
@[simp] theorem State.stamp_items (s : State)  : (s.stamp).items = s.items := by rw [State.stamp_eq]
@[simp] theorem State.stamp_cadastre (s : State)  : (s.stamp).cadastre = s.cadastre := by rw [State.stamp_eq]
@[simp] theorem State.stamp_domWait (s : State)  : (s.stamp).domWait = s.domWait := by rw [State.stamp_eq]
@[simp] theorem State.stamp_laneBad (s : State)  : (s.stamp).laneBad = s.laneBad := by rw [State.stamp_eq]
@[simp] theorem State.stamp_modBad (s : State)  : (s.stamp).modBad = s.modBad := by rw [State.stamp_eq]
@[simp] theorem State.stamp_roled (s : State)  : (s.stamp).roled = s.roled := by rw [State.stamp_eq]
@[simp] theorem State.stamp_lateTags (s : State)  : (s.stamp).lateTags = s.lateTags := by rw [State.stamp_eq]
@[simp] theorem State.stamp_holds (s : State)  : (s.stamp).holds = s.holds := by rw [State.stamp_eq]
@[simp] theorem State.stamp_routeUp (s : State)  : (s.stamp).routeUp = s.routeUp := by rw [State.stamp_eq]
@[simp] theorem State.stamp_phi (s : State)  : (s.stamp).phi = s.phi := by rw [State.stamp_eq]
@[simp] theorem State.stamp_allowance (s : State)  : (s.stamp).allowance = s.allowance := by rw [State.stamp_eq]
@[simp] theorem State.stamp_shareW (s : State)  : (s.stamp).shareW = s.shareW := by rw [State.stamp_eq]
@[simp] theorem State.stamp_rails (s : State)  : (s.stamp).rails = s.rails := by rw [State.stamp_eq]
@[simp] theorem State.stamp_opTarget (s : State)  : (s.stamp).opTarget = s.opTarget := by rw [State.stamp_eq]
@[simp] theorem State.stamp_episodes (s : State)  : (s.stamp).episodes = s.episodes := by rw [State.stamp_eq]
@[simp] theorem State.stamp_epiUnread (s : State)  : (s.stamp).epiUnread = s.epiUnread := by rw [State.stamp_eq]
@[simp] theorem State.stamp_accounts (s : State)  : (s.stamp).accounts = s.accounts := by rw [State.stamp_eq]
@[simp] theorem State.stamp_memBudget (s : State)  : (s.stamp).memBudget = s.memBudget := by rw [State.stamp_eq]
@[simp] theorem State.stamp_linkBudget (s : State)  : (s.stamp).linkBudget = s.linkBudget := by rw [State.stamp_eq]
@[simp] theorem State.stamp_vcoreSet (s : State)  : (s.stamp).vcoreSet = s.vcoreSet := by rw [State.stamp_eq]
@[simp] theorem State.stamp_vsramSet (s : State)  : (s.stamp).vsramSet = s.vsramSet := by rw [State.stamp_eq]
@[simp] theorem State.stamp_svyMem (s : State)  : (s.stamp).svyMem = s.svyMem := by rw [State.stamp_eq]
@[simp] theorem State.stamp_svyCode (s : State)  : (s.stamp).svyCode = s.svyCode := by rw [State.stamp_eq]
@[simp] theorem State.stamp_svyTimes (s : State)  : (s.stamp).svyTimes = s.svyTimes := by rw [State.stamp_eq]
@[simp] theorem State.stamp_svyCause (s : State)  : (s.stamp).svyCause = s.svyCause := by rw [State.stamp_eq]
@[simp] theorem State.stamp_kickedAt (s : State)  : (s.stamp).kickedAt = s.kickedAt := by rw [State.stamp_eq]
@[simp] theorem State.stamp_refusals (s : State)  : (s.stamp).refusals = s.refusals := by rw [State.stamp_eq]
@[simp] theorem State.stamp_quoteDraft (s : State)  : (s.stamp).quoteDraft = s.quoteDraft := by rw [State.stamp_eq]
@[simp] theorem State.stamp_maAccess (s : State)  : (s.stamp).maAccess = s.maAccess := by rw [State.stamp_eq]
@[simp] theorem State.stamp_poolKept (s : State)  : (s.stamp).poolKept = s.poolKept := by rw [State.stamp_eq]
@[simp] theorem State.stamp_keySlot (s : State)  : (s.stamp).keySlot = s.keySlot := by rw [State.stamp_eq]
@[simp] theorem State.stamp_aon (s : State)  : (s.stamp).aon = s.aon := by rw [State.stamp_eq]
@[simp] theorem State.stamp_boot (s : State)  : (s.stamp).boot = s.boot := by rw [State.stamp_eq]
@[simp] theorem State.stamp_tap (s : State)  : (s.stamp).tap = s.tap := by rw [State.stamp_eq]
/-- A receipt changes the station number alone. -/
theorem State.receive_eq (s : State) (v : Nat) : s.receive v = { s with station := min ((if v > s.station + 2 ^ 48 then s.station else max s.station v) + 1) stationMax } := by unfold State.receive; exact Eq.refl _

@[simp] theorem State.receive_pending (s : State) (v : Nat) : (s.receive v).pending = s.pending := by rw [State.receive_eq]
@[simp] theorem State.receive_regs (s : State) (v : Nat) : (s.receive v).regs = s.regs := by rw [State.receive_eq]
@[simp] theorem State.receive_staged (s : State) (v : Nat) : (s.receive v).staged = s.staged := by rw [State.receive_eq]
@[simp] theorem State.receive_ctl (s : State) (v : Nat) : (s.receive v).ctl = s.ctl := by rw [State.receive_eq]
@[simp] theorem State.receive_free (s : State) (v : Nat) : (s.receive v).free = s.free := by rw [State.receive_eq]
@[simp] theorem State.receive_ckFrac (s : State) (v : Nat) : (s.receive v).ckFrac = s.ckFrac := by rw [State.receive_eq]
@[simp] theorem State.receive_bootNonce (s : State) (v : Nat) : (s.receive v).bootNonce = s.bootNonce := by rw [State.receive_eq]
@[simp] theorem State.receive_fuses (s : State) (v : Nat) : (s.receive v).fuses = s.fuses := by rw [State.receive_eq]
@[simp] theorem State.receive_irq (s : State) (v : Nat) : (s.receive v).irq = s.irq := by rw [State.receive_eq]
@[simp] theorem State.receive_evq (s : State) (v : Nat) : (s.receive v).evq = s.evq := by rw [State.receive_eq]
@[simp] theorem State.receive_hostMsgs (s : State) (v : Nat) : (s.receive v).hostMsgs = s.hostMsgs := by rw [State.receive_eq]
@[simp] theorem State.receive_mods (s : State) (v : Nat) : (s.receive v).mods = s.mods := by rw [State.receive_eq]
@[simp] theorem State.receive_reqs (s : State) (v : Nat) : (s.receive v).reqs = s.reqs := by rw [State.receive_eq]
@[simp] theorem State.receive_nextTag (s : State) (v : Nat) : (s.receive v).nextTag = s.nextTag := by rw [State.receive_eq]
@[simp] theorem State.receive_waiting (s : State) (v : Nat) : (s.receive v).waiting = s.waiting := by rw [State.receive_eq]
@[simp] theorem State.receive_pathDrops (s : State) (v : Nat) : (s.receive v).pathDrops = s.pathDrops := by rw [State.receive_eq]
@[simp] theorem State.receive_mem (s : State) (v : Nat) : (s.receive v).mem = s.mem := by rw [State.receive_eq]
@[simp] theorem State.receive_ecc (s : State) (v : Nat) : (s.receive v).ecc = s.ecc := by rw [State.receive_eq]
@[simp] theorem State.receive_fixups (s : State) (v : Nat) : (s.receive v).fixups = s.fixups := by rw [State.receive_eq]
@[simp] theorem State.receive_lastCe (s : State) (v : Nat) : (s.receive v).lastCe = s.lastCe := by rw [State.receive_eq]
@[simp] theorem State.receive_cores (s : State) (v : Nat) : (s.receive v).cores = s.cores := by rw [State.receive_eq]
@[simp] theorem State.receive_held (s : State) (v : Nat) : (s.receive v).held = s.held := by rw [State.receive_eq]
@[simp] theorem State.receive_touched (s : State) (v : Nat) : (s.receive v).touched = s.touched := by rw [State.receive_eq]
@[simp] theorem State.receive_gangs (s : State) (v : Nat) : (s.receive v).gangs = s.gangs := by rw [State.receive_eq]
@[simp] theorem State.receive_nextGang (s : State) (v : Nat) : (s.receive v).nextGang = s.nextGang := by rw [State.receive_eq]
@[simp] theorem State.receive_frames (s : State) (v : Nat) : (s.receive v).frames = s.frames := by rw [State.receive_eq]
@[simp] theorem State.receive_pages (s : State) (v : Nat) : (s.receive v).pages = s.pages := by rw [State.receive_eq]
@[simp] theorem State.receive_tables (s : State) (v : Nat) : (s.receive v).tables = s.tables := by rw [State.receive_eq]
@[simp] theorem State.receive_tlbs (s : State) (v : Nat) : (s.receive v).tlbs = s.tlbs := by rw [State.receive_eq]
@[simp] theorem State.receive_walkCache (s : State) (v : Nat) : (s.receive v).walkCache = s.walkCache := by rw [State.receive_eq]
@[simp] theorem State.receive_patrolFrom (s : State) (v : Nat) : (s.receive v).patrolFrom = s.patrolFrom := by rw [State.receive_eq]
@[simp] theorem State.receive_condemned (s : State) (v : Nat) : (s.receive v).condemned = s.condemned := by rw [State.receive_eq]
@[simp] theorem State.receive_records (s : State) (v : Nat) : (s.receive v).records = s.records := by rw [State.receive_eq]
@[simp] theorem State.receive_classLast (s : State) (v : Nat) : (s.receive v).classLast = s.classLast := by rw [State.receive_eq]
@[simp] theorem State.receive_tight (s : State) (v : Nat) : (s.receive v).tight = s.tight := by rw [State.receive_eq]
@[simp] theorem State.receive_boostRun (s : State) (v : Nat) : (s.receive v).boostRun = s.boostRun := by rw [State.receive_eq]
@[simp] theorem State.receive_coolRun (s : State) (v : Nat) : (s.receive v).coolRun = s.coolRun := by rw [State.receive_eq]
@[simp] theorem State.receive_trims (s : State) (v : Nat) : (s.receive v).trims = s.trims := by rw [State.receive_eq]
@[simp] theorem State.receive_walks (s : State) (v : Nat) : (s.receive v).walks = s.walks := by rw [State.receive_eq]
@[simp] theorem State.receive_zeroing (s : State) (v : Nat) : (s.receive v).zeroing = s.zeroing := by rw [State.receive_eq]
@[simp] theorem State.receive_moveLast (s : State) (v : Nat) : (s.receive v).moveLast = s.moveLast := by rw [State.receive_eq]
@[simp] theorem State.receive_opMaxRun (s : State) (v : Nat) : (s.receive v).opMaxRun = s.opMaxRun := by rw [State.receive_eq]
@[simp] theorem State.receive_powers (s : State) (v : Nat) : (s.receive v).powers = s.powers := by rw [State.receive_eq]
@[simp] theorem State.receive_vsramDue (s : State) (v : Nat) : (s.receive v).vsramDue = s.vsramDue := by rw [State.receive_eq]
@[simp] theorem State.receive_avs (s : State) (v : Nat) : (s.receive v).avs = s.avs := by rw [State.receive_eq]
@[simp] theorem State.receive_qspi (s : State) (v : Nat) : (s.receive v).qspi = s.qspi := by rw [State.receive_eq]
@[simp] theorem State.receive_chal (s : State) (v : Nat) : (s.receive v).chal = s.chal := by rw [State.receive_eq]
@[simp] theorem State.receive_moves (s : State) (v : Nat) : (s.receive v).moves = s.moves := by rw [State.receive_eq]
@[simp] theorem State.receive_nextMove (s : State) (v : Nat) : (s.receive v).nextMove = s.nextMove := by rw [State.receive_eq]
@[simp] theorem State.receive_chains (s : State) (v : Nat) : (s.receive v).chains = s.chains := by rw [State.receive_eq]
@[simp] theorem State.receive_stages (s : State) (v : Nat) : (s.receive v).stages = s.stages := by rw [State.receive_eq]
@[simp] theorem State.receive_queues (s : State) (v : Nat) : (s.receive v).queues = s.queues := by rw [State.receive_eq]
@[simp] theorem State.receive_items (s : State) (v : Nat) : (s.receive v).items = s.items := by rw [State.receive_eq]
@[simp] theorem State.receive_cadastre (s : State) (v : Nat) : (s.receive v).cadastre = s.cadastre := by rw [State.receive_eq]
@[simp] theorem State.receive_domWait (s : State) (v : Nat) : (s.receive v).domWait = s.domWait := by rw [State.receive_eq]
@[simp] theorem State.receive_laneBad (s : State) (v : Nat) : (s.receive v).laneBad = s.laneBad := by rw [State.receive_eq]
@[simp] theorem State.receive_modBad (s : State) (v : Nat) : (s.receive v).modBad = s.modBad := by rw [State.receive_eq]
@[simp] theorem State.receive_roled (s : State) (v : Nat) : (s.receive v).roled = s.roled := by rw [State.receive_eq]
@[simp] theorem State.receive_lateTags (s : State) (v : Nat) : (s.receive v).lateTags = s.lateTags := by rw [State.receive_eq]
@[simp] theorem State.receive_holds (s : State) (v : Nat) : (s.receive v).holds = s.holds := by rw [State.receive_eq]
@[simp] theorem State.receive_routeUp (s : State) (v : Nat) : (s.receive v).routeUp = s.routeUp := by rw [State.receive_eq]
@[simp] theorem State.receive_phi (s : State) (v : Nat) : (s.receive v).phi = s.phi := by rw [State.receive_eq]
@[simp] theorem State.receive_allowance (s : State) (v : Nat) : (s.receive v).allowance = s.allowance := by rw [State.receive_eq]
@[simp] theorem State.receive_shareW (s : State) (v : Nat) : (s.receive v).shareW = s.shareW := by rw [State.receive_eq]
@[simp] theorem State.receive_rails (s : State) (v : Nat) : (s.receive v).rails = s.rails := by rw [State.receive_eq]
@[simp] theorem State.receive_opTarget (s : State) (v : Nat) : (s.receive v).opTarget = s.opTarget := by rw [State.receive_eq]
@[simp] theorem State.receive_episodes (s : State) (v : Nat) : (s.receive v).episodes = s.episodes := by rw [State.receive_eq]
@[simp] theorem State.receive_epiUnread (s : State) (v : Nat) : (s.receive v).epiUnread = s.epiUnread := by rw [State.receive_eq]
@[simp] theorem State.receive_accounts (s : State) (v : Nat) : (s.receive v).accounts = s.accounts := by rw [State.receive_eq]
@[simp] theorem State.receive_memBudget (s : State) (v : Nat) : (s.receive v).memBudget = s.memBudget := by rw [State.receive_eq]
@[simp] theorem State.receive_linkBudget (s : State) (v : Nat) : (s.receive v).linkBudget = s.linkBudget := by rw [State.receive_eq]
@[simp] theorem State.receive_vcoreSet (s : State) (v : Nat) : (s.receive v).vcoreSet = s.vcoreSet := by rw [State.receive_eq]
@[simp] theorem State.receive_vsramSet (s : State) (v : Nat) : (s.receive v).vsramSet = s.vsramSet := by rw [State.receive_eq]
@[simp] theorem State.receive_svyMem (s : State) (v : Nat) : (s.receive v).svyMem = s.svyMem := by rw [State.receive_eq]
@[simp] theorem State.receive_svyCode (s : State) (v : Nat) : (s.receive v).svyCode = s.svyCode := by rw [State.receive_eq]
@[simp] theorem State.receive_svyTimes (s : State) (v : Nat) : (s.receive v).svyTimes = s.svyTimes := by rw [State.receive_eq]
@[simp] theorem State.receive_svyCause (s : State) (v : Nat) : (s.receive v).svyCause = s.svyCause := by rw [State.receive_eq]
@[simp] theorem State.receive_kickedAt (s : State) (v : Nat) : (s.receive v).kickedAt = s.kickedAt := by rw [State.receive_eq]
@[simp] theorem State.receive_refusals (s : State) (v : Nat) : (s.receive v).refusals = s.refusals := by rw [State.receive_eq]
@[simp] theorem State.receive_quoteDraft (s : State) (v : Nat) : (s.receive v).quoteDraft = s.quoteDraft := by rw [State.receive_eq]
@[simp] theorem State.receive_maAccess (s : State) (v : Nat) : (s.receive v).maAccess = s.maAccess := by rw [State.receive_eq]
@[simp] theorem State.receive_poolKept (s : State) (v : Nat) : (s.receive v).poolKept = s.poolKept := by rw [State.receive_eq]
@[simp] theorem State.receive_keySlot (s : State) (v : Nat) : (s.receive v).keySlot = s.keySlot := by rw [State.receive_eq]
@[simp] theorem State.receive_aon (s : State) (v : Nat) : (s.receive v).aon = s.aon := by rw [State.receive_eq]
@[simp] theorem State.receive_boot (s : State) (v : Nat) : (s.receive v).boot = s.boot := by rw [State.receive_eq]
@[simp] theorem State.receive_tap (s : State) (v : Nat) : (s.receive v).tap = s.tap := by rw [State.receive_eq]
/-- Replacing a core changes cores alone. -/
theorem State.setCore_eq (s : State) (n : Nat) (c : CoreSt) : s.setCore n c = { s with cores := tset (fun _ => CoreSt.init) n c s.cores } := by unfold State.setCore; exact Eq.refl _

@[simp] theorem State.setCore_pending (s : State) (n : Nat) (c : CoreSt) : (s.setCore n c).pending = s.pending := by rw [State.setCore_eq]
@[simp] theorem State.setCore_regs (s : State) (n : Nat) (c : CoreSt) : (s.setCore n c).regs = s.regs := by rw [State.setCore_eq]
@[simp] theorem State.setCore_staged (s : State) (n : Nat) (c : CoreSt) : (s.setCore n c).staged = s.staged := by rw [State.setCore_eq]
@[simp] theorem State.setCore_ctl (s : State) (n : Nat) (c : CoreSt) : (s.setCore n c).ctl = s.ctl := by rw [State.setCore_eq]
@[simp] theorem State.setCore_free (s : State) (n : Nat) (c : CoreSt) : (s.setCore n c).free = s.free := by rw [State.setCore_eq]
@[simp] theorem State.setCore_ckFrac (s : State) (n : Nat) (c : CoreSt) : (s.setCore n c).ckFrac = s.ckFrac := by rw [State.setCore_eq]
@[simp] theorem State.setCore_station (s : State) (n : Nat) (c : CoreSt) : (s.setCore n c).station = s.station := by rw [State.setCore_eq]
@[simp] theorem State.setCore_bootNonce (s : State) (n : Nat) (c : CoreSt) : (s.setCore n c).bootNonce = s.bootNonce := by rw [State.setCore_eq]
@[simp] theorem State.setCore_fuses (s : State) (n : Nat) (c : CoreSt) : (s.setCore n c).fuses = s.fuses := by rw [State.setCore_eq]
@[simp] theorem State.setCore_irq (s : State) (n : Nat) (c : CoreSt) : (s.setCore n c).irq = s.irq := by rw [State.setCore_eq]
@[simp] theorem State.setCore_evq (s : State) (n : Nat) (c : CoreSt) : (s.setCore n c).evq = s.evq := by rw [State.setCore_eq]
@[simp] theorem State.setCore_hostMsgs (s : State) (n : Nat) (c : CoreSt) : (s.setCore n c).hostMsgs = s.hostMsgs := by rw [State.setCore_eq]
@[simp] theorem State.setCore_mods (s : State) (n : Nat) (c : CoreSt) : (s.setCore n c).mods = s.mods := by rw [State.setCore_eq]
@[simp] theorem State.setCore_reqs (s : State) (n : Nat) (c : CoreSt) : (s.setCore n c).reqs = s.reqs := by rw [State.setCore_eq]
@[simp] theorem State.setCore_nextTag (s : State) (n : Nat) (c : CoreSt) : (s.setCore n c).nextTag = s.nextTag := by rw [State.setCore_eq]
@[simp] theorem State.setCore_waiting (s : State) (n : Nat) (c : CoreSt) : (s.setCore n c).waiting = s.waiting := by rw [State.setCore_eq]
@[simp] theorem State.setCore_pathDrops (s : State) (n : Nat) (c : CoreSt) : (s.setCore n c).pathDrops = s.pathDrops := by rw [State.setCore_eq]
@[simp] theorem State.setCore_mem (s : State) (n : Nat) (c : CoreSt) : (s.setCore n c).mem = s.mem := by rw [State.setCore_eq]
@[simp] theorem State.setCore_ecc (s : State) (n : Nat) (c : CoreSt) : (s.setCore n c).ecc = s.ecc := by rw [State.setCore_eq]
@[simp] theorem State.setCore_fixups (s : State) (n : Nat) (c : CoreSt) : (s.setCore n c).fixups = s.fixups := by rw [State.setCore_eq]
@[simp] theorem State.setCore_lastCe (s : State) (n : Nat) (c : CoreSt) : (s.setCore n c).lastCe = s.lastCe := by rw [State.setCore_eq]
@[simp] theorem State.setCore_held (s : State) (n : Nat) (c : CoreSt) : (s.setCore n c).held = s.held := by rw [State.setCore_eq]
@[simp] theorem State.setCore_touched (s : State) (n : Nat) (c : CoreSt) : (s.setCore n c).touched = s.touched := by rw [State.setCore_eq]
@[simp] theorem State.setCore_gangs (s : State) (n : Nat) (c : CoreSt) : (s.setCore n c).gangs = s.gangs := by rw [State.setCore_eq]
@[simp] theorem State.setCore_nextGang (s : State) (n : Nat) (c : CoreSt) : (s.setCore n c).nextGang = s.nextGang := by rw [State.setCore_eq]
@[simp] theorem State.setCore_frames (s : State) (n : Nat) (c : CoreSt) : (s.setCore n c).frames = s.frames := by rw [State.setCore_eq]
@[simp] theorem State.setCore_pages (s : State) (n : Nat) (c : CoreSt) : (s.setCore n c).pages = s.pages := by rw [State.setCore_eq]
@[simp] theorem State.setCore_tables (s : State) (n : Nat) (c : CoreSt) : (s.setCore n c).tables = s.tables := by rw [State.setCore_eq]
@[simp] theorem State.setCore_tlbs (s : State) (n : Nat) (c : CoreSt) : (s.setCore n c).tlbs = s.tlbs := by rw [State.setCore_eq]
@[simp] theorem State.setCore_walkCache (s : State) (n : Nat) (c : CoreSt) : (s.setCore n c).walkCache = s.walkCache := by rw [State.setCore_eq]
@[simp] theorem State.setCore_patrolFrom (s : State) (n : Nat) (c : CoreSt) : (s.setCore n c).patrolFrom = s.patrolFrom := by rw [State.setCore_eq]
@[simp] theorem State.setCore_condemned (s : State) (n : Nat) (c : CoreSt) : (s.setCore n c).condemned = s.condemned := by rw [State.setCore_eq]
@[simp] theorem State.setCore_records (s : State) (n : Nat) (c : CoreSt) : (s.setCore n c).records = s.records := by rw [State.setCore_eq]
@[simp] theorem State.setCore_classLast (s : State) (n : Nat) (c : CoreSt) : (s.setCore n c).classLast = s.classLast := by rw [State.setCore_eq]
@[simp] theorem State.setCore_tight (s : State) (n : Nat) (c : CoreSt) : (s.setCore n c).tight = s.tight := by rw [State.setCore_eq]
@[simp] theorem State.setCore_boostRun (s : State) (n : Nat) (c : CoreSt) : (s.setCore n c).boostRun = s.boostRun := by rw [State.setCore_eq]
@[simp] theorem State.setCore_coolRun (s : State) (n : Nat) (c : CoreSt) : (s.setCore n c).coolRun = s.coolRun := by rw [State.setCore_eq]
@[simp] theorem State.setCore_trims (s : State) (n : Nat) (c : CoreSt) : (s.setCore n c).trims = s.trims := by rw [State.setCore_eq]
@[simp] theorem State.setCore_walks (s : State) (n : Nat) (c : CoreSt) : (s.setCore n c).walks = s.walks := by rw [State.setCore_eq]
@[simp] theorem State.setCore_zeroing (s : State) (n : Nat) (c : CoreSt) : (s.setCore n c).zeroing = s.zeroing := by rw [State.setCore_eq]
@[simp] theorem State.setCore_moveLast (s : State) (n : Nat) (c : CoreSt) : (s.setCore n c).moveLast = s.moveLast := by rw [State.setCore_eq]
@[simp] theorem State.setCore_opMaxRun (s : State) (n : Nat) (c : CoreSt) : (s.setCore n c).opMaxRun = s.opMaxRun := by rw [State.setCore_eq]
@[simp] theorem State.setCore_powers (s : State) (n : Nat) (c : CoreSt) : (s.setCore n c).powers = s.powers := by rw [State.setCore_eq]
@[simp] theorem State.setCore_vsramDue (s : State) (n : Nat) (c : CoreSt) : (s.setCore n c).vsramDue = s.vsramDue := by rw [State.setCore_eq]
@[simp] theorem State.setCore_avs (s : State) (n : Nat) (c : CoreSt) : (s.setCore n c).avs = s.avs := by rw [State.setCore_eq]
@[simp] theorem State.setCore_qspi (s : State) (n : Nat) (c : CoreSt) : (s.setCore n c).qspi = s.qspi := by rw [State.setCore_eq]
@[simp] theorem State.setCore_chal (s : State) (n : Nat) (c : CoreSt) : (s.setCore n c).chal = s.chal := by rw [State.setCore_eq]
@[simp] theorem State.setCore_moves (s : State) (n : Nat) (c : CoreSt) : (s.setCore n c).moves = s.moves := by rw [State.setCore_eq]
@[simp] theorem State.setCore_nextMove (s : State) (n : Nat) (c : CoreSt) : (s.setCore n c).nextMove = s.nextMove := by rw [State.setCore_eq]
@[simp] theorem State.setCore_chains (s : State) (n : Nat) (c : CoreSt) : (s.setCore n c).chains = s.chains := by rw [State.setCore_eq]
@[simp] theorem State.setCore_stages (s : State) (n : Nat) (c : CoreSt) : (s.setCore n c).stages = s.stages := by rw [State.setCore_eq]
@[simp] theorem State.setCore_queues (s : State) (n : Nat) (c : CoreSt) : (s.setCore n c).queues = s.queues := by rw [State.setCore_eq]
@[simp] theorem State.setCore_items (s : State) (n : Nat) (c : CoreSt) : (s.setCore n c).items = s.items := by rw [State.setCore_eq]
@[simp] theorem State.setCore_cadastre (s : State) (n : Nat) (c : CoreSt) : (s.setCore n c).cadastre = s.cadastre := by rw [State.setCore_eq]
@[simp] theorem State.setCore_domWait (s : State) (n : Nat) (c : CoreSt) : (s.setCore n c).domWait = s.domWait := by rw [State.setCore_eq]
@[simp] theorem State.setCore_laneBad (s : State) (n : Nat) (c : CoreSt) : (s.setCore n c).laneBad = s.laneBad := by rw [State.setCore_eq]
@[simp] theorem State.setCore_modBad (s : State) (n : Nat) (c : CoreSt) : (s.setCore n c).modBad = s.modBad := by rw [State.setCore_eq]
@[simp] theorem State.setCore_roled (s : State) (n : Nat) (c : CoreSt) : (s.setCore n c).roled = s.roled := by rw [State.setCore_eq]
@[simp] theorem State.setCore_lateTags (s : State) (n : Nat) (c : CoreSt) : (s.setCore n c).lateTags = s.lateTags := by rw [State.setCore_eq]
@[simp] theorem State.setCore_holds (s : State) (n : Nat) (c : CoreSt) : (s.setCore n c).holds = s.holds := by rw [State.setCore_eq]
@[simp] theorem State.setCore_routeUp (s : State) (n : Nat) (c : CoreSt) : (s.setCore n c).routeUp = s.routeUp := by rw [State.setCore_eq]
@[simp] theorem State.setCore_phi (s : State) (n : Nat) (c : CoreSt) : (s.setCore n c).phi = s.phi := by rw [State.setCore_eq]
@[simp] theorem State.setCore_allowance (s : State) (n : Nat) (c : CoreSt) : (s.setCore n c).allowance = s.allowance := by rw [State.setCore_eq]
@[simp] theorem State.setCore_shareW (s : State) (n : Nat) (c : CoreSt) : (s.setCore n c).shareW = s.shareW := by rw [State.setCore_eq]
@[simp] theorem State.setCore_rails (s : State) (n : Nat) (c : CoreSt) : (s.setCore n c).rails = s.rails := by rw [State.setCore_eq]
@[simp] theorem State.setCore_opTarget (s : State) (n : Nat) (c : CoreSt) : (s.setCore n c).opTarget = s.opTarget := by rw [State.setCore_eq]
@[simp] theorem State.setCore_episodes (s : State) (n : Nat) (c : CoreSt) : (s.setCore n c).episodes = s.episodes := by rw [State.setCore_eq]
@[simp] theorem State.setCore_epiUnread (s : State) (n : Nat) (c : CoreSt) : (s.setCore n c).epiUnread = s.epiUnread := by rw [State.setCore_eq]
@[simp] theorem State.setCore_accounts (s : State) (n : Nat) (c : CoreSt) : (s.setCore n c).accounts = s.accounts := by rw [State.setCore_eq]
@[simp] theorem State.setCore_memBudget (s : State) (n : Nat) (c : CoreSt) : (s.setCore n c).memBudget = s.memBudget := by rw [State.setCore_eq]
@[simp] theorem State.setCore_linkBudget (s : State) (n : Nat) (c : CoreSt) : (s.setCore n c).linkBudget = s.linkBudget := by rw [State.setCore_eq]
@[simp] theorem State.setCore_vcoreSet (s : State) (n : Nat) (c : CoreSt) : (s.setCore n c).vcoreSet = s.vcoreSet := by rw [State.setCore_eq]
@[simp] theorem State.setCore_vsramSet (s : State) (n : Nat) (c : CoreSt) : (s.setCore n c).vsramSet = s.vsramSet := by rw [State.setCore_eq]
@[simp] theorem State.setCore_svyMem (s : State) (n : Nat) (c : CoreSt) : (s.setCore n c).svyMem = s.svyMem := by rw [State.setCore_eq]
@[simp] theorem State.setCore_svyCode (s : State) (n : Nat) (c : CoreSt) : (s.setCore n c).svyCode = s.svyCode := by rw [State.setCore_eq]
@[simp] theorem State.setCore_svyTimes (s : State) (n : Nat) (c : CoreSt) : (s.setCore n c).svyTimes = s.svyTimes := by rw [State.setCore_eq]
@[simp] theorem State.setCore_svyCause (s : State) (n : Nat) (c : CoreSt) : (s.setCore n c).svyCause = s.svyCause := by rw [State.setCore_eq]
@[simp] theorem State.setCore_kickedAt (s : State) (n : Nat) (c : CoreSt) : (s.setCore n c).kickedAt = s.kickedAt := by rw [State.setCore_eq]
@[simp] theorem State.setCore_refusals (s : State) (n : Nat) (c : CoreSt) : (s.setCore n c).refusals = s.refusals := by rw [State.setCore_eq]
@[simp] theorem State.setCore_quoteDraft (s : State) (n : Nat) (c : CoreSt) : (s.setCore n c).quoteDraft = s.quoteDraft := by rw [State.setCore_eq]
@[simp] theorem State.setCore_maAccess (s : State) (n : Nat) (c : CoreSt) : (s.setCore n c).maAccess = s.maAccess := by rw [State.setCore_eq]
@[simp] theorem State.setCore_poolKept (s : State) (n : Nat) (c : CoreSt) : (s.setCore n c).poolKept = s.poolKept := by rw [State.setCore_eq]
@[simp] theorem State.setCore_keySlot (s : State) (n : Nat) (c : CoreSt) : (s.setCore n c).keySlot = s.keySlot := by rw [State.setCore_eq]
@[simp] theorem State.setCore_aon (s : State) (n : Nat) (c : CoreSt) : (s.setCore n c).aon = s.aon := by rw [State.setCore_eq]
@[simp] theorem State.setCore_boot (s : State) (n : Nat) (c : CoreSt) : (s.setCore n c).boot = s.boot := by rw [State.setCore_eq]
@[simp] theorem State.setCore_tap (s : State) (n : Nat) (c : CoreSt) : (s.setCore n c).tap = s.tap := by rw [State.setCore_eq]

end Sys2Proof.Machine
end

