-- ==== Sys2Proof/Laws/Tbl.lean ====
section
/-! SUPPORT. Laws of the sparse tables: a read after a write, and the canonical form that every table operation keeps. -/

namespace Sys2Proof.Machine

variable {α : Type}

/-- Whether two numbers are the same, as the table operations ask it. -/
theorem tget_cons (d : Nat → α) (k j : Nat) (v : α) (t : Tbl α) :
    tget d k ((j, v) :: t) = if j = k then v else tget d k t := rfl

/-- A deleted key reads as the default. -/
@[simp] theorem tget_tdel_self (d : Nat → α) (k : Nat) (t : Tbl α) : tget d k (tdel k t) = d k := by
  induction t with
  | nil => rfl
  | cons e t ih =>
    obtain ⟨j, w⟩ := e
    by_cases h : j = k <;> simp [tdel, h, tget, ih]

/-- Deleting a key leaves every other key alone. -/
theorem tget_tdel_ne (d : Nat → α) {k i : Nat} (h : i ≠ k) (t : Tbl α) : tget d i (tdel k t) = tget d i t := by
  induction t with
  | nil => rfl
  | cons e t ih =>
    obtain ⟨j, w⟩ := e
    by_cases hj : j = k
    · subst hj
      simp [tdel, tget, ih, Ne.symm h]
    · simp [tdel, tget, ih, hj]

/-- An entered key reads as entered. -/
@[simp] theorem tget_tins_self (d : Nat → α) (k : Nat) (v : α) (t : Tbl α) : tget d k (tins k v t) = v := by
  induction t with
  | nil => simp [tins, tget]
  | cons e t ih =>
    obtain ⟨j, w⟩ := e
    by_cases h : k < j
    · simp [tins, h, tget]
    · by_cases hj : j = k
      · simp [tins, hj, tget]
      · simp [tins, h, hj, tget, ih]

/-- Entering a key leaves every other key alone. -/
theorem tget_tins_ne (d : Nat → α) {k i : Nat} (h : i ≠ k) (v : α) (t : Tbl α) : tget d i (tins k v t) = tget d i t := by
  induction t with
  | nil => simp [tins, tget, Ne.symm h]
  | cons e t ih =>
    obtain ⟨j, w⟩ := e
    by_cases hk : k < j
    · simp [tins, hk, tget, Ne.symm h]
    · by_cases hj : j = k
      · subst hj
        simp [tins, tget, Ne.symm h]
      · simp [tins, hk, hj, tget, ih]

/-- Keys that a predicate keeps read as before; the others read as the default. -/
theorem tget_tkeep (d : Nat → α) (p : Nat → Bool) (i : Nat) (t : Tbl α) : tget d i (tkeep p t) = if p i then tget d i t else d i := by
  induction t with
  | nil => simp [tkeep, tget]
  | cons e t ih =>
    obtain ⟨j, w⟩ := e
    unfold tkeep at ih ⊢
    by_cases hj : j = i
    · subst hj
      by_cases hp : p j <;> simp [hp, tget] at ih ⊢
      exact ih
    · by_cases hp : p j <;> simp [hp, tget, hj, ih]

variable [DecidableEq α]

/-- A read after a write of the same key gives the value written. -/
@[simp] theorem tget_tset_self (d : Nat → α) (k : Nat) (v : α) (t : Tbl α) : tget d k (tset d k v t) = v := by
  by_cases h : v = d k <;> simp [tset, h]

/-- A write leaves every other key alone. -/
theorem tget_tset_ne (d : Nat → α) {k i : Nat} (h : i ≠ k) (v : α) (t : Tbl α) : tget d i (tset d k v t) = tget d i t := by
  by_cases hv : v = d k
  · simp [tset, hv, tget_tdel_ne d h]
  · simp [tset, hv, tget_tins_ne d h]

/-- A read after a write. -/
theorem tget_tset (d : Nat → α) (k i : Nat) (v : α) (t : Tbl α) : tget d i (tset d k v t) = if i = k then v else tget d i t := by
  by_cases h : i = k
  · simp [h]
  · simp [h, tget_tset_ne d h]

/-! ### The canonical form -/

/-- A form from a higher key on is one from a lower key on. -/
theorem twfFrom_mono (d : Nat → α) {lo hi : Nat} (h : lo ≤ hi) {t : Tbl α} (w : twfFrom d hi t = true) : twfFrom d lo t = true := by
  cases t with
  | nil => rfl
  | cons e t =>
    obtain ⟨j, v⟩ := e
    simp only [twfFrom, Bool.and_eq_true, decide_eq_true_eq] at w ⊢
    exact ⟨⟨by omega, w.1.2⟩, w.2⟩

/-- Deleting keeps the canonical form. -/
theorem twfFrom_tdel (d : Nat → α) (k : Nat) {t : Tbl α} : ∀ {lo : Nat}, twfFrom d lo t = true → twfFrom d lo (tdel k t) = true := by
  induction t with
  | nil => intro lo _; rfl
  | cons e t ih =>
    obtain ⟨j, v⟩ := e
    intro lo w
    simp only [twfFrom, Bool.and_eq_true, decide_eq_true_eq] at w
    by_cases hj : j = k
    · simp only [tdel, hj, if_true]
      exact twfFrom_mono d (by omega) (ih w.2)
    · simp only [tdel, hj, if_false, twfFrom, Bool.and_eq_true, decide_eq_true_eq]
      exact ⟨w.1, ih w.2⟩

/-- Entering a value other than the default keeps the canonical form. -/
theorem twfFrom_tins (d : Nat → α) {k : Nat} {v : α} (hv : v ≠ d k) {t : Tbl α} :
    ∀ {lo : Nat}, lo ≤ k → twfFrom d lo t = true → twfFrom d lo (tins k v t) = true := by
  induction t with
  | nil => intro lo h _; simp [tins, twfFrom, h, hv]
  | cons e t ih =>
    obtain ⟨j, w⟩ := e
    intro lo h hw
    simp only [twfFrom, Bool.and_eq_true, decide_eq_true_eq, Bool.not_eq_true', decide_eq_false_iff_not] at hw
    by_cases hk : k < j
    · simp only [tins, hk, if_true, twfFrom, Bool.and_eq_true, decide_eq_true_eq, Bool.not_eq_true', decide_eq_false_iff_not]
      exact ⟨⟨h, hv⟩, ⟨by omega, hw.1.2⟩, hw.2⟩
    · by_cases hj : j = k
      · subst hj
        simp only [tins, hk, if_false, if_true, twfFrom, Bool.and_eq_true, decide_eq_true_eq, Bool.not_eq_true', decide_eq_false_iff_not]
        exact ⟨⟨h, hv⟩, hw.2⟩
      · simp only [tins, hk, hj, if_false, twfFrom, Bool.and_eq_true, decide_eq_true_eq, Bool.not_eq_true', decide_eq_false_iff_not]
        exact ⟨hw.1, ih (by omega) hw.2⟩

/-- A write keeps the canonical form. -/
theorem twf_tset (d : Nat → α) (k : Nat) (v : α) {t : Tbl α} (w : twf d t = true) : twf d (tset d k v t) = true := by
  unfold twf at w ⊢
  by_cases hv : v = d k
  · simpa [tset, hv] using twfFrom_tdel d k w
  · simpa [tset, hv] using twfFrom_tins d hv (Nat.zero_le k) w

/-- Keeping the entries that satisfy a predicate keeps the canonical form. -/
theorem twfFrom_tkeep (d : Nat → α) (p : Nat → Bool) {t : Tbl α} : ∀ {lo : Nat}, twfFrom d lo t = true → twfFrom d lo (tkeep p t) = true := by
  induction t with
  | nil => intro lo _; rfl
  | cons e t ih =>
    obtain ⟨j, v⟩ := e
    intro lo w
    simp only [twfFrom, Bool.and_eq_true, decide_eq_true_eq] at w
    unfold tkeep at ih ⊢
    by_cases hp : p j = true
    · simp only [List.filter_cons, hp, if_true, twfFrom, Bool.and_eq_true, decide_eq_true_eq]
      exact ⟨w.1, ih w.2⟩
    · simp only [List.filter_cons, hp]
      exact twfFrom_mono d (by omega) (ih w.2)

/-- Keeping entries keeps the canonical form. -/
theorem twf_tkeep (d : Nat → α) (p : Nat → Bool) {t : Tbl α} (w : twf d t = true) : twf d (tkeep p t) = true := twfFrom_tkeep d p w

/-- Two canonical tables that read alike are the same data. -/
theorem twfFrom_ext (d : Nat → α) : ∀ {t u : Tbl α} {lo : Nat}, twfFrom d lo t = true → twfFrom d lo u = true →
    (∀ k, lo ≤ k → tget d k t = tget d k u) → t = u := by
  have low : ∀ {t : Tbl α} {lo k : Nat}, twfFrom d lo t = true → k < lo → tget d k t = d k := by
    intro t
    induction t with
    | nil => intro lo k _ _; rfl
    | cons e t ih =>
      obtain ⟨j, v⟩ := e
      intro lo k w h
      simp only [twfFrom, Bool.and_eq_true, decide_eq_true_eq] at w
      rw [tget_cons, if_neg (by omega)]
      exact ih w.2 (by omega)
  intro t
  induction t with
  | nil =>
    intro u lo _ wu h
    cases u with
    | nil => rfl
    | cons e u =>
      obtain ⟨j, v⟩ := e
      simp only [twfFrom, Bool.and_eq_true, decide_eq_true_eq, Bool.not_eq_true', decide_eq_false_iff_not] at wu
      have := h j wu.1.1
      simp [tget] at this
      exact absurd this.symm wu.1.2
  | cons e t ih =>
    obtain ⟨j, v⟩ := e
    intro u lo wt wu h
    simp only [twfFrom, Bool.and_eq_true, decide_eq_true_eq, Bool.not_eq_true', decide_eq_false_iff_not] at wt
    cases u with
    | nil =>
      have := h j wt.1.1
      simp [tget] at this
      exact absurd this wt.1.2
    | cons f u =>
      obtain ⟨i, w⟩ := f
      simp only [twfFrom, Bool.and_eq_true, decide_eq_true_eq, Bool.not_eq_true', decide_eq_false_iff_not] at wu
      have hij : j = i := by
        rcases Nat.lt_trichotomy j i with hl | hl | hl
        · have := h j wt.1.1
          rw [tget_cons, if_pos rfl, tget_cons, if_neg (by omega), low wu.2 (by omega)] at this
          exact absurd this wt.1.2
        · exact hl
        · have := h i wu.1.1
          rw [tget_cons, if_neg (by omega), tget_cons, if_pos rfl, low wt.2 (by omega)] at this
          exact absurd this.symm wu.1.2
      subst hij
      have hv : v = w := by simpa [tget] using h j wt.1.1
      subst hv
      have : t = u := ih wt.2 wu.2 (fun k hk => by
        have := h k (by omega)
        rwa [tget_cons, tget_cons, if_neg (by omega), if_neg (by omega)] at this)
      rw [this]

end Sys2Proof.Machine
end

