-- ==== Sys2Proof/Laws/Regs.lean ====
section
/-! SUPPORT. Laws of register words and fields: reading a field after writing it, or after writing another. -/

namespace Sys2Proof.Machine

/-! ### Bit ranges -/

/-- The bits that were written. -/
theorem bitsAt_bitsPut_self (w lo len v : Nat) : bitsAt (bitsPut w lo len v) lo len = v % 2 ^ len := by
  unfold bitsAt bitsPut
  have e : w % 2 ^ lo + v % 2 ^ len * 2 ^ lo + w / 2 ^ (lo + len) * 2 ^ (lo + len) =
      w % 2 ^ lo + 2 ^ lo * (v % 2 ^ len + 2 ^ len * (w / 2 ^ (lo + len))) := by ring
  rw [e, Nat.add_mul_div_left _ _ (by positivity), Nat.div_eq_of_lt (Nat.mod_lt _ (by positivity)), Nat.zero_add,
    Nat.add_mul_mod_self_left, Nat.mod_mod]

/-- Bits below the ones written. -/
theorem bitsAt_bitsPut_low (w lo len v a b : Nat) (h : a + b ≤ lo) : bitsAt (bitsPut w lo len v) a b = bitsAt w a b := by
  unfold bitsAt bitsPut
  obtain ⟨c, rfl⟩ : ∃ c, lo = a + b + c := ⟨lo - (a + b), by omega⟩
  have e : w % 2 ^ (a + b + c) + v % 2 ^ len * 2 ^ (a + b + c) + w / 2 ^ (a + b + c + len) * 2 ^ (a + b + c + len) =
      w % 2 ^ (a + b + c) + 2 ^ a * (2 ^ b * (2 ^ c * (v % 2 ^ len + w / 2 ^ (a + b + c + len) * 2 ^ len))) := by ring
  rw [e, Nat.add_mul_div_left _ _ (by positivity), Nat.add_mul_mod_self_left, Nat.add_assoc a b c, Nat.pow_add 2 a (b + c),
    Nat.mod_mul_right_div_self, Nat.pow_add 2 b c, Nat.mod_mul_right_mod]

/-- Bits above the ones written. -/
theorem bitsAt_bitsPut_high (w lo len v a b : Nat) (h : lo + len ≤ a) : bitsAt (bitsPut w lo len v) a b = bitsAt w a b := by
  unfold bitsAt bitsPut
  obtain ⟨c, rfl⟩ : ∃ c, a = lo + len + c := ⟨a - (lo + len), by omega⟩
  have hlt : w % 2 ^ lo + v % 2 ^ len * 2 ^ lo < 2 ^ (lo + len) := by
    have h1 := Nat.mod_lt w (show 2 ^ lo > 0 by positivity)
    have h2 : v % 2 ^ len + 1 ≤ 2 ^ len := Nat.mod_lt v (show 2 ^ len > 0 by positivity)
    calc w % 2 ^ lo + v % 2 ^ len * 2 ^ lo < 2 ^ lo + v % 2 ^ len * 2 ^ lo := by omega
      _ = (v % 2 ^ len + 1) * 2 ^ lo := by ring
      _ ≤ 2 ^ len * 2 ^ lo := Nat.mul_le_mul_right _ h2
      _ = 2 ^ (lo + len) := by ring
  rw [Nat.pow_add 2 (lo + len) c, ← Nat.div_div_eq_div_mul, ← Nat.div_div_eq_div_mul,
    Nat.add_mul_div_right _ _ (by positivity), Nat.div_eq_of_lt hlt, Nat.zero_add]

/-- Bits apart from the ones written. -/
theorem bitsAt_bitsPut_apart (w lo len v a b : Nat) (h : a + b ≤ lo ∨ lo + len ≤ a) :
    bitsAt (bitsPut w lo len v) a b = bitsAt w a b := by
  rcases h with h | h
  · exact bitsAt_bitsPut_low w lo len v a b h
  · exact bitsAt_bitsPut_high w lo len v a b h

/-- A range within the low bits. -/
theorem bitsAt_mod (w n a b : Nat) (h : a + b ≤ n) : bitsAt (w % 2 ^ n) a b = bitsAt w a b := by
  unfold bitsAt
  obtain ⟨c, rfl⟩ : ∃ c, n = a + b + c := ⟨n - (a + b), by omega⟩
  rw [Nat.add_assoc, Nat.pow_add 2 a (b + c), Nat.mod_mul_right_div_self, Nat.pow_add 2 b c, Nat.mod_mul_right_mod]

/-- A range is below its size. -/
theorem bitsAt_lt (w a b : Nat) : bitsAt w a b < 2 ^ b := Nat.mod_lt _ (by positivity)

/-! ### Register words -/

/-- A word read after a word write. -/
theorem State.word_setWord (s : State) (k j : Nat) (v : BitVec 32) : (s.setWord k v).word j = if j = k then v else s.word j := by
  rw [State.setWord_eq]
  exact tget_tset regReset k j v s.regs

/-- The word written. -/
@[simp] theorem State.word_setWord_self (s : State) (k : Nat) (v : BitVec 32) : (s.setWord k v).word k = v := by
  rw [State.word_setWord, if_pos rfl]

/-- Every other word. -/
theorem State.word_setWord_ne (s : State) {k j : Nat} (h : j ≠ k) (v : BitVec 32) : (s.setWord k v).word j = s.word j := by
  rw [State.word_setWord, if_neg h]

/-- Equal registers hold equal words. -/
theorem State.word_congr {s t : State} (h : s.regs = t.regs) (k : Nat) : s.word k = t.word k := by
  unfold State.word
  rw [h]

/-- Equal registers hold equal fields. -/
theorem State.get_congr {s t : State} (h : s.regs = t.regs) (f : Fld) (i e : Nat) : s.get f i e = t.get f i e := by
  unfold State.get
  dsimp only
  rw [State.word_congr h, State.word_congr h]

/-! ### Register fields -/

/-- The field lies in one word. -/
abbrev Fld.one (f : Fld) : Prop := f.lo + f.len ≤ 32

/-- The field lies in two words. -/
abbrev Fld.two (f : Fld) : Prop := 32 < f.lo + f.len ∧ f.lo + f.len ≤ 64

/-- Read a field of one word. -/
theorem State.get_one {f : Fld} (h : f.one) (s : State) (i e : Nat) : s.get f i e = bitsAt (s.word (f.key i e)).toNat f.lo f.len := by
  unfold State.get
  exact if_pos h

/-- Write a field of one word. -/
theorem State.put_one {f : Fld} (h : f.one) (s : State) (v i e : Nat) :
    s.put f v i e = s.setWord (f.key i e) (BitVec.ofNat 32 (bitsPut (s.word (f.key i e)).toNat f.lo f.len v)) := by
  unfold State.put
  exact if_pos h

/-- A field reads as it was written, cut to its width. -/
theorem State.get_put_one {f : Fld} (h : f.one) (s : State) (v i e : Nat) : (s.put f v i e).get f i e = v % 2 ^ f.len := by
  rw [State.get_one h, State.put_one h, State.word_setWord_self, BitVec.toNat_ofNat, bitsAt_mod _ _ _ _ h, bitsAt_bitsPut_self]

/-- A field of two words reads as it was written, cut to its width. -/
theorem State.get_put_two {f : Fld} (h : f.two) (s : State) (v i e : Nat) : (s.put f v i e).get f i e = v % 2 ^ f.len := by
  obtain ⟨h1, h2⟩ := h
  have n : ¬ f.lo + f.len ≤ 32 := by omega
  unfold State.get State.put
  dsimp only
  rw [if_neg n, if_neg n, State.word_setWord_self, State.word_setWord_ne _ (by omega), State.word_setWord_self,
    BitVec.toNat_ofNat, BitVec.toNat_ofNat]
  have e (w : Nat) : w % 2 ^ 32 + 2 ^ 32 * (w / 2 ^ 32 % 2 ^ 32) = w % 2 ^ 64 := by
    have := Nat.mod_mul (a := 2 ^ 32) (b := 2 ^ 32) (x := w)
    rw [show (2 : Nat) ^ 64 = 2 ^ 32 * 2 ^ 32 by norm_num, this]
  rw [e, bitsAt_mod _ 64 _ _ h2, bitsAt_bitsPut_self]

/-- The words of a field write leave the words at other keys alone. -/
theorem State.word_put_ne (s : State) (f : Fld) (v i e : Nat) {k : Nat} (h : k ≠ f.key i e) (h4 : f.one ∨ k ≠ f.key i e + 4) :
    (s.put f v i e).word k = s.word k := by
  unfold State.put
  dsimp only
  split
  · exact State.word_setWord_ne _ h _
  · rename_i n
    rw [State.word_setWord_ne _ (h4.resolve_left n), State.word_setWord_ne _ h]

/-- A write of one-word field `f` leaves a one-word field `g` at another key alone. -/
theorem State.get_put_key {f g : Fld} (hf : f.one) (hg : g.one) (s : State) (v i e j k : Nat) (h : g.key j k ≠ f.key i e) :
    (s.put f v i e).get g j k = s.get g j k := by
  rw [State.get_one hg, State.get_one hg, State.word_put_ne s f v i e h (.inl hf)]

/-- A write of one-word field `f` leaves other bits of its word alone. -/
theorem State.get_put_bits {f g : Fld} (hf : f.one) (hg : g.one) (s : State) (v i e j k : Nat)
    (hb : g.lo + g.len ≤ f.lo ∨ f.lo + f.len ≤ g.lo) : (s.put f v i e).get g j k = s.get g j k := by
  by_cases h : g.key j k = f.key i e
  · rw [State.get_one hg, State.get_one hg, State.put_one hf, h, State.word_setWord_self, BitVec.toNat_ofNat, bitsAt_mod _ _ _ _ hg,
      bitsAt_bitsPut_apart _ _ _ _ _ _ hb]
  · exact State.get_put_key hf hg s v i e j k h

end Sys2Proof.Machine
end

