-- ==== Sys2Proof/Laws/Reports.lean ====
section
/-! SUPPORT. What reporting does: every operation that sets page events, writes field notes records or sends the packets that
carry them changes nothing else, and clears no page event. -/

namespace Sys2Proof.Machine

/-- Nothing happened. -/
theorem Reports.refl (s : State) : Reports s s := ⟨rfl, fun _ _ => rfl, fun _ _ h => h⟩

/-- One report after another. -/
theorem Reports.trans {s t u : State} (a : Reports s t) (b : Reports t u) : Reports s u where
  rest := by
    have h := b.rest
    rw [a.rest] at h
    exact h
  words k hk := (b.words k hk).trans (a.words k hk)
  events p i h := b.events p i (a.events p i h)

/-- A change of what lies outside the registers. -/
theorem Reports.outside {s t : State} (r : t.regs = s.regs)
    (h : t = { s with regs := t.regs, station := t.station, irq := t.irq, evq := t.evq, hostMsgs := t.hostMsgs, mods := t.mods
                      waiting := t.waiting, pathDrops := t.pathDrops }) : Reports s t :=
  ⟨h, fun k _ => State.word_congr r k, fun p i hi => by rw [State.word_congr r]; exact hi⟩

/-- A word that reporting may change and that is no `PAGE_EVENT`. -/
theorem Reports.setWord (s : State) (k : Nat) (v : BitVec 32) (h : reportKey k = true) (n : k % 2 ^ 32 ≠ 0x14) : Reports s (s.setWord k v) where
  rest := by rw [State.setWord_eq]
  words j hj := State.word_setWord_ne s (by rintro rfl; simp [h] at hj) v
  events p i hi := by
    rw [State.word_setWord_ne]
    · exact hi
    · rintro rfl
      apply n
      simp [pageEvent, regKey]

/-- A field write to such a word. -/
theorem Reports.put (s : State) {f : Fld} (o : f.one) (v i e : Nat) (h : reportKey (f.key i e) = true) (n : f.key i e % 2 ^ 32 ≠ 0x14) :
    Reports s (s.put f v i e) := by
  rw [State.put_one o]
  exact Reports.setWord s _ _ h n

/-- Folding reports. -/
theorem Reports.foldl {α : Type} (f : State → α → State) (l : List α) (h : ∀ s, ∀ a ∈ l, Reports s (f s a)) (s : State) :
    Reports s (l.foldl f s) := by
  induction l generalizing s with
  | nil => exact Reports.refl s
  | cons a l ih =>
    exact (h s a (by simp)).trans (ih (fun s b hb => h s b (by simp [hb])) _)

/-- The station number advances. -/
theorem State.stamp_reports (s : State) : Reports s s.stamp := by
  rw [State.stamp_eq]
  exact Reports.outside rfl rfl

/-- A link module's queue changes. -/
theorem State.setMod_reports (s : State) (m : Nat) (x : ModSt) : Reports s (s.setMod m x) := by
  rw [State.setMod_eq]
  exact Reports.outside rfl rfl

/-- One waiting packet gets its module, or goes on waiting. -/
theorem State.flushWaiting_reports (s : State) : Reports s s.flushWaiting := by
  unfold State.flushWaiting
  have h : ∀ (l : List Waiting) (a : State × List Waiting), Reports s a.1 → Reports s (l.foldl (fun (a : State × List Waiting) w =>
      if a.2.any (fun v => v.entry == w.entry && (v.key == w.key || easeTo v.pkt w.pkt)) then (a.1, a.2 ++ [w])
      else match a.1.mayJoin w with
        | none => (a.1, a.2 ++ [w])
        | some m =>
          let x := a.1.mod m
          (a.1.setMod m { x with queue := x.queue ++ [{ pkt := w.pkt, key := w.key }] }, a.2)) a).1 := by
    intro l
    induction l with
    | nil => intro a h; exact h
    | cons w l ih =>
      intro a h
      rw [List.foldl_cons]
      apply ih
      split
      · exact h
      · split
        · exact h
        · exact h.trans (State.setMod_reports _ _ _)
  have h0 : Reports s ({ s with waiting := [] } : State) := Reports.outside rfl rfl
  refine (h s.waiting ({ s with waiting := [] }, []) h0).trans ?_
  exact Reports.outside rfl rfl

/-- Sending a packet on its route. -/
theorem State.sendOn_reports (s : State) (p : Packet) : Reports s (s.sendOn p) := by
  unfold State.sendOn
  split
  · refine Reports.trans ?_ (State.flushWaiting_reports _)
    exact Reports.outside rfl rfl
  · split
    · exact Reports.outside rfl rfl
    · exact Reports.refl s

/-- Sending a packet of this die's own. -/
theorem State.send_reports (s : State) (p : Packet) : Reports s (s.send p) := State.sendOn_reports s _

/-- A counter of the ERR page. -/
theorem State.count_reports (s : State) {f : Fld} (o : f.one) (n i e : Nat) (h : reportKey (f.key i e) = true) (m : f.key i e % 2 ^ 32 ≠ 0x14) :
    Reports s (s.count f n i e) := Reports.put s o _ i e h m

/-- A saturating counter of the ERR page. -/
theorem State.bump_reports (s : State) {f : Fld} (o : f.one) (n i e : Nat) (h : reportKey (f.key i e) = true) (m : f.key i e % 2 ^ 32 ≠ 0x14) :
    Reports s (s.bump f n i e) := Reports.put s o _ i e h m

/-- A key of the field notes ring. -/
theorem fn_key (e : Nat) (h : e < 2048) : reportKey (Fld.ERR_FN.key 0 e) = true ∧ Fld.ERR_FN.key 0 e % 2 ^ 32 ≠ 0x14 := by
  have k : Fld.ERR_FN.key 0 e = 21474836480 + (8192 + e * 4) := by
    simp [Fld.key, regKey, Fld.ERR_FN]
  have d : (21474836480 + (8192 + e * 4)) / 4294967296 = 5 := by omega
  have m : (21474836480 + (8192 + e * 4)) % 4294967296 = 8192 + e * 4 := by omega
  have p : (2 : Nat) ^ 32 = 4294967296 := by norm_num
  rw [k]
  simp only [reportKey, p, d, m]
  constructor
  · simp
    omega
  · omega

/-- A record enters the field notes ring. -/
theorem State.putNote_reports (s : State) (n : Note) : Reports s (s.putNote n).1 := by
  have ring (t : State) (w : Nat) (b : Bytes) (hb : b.length ≤ 67) : Reports t (t.putBytes Fld.ERR_FN 0 (w % 128 * 16) b) := by
    unfold State.putBytes
    apply Reports.foldl
    intro u j hj
    have hj' : j < b.length / 4 := List.mem_range.mp hj
    have hk := fn_key (w % 128 * 16 + j) (by omega)
    exact Reports.put u (by decide) _ _ _ hk.1 hk.2
  unfold State.putNote
  extract_lets s1 raw wp full s2 s3 s4 s5
  have e1 : Reports s s1 := State.stamp_reports s
  have e2 : Reports s1 s2 := by
    show Reports s1 (if _ then _ else _)
    split
    · exact (State.count_reports s1 (by decide) _ _ _ (by decide) (by decide)).trans (State.bump_reports _ (by decide) _ _ _ (by decide) (by decide))
    · exact Reports.refl s1
  have hr : raw.length ≤ 67 := by
    have lb (n v : Nat) : (leBytes n v).length = n := by
      induction n generalizing v with
      | zero => rfl
      | succ n ih => simp [leBytes, ih]
    have fl (b : Bytes) (n : Nat) : (fit b n).length ≤ n := by simp [fit]
    have f1 := fl n.body 40
    have f2 := fl n.tail 16
    have f3 := fl n.tail 8
    show (_ ++ _ ++ _ : Bytes).length ≤ 67
    simp only [List.length_append, List.length_set, lb]
    split
    · omega
    · simp only [List.length_append, lb]
      omega
  have e3 : Reports s2 s3 := ring s2 wp raw hr
  have e4 : Reports s3 s4 := State.count_reports s3 (by decide) _ _ _ (by decide) (by decide)
  have e5 : Reports s4 s5 := by
    show Reports s4 (if _ then _ else _)
    split
    · exact State.send_reports s4 _
    · exact Reports.refl s4
  exact e1.trans (e2.trans (e3.trans (e4.trans e5)))

/-- Bits of a `PAGE_EVENT` set. -/
theorem State.orEvent_reports (s : State) (page bits : Nat) : Reports s (s.orEvent page bits).1 := by
  unfold State.orEvent
  dsimp only
  constructor
  · rw [State.setWord_eq]
  · intro k hk
    apply State.word_setWord_ne
    rintro rfl
    simp [reportKey, pageEvent, regKey] at hk
  · intro p b hb
    rw [State.word_setWord]
    split
    · rename_i h
      rw [h] at hb
      simp [hb]
    · exact hb

/-- The bits that `orEvent` sets. -/
theorem State.orEvent_sets (s : State) (page bits b : Nat) (h : (BitVec.ofNat 32 bits).getLsbD b = true) :
    ((s.orEvent page bits).1.word (pageEvent page)).getLsbD b = true := by
  unfold State.orEvent
  dsimp only
  rw [State.word_setWord_self]
  simp only [BitVec.getLsbD_or, h, Bool.or_true]

/-- A record that `FN_OVERWRITE` itself causes. -/
theorem State.noteOnly_reports (s : State) (n : Note) : Reports s (s.noteOnly n) := by
  unfold State.noteOnly
  dsimp only
  split
  · exact (State.putNote_reports s n).trans (State.orEvent_reports _ _ _)
  · exact State.putNote_reports s n

/-- An event record waits or is counted as lost. -/
theorem State.waitEvent_reports (s : State) (r : EvRec) : Reports s (s.waitEvent r) := by
  unfold State.waitEvent
  split
  · exact Reports.outside rfl rfl
  · exact State.bump_reports s (by decide) _ _ _ (by decide) (by decide)

/-- An interrupt line rises. -/
theorem State.raiseIrq_reports (s : State) (page : Nat) : Reports s (s.raiseIrq page) := by
  unfold State.raiseIrq
  split
  · exact Reports.refl s
  · exact Reports.outside rfl rfl

/-- The destinations of a group but the field notes. -/
theorem State.signalPlain_reports (s : State) (page inst dest : Nat) : Reports s (s.signalPlain page inst dest) := by
  unfold State.signalPlain
  extract_lets s1 s2
  have e1 : Reports s s1 := by
    show Reports s (if _ then _ else _)
    split
    · exact State.waitEvent_reports s _
    · exact Reports.refl s
  have e2 : Reports s1 s2 := by
    show Reports s1 (if _ then _ else _)
    split
    · exact State.raiseIrq_reports s1 page
    · exact Reports.refl s1
  refine e1.trans (e2.trans ?_)
  split
  · exact Reports.outside rfl rfl
  · exact Reports.refl s2

/-- The loss of a record. -/
theorem State.noteLost_reports (s : State) : Reports s s.noteLost := by
  unfold State.noteLost
  dsimp only
  split
  · refine (State.orEvent_reports s 5 1).trans ?_
    split
    · exact (State.signalPlain_reports _ _ _ _).trans (State.noteOnly_reports _ _)
    · exact State.signalPlain_reports _ _ _ _
  · exact State.orEvent_reports s 5 1

/-- A field notes record. -/
theorem State.note_reports (s : State) (n : Note) : Reports s (s.note n) := by
  unfold State.note
  dsimp only
  split
  · exact (State.putNote_reports s n).trans (State.noteLost_reports _)
  · exact State.putNote_reports s n

/-- A group is signalled. -/
theorem State.signal_reports (s : State) (page inst dest : Nat) : Reports s (s.signal page inst dest) := by
  unfold State.signal
  dsimp only
  split
  · exact (State.signalPlain_reports s page inst dest).trans (State.note_reports _ _)
  · exact State.signalPlain_reports s page inst dest

/-- What follows the setting of bits. -/
theorem State.raise_after (s : State) (page bits inst : Nat) : Reports (s.orEvent page bits).1 (s.raise page bits inst) := by
  unfold State.raise
  extract_lets r s1
  have e1 : Reports r.1 s1 := by
    show Reports r.1 (if _ then _ else _)
    split
    · exact State.signal_reports _ _ _ _
    · exact Reports.refl _
  split
  · exact e1.trans (State.signal_reports _ _ _ _)
  · exact e1

/-- Page events are raised. -/
theorem State.raise_reports (s : State) (page bits inst : Nat) : Reports s (s.raise page bits inst) :=
  (State.orEvent_reports s page bits).trans (State.raise_after s page bits inst)

/-- A page event is raised: nothing else happens. -/
theorem State.event_reports (s : State) (f : Fld) (u inst : Nat) : Reports s (s.event f u inst) := State.raise_reports s _ _ _

/-- A page event that was raised is set. -/
theorem State.event_sets (s : State) (f : Fld) (u inst : Nat) (h : f.lo < 32) :
    ((s.event f u inst).word (pageEvent (f.key u 0 / 2 ^ 32))).getLsbD f.lo = true := by
  apply (State.raise_after s _ _ inst).events
  apply State.orEvent_sets
  rw [BitVec.getLsbD_ofNat, Nat.testBit_two_pow_self]
  simp [h]

/-- A one-word field outside the words that reporting may change. -/
theorem Reports.get {s t : State} (r : Reports s t) {f : Fld} (o : f.one) (i e : Nat) (h : reportKey (f.key i e) = false) :
    t.get f i e = s.get f i e := by
  rw [State.get_one o, State.get_one o, r.words _ h]

end Sys2Proof.Machine
end

