-- ==== Sys2Proof/Laws/Memory.lean ====
section
/-! SUPPORT. Memory: read after write, what each operation leaves alone, and that every one of them keeps the canonical
form. -/

namespace Sys2Proof.Machine

/-- A run of bytes entered in a memory. -/
def putRun (at_ : Nat) (b : Bytes) (m : Tbl Byte) : Tbl Byte :=
  ((List.range b.length).zip b).foldl (fun m e => tset blankByte (at_ + e.1) e.2 m) m

/-- Entering a run keeps the canonical form. -/
theorem putRun_wf (at_ : Nat) (b : Bytes) {m : Tbl Byte} (h : Memory.wf m = true) : Memory.wf (putRun at_ b m) = true := by
  unfold putRun
  generalize (List.range b.length).zip b = l
  induction l generalizing m with
  | nil => exact h
  | cons e l ih => exact ih (twf_tset _ _ _ h)

/-- A key that no pair of the run names keeps its byte. -/
theorem tget_foldl_other (at_ k : Nat) (l : List (Nat × Byte)) (m : Tbl Byte) (h : ∀ e ∈ l, at_ + e.1 ≠ k) :
    tget blankByte k (l.foldl (fun m e => tset blankByte (at_ + e.1) e.2 m) m) = tget blankByte k m := by
  induction l generalizing m with
  | nil => rfl
  | cons e l ih =>
    rw [List.foldl_cons, ih _ (fun x hx => h x (List.mem_cons_of_mem _ hx)), tget_tset_ne _ (Ne.symm (h e List.mem_cons_self))]

/-- A run gets one byte longer at its end. -/
theorem putRun_snoc (at_ : Nat) (b : Bytes) (x : Byte) (m : Tbl Byte) :
    putRun at_ (b ++ [x]) m = tset blankByte (at_ + b.length) x (putRun at_ b m) := by
  unfold putRun
  rw [List.length_append, List.length_singleton, List.range_succ, List.zip_append (by simp)]
  simp

/-- Reading one byte after a run was entered. -/
theorem tget_putRun (at_ k : Nat) (b : Bytes) (m : Tbl Byte) :
    tget blankByte k (putRun at_ b m) = if at_ ≤ k ∧ k < at_ + b.length then b.getD (k - at_) 0 else tget blankByte k m := by
  induction b using List.reverseRecOn with
  | nil => simp [putRun]
  | append_singleton b x ih =>
    rw [putRun_snoc, tget_tset, ih, List.length_append, List.length_singleton]
    by_cases e : k = at_ + b.length
    · subst e
      rw [if_pos rfl, if_pos (by omega)]
      simp
    · rw [if_neg e]
      by_cases g : at_ ≤ k ∧ k < at_ + b.length
      · rw [if_pos g, if_pos (by omega)]
        have : k - at_ < b.length := by omega
        simp [List.getD_eq_getElem?_getD, List.getElem?_append_left this]
      · rw [if_neg g, if_neg (by omega)]

/-! ### Core and field memory -/

/-- Storing bytes changes memory alone. -/
theorem State.storeBytes_eq (s : State) (addr : Nat) (b : Bytes) : s.storeBytes addr b = { s with mem := putRun addr b s.mem } := rfl

/-- Storing bytes keeps the canonical form. -/
theorem State.storeBytes_wf {s : State} (addr : Nat) (b : Bytes) (h : Memory.wf s.mem = true) : Memory.wf (s.storeBytes addr b).mem = true :=
  putRun_wf addr b h

/-- Read after store. -/
theorem State.byteAt_storeBytes (s : State) (addr k : Nat) (b : Bytes) :
    (s.storeBytes addr b).byteAt k = if addr ≤ k ∧ k < addr + b.length then b.getD (k - addr) 0 else s.byteAt k :=
  tget_putRun addr k b s.mem

/-- Zeroing a granule keeps the canonical form. -/
theorem State.zeroGranule_wf {s : State} (u g : Nat) (h : Memory.wf s.mem = true) : Memory.wf (s.zeroGranule u g).mem = true := by
  unfold State.zeroGranule Memory.wf
  dsimp only
  exact twf_tkeep _ _ h

/-- A zeroed granule reads as zero, and nothing else changed. -/
theorem State.byteAt_zeroGranule (s : State) (u g k : Nat) :
    (s.zeroGranule u g).byteAt k =
      if unitBase u + g * granSize u ≤ k ∧ k < unitBase u + g * granSize u + granSize u then 0 else s.byteAt k := by
  unfold State.byteAt State.zeroGranule
  simp only [tget_tkeep, Bool.or_eq_true, decide_eq_true_eq]
  by_cases h : unitBase u + g * granSize u ≤ k ∧ k < unitBase u + g * granSize u + granSize u
  · rw [if_pos h, if_neg (by omega)]; rfl
  · rw [if_neg h, if_pos (by omega)]

/-- After reset memory lists nothing. -/
theorem State.reset_wf : Memory.wf State.reset.mem = true := rfl

/-! ### Every operation keeps the canonical form -/

/-- Where memory was in canonical form, it still is. -/
def KeepsForm (s t : State) : Prop := Memory.wf s.mem = true → Memory.wf t.mem = true

theorem KeepsForm.refl (s : State) : KeepsForm s s := id
theorem KeepsForm.trans {s t u : State} (a : KeepsForm s t) (b : KeepsForm t u) : KeepsForm s u := b ∘ a
theorem KeepsForm.of_eq {s t : State} (e : t.mem = s.mem) : KeepsForm s t := fun h => by rw [e]; exact h
theorem KeepsForm.scrubCore {s t : State} (h : KeepsForm s t) (n : Nat) : KeepsForm s (t.scrubCore n) := by
  intro k
  unfold State.scrubCore Memory.wf
  dsimp only
  exact twf_tkeep _ _ (h k)
theorem KeepsForm.lastCe {s t : State} (h : KeepsForm s t) (x : Option LastCe) : KeepsForm s { t with lastCe := x } := h
theorem KeepsForm.fixups {s t : State} (h : KeepsForm s t) (x : List Nat) : KeepsForm s { t with fixups := x } := h
theorem KeepsForm.free {s t : State} (h : KeepsForm s t) (x : Nat) : KeepsForm s { t with free := x } := h
theorem KeepsForm.retiring {s t : State} (h : KeepsForm s t) (n p x : Nat) : KeepsForm s (t.retiring n p x) := h
theorem KeepsForm.retired {s t : State} (h : KeepsForm s t) (n : Nat) : KeepsForm s (t.retired n) := h
theorem KeepsForm.put {s t : State} (h : KeepsForm s t) (f : Fld) (v i e : Nat) : KeepsForm s (t.put f v i e) := by
  simpa [KeepsForm] using h
theorem KeepsForm.bump {s t : State} (h : KeepsForm s t) (f : Fld) (n i e : Nat) : KeepsForm s (t.bump f n i e) := by
  simpa [KeepsForm] using h
theorem KeepsForm.setGran {s t : State} (h : KeepsForm s t) (u g w : Nat) : KeepsForm s (t.setGran u g w) := by
  simpa [KeepsForm, State.setGran] using h
theorem Reports.keepsForm {s t : State} (r : Reports s t) : KeepsForm s t := KeepsForm.of_eq (Eq.trans (congrArg State.mem r.rest) rfl)
theorem KeepsForm.event {s t : State} (h : KeepsForm s t) (f : Fld) (u i : Nat) : KeepsForm s (t.event f u i) :=
  h.trans (State.event_reports t f u i).keepsForm
theorem KeepsForm.note {s t : State} (h : KeepsForm s t) (n : Note) : KeepsForm s (t.note n) := h.trans (State.note_reports t n).keepsForm

/-- Folding steps that keep the form. -/
theorem KeepsForm.foldl {α : Type} (f : State → α → State) (l : List α) (h : ∀ s a, KeepsForm s (f s a)) (s : State) :
    KeepsForm s (l.foldl f s) := by
  induction l generalizing s with
  | nil => exact KeepsForm.refl s
  | cons a l ih => exact (h s a).trans (ih _)

theorem KeepsForm.ite {s t u : State} {c : Prop} [Decidable c] (a : KeepsForm s t) (b : KeepsForm s u) : KeepsForm s (if c then t else u) := by
  split
  · exact a
  · exact b

theorem State.noteUe_keeps {s t : State} (h : KeepsForm s t) (w : Who) (unit cls loc off : Nat) : KeepsForm s (t.noteUe w unit cls loc off) := by
  unfold State.noteUe
  exact KeepsForm.note (KeepsForm.event h _ _ _) _

theorem State.noteCe_keeps {s t : State} (h : KeepsForm s t) (w : Who) (unit cls loc off : Nat) : KeepsForm s (t.noteCe w unit cls loc off) := by
  have g : KeepsForm s (t.note (memNote w t.sysId unit (2 * cls) loc off)) := KeepsForm.note h _
  unfold State.noteCe
  dsimp only
  split
  · exact KeepsForm.lastCe g _
  · exact KeepsForm.ite (KeepsForm.bump h _ _ _ _) (KeepsForm.lastCe g _)

theorem State.platAdd_keeps {s t : State} (h : KeepsForm s t) (e : Nat) : KeepsForm s (t.platAdd e) := by
  unfold State.platAdd
  extract_lets n r s1 s2
  have h1 : KeepsForm s s1 := KeepsForm.put (KeepsForm.put h _ _ _ _) _ _ _ _
  have h2 : KeepsForm s s2 := KeepsForm.put (KeepsForm.put h1 _ _ _ _) _ _ _ _
  exact KeepsForm.ite (KeepsForm.event h2 _ _ _) (KeepsForm.event h _ _ _)

/-- A report inside another operation keeps the form. -/
theorem KeepsForm.then {s t : State} {f : State → State} (h : KeepsForm s t) (k : ∀ u, KeepsForm u (f u)) : KeepsForm s (f t) := h.trans (k t)

theorem State.makeHole_keeps {s t : State} {rec : State → State} (k : ∀ u, KeepsForm u (rec u)) (h : KeepsForm s t) (n phys trig : Nat) :
    KeepsForm s (t.makeHole n phys trig rec) := by
  unfold State.makeHole
  extract_lets s0 s1 s2 s3 s4
  have h1 : KeepsForm s s1 := KeepsForm.put (KeepsForm.scrubCore h n) _ _ _ _
  have h2 : KeepsForm s s2 := KeepsForm.trans h1 (KeepsForm.foldl _ _ (fun u _ => KeepsForm.setGran (KeepsForm.refl u) _ _ _) _)
  have h3 : KeepsForm s s3 := KeepsForm.put h2 _ _ _ _
  have h4 : KeepsForm s s4 := KeepsForm.event h3 _ _ _
  exact KeepsForm.note (h4.then k) _

theorem State.recoveryFailed_keeps {s t : State} {seen rec : State → State} (e : ∀ u, KeepsForm u (seen u)) (k : ∀ u, KeepsForm u (rec u))
    (h : KeepsForm s t) (cl phys : Nat) : KeepsForm s (t.recoveryFailed cl phys seen rec) := by
  unfold State.recoveryFailed
  extract_lets i n s1 s2
  have h1 : KeepsForm s s1 := KeepsForm.put h _ _ _ _
  have h2 : KeepsForm s s2 := (State.platAdd_keeps h1 _).then e
  have h3 : KeepsForm s (s2.retired n) := KeepsForm.retired h2 _
  exact State.makeHole_keeps k h3 _ _ _

theorem State.retireTrigger_keeps {s t : State} {seen rec : State → State} (e : ∀ u, KeepsForm u (seen u)) (k : ∀ u, KeepsForm u (rec u))
    (h : KeepsForm s t) (cl phys trig : Nat) : KeepsForm s (t.retireTrigger cl phys trig seen rec) := by
  unfold State.retireTrigger
  extract_lets i n s1 s2 s3 u1 u2 u3
  split
  · have h1 : KeepsForm s s1 := KeepsForm.put (KeepsForm.put h _ _ _ _) _ _ _ _
    have h2 : KeepsForm s s2 := KeepsForm.retiring h1 _ _ _
    have h3 : KeepsForm s s3 := KeepsForm.event ((State.platAdd_keeps h2 _).then e) _ _ _
    exact KeepsForm.note (h3.then k) _
  · have h1 : KeepsForm s u1 := KeepsForm.put (KeepsForm.put h _ _ _ _) _ _ _ _
    have h2 : KeepsForm s u2 := KeepsForm.put h1 _ _ _ _
    have h3 : KeepsForm s u3 := KeepsForm.event ((State.platAdd_keeps h2 _).then e) _ _ _
    exact KeepsForm.note (h3.then k) _
  · exact State.recoveryFailed_keeps e k h cl phys
  · exact (h.then e).then k

theorem State.countCore_keeps {s t : State} {seen rec : State → State} (e : ∀ u, KeepsForm u (seen u)) (k : ∀ u, KeepsForm u (rec u))
    (h : KeepsForm s t) (n : Nat) (ue : Bool) : KeepsForm s (t.countCore n ue seen rec) := by
  unfold State.countCore
  extract_lets i cl s1 limit have_
  have h1 : KeepsForm s s1 := KeepsForm.ite (KeepsForm.bump h _ _ _ _) (KeepsForm.bump h _ _ _ _)
  exact KeepsForm.ite (State.retireTrigger_keeps e k h1 _ _ _) ((h1.then e).then k)

theorem State.coreError_keeps {s t : State} (h : KeepsForm s t) (w : Who) (n off cls : Nat) (opbuf ue : Bool) :
    KeepsForm s (t.coreError w n off cls opbuf ue) := by
  unfold State.coreError
  extract_lets unit s1 s2
  have h1 : KeepsForm s s1 := KeepsForm.bump h _ _ _ _
  have h2 : KeepsForm s s2 := KeepsForm.ite h1 (KeepsForm.put (KeepsForm.put (KeepsForm.put h1 _ _ _ _) _ _ _ _) _ _ _ _)
  exact KeepsForm.ite
    (State.countCore_keeps (fun u => KeepsForm.event (KeepsForm.refl u) _ _ _) (fun u => KeepsForm.note (KeepsForm.refl u) _) h2 _ _)
    (State.countCore_keeps (fun u => KeepsForm.refl u) (fun u => State.noteCe_keeps (KeepsForm.refl u) _ _ _ _ _) (KeepsForm.bump h _ _ _ _) _ _)

theorem State.sliceError_keeps {s t : State} (h : KeepsForm s t) (w : Who) (sl off cls : Nat) (ue : Bool) :
    KeepsForm s (t.sliceError w sl off cls ue) := by
  unfold State.sliceError
  extract_lets s1 s2 before s3 limit s4
  have h1 : KeepsForm s s1 := KeepsForm.bump h _ _ _ _
  have h2 : KeepsForm s s2 := KeepsForm.ite h1 (KeepsForm.put (KeepsForm.put (KeepsForm.put h1 _ _ _ _) _ _ _ _) _ _ _ _)
  have h3 : KeepsForm s s3 := KeepsForm.bump h _ _ _ _
  have h4 : KeepsForm s s4 := KeepsForm.ite (KeepsForm.event h3 _ _ _) h3
  exact KeepsForm.ite (KeepsForm.note (KeepsForm.event (KeepsForm.event h2 _ _ _) _ _ _) _) (State.noteCe_keeps h4 _ _ _ _ _)

theorem State.memError_keeps {s t : State} (h : KeepsForm s t) (w : Who) (addr : Nat) (ue : Bool) : KeepsForm s (t.memError w addr ue) := by
  unfold State.memError
  split
  · exact h
  · exact KeepsForm.ite (State.coreError_keeps h _ _ _ _ _ _) (State.sliceError_keeps h _ _ _ _ _)

/-- Reading a protection unit keeps the form. -/
theorem State.readUnit_keeps (s : State) (w : Who) (word : Nat) : KeepsForm s (s.readUnit w word).state := by
  have e (b : Bool) (a : Nat) := State.memError_keeps (KeepsForm.refl s) w a b
  have g (b : Bool) (a : Nat) := State.memError_keeps (KeepsForm.free (KeepsForm.refl s) (s.free + 1)) w a b
  unfold State.readUnit
  extract_lets u n fix addr ce o s'
  split
  · exact KeepsForm.refl s
  · split
    · exact KeepsForm.fixups (e false _) _
    · split
      · exact e true _
      · split
        · exact KeepsForm.fixups (g false _) _
        · split
          · exact KeepsForm.free (KeepsForm.refl s) _
          · exact g true _

theorem State.unitStep_keeps (w : Who) (skip : State → Nat → Bool) (a : State × Nat × List Nat) (h : Nat) :
    KeepsForm a.1 (State.unitStep w skip a h).1 := by
  unfold State.unitStep
  split
  · exact KeepsForm.refl _
  · exact State.readUnit_keeps _ _ _

/-- Going through protection units keeps the form. -/
theorem unitSteps_keeps (w : Who) (skip : State → Nat → Bool) (l : List Nat) (a : State × Nat × List Nat) :
    KeepsForm a.1 (l.foldl (State.unitStep w skip) a).1 := by
  induction l generalizing a with
  | nil => exact KeepsForm.refl _
  | cons x l ih => exact (State.unitStep_keeps w skip a x).trans (ih _)

theorem State.drew_keeps (s : State) (bad : List Nat) : KeepsForm s (s.drew bad) := by
  unfold State.drew
  split
  · exact KeepsForm.refl s
  · exact KeepsForm.refl s

/-- Decoding a line keeps the form. -/
theorem State.decodeLine_keeps (s : State) (w : Who) (addr n : Nat) : KeepsForm s (s.decodeLine w addr n).state := by
  have a : KeepsForm s (s.decodeUnits w (wordsOf addr n)).1 := unitSteps_keeps w _ _ (s, 0, [])
  unfold State.decodeLine
  dsimp only
  split
  · exact a
  · exact a.trans (State.drew_keeps _ _)

theorem State.aperture_keeps (s : State) (addr : Nat) : KeepsForm s (s.aperture addr).1 := by
  unfold State.aperture State.apertureRefused
  split
  · dsimp only
    split
    · exact (State.raise_reports s _ _ _).keepsForm
    · exact KeepsForm.refl s
  · exact KeepsForm.bump (KeepsForm.refl s) _ _ _ _

theorem KeepsForm.iteRd {s : State} {c : Prop} [Decidable c] {x y : Rd} (a : KeepsForm s x.state) (b : KeepsForm s y.state) :
    KeepsForm s (if c then x else y).state := by
  split
  · exact a
  · exact b

theorem KeepsForm.rd {s t : State} (h : KeepsForm s t) (st : Nat) (b : Bytes) : KeepsForm s (Rd.mk t st b).state := h

/-- Reading a line keeps the form. -/
theorem State.readLine_keeps (s : State) (w : Who) (addr n : Nat) : KeepsForm s (s.readLine w addr n).state := by
  unfold State.readLine
  extract_lets c
  exact KeepsForm.iteRd ((State.aperture_keeps s addr).rd _ _) (KeepsForm.iteRd ((KeepsForm.refl s).rd _ _) (State.decodeLine_keeps s w addr n))

/-- Folding steps on a state and a result keeps the form. -/
theorem KeepsForm.foldl_fst {α β : Type} (f : State × β → α → State × β) (l : List α) (h : ∀ a x, KeepsForm a.1 (f a x).1) (a : State × β) :
    KeepsForm a.1 (l.foldl f a).1 := by
  induction l generalizing a with
  | nil => exact KeepsForm.refl _
  | cons x l ih => exact (h a x).trans (ih _)

/-- Reading memory keeps the form. -/
theorem State.readMem_keeps (s : State) (w : Who) (addr n : Nat) : KeepsForm s (s.readMem w addr n).state := by
  unfold State.readMem
  generalize linesOf addr n = l
  have gen : ∀ (l : List (Nat × Nat)) (a : Rd), KeepsForm a.state (l.foldl (fun (a : Rd) c =>
      if a.status ≠ 0 then a else ⟨(a.state.readLine w c.1 c.2).state, (a.state.readLine w c.1 c.2).status,
        a.bytes ++ (a.state.readLine w c.1 c.2).bytes⟩) a).state := by
    intro l
    induction l with
    | nil => exact fun a => KeepsForm.refl _
    | cons c l ih =>
      intro a
      rw [List.foldl_cons]
      refine KeepsForm.trans ?_ (ih _)
      split
      · exact KeepsForm.refl _
      · exact State.readLine_keeps _ _ _ _
  exact gen l ⟨s, 0, []⟩

/-! ### Writing -/

/-- Spoiling a unit keeps the form. -/
theorem State.spoilUnit_keeps (s : State) (x : Nat) : KeepsForm s (s.spoilUnit x) := by
  intro h
  unfold State.spoilUnit
  exact State.storeBytes_wf _ _ h

theorem State.setFlips_keeps (s : State) (k n : Nat) : KeepsForm s (s.setFlips k n) := KeepsForm.refl s

/-- Making the units of a write ready keeps the form. -/
theorem State.openUnits_keeps (s : State) (w : Who) (words : List Nat) (covers : Nat → Bool) : KeepsForm s (s.openUnits w words covers).1 := by
  unfold State.openUnits
  dsimp only
  split
  · exact unitSteps_keeps w _ _ (s, 0, [])
  · refine KeepsForm.trans (unitSteps_keeps w _ _ (s, 0, [])) (KeepsForm.trans (KeepsForm.foldl _ _ (fun s h => ?_) _) (KeepsForm.foldl _ _ State.spoilUnit_keeps _))
    exact KeepsForm.foldl (fun (s : State) i => s.setFlips (h + i) 0) _ (fun s i => State.setFlips_keeps s _ _) s

/-- Writing up to a line keeps the form. -/
theorem State.writeLine_keeps (s : State) (w : Who) (addr : Nat) (b : Bytes) : KeepsForm s (s.writeLine w addr b).1 := by
  unfold State.writeLine
  dsimp only
  split
  · exact State.aperture_keeps s addr
  · split
    · exact KeepsForm.refl s
    · split
      · exact State.openUnits_keeps _ _ _ _
      · exact fun h => State.storeBytes_wf _ _ (State.openUnits_keeps s w _ _ h)

/-- Writing memory keeps the canonical form. -/
theorem State.writeMem_keeps (s : State) (w : Who) (addr : Nat) (b : Bytes) : KeepsForm s (s.writeMem w addr b).1 := by
  unfold State.writeMem
  exact KeepsForm.foldl_fst (fun (a : State × Nat) (c : Nat × Nat) => if a.2 ≠ 0 then a else a.1.writeLine w c.1 (sub b (c.1 - addr) c.2)) _ (fun a c => by
    split
    · exact KeepsForm.refl _
    · exact State.writeLine_keeps _ _ _ _) (s, 0)

end Sys2Proof.Machine
end

