-- ==== Sys2Proof/WellFormed.lean ====
section
/-! DEFINITION. Well-formed commands: every operand names a unit of the die or fits the field that carries it (R7, R41, R48, R68,
R362). A command that is not well-formed cannot reach the die. -/

namespace Sys2Proof

/-- The operand is one of `n` numbers. -/
def idxOk (n i : Nat) : Bool := decide (i < n)

/-- The access sizes of R52. -/
def sizeWf (n : Nat) : Bool := n == 4 || n == 8

/-- An accessor names a domain that exists (R53). -/
def Acc.ok (a : Acc) : Bool := decide (a.dom < 256) && (!a.loc || a.cls == .mp)

/-- A packet of type `t` whose `LEN` counts its payload (R362, R364). -/
def packetOk (t : Nat) (p : Packet) : Bool := p.typ == t && decide (p.data.length ≤ 4096) && p.len == p.data.length

/-- A transaction of the AVSBus is for VCORE or VSRAM (R467). -/
def RailFault.ok : RailFault → Bool
  | .late => true
  | .noAck rail => idxOk 2 rail
  | .badStatus rail => idxOk 2 rail

/-- Every operand of the command is in range. -/
def Instr.wf (i : Instr) : Bool :=
  match i with
  | .coldPowerUp => true
  | .warmResetByPin rail => rail.all (idxOk 4)
  | .rstNDeassert _ _ diepos => idxOk 16 diepos
  | .vaonLoss => true
  | .vsramBelowVcore => true
  | .referenceGlitch => true
  | .referenceLost => true
  | .referenceReturn => true
  | .pllLost island => idxOk 6 island
  | .secondReferenceSeen => true
  | .thermalTrip sensor => idxOk 96 sensor
  | .aonPhase => true
  | .fusePhase => true
  | .bist _ _ _ => true
  | .reconcile => true
  | .sideband => true
  | .fetchQspi _ => true
  | .fetchBootLink => true
  | .verify => true
  | .commitPhase => true
  | .writeRecord => true
  | .relayHoldExpiry => true
  | .releaseCompute => true
  | .cadastreWritten => true
  | .release a => a.ok
  | .refetch a => a.ok
  | .warmReset a => a.ok
  | .registerWrite a addr size value => a.ok && idxOk (2 ^ 32) addr && sizeWf size && idxOk (2 ^ (8 * size)) value
  | .rcRead a addr size => a.ok && idxOk (2 ^ 32) addr && sizeWf size
  | .stagedWrite a addr size value => a.ok && idxOk (2 ^ 32) addr && sizeWf size && idxOk (2 ^ (8 * size)) value
  | .commit a page => a.ok && idxOk 0x400 page
  | .discard a page => a.ok && idxOk 0x400 page
  | .instanceApply page inst => idxOk 0x400 page && idxOk (2 ^ 17) inst
  | .eventMessageSend => true
  | .eventRecordPost => true
  | .nop c => idxOk 64 c
  | .endInstr c => idxOk 64 c
  | .kernelCompletion c => idxOk 64 c
  | .loop c => idxOk 64 c
  | .jump c => idxOk 64 c
  | .fence c => idxOk 64 c
  | .mmaMultiplyAdd c => idxOk 64 c
  | .mmaL1Distance c => idxOk 64 c
  | .mmaSquaredDifference c => idxOk 64 c
  | .mmaMaxPlus c => idxOk 64 c
  | .mmaMinPlus c => idxOk 64 c
  | .mmaMaxTimes c => idxOk 64 c
  | .mmaEqualityCount c => idxOk 64 c
  | .residencyDeadlock c => idxOk 64 c
  | .opld c => idxOk 64 c
  | .loadComplete c => idxOk 64 c
  | .opfree c => idxOk 64 c
  | .halfReleaseEnd c half => idxOk 64 c && idxOk 4 half
  | .pdset c => idxOk 64 c
  | .mskset c => idxOk 64 c
  | .wtset c => idxOk 64 c
  | .accClaim c => idxOk 64 c
  | .fillComplete c u => idxOk 64 c && idxOk 2 u
  | .feedEnd c u => idxOk 64 c && idxOk 64 u
  | .parcelFinal c u => idxOk 64 c && idxOk 64 u
  | .spillDrainComplete c u => idxOk 64 c && idxOk 64 u
  | .coreTestEnter a c => a.ok && idxOk 64 c
  | .coreTestStart a c => a.ok && idxOk 64 c
  | .coreTestLeave a c => a.ok && idxOk 64 c
  | .valuAdd c _ => idxOk 64 c
  | .valuSub c _ => idxOk 64 c
  | .valuMul c _ => idxOk 64 c
  | .valuFma c _ => idxOk 64 c
  | .valuFnma c _ => idxOk 64 c
  | .valuMax c _ => idxOk 64 c
  | .valuMin c _ => idxOk 64 c
  | .valuAbs c _ => idxOk 64 c
  | .valuNeg c _ => idxOk 64 c
  | .valuMov c _ => idxOk 64 c
  | .valuSel c _ => idxOk 64 c
  | .valuI2f c _ => idxOk 64 c
  | .valuF2i c _ => idxOk 64 c
  | .valuWiden c _ => idxOk 64 c
  | .valuNarrow c _ => idxOk 64 c
  | .valuAnd c _ => idxOk 64 c
  | .valuOr c _ => idxOk 64 c
  | .valuXor c _ => idxOk 64 c
  | .valuNot c _ => idxOk 64 c
  | .valuShl c _ => idxOk 64 c
  | .valuShr c _ => idxOk 64 c
  | .valuSar c _ => idxOk 64 c
  | .valuSplit c _ => idxOk 64 c
  | .vsfuRcp c _ => idxOk 64 c
  | .vsfuRsq c _ => idxOk 64 c
  | .vsfuSqrt c _ => idxOk 64 c
  | .vsfuDiv c _ => idxOk 64 c
  | .vsfuExp2 c _ => idxOk 64 c
  | .vsfuLog2 c _ => idxOk 64 c
  | .vsfuExp c _ => idxOk 64 c
  | .vsfuLog c _ => idxOk 64 c
  | .vsfuTanh c _ => idxOk 64 c
  | .vsfuSigmoid c _ => idxOk 64 c
  | .vsfuSilu c _ => idxOk 64 c
  | .vsfuGelu c _ => idxOk 64 c
  | .vsfuErf c _ => idxOk 64 c
  | .vsfuSin c _ => idxOk 64 c
  | .vsfuCos c _ => idxOk 64 c
  | .vcmpEq c _ => idxOk 64 c
  | .vcmpNe c _ => idxOk 64 c
  | .vcmpLt c _ => idxOk 64 c
  | .vcmpLe c _ => idxOk 64 c
  | .vcmpGt c _ => idxOk 64 c
  | .vcmpGe c _ => idxOk 64 c
  | .vcmpUnordered c _ => idxOk 64 c
  | .vredSum c _ => idxOk 64 c
  | .vredMax c _ => idxOk 64 c
  | .vredMin c _ => idxOk 64 c
  | .vredAnd c _ => idxOk 64 c
  | .vredOr c _ => idxOk 64 c
  | .vredXor c _ => idxOk 64 c
  | .vredPopc c _ => idxOk 64 c
  | .vredPall c _ => idxOk 64 c
  | .vredPany c _ => idxOk 64 c
  | .vredPpar c _ => idxOk 64 c
  | .vredPcnt c _ => idxOk 64 c
  | .vperm c _ => idxOk 64 c
  | .vldUnitStride c _ => idxOk 64 c
  | .vldStrided c _ => idxOk 64 c
  | .vldGather c _ => idxOk 64 c
  | .vldRepeat c _ => idxOk 64 c
  | .vldBroadcast c _ => idxOk 64 c
  | .vstUnitStride c _ => idxOk 64 c
  | .vstStrided c _ => idxOk 64 c
  | .vstScatter c _ => idxOk 64 c
  | .vdrn c => idxOk 64 c
  | .vcstDirect c _ => idxOk 64 c
  | .vcstOutput c => idxOk 64 c
  | .veend c => idxOk 64 c
  | .vseti c _ => idxOk 64 c
  | .vcaps c _ => idxOk 64 c
  | .vpop c _ => idxOk 64 c
  | .vpfirst c _ => idxOk 64 c
  | .epilogueStart c => idxOk 64 c
  | .regionCloseEnd unit head => idxOk 72 unit && idxOk 64 head
  | .scrubComplete unit gran => idxOk 72 unit && idxOk 64 gran
  | .correctedWriteback word => idxOk (2 ^ 59) word
  | .patrolPeriod => true
  | .scrubHoldWrite a _ => a.ok
  | .move c => idxOk 64 c
  | .mwait c => idxOk 64 c
  | .moveNop k => idxOk 2048 k
  | .moveCopy k => idxOk 2048 k
  | .moveFill k => idxOk 2048 k
  | .moveMap k => idxOk 2048 k
  | .moveUnmap k => idxOk 2048 k
  | .unmapComplete k => idxOk 2048 k
  | .moveTouch k => idxOk 2048 k
  | .moveComplete k => idxOk 2048 k
  | .walkComplete dom va cluster => idxOk 256 dom && idxOk (2 ^ 42) va && idxOk 9 cluster
  | .pendingZeroWriteDone frame _ => idxOk (2 ^ 30) frame
  | .frameScrub frame => idxOk (2 ^ 30) frame
  | .doorbell a q tail => a.ok && idxOk 65536 q && idxOk 65536 tail
  | .itemNop q => idxOk 65536 q
  | .itemKernel q => idxOk 65536 q
  | .itemMove q => idxOk 65536 q
  | .itemRalloc q => idxOk 65536 q
  | .itemRfree q => idxOk 65536 q
  | .rgbegin q => idxOk 65536 q
  | .rgend q => idxOk 65536 q
  | .placementRetry q => idxOk 65536 q
  | .placeLimitExpiry q => idxOk 65536 q
  | .kernelTimeout _ => true
  | .barrierBroken _ => true
  | .kernelEnd _ => true
  | .qEnable a q => a.ok && idxOk 65536 q
  | .qDisable a q => a.ok && idxOk 65536 q
  | .qResume a q => a.ok && idxOk 65536 q
  | .qFlush a q => a.ok && idxOk 65536 q
  | .cheadWrite a q value => a.ok && idxOk 65536 q && idxOk 65536 value
  | .domActivate a dom kind => a.ok && idxOk 256 dom && idxOk 4 kind
  | .domTearDown a dom => a.ok && idxOk 256 dom
  | .teardownComplete dom => idxOk 256 dom
  | .ginfo c => idxOk 64 c
  | .gbar c => idxOk 64 c
  | .signal c => idxOk 64 c
  | .swait c => idxOk 64 c
  | .qpost c => idxOk 64 c
  | .trav c => idxOk 64 c
  | .twait c => idxOk 64 c
  | .spush c => idxOk 64 c
  | .spop c => idxOk 64 c
  | .allreduce ch => idxOk 256 ch
  | .redscat ch => idxOk 256 ch
  | .allgather ch => idxOk 256 ch
  | .permute ch => idxOk 256 ch
  | .rpass ch => idxOk 256 ch
  | .hmerge ch => idxOk 256 ch
  | .roundComplete ch => idxOk 256 ch
  | .roundTimeout ch => idxOk 256 ch
  | .sbinitRetry m => idxOk 40 m
  | .sbinitDone m => idxOk 40 m
  | .featureRecord m _ => idxOk 40 m
  | .exchangeTimeout m => idxOk 40 m
  | .rateAttempt m ownMap _ => idxOk 40 m && idxOk 65536 ownMap
  | .closureRecord m peerMap peerRate peerWidth peerSet peerMin peerResets => idxOk 40 m && idxOk 65536 peerMap && idxOk 8 peerRate && idxOk 4 peerWidth && idxOk 4 peerSet && idxOk 4 peerMin && idxOk 65536 peerResets
  | .partnerRetrainRequest m => idxOk 40 m
  | .retrainTimeout m => idxOk 40 m
  | .sidebandLoss m => idxOk 40 m
  | .retrain a m => a.ok && idxOk 40 m
  | .unquarantine a m => a.ok && idxOk 40 m
  | .takeDown a m => a.ok && idxOk 40 m
  | .flit m _ => idxOk 40 m
  | .ackDue m => idxOk 40 m
  | .rd m p => idxOk 40 m && packetOk 0x01 p
  | .wr m p => idxOk 40 m && packetOk 0x02 p
  | .bwr m p => idxOk 40 m && packetOk 0x20 p
  | .rdata m p => idxOk 40 m && packetOk 0x10 p
  | .wack m p => idxOk 40 m && packetOk 0x11 p
  | .ersp m p => idxOk 40 m && packetOk 0x12 p
  | .seg m p => idxOk 40 m && packetOk 0x30 p
  | .perm m p => idxOk 40 m && packetOk 0x31 p
  | .grant m p => idxOk 40 m && packetOk 0x32 p
  | .cack m p => idxOk 40 m && packetOk 0x33 p
  | .abort m p => idxOk 40 m && packetOk 0x34 p
  | .crefuse m p => idxOk 40 m && packetOk 0x35 p
  | .sdata m p => idxOk 40 m && packetOk 0x40 p
  | .sack m p => idxOk 40 m && packetOk 0x41 p
  | .sopen m p => idxOk 40 m && packetOk 0x42 p
  | .scredit m p => idxOk 40 m && packetOk 0x43 p
  | .serr m p => idxOk 40 m && packetOk 0x44 p
  | .creq m p => idxOk 40 m && packetOk 0x50 p
  | .crsp m p => idxOk 40 m && packetOk 0x51 p
  | .event m p => idxOk 40 m && packetOk 0x52 p
  | .frameCode m p => idxOk 40 m && packetOk 0x53 p
  | .fcack m p => idxOk 40 m && packetOk 0x54 p
  | .msg m p => idxOk 40 m && packetOk 0x55 p
  | .image m p => idxOk 40 m && packetOk 0x56 p
  | .enote m p => idxOk 40 m && packetOk 0x57 p
  | .mack m p => idxOk 40 m && packetOk 0x58 p
  | .requestTimeout tag => idxOk (2 ^ 24) tag
  | .routeHoldEnd entry => idxOk 64 entry
  | .issueFractionUpdate _ => true
  | .railSample rail milliVolt current => idxOk 5 rail && idxOk 65536 milliVolt && idxOk 65536 current
  | .controlPeriod _ => true
  | .vcoreReached => true
  | .vcoreReadyTimeout miss => miss.why.ok && idxOk 65536 miss.milliVolt
  | .temperatureScan quarterDegrees => quarterDegrees.length == 96
  | .energyUpdate _ => true
  | .fnRptrWrite a value => a.ok && idxOk (2 ^ 32) value
  | .dieFatal unit => decide (1 ≤ unit) && decide (unit ≤ 6)
  | .mbReqWrite a mb off value => a.ok && idxOk 16 mb && idxOk 256 off && idxOk (2 ^ 32) value
  | .post a mb len => a.ok && idxOk 16 mb && idxOk 512 len
  | .mbRelease a mb => a.ok && idxOk 16 mb
  | .take a mb => a.ok && idxOk 16 mb
  | .reply a mb len => a.ok && idxOk 16 mb && idxOk 512 len
  | .loadWindow percent => idxOk 101 percent
  | .mirrorSnapshot => true
  | .wdtKick a value => a.ok && idxOk (2 ^ 32) value
  | .watchdogExpiry => true
  | .surveyorMemoryError addr => idxOk 0x200000 addr
  | .surveyorRestartEnd => true
  | .extend a index => a.ok && idxOk 8 index
  | .quoteReq a => a.ok
  | .quoteDone => true
  | .submit a => a.ok
  | .maRead a => a.ok
  | .maWrite a => a.ok
  | .maComplete => true
  | .clRetire a cl phys _ => a.ok && idxOk 8 cl && idxOk 16 phys
  | .quiescePoint c => idxOk 64 c
  | .recoveryTestEnd cl _ => idxOk 8 cl
  | .newClear a => a.ok
  | .clear a slot => a.ok && idxOk 4096 slot
  | .scaleEntryWrite a slot entry value => a.ok && idxOk 4096 slot && idxOk 16 entry && idxOk (2 ^ 64) value
  | .testLogicReset => true
  | .extest => true
  | .idcode => true
  | .samplePreload _ => true
  | .clamp => true
  | .highz => true
  | .ijtag open_ => idxOk 64 open_
  | .bypass code => idxOk 256 code
  | .mrSync => true
  | .presInChange _ => true
  | .partnerSidebandRestart m => idxOk 40 m
  | .railsValid => true

end Sys2Proof
end

