-- ==== Sys2Proof/Tests/Slice0.lean ====
section
/-! SUPPORT. Tests: ill-formed commands are refused; and for each statement with hypotheses, states and operands that meet them, one for
each clause, at boundary values of their ranges. -/

namespace Sys2Proof.Tests
open Sys2Proof Sys2Proof.Machine

set_option Elab.async false

/-! ### Small states -/

/-- The state that a command leaves. -/
def nextOf (r : Res) : State := match r with
  | .next t => t
  | _ => State.reset

/-- A die at a bring-up phase, its pin high. -/
def atPhase (p : Nat) : State := ({ State.reset with bootNonce := 0, chal := zeros 48, aon := { State.reset.aon with pinLow := false } } : State).put Fld.BOOT_BOOT_STATE_PHASE p

/-- A die in service. -/
def alive : State := atPhase 8

def mp : Acc := { cls := .mp, dom := 0, loc := false }
def own : Acc := { cls := .mp, dom := 0, loc := true }
def dbg : Acc := { cls := .dbg, dom := 0, loc := false }
def ldr : Acc := { cls := .ldr, dom := 0, loc := true }

/-- The die at a time in nanoseconds. -/
def atTime (n : Nat) (s : State) : State := s.put Fld.CLK_CLK_TIME_COUNT n
/-- An unlocked die. -/
def open1 : State := alive.put Fld.SEC_SEC_STATE_UNLOCKED 1

/-- With the debug port open. -/
def openPort (s : State) : State := { s with tap := { s.tap with segments := 1 } }

/-- A die with domain 3, one granule of the last core memory open to it and the next one sealed for it. -/
def ground : State :=
  ((alive.put Fld.DSP_DOM_CFG_STATE 1 0 3).setGran 63 0 (granWord 1 0 0 1 0 3 0)).setGran 63 1 (granWord 1 0 1 1 0 3 0)

/-- A core that runs a kernel of domain 3. -/
def kern : CoreSt :=
  { CoreSt.init with run := 1, gang := 5, dom := 3, lastDom := some 3, codeBase := 0xFC00000, codeLen := 0x1000, pc := 0xFC00000, kinst := 256, spill := 1 }

/-- The die whose core 63 is `k`. -/
def with63 (k : CoreSt) : State := ground.setCore 63 k

/-- An instruction word: major, minor, flags, and fields at their bits. -/
def insn (maj mi fl : Nat) (fs : List (Nat × Nat)) : Nat := fs.foldl (fun w f => w + f.2 * 2 ^ f.1) (maj + 256 * mi + 65536 * fl)

/-- A decoded instruction. -/
def dec (w : Nat) : Dec := { seq := 5, word := w }

/-- Bytes stored by domain 3. -/
def stored (addr : Nat) (b : Bytes) (s : State) : State := (s.writeMem (Who.self 3 4) addr b).1

/-! ### The queue, the test port and the resets -/

/-- A data scan of instruction `i` stands at `x`. -/
def scanning (x : ScanSt) (i : Nat) (s : State) : State := { s with tap := { s.tap with scan := x, instr := i } }

/-- A die without VAON, whose VAON has been up for `n` samples. -/
def dark (n : Nat) : State :=
  { State.reset with aon := { State.reset.aon with noVaon := true }
                     rails := tset (fun _ => RailSt.init) 4 { State.reset.rail 4 with high := n } State.reset.rails }


/-- A state and operands that meet the hypotheses of each clause of StepRunsTheFrontCommand. -/
theorem witness_StepRunsTheFrontCommand :
    (∃ (s : State) (c : Instr) (rest : List Instr), s.pending = c :: rest) :=
  ⟨{ State.reset with pending := [.idcode] }, .idcode, [], rfl⟩

/-- A state and operands that meet the hypotheses of each clause of IdleCycleLeavesTheWorkAlone. -/
theorem witness_IdleCycleLeavesTheWorkAlone :
    (∃ (s : State), s.pending = [] ∧ s.aon.held = true) ∧
    (∃ (s : State), s.pending = [] ∧ s.aon.held = false ∧ twf (fun _ => 0) s.accounts = true) :=
  ⟨⟨State.reset, by decide +kernel⟩,
   ⟨alive, by decide +kernel⟩⟩

/-- A state and operands that meet the hypotheses of each clause of TestPortInstructionsTakeEffect. -/
theorem witness_TestPortInstructionsTakeEffect :
    (∃ (s : State), s.bypassed = false) ∧
    (∃ (s : State), s.bypassed = false) ∧
    (∃ (s : State) (code : _), s.bypassed = false ∧ ((5 ≤ code ∧ code ≤ 7) ∨ (9 ≤ code ∧ code ≤ 255))) ∧
    (∃ (s : State) (x : Signal) (c : _), s.bypassed = false ∧ x.driven = true ∧ c ∈ [Instr.extest, .clamp]) ∧
    (∃ (s : State) (x : Signal), s.bypassed = false ∧ x.driven = true) ∧
    (∃ (s : State), s.bypassed = false ∧ s.tap.scan = .capture ∧ s.tap.instr = 1) ∧
    (∃ (s : State), s.bypassed = false ∧ s.tap.scan = .capture ∧ (s.tap.instr = 0 ∨ s.tap.instr = 2)) ∧
    (∃ (s : State), s.bypassed = false ∧ s.tap.scan = .capture ∧ s.tap.instr ∉ [0, 1, 2, 8]) ∧
    (∃ (s : State), s.bypassed = false ∧ s.tap.scan = .shift) ∧
    (∃ (s : State), s.bypassed = false ∧ s.tap.scan = .exit1) ∧
    (∃ (s : State), s.bypassed = false) ∧
    (∃ (s : State) (c : _), s.bypassed = true ∧ c ∈ [Instr.extest, .idcode, .samplePreload 0, .clamp, .highz, .ijtag 1, .bypass 255]) ∧
    (∃ (s : State), s.bypassed = true ∧ s.tap.scan = .capture) ∧
    (∃ (s : State), s.bypassed = true) :=
  ⟨⟨alive, by decide +kernel⟩,
   ⟨alive, by decide +kernel⟩,
   ⟨alive, 255, by decide +kernel⟩,
   ⟨alive, .thermtripN, .clamp, ⟨by decide +kernel, by decide +kernel, by simp⟩⟩,
   ⟨alive, .thermtripN, by decide +kernel⟩,
   ⟨scanning .capture 1 alive, by decide +kernel⟩,
   ⟨scanning .capture 2 alive, by decide +kernel⟩,
   ⟨scanning .capture 255 alive, by decide +kernel⟩,
   ⟨scanning .shift 8 alive, by decide +kernel⟩,
   ⟨scanning .exit1 0 alive, by decide +kernel⟩,
   ⟨alive, by decide +kernel⟩,
   ⟨State.reset, .highz, ⟨by decide +kernel, by simp⟩⟩,
   ⟨scanning .capture 0 State.reset, by decide +kernel⟩,
   ⟨State.reset, by decide +kernel⟩⟩

/-- A state and operands that meet the hypotheses of each clause of LockedDieOpensTwoSegments. -/
theorem witness_LockedDieOpensTwoSegments :
    (∃ (s : State), s.bypassed = false ∧ s.unlocked = false) :=
  ⟨alive, by decide +kernel⟩

/-- A state and operands that meet the hypotheses of each clause of RingWordLoadsAtSync. -/
theorem witness_RingWordLoadsAtSync :
    (∃ (s : State), s.bypassed = true) ∧
    (∃ (s : State), s.bypassed = false) :=
  ⟨⟨State.reset, by decide +kernel⟩,
   ⟨alive, by decide +kernel⟩⟩

/-- A state and operands that meet the hypotheses of each clause of WarmResetsKeepTheIsland. -/
theorem witness_WarmResetsKeepTheIsland :
    (∃ (s : State) (count : _), s.get Fld.BOOT_BOOT_STATE_PHASE ≠ 0 ∧ count = (if s.get Fld.BOOT_BOOT_STATE_PHASE = 1 ∧
      s.get Fld.BOOT_BOOT_STATE_RESET_CAUSE = 2 ∧ s.now = 0 then 0 else 1)) ∧
    (∃ (s : State) (count : _) (r : _), s.get Fld.BOOT_BOOT_STATE_PHASE ≠ 0 ∧ count = (if s.get Fld.BOOT_BOOT_STATE_PHASE = 1 ∧
      s.get Fld.BOOT_BOOT_STATE_RESET_CAUSE = 2 ∧ s.now = 0 then 0 else 1) ∧ r < 4) ∧
    (∃ (s : State), s.get Fld.BOOT_BOOT_STATE_PHASE ≠ 0 ∧ s.aon.pinLow = false) ∧
    (∃ (s : State) (i : _), s.get Fld.BOOT_BOOT_STATE_PHASE ≠ 0 ∧ s.aon.pinLow = false ∧ i < 6) ∧
    (∃ (s : State), s.get Fld.BOOT_BOOT_STATE_PHASE = 0) ∧
    (∃ (s : State) (r : _), s.get Fld.BOOT_BOOT_STATE_PHASE = 0 ∧ r < 4) ∧
    (∃ (s : State), (s.get Fld.BOOT_BOOT_STATE_PHASE = 0 ∨ s.aon.pinLow = true)) ∧
    (∃ n, n < 96) :=
  ⟨⟨alive, 1, by decide +kernel⟩,
   ⟨atPhase 1, 1, 3, by decide +kernel⟩,
   ⟨alive, by decide +kernel⟩,
   ⟨alive, 5, by decide +kernel⟩,
   ⟨State.reset, by decide +kernel⟩,
   ⟨State.reset, 3, by decide +kernel⟩,
   ⟨State.reset, by decide +kernel⟩,
   ⟨95, by decide +kernel⟩⟩

/-- A state and operands that meet the hypotheses of each clause of ColdPowerUpClearsEverything. -/
theorem witness_ColdPowerUpClearsEverything :
    (∃ (s : State) (mv : _) (i : _) (rail : _), s.aon.noVaon = true ∧ mv < 65536 ∧ i < 65536 ∧ rail < 4) ∧
    (∃ (s : State) (mv : _) (i : _), s.aon.noVaon = true ∧ mv < 65536 ∧ i < 65536 ∧ 700 < mv ∧ 99 ≤ (s.rail 4).high) ∧
    (∃ (s : State) (mv : _) (i : _), s.aon.noVaon = true ∧ mv < 65536 ∧ i < 65536 ∧ (mv ≤ 700 ∨ (s.rail 4).high < 99)) ∧
    (∃ (s : State) (mv : _) (i : _), s.aon.noVaon = true ∧ mv < 65536 ∧ i < 65536 ∧ (mv ≤ 700 ∨ (s.rail 4).high < 99)) :=
  ⟨⟨dark 99, 701, 65535, 3, by decide +kernel⟩,
   ⟨dark 99, 701, 65535, by decide +kernel⟩,
   ⟨dark 99, 700, 65535, by decide +kernel⟩,
   ⟨dark 98, 701, 65535, by decide +kernel⟩⟩

/-- A state and operands that meet the hypotheses of each clause of LeavingResetLatchesTheStraps. -/
theorem witness_LeavingResetLatchesTheStraps :
    (∃ (s : State), s.get Fld.BOOT_BOOT_STATE_PHASE ≠ 0 ∧ s.aon.pinLow = true) ∧
    (∃ (s : State), s.get Fld.BOOT_BOOT_STATE_PHASE ≠ 0 ∧ s.aon.held = false) ∧
    (∃ (s : State), s.get Fld.BOOT_BOOT_STATE_PHASE ≠ 0 ∧
      s.aon = { s.aon with railOut := true, pinLow := false, refOut := false, tripped := false, noVaon := false }) ∧
    (∃ (s : State), s.get Fld.BOOT_BOOT_STATE_PHASE ≠ 0 ∧
      s.aon = { s.aon with refOut := true, pinLow := false, railOut := false, tripped := false, noVaon := false }) :=
  ⟨⟨State.reset.put Fld.BOOT_BOOT_STATE_PHASE 1, by decide +kernel⟩,
   ⟨alive, by decide +kernel⟩,
   ⟨{ alive with aon := { alive.aon with railOut := true } }, by decide +kernel⟩,
   ⟨{ alive with aon := { alive.aon with refOut := true } }, by decide +kernel⟩⟩

/-- A state and operands that meet the hypotheses of each clause of ReferenceDisturbancesAreReported. -/
theorem witness_ReferenceDisturbancesAreReported :
    (∃ (s : State), s.get Fld.CLK_CLK_AON_DATUM_EN = 1 ∧ s.get Fld.CLK_CLK_STATUS_SECOND_REF_SEEN = 0) ∧
    (∃ (s : State), s.get Fld.CLK_CLK_AON_DATUM_EN = 0) :=
  ⟨⟨alive.put Fld.CLK_CLK_AON_DATUM_EN 1, by decide +kernel⟩,
   ⟨alive, by decide +kernel⟩⟩

/-! ### Bring-up, retirement and core test -/

/-- An image without a byte of payload: its header, its directory and the signature's place. -/
def image : Bytes :=
  let h := leBytes 2 1 ++ leBytes 2 1536 ++ leBytes 4 1536 ++ leBytes 4 0 ++ leBytes 1 0xB0 ++ leBytes 1 1 ++ leBytes 2 0 ++ leBytes 1 1
  let d := leBytes 1 1 ++ leBytes 1 0 ++ leBytes 2 0 ++ leBytes 4 1536
  fit (fit h 128 ++ leBytes 1 4) 512 ++ fit d 1024 ++ zeros 96

/-- A write record. -/
def writeRec (page off inst op v : Nat) : Bytes := leBytes 2 page ++ leBytes 2 off ++ leBytes 2 inst ++ leBytes 1 op ++ leBytes 1 0 ++ leBytes 4 v

/-- A die in the COMMIT phase with one section. -/
def withSection (b : Bytes) : State := { atPhase 7 with boot := { (atPhase 7).boot with sections := some [b] } }

/-- A loader section that stages a field and commits its page. -/
def stagedSection : State := nextOf (exec .writeRecord (withSection (writeRec 9 0x100 0xFFFF 0 1 ++ writeRec 9 0 0 1 0 ++ zeros 12)))

/-- A die whose cores are numbered. -/
def counted (s : State) : State := { s with boot := { s.boot with numbered := true } }

/-- A die whose cluster 7 has a spare, and whose core 63 enters QUIESCING. -/
def retiring : State := (alive.put Fld.CORE_CORE_STATE_STATE 2 63).put Fld.CL_CL_STATUS_SPARE_AVAIL 1 7

/-- Core 63 in a state. -/
def testCore (st : Nat) : State := ((openPort open1).put Fld.CORE_CORE_STATE_STATE st 63).put Fld.DSP_DOM_CFG_STATE 1

/-- A state and operands that meet the hypotheses of each clause of BringUpPhasesFollowInOrder. -/
theorem witness_BringUpPhasesFollowInOrder :
    (∃ (s : State), s.get Fld.BOOT_BOOT_STATE_PHASE = 0 ∧ s.aon.railOut = false ∧ s.aon.refOut = false ∧ s.aon.tripped = false ∧
      s.aon.noVaon = false) ∧
    (∃ (s : State), s.inPhase 1 = true ∧ s.fuses.bad = true) ∧
    (∃ (s : State), s.inPhase 1 = true ∧ s.fuses.bad = false) ∧
    (∃ (s : State), s.inPhase 2 = true) ∧
    (∃ (s : State), s.inPhase 3 = true) ∧
    (∃ (s : State), s.inPhase 4 = true ∧ s.get Fld.CLK_CLK_AON_CFG_MASTER = 1) :=
  ⟨⟨State.reset, by decide +kernel⟩,
   ⟨{ atPhase 1 with fuses := { (atPhase 1).fuses with bad := true } }, by decide +kernel⟩,
   ⟨atPhase 1, by decide +kernel⟩,
   ⟨atPhase 2, by decide +kernel⟩,
   ⟨atPhase 3, by decide +kernel⟩,
   ⟨(atPhase 4).put Fld.CLK_CLK_AON_CFG_MASTER 1, by decide +kernel⟩⟩

/-- A state and operands that meet the hypotheses of each clause of ImageIsFetchedAndVerified. -/
theorem witness_ImageIsFetchedAndVerified :
    (∃ (s : State) (b : Bytes), s.inPhase 5 = true ∧ s.get Fld.CLK_CLK_AON_CFG_MASTER = 1 ∧ headerOk b = true ∧ streamLen b ≤ b.length) ∧
    (∃ (s : State) (b : Bytes), s.inPhase 5 = true ∧ s.get Fld.CLK_CLK_AON_CFG_MASTER = 1 ∧ headerOk b = false) ∧
    (∃ (s : State), s.inPhase 5 = true ∧ s.get Fld.CLK_CLK_AON_CFG_MASTER = 0 ∧ s.boot.source = none) ∧
    (∃ (s : State), s.inPhase 6 = true) :=
  ⟨⟨(atPhase 5).put Fld.CLK_CLK_AON_CFG_MASTER 1, image, by decide +kernel⟩,
   ⟨(atPhase 5).put Fld.CLK_CLK_AON_CFG_MASTER 1, [], by decide +kernel⟩,
   ⟨atPhase 5, by decide +kernel⟩,
   ⟨atPhase 6, by decide +kernel⟩⟩

/-- A state and operands that meet the hypotheses of each clause of LoaderTakesItsSections. -/
theorem witness_LoaderTakesItsSections :
    (∃ (s : State), s.inPhase 7 = true ∧ s.boot.sections = none) ∧
    (∃ (s : State) (b : Bytes) (rest : List Bytes), s.inPhase 7 = true ∧ s.boot.sections = some (b :: rest) ∧ s.boot.waits = [] ∧ 24 ≤ b.length ∧
      leAt b 6 1 = 0 ∧ leAt b 7 1 = 0 ∧ leAt b 4 2 = 0xFFFF ∧ leAt b 0 2 % 1024 = 5 ∧ leAt b 2 2 = 0x18) ∧
    (∃ (s : State) (b : Bytes) (rest : List Bytes), s.inPhase 7 = true ∧ s.boot.sections = some (b :: rest) ∧ s.boot.waits = [] ∧ 24 ≤ b.length ∧
      (2 ≤ leAt b 6 1 ∨ leAt b 7 1 ≠ 0)) ∧
    (∃ (s : State) (b : Bytes) (rest : List Bytes) (w : RegW), s.inPhase 7 = true ∧ s.boot.sections = some (b :: rest) ∧ s.boot.waits = [] ∧ 24 ≤ b.length ∧ leAt b 7 1 = 0 ∧ (let page := leAt b 0 2 % 1024; (let off := leAt b 2 2; (let i := leAt b 4 2; (let u : State := { s with boot := { s.boot with waits := [], sections := some (b.drop 12 :: rest) } }; leAt b 6 1 = 0 ∧ i = 0xFFFF ∧ page ≠ 0xD ∧ LiveReg s page off ∧ regWord (blkOf page) false off = some w ∧ ctlAct u ldrAcc page 0 off (leAt b 8 4) = none ∧ w.ws = 0))))) ∧
    (∃ (s : State) (b : Bytes) (rest : List Bytes) (w : RegW), s.inPhase 7 = true ∧ s.boot.sections = some (b :: rest) ∧ s.boot.waits = [] ∧ 24 ≤ b.length ∧ leAt b 7 1 = 0 ∧ (let page := leAt b 0 2 % 1024; (let off := leAt b 2 2; (let i := leAt b 4 2; (let u : State := { s with boot := { s.boot with waits := [], sections := some (b.drop 12 :: rest) } }; leAt b 6 1 = 0 ∧ i = 0xFFFF ∧ page ≠ 0xD ∧ LiveReg s page off ∧ regWord (blkOf page) false off = some w ∧ ctlAct u ldrAcc page 0 off (leAt b 8 4) = none ∧ w.ws ≠ 0 ∧ s.stageTest ldrAcc page = 0))))) ∧
    (∃ (s : State) (b : Bytes) (rest : List Bytes) (w : RegW), s.inPhase 7 = true ∧ s.boot.sections = some (b :: rest) ∧ s.boot.waits = [] ∧ 24 ≤ b.length ∧ leAt b 7 1 = 0 ∧ (let page := leAt b 0 2 % 1024; (let off := leAt b 2 2; (let i := leAt b 4 2; (let u : State := { s with boot := { s.boot with waits := [], sections := some (b.drop 12 :: rest) } }; leAt b 6 1 = 0 ∧ populated page = true ∧ page ≠ 0xD ∧ i < instCount page ∧ i ≠ 0xFFFF ∧ off < 0x800 ∧ off % 4 = 0 ∧ regWord (blkOf page) true off = some w ∧ (let c : State := { u.setWord (regKey page 0 0x2C) (BitVec.ofNat 32 i) with ctl := { code := 0, data := 0 } }; ctlAct c ldrAcc page (i + 1) off (leAt b 8 4) = none ∧ w.ws = 0)))))) ∧
    (∃ (s : State) (b : Bytes) (rest : List Bytes) (w : RegW), s.inPhase 7 = true ∧ s.boot.sections = some (b :: rest) ∧ s.boot.waits = [] ∧ 24 ≤ b.length ∧ leAt b 7 1 = 0 ∧ (let page := leAt b 0 2 % 1024; (let off := leAt b 2 2; (let i := leAt b 4 2; (let u : State := { s with boot := { s.boot with waits := [], sections := some (b.drop 12 :: rest) } }; leAt b 6 1 = 0 ∧ populated page = true ∧ page ≠ 0xD ∧ i < instCount page ∧ i ≠ 0xFFFF ∧ off < 0x800 ∧ off % 4 = 0 ∧ regWord (blkOf page) true off = some w ∧ (let c : State := { u.setWord (regKey page 0 0x2C) (BitVec.ofNat 32 i) with ctl := { code := 0, data := 0 } }; ctlAct c ldrAcc page (i + 1) off (leAt b 8 4) = none ∧ w.ws ≠ 0 ∧ c.stageTest ldrAcc page = 0)))))) ∧
    (∃ (s : State) (b : Bytes) (rest : List Bytes), s.inPhase 7 = true ∧ s.boot.sections = some (b :: rest) ∧ s.boot.waits = [] ∧ 24 ≤ b.length ∧ leAt b 7 1 = 0 ∧ (let page := leAt b 0 2 % 1024; leAt b 6 1 = 1 ∧ populated page = true ∧ page ≠ 0xD ∧ s.stagedPending page = true ∧ s.ownsStage ldrAcc page = true ∧ s.commitBusy page = false)) ∧
    (∃ (s : State) (b : Bytes) (rest : List Bytes), s.inPhase 7 = true ∧ s.boot.sections = some (b :: rest) ∧ s.boot.waits = [] ∧ 24 ≤ b.length ∧ leAt b 7 1 = 0 ∧ (let page := leAt b 0 2 % 1024; (let off := leAt b 2 2; (let i := leAt b 4 2; leAt b 6 1 = 0 ∧ i = 0xFFFF ∧ page = 0xD ∧ 0x100 ≤ off ∧ off < 0x4000 ∧ off % 4 = 0)))) :=
  ⟨⟨atPhase 7, by decide +kernel⟩,
   ⟨withSection (writeRec 5 0x18 0xFFFF 0 0x55 ++ zeros 12), writeRec 5 0x18 0xFFFF 0 0x55 ++ zeros 12, [], by decide +kernel⟩,
   ⟨withSection (writeRec 5 0x18 0xFFFF 2 0 ++ zeros 12), writeRec 5 0x18 0xFFFF 2 0 ++ zeros 12, [], by decide +kernel⟩,
   ⟨withSection (writeRec 8 0x100 0xFFFF 0 0x55 ++ zeros 12), writeRec 8 0x100 0xFFFF 0 0x55 ++ zeros 12, [],
     (regWord (blkOf 8) false 0x100).get (by decide +kernel), by dsimp only [LiveReg]; decide +kernel⟩,
   ⟨withSection (writeRec 9 0x100 0xFFFF 0 1 ++ zeros 12), writeRec 9 0x100 0xFFFF 0 1 ++ zeros 12, [],
     (regWord (blkOf 9) false 0x100).get (by decide +kernel), by dsimp only [LiveReg]; decide +kernel⟩,
   ⟨withSection (writeRec 12 0x14 4095 0 0x55 ++ zeros 12), writeRec 12 0x14 4095 0 0x55 ++ zeros 12, [],
     (regWord (blkOf 12) true 0x14).get (by decide +kernel), by dsimp only; decide +kernel⟩,
   ⟨withSection (writeRec 8 4 65534 0 5 ++ zeros 12), writeRec 8 4 65534 0 5 ++ zeros 12, [], (regWord (blkOf 8) true 4).get (by decide +kernel),
     by dsimp only; decide +kernel⟩,
   ⟨stagedSection, writeRec 9 0 0 1 0 ++ zeros 12, [], by dsimp only; decide +kernel⟩,
   ⟨withSection (writeRec 0xD 0x100 0xFFFF 0 1 ++ zeros 12), writeRec 0xD 0x100 0xFFFF 0 1 ++ zeros 12, [], by dsimp only; decide +kernel⟩⟩

/-- A state and operands that meet the hypotheses of each clause of ReleasePutsCoresIntoService. -/
theorem witness_ReleasePutsCoresIntoService :
    (∃ (s : State), s.inPhase 7 = true ∧ s.roled = true ∧ s.boot.roledAt + s.relayHold ≤ s.now) ∧
    (∃ (s : State), s.inPhase 7 = true ∧ s.roled = true ∧ (∀ m < 40, (s.mod m).boot = false) ∧
      (bitOf (hdr s.boot.stream 14 2) 0 = false ∨ s.boot.releaseAsked = true)) :=
  ⟨⟨atTime 1000000 { atPhase 7 with roled := true }, by decide +kernel⟩,
   ⟨{ atPhase 7 with roled := true }, by decide +kernel⟩⟩

/-- A state and operands that meet the hypotheses of each clause of BootControlActs. -/
theorem witness_BootControlActs :
    (∃ (s : State) (a : Acc), a.cls = .ldr ∧ s.released = false) ∧
    (∃ (s : State) (a : Acc), a.cls = .ldr ∧ s.get Fld.BOOT_BOOT_STATE_PHASE = 0xF ∧ 3 ≤ s.get Fld.BOOT_BOOT_STATE_ERR ∧
      s.get Fld.BOOT_BOOT_STATE_ERR ≤ 9) ∧
    (∃ (s : State) (a : Acc), a.cls = .mp ∧ s.aon.pinLow = false) ∧
    (∃ (s : State) (a : Acc), a.cls = .mp ∧ s.aon.pinLow = true) :=
  ⟨⟨alive.put Fld.BOOT_BOOT_STATE_PHASE 7, ldr, by decide +kernel⟩,
   ⟨(atPhase 0xF).put Fld.BOOT_BOOT_STATE_ERR 9, ldr, by decide +kernel⟩,
   ⟨alive, mp, by decide +kernel⟩,
   ⟨State.reset, mp, by decide +kernel⟩⟩

/-- A state and operands that meet the hypotheses of each clause of SpareTakesOverARetiredCore. -/
theorem witness_SpareTakesOverARetiredCore :
    (∃ (s : State) (a : Acc) (cl : _) (phys : _), a.cls = .mp ∧ s.numbered = true ∧ cl < 8 ∧ phys < 9 ∧
      s.get Fld.CL_PC_STATE_STATE (cl * 9 + phys) = 0 ∧ s.get Fld.CL_PC_STATE_LOGICAL (cl * 9 + phys) < 8) ∧
    (∃ (s : State) (a : Acc) (cl : _) (phys : _), a.cls = .mp ∧ s.numbered = true ∧ cl < 8 ∧ phys < 9 ∧
      s.get Fld.CL_PC_STATE_STATE (cl * 9 + phys) = 1) ∧
    (∃ (s : State) (c : _), c < 64 ∧ s.get Fld.CORE_CORE_STATE_STATE c = 2 ∧ (s.core c).run = 0 ∧ s.lowerQuiet c = false ∧
      s.get Fld.CL_CL_STATUS_SPARE_AVAIL (c / 8) = 1 ∧ s.get Fld.CL_CL_STATUS_SPARE_PHYS (c / 8) < 9 ∧ s.get Fld.CORE_CORE_STATE_PHYS c < 9) ∧
    (∃ (s : State) (c : _), c < 64 ∧ s.get Fld.CORE_CORE_STATE_STATE c = 2 ∧ (s.core c).run = 0 ∧ s.get Fld.CL_CL_STATUS_SPARE_AVAIL (c / 8) = 0) ∧
    (∃ (s : State) (cl : _) (q : _), cl < 8 ∧ q < 9 ∧ s.get Fld.CL_PC_STATE_STATE (cl * 9 + q) = 6 ∧ (∀ p < q,
      s.get Fld.CL_PC_STATE_STATE (cl * 9 + p) ≠ 6) ∧ s.get Fld.CL_PC_STATE_LOGICAL (cl * 9 + q) < 8) :=
  ⟨⟨counted alive, mp, 7, 8, by decide +kernel⟩,
   ⟨counted (alive.put Fld.CL_PC_STATE_STATE 1 71), mp, 7, 8, by decide +kernel⟩,
   ⟨retiring, 63, by decide +kernel⟩,
   ⟨alive.put Fld.CORE_CORE_STATE_STATE 2 63, 63, by decide +kernel⟩,
   ⟨alive.put Fld.CL_PC_STATE_STATE 6 71, 7, 8, by decide +kernel⟩⟩

/-- A state and operands that meet the hypotheses of each clause of CoreTestEntersRunsAndLeaves. -/
theorem witness_CoreTestEntersRunsAndLeaves :
    (∃ (s : State) (a : Acc) (c : _), c < 64 ∧ a.cls = .dbg ∧ s.portOpen a = true ∧ s.unlocked = true ∧ s.get Fld.BOOT_BOOT_STATE_PHASE ≠ 2 ∧
      s.isHole c = false ∧ (s.core c).run = 0 ∧ s.get Fld.CORE_CORE_STATE_STATE c = 1) ∧
    (∃ (s : State) (a : Acc) (c : _), c < 64 ∧ a.cls = .dbg ∧ s.portOpen a = true ∧ s.unlocked = true ∧ s.get Fld.BOOT_BOOT_STATE_PHASE ≠ 2 ∧
      s.isHole c = false ∧ (s.core c).run = 0 ∧ s.get Fld.CORE_CORE_STATE_STATE c = 3 ∧ s.fatal = true) ∧
    (∃ (s : State) (a : Acc) (c : _), c < 64 ∧ a.cls = .dbg ∧ s.portOpen a = true ∧ s.unlocked = true ∧ s.get Fld.BOOT_BOOT_STATE_PHASE ≠ 2 ∧
      s.isHole c = false ∧ (s.core c).run = 0 ∧ s.get Fld.CORE_CORE_STATE_STATE c = 3 ∧ s.domActive (s.get Fld.CORE_CORE_TEST_TEST_DOM c) = true ∧
      s.fatal = false) ∧
    (∃ (s : State) (a : Acc) (c : _), c < 64 ∧ a.cls = .dbg ∧ s.portOpen a = true ∧ s.unlocked = true ∧ s.get Fld.BOOT_BOOT_STATE_PHASE ≠ 2 ∧
      s.isHole c = false ∧ (s.core c).run = 0 ∧ s.get Fld.CORE_CORE_STATE_STATE c = 3) :=
  ⟨⟨testCore 1, dbg, 63, by decide +kernel⟩,
   ⟨(testCore 3).put Fld.ERR_ERR_FATAL_FATAL 1, dbg, 63, by decide +kernel⟩,
   ⟨testCore 3, dbg, 63, by decide +kernel⟩,
   ⟨testCore 3, dbg, 63, by decide +kernel⟩⟩

/-! ### The control path, reports, mailboxes, the surveyor core and security -/

/-- A register of a page view. -/
def regAt (page off : Nat) : RegW :=
  (regWord (blkOf page) false off).getD
    { off := 0, cnt := 0, stride := 0, rw := 0, ro := 0, ws := 0, w1c := 0, rc := 0, wo := 0, fixed := 0, rst := 0, pair := false }

/-- A staged write waits on page 11. -/
def staging : State := nextOf (execStagedWrite mp (pageAddr 11 256) 4 1 alive)
/-- Its COMMIT runs. -/
def committing : State := nextOf (execCommit mp 11 staging)

/-- The same on page 8, whose COMMIT corrects nothing. -/
def committing8 : State := nextOf (execCommit mp 8 (nextOf (execStagedWrite mp (pageAddr 8 260) 4 1 alive)))

/-- An event record that waits for its queue. -/
def waitingRecord : EvRec := { queue := 3, status := 0x40, detail := 1, member := 0, info := 5, station := 9 }
/-- The surveyor core in a state. -/
def surveyor (st : Nat) : State := alive.put Fld.MBX_SVY_STATE_STATE st

def withRecord : State := { ((alive.put Fld.DSP_DOM_CFG_STATE 1 0 0).put Fld.DSP_Q_STATE_STATE 1 3).put Fld.DSP_Q_RING_LOG2 4 3 with evq := [waitingRecord] }

/-- Mailbox 14 in a state. -/
def mailbox (st : Nat) : State := alive.put Fld.MBX_MB_STATE_STATE st 14

/-- A die with a debug key, and a token that its holder signed for challenge 0 of serial number 0. -/
def tokenDie : State :=
  let hash := leBytes 48 0x167444fd87e7f5852b469c8fcb7d5df65b17f5428eb2c85c589b70cb331f80519044db950ba767422757cb3daee06a36
  let s : State := { (alive.put Fld.SEC_SEC_STATE_DBG_MODE 1) with fuses := { alive.fuses with dbgKeyHash := hash } }
  let s := s.putBytes Fld.DBG_DBG_PUB 0 0 (leBytes 100
    0x2b70be60929d1aefb413ef90a1f830ae4d59943098c040af78877e3da015e2a23d6324880bd383add1af2e93e48bbb393ed4348ddad74cb07f0e19157e140ab45edb1edc5b7102f172d835873e3bda9ffc17d57bd8cee023ac4555a44c16707604)
  s.putBytes Fld.DBG_DBG_TOKEN 0 0 (leBytes 96
    0x645b8683b8a5e337f3fce352b7aceea9f635c763e2fa7495d311d3002ad199427199106a94376b1b5934013b50950558645b8683b8a5e337f3fce352b7aceea9f635c763e2fa7495d311d3002ad199427199106a94376b1b5934013b50950558)

/-- A state and operands that meet the hypotheses of each clause of PlainWriteStoresWritableBits. -/
theorem witness_PlainWriteStoresWritableBits :
    (∃ (s : State) (a : Acc) (page : Nat) (off : Nat) (v : Nat) (w : RegW), a.cls = .mp ∧ LiveReg s page off ∧ page ≠ 0xD ∧ v < 2 ^ 32 ∧
      regWord (blkOf page) false off = some w ∧ w.ws = 0 ∧ ctlAct s a page 0 off v = none) :=
  ⟨alive, mp, 8, 9216, 2 ^ 32 - 1, regAt 8 9216, ⟨by decide +kernel, by unfold LiveReg; decide +kernel, by decide +kernel, by decide +kernel,
    by decide +kernel, by decide +kernel, by decide +kernel⟩⟩

/-- A state and operands that meet the hypotheses of each clause of ReadReturnsTheWordAndClearsRc. -/
theorem witness_ReadReturnsTheWordAndClearsRc :
    (∃ (s : State) (a : Acc) (page : Nat) (off : Nat) (w : RegW), (a.cls = .mp ∨ (a.cls = .dbg ∧ s.portOpen a = true ∧ s.unlocked = true)) ∧
      LiveReg s page off ∧ regWord (blkOf page) false off = some w ∧ ctlView s page 0 off = none) :=
  ⟨alive, mp, 8, 276, regAt 8 276, ⟨by decide +kernel, by unfold LiveReg; decide +kernel, by decide +kernel, by decide +kernel⟩⟩

/-- A state and operands that meet the hypotheses of each clause of LockedDebugWritesNothing. -/
theorem witness_LockedDebugWritesNothing :
    (∃ (s : State) (a : Acc) (page : Nat) (off : Nat), a.cls = .dbg ∧ populated page = true ∧ off < 0x10000 ∧ off % 4 = 0 ∧ s.portOpen a = true ∧
      s.unlocked = false ∧ unlockReg page off = false) ∧
    (∃ (s : State) (a : Acc) (page : Nat) (off : Nat), a.cls = .dbg ∧ populated page = true ∧ off < 0x10000 ∧ off % 4 = 0 ∧
      (bitOf s.tap.segments 0 = false ∨ s.bypassed = true)) :=
  ⟨⟨openPort alive, dbg, 8, 0xFFFC, by decide +kernel⟩,
   ⟨alive, dbg, 8, 0xFFFC, by decide +kernel⟩⟩

/-- A state and operands that meet the hypotheses of each clause of StagedWriteWaitsForCommit. -/
theorem witness_StagedWriteWaitsForCommit :
    (∃ (s : State) (a : Acc) (page : Nat) (off : Nat) (v : Nat) (w : RegW), a.cls = .mp ∧ LiveReg s page off ∧ page ≠ 0xD ∧ v < 2 ^ 32 ∧
      regWord (blkOf page) false off = some w ∧ w.ws ≠ 0 ∧ w.rw = 0 ∧ w.w1c = 0 ∧ ctlAct s a page 0 off v = none ∧ s.stageTest a page = 0) :=
  ⟨alive, mp, 11, 256, 2 ^ 32 - 1, regAt 11 256, ⟨by decide +kernel, by unfold LiveReg; decide +kernel, by decide +kernel, by decide +kernel,
    by decide +kernel, by decide +kernel, by decide +kernel, by decide +kernel, by decide +kernel, by decide +kernel⟩⟩

/-- A state and operands that meet the hypotheses of each clause of CommitDiscardAndApply. -/
theorem witness_CommitDiscardAndApply :
    (∃ (s : State) (a : Acc) (page : Nat), a.cls = .mp ∧ page ≠ 0xD ∧ populated page = true ∧ s.stagedPending page = true ∧
      s.ownsStage a page = true ∧ s.commitBusy page = false) ∧
    (∃ (s : State) (page : _) (inst : _), s.commitBusy page = true ∧ s.stagedOf page inst ≠ [] ∧ s.safePoint page inst = true) ∧
    (∃ (s : State) (page : _) (inst : _), s.commitBusy page = true ∧ s.stagedOf page inst ≠ [] ∧ s.safePoint page inst = true ∧
      s.get Fld.BOOT_BOOT_STATE_PHASE ≠ 7 ∧ s.bringUpCommit page = false ∧ blkOf page ≠ 0x10 ∧ blkOf page ≠ 0x40 ∧ page ∉ [0, 4, 9, 0xA, 0xB, 0xC,
      0x100, 0x102] ∧ twf noStage s.staged = true) :=
  ⟨⟨staging, mp, 11, by decide +kernel⟩,
   ⟨committing, 11, 0, by decide +kernel⟩,
   ⟨committing8, 8, 0, by decide +kernel⟩⟩

/-- A state and operands that meet the hypotheses of each clause of WaitingReportsLeave. -/
theorem witness_WaitingReportsLeave :
    (∃ (s : State) (h : _) (rest : _), s.hostMsgs = h :: rest) ∧
    (∃ (s : State), s.hostMsgs = []) ∧
    (∃ (s : State) (r : _), s.evq.find? (fun r => s.takesEvents r.queue) = some r) ∧
    (∃ (s : State), (∀ r ∈ s.evq, s.takesEvents r.queue = false)) :=
  ⟨⟨{ alive with hostMsgs := [⟨zeros 12⟩] }, ⟨zeros 12⟩, [], rfl⟩,
   ⟨alive, by decide +kernel⟩,
   ⟨withRecord, waitingRecord, by decide +kernel⟩,
   ⟨{ alive with evq := [waitingRecord] }, by decide +kernel⟩⟩

/-- A state and operands that meet the hypotheses of each clause of ListsAndSlotsClear. -/
theorem witness_ListsAndSlotsClear :
    (∃ (a : Acc), a.cls = .mp) ∧
    (∃ (a : Acc) (slot : _), a.cls = .mp ∧ slot < 4096) ∧
    (∃ (a : Acc) (slot : _) (e : _) (v : _), a.cls = .mp ∧ slot < 4096 ∧ e < 16 ∧ v < 2 ^ 64) :=
  ⟨⟨mp, by decide +kernel⟩,
   ⟨mp, 4095, by decide +kernel⟩,
   ⟨mp, 4095, 15, 2 ^ 64 - 1, by decide +kernel⟩⟩

/-- A state and operands that meet the hypotheses of each clause of NotesReadPointerStopsAtTheWritePointer. -/
theorem witness_NotesReadPointerStopsAtTheWritePointer :
    (∃ (a : Acc) (v : Nat), a.cls = .mp ∧ v < 2 ^ 32) :=
  ⟨mp, 2 ^ 32 - 1, by decide +kernel⟩

/-- A state and operands that meet the hypotheses of each clause of MailboxGoesRound. -/
theorem witness_MailboxGoesRound :
    (∃ (s : State) (a : Acc) (i : _) (off : _) (v : _), i < 15 ∧ a.cls = .mp ∧ off < 256 ∧ v < 2 ^ 32 ∧ s.get Fld.MBX_MB_STATE_STATE i = 0) ∧
    (∃ (s : State) (a : Acc) (i : _) (len : _), i < 15 ∧ a.cls = .mp ∧ 1 ≤ len ∧ len ≤ 256 ∧ s.mbClosed i = false ∧
      s.get Fld.MBX_MB_STATE_STATE i = 1 ∧ s.mbOwns a i = true) ∧
    (∃ (s : State) (a : Acc) (i : _), i < 15 ∧ a.cls = .mp ∧ a.loc = true ∧ s.get Fld.MBX_MB_STATE_STATE i = 2) ∧
    (∃ (s : State) (a : Acc) (i : _) (len : _), i < 15 ∧ a.cls = .mp ∧ len ≤ 256 ∧ a.loc = true ∧ s.get Fld.MBX_MB_STATE_STATE i = 3) ∧
    (∃ (s : State) (a : Acc) (i : _), i < 15 ∧ a.cls = .mp ∧ s.mbOwns a i = true) ∧
    (∃ (s : State) (a : Acc) (i : _) (len : _), i < 15 ∧ a.cls = .mp ∧ 1 ≤ len ∧ len ≤ 256 ∧ s.mbClosed i = false ∧
      (s.get Fld.MBX_MB_STATE_STATE i = 0 ∨ (s.get Fld.MBX_MB_STATE_STATE i = 4 ∧ s.get Fld.MBX_MB_STATE_OWNER i = 0))) ∧
    (∃ (s : State) (a : Acc) (i : _) (len : _), i < 15 ∧ a.cls = .mp ∧ 1 ≤ len ∧ len ≤ 256 ∧ s.mbClosed i = false ∧
      (s.get Fld.MBX_MB_STATE_STATE i = 0 ∨ (s.get Fld.MBX_MB_STATE_STATE i = 4 ∧ s.get Fld.MBX_MB_STATE_OWNER i = 0))) ∧
    (∃ (s : State) (a : Acc) (i : _) (len : _), i < 15 ∧ a.cls = .mp ∧ len < 512 ∧
      (s.get Fld.MBX_MB_STATE_STATE i = 2 ∨ s.get Fld.MBX_MB_STATE_STATE i = 3 ∨ (s.get Fld.MBX_MB_STATE_STATE i ∈ [1, 4] ∧
      s.get Fld.MBX_MB_STATE_OWNER i ≠ 0))) ∧
    (∃ (s : State) (a : Acc) (i : _) (len : _), i < 15 ∧ a.cls = .mp ∧ len < 512 ∧
      (s.get Fld.MBX_MB_STATE_STATE i = 2 ∨ s.get Fld.MBX_MB_STATE_STATE i = 3 ∨ (s.get Fld.MBX_MB_STATE_STATE i ∈ [1, 4] ∧
      s.get Fld.MBX_MB_STATE_OWNER i ≠ 0))) ∧
    (∃ (a : Acc) (i : _) (len : _), i < 15 ∧ a.cls = .mp ∧ len < 512) ∧
    (∃ (s : State) (a : Acc) (i : _) (b : Acc) (len : _), i < 15 ∧ a.cls = .mp ∧ b.cls = .dbg ∧ s.portOpen b = true ∧ s.unlocked = true ∧ 1 ≤ len ∧
      len ≤ 256 ∧ s.mbClosed 15 = false ∧ s.get Fld.MBX_MB_STATE_STATE 15 = 0) :=
  ⟨⟨alive, mp, 14, 255, 2 ^ 32 - 1, by decide +kernel⟩,
   ⟨mailbox 1, mp, 14, 256, by decide +kernel⟩,
   ⟨mailbox 2, own, 14, by decide +kernel⟩,
   ⟨mailbox 3, own, 14, 256, by decide +kernel⟩,
   ⟨mailbox 4, mp, 14, by decide +kernel⟩,
   ⟨mailbox 4, mp, 14, 256, by decide +kernel⟩,
   ⟨alive, mp, 0, 1, by decide +kernel⟩,
   ⟨mailbox 3, mp, 14, 511, by decide +kernel⟩,
   ⟨(mailbox 4).put Fld.MBX_MB_STATE_OWNER 3 14, mp, 14, 1, by decide +kernel⟩,
   ⟨mp, 14, 511, by decide +kernel⟩,
   ⟨openPort open1, mp, 14, dbg, 256, by decide +kernel⟩⟩

/-- A state and operands that meet the hypotheses of each clause of SurveyorCoreIsWatched. -/
theorem witness_SurveyorCoreIsWatched :
    (∃ (s : State) (p : _), p ≤ 100 ∧ s.get Fld.MBX_SVY_STATE_STATE = 0) ∧
    (∃ (a : Acc) (v : _), a.cls = .mp ∧ a.loc = true ∧ v % 256 = 0xA5) ∧
    (∃ (s : State), s.get Fld.MBX_SVY_STATE_STATE = 0 ∧ s.kickedAt + 10000000 ≤ s.now ∧
      (s.svyTimes.filter (fun t => decide (s.now < t + 100000000))).length < 2) ∧
    (∃ (s : State) (addr : _), addr < 0x200000 ∧ s.get Fld.MBX_SVY_STATE_STATE = 0 ∧ s.flips (eccSurveyor (addr / 8)) ≠ 1 ∧ addr < s.svyCode) ∧
    (∃ (s : State) (addr : _), addr < 0x200000 ∧ s.get Fld.MBX_SVY_STATE_STATE = 0 ∧ s.flips (eccSurveyor (addr / 8)) = 1) ∧
    (∃ (s : State), s.get Fld.MBX_SVY_STATE_STATE = 1) :=
  ⟨⟨surveyor 0, 100, by decide +kernel⟩,
   ⟨own, 0xA5, by decide +kernel⟩,
   ⟨atTime 10000000 (surveyor 0), by decide +kernel⟩,
   ⟨{ surveyor 0 with svyCode := 0x200000 }, 0x1FFFFF, by decide +kernel⟩,
   ⟨(surveyor 0).setFlips (eccSurveyor 0x3FFFF) 1, 0x1FFFFF, by decide +kernel⟩,
   ⟨surveyor 1, by decide +kernel⟩⟩

/-- A state and operands that meet the hypotheses of each clause of DieFatalStopsTheDie. -/
theorem witness_DieFatalStopsTheDie :
    (∃ (s : State) (unit : Nat), 1 ≤ unit ∧ unit ≤ 6 ∧ s.get Fld.ERR_ERR_FATAL_FATAL = 0) :=
  ⟨alive, 6, by decide +kernel⟩

/-- A state and operands that meet the hypotheses of each clause of MeasurementsExtendAndQuotesCarryTheNonce. -/
theorem witness_MeasurementsExtendAndQuotesCarryTheNonce :
    (∃ (a : Acc) (i : _), a.cls = .mp ∧ 4 ≤ i ∧ i < 8 ∧ a.loc = true) ∧
    (∃ (a : Acc) (i : _), a.cls = .mp ∧ i < 4 ∧ a.loc = true) ∧
    (∃ (s : State) (a : Acc), a.cls = .mp ∧ s.get Fld.SEC_SEC_STATE_QUOTE_BUSY = 0) ∧
    (∃ (s : State) (a : Acc), a.cls = .mp ∧ s.get Fld.SEC_SEC_STATE_QUOTE_BUSY = 1) :=
  ⟨⟨own, 7, by decide +kernel⟩,
   ⟨own, 3, by decide +kernel⟩,
   ⟨alive, mp, by decide +kernel⟩,
   ⟨alive.put Fld.SEC_SEC_STATE_QUOTE_BUSY 1, mp, by decide +kernel⟩⟩

/-- A state and operands that meet the hypotheses of each clause of OnlyAnAcceptedTokenUnlocks. -/
theorem witness_OnlyAnAcceptedTokenUnlocks :
    (∃ (s : State) (a : Acc), a.cls = .dbg ∧ s.portOpen a = true ∧ s.unlockTest = 0) ∧
    (∃ (s : State) (a : Acc), a.cls = .dbg ∧ s.portOpen a = true ∧ s.unlockTest ≠ 0) :=
  ⟨⟨openPort tokenDie, dbg, by decide +kernel⟩,
   ⟨openPort alive, dbg, by decide +kernel⟩⟩

/-- A state and operands that meet the hypotheses of each clause of DebugMemoryAccessRuns. -/
theorem witness_DebugMemoryAccessRuns :
    (∃ (s : State) (a : Acc), a.cls = .dbg ∧ s.portOpen a = true ∧ s.unlocked = true ∧ s.get Fld.DBG_DBG_STATUS_MA_BUSY = 0) ∧
    (∃ (s : State) (a : Acc), a.cls = .dbg ∧ s.portOpen a = true ∧ s.unlocked = false) ∧
    (∃ (s : State) (m : _), s.maAccess = some m ∧ (m.tag = none ∨ m.reply.isSome = true)) ∧
    (∃ (s : State) (m : _), s.maAccess = some m ∧ m.tag.isSome = true ∧ m.reply = none) :=
  ⟨⟨openPort open1, dbg, by decide +kernel⟩,
   ⟨openPort alive, dbg, by decide +kernel⟩,
   ⟨{ open1 with maAccess := some ⟨true, none, none⟩ }, ⟨true, none, none⟩, by decide +kernel⟩,
   ⟨{ open1 with maAccess := some ⟨false, some 0, none⟩ }, ⟨false, some 0, none⟩, by decide +kernel⟩⟩

/-! ### The sequencer -/

/-- Core 63 holds an instruction at its sequencer. -/
def atSeq (w : Nat) : State := with63 { kern with cur := some (dec w), pc := 0xFC00010 }

def wEnd : Nat := insn 1 0 0 []
def wLoop : Nat := insn 2 0 0 [(24, 3), (40, 2)]
def wJump : Nat := insn 3 0 0 [(24, 2)]
def wFence : Nat := insn 0x50 0 0 [(24, 3)]
def wMma : Nat := insn 0x20 0 1 [(35, 4)]

/-- Core 63 awaits the units at its END. -/
def ending (test : Bool) : State := with63 { kern with cur := some (dec wEnd), waiting := some 5, test := test }

/-- A pass that no MMA closes stays open behind END. -/
def leftOpen : State := with63 { kern with cur := some (dec wEnd), pc := 0xFC00010, sets := [(63, { AccSet.idle with state := 3 })] }

/-- An MMA whose operands are not there stands at the array's head, and decode at END. -/
def stuckAtEnd : State := with63 { kern with cur := some (dec wEnd), aq := [dec wMma] }

/-- The same with the array's queue full and one more MMA to decode. -/
def stuckFull : State := stored 0xFC00000 (leBytes 16 wMma) (with63 { kern with aq := List.replicate 16 (dec wMma) })

/-- Core 63 with an instruction in memory. -/
def fetching (w : Nat) : State := stored 0xFC00000 (leBytes 16 w) (with63 kern)

/-- A state and operands that meet the hypotheses of each clause of ControlInstructionsSteerDecode. -/
theorem witness_ControlInstructionsSteerDecode :
    (∃ (s : State) (c : Nat) (d : Dec), AtSequencer s c d ∧ iMajor d.word = 0x00) ∧
    (∃ (s : State) (c : Nat) (d : Dec), AtSequencer s c d ∧ iMajor d.word = 0x02) ∧
    (∃ (s : State) (c : Nat) (d : Dec), AtSequencer s c d ∧ iMajor d.word = 0x03) ∧
    (∃ (s : State) (c : Nat) (d : Dec), AtSequencer s c d ∧ iMajor d.word = 0x50 ∧ (s.core c).fenced (fenceMask d.word) = true) ∧
    (∃ (s : State) (c : Nat) (d : Dec), AtSequencer s c d ∧ iMajor d.word = 0x50 ∧ (s.core c).fenced (fenceMask d.word) = false) ∧
    (∃ (s : State) (c : Nat) (d : Dec), AtSequencer s c d ∧ iMajor d.word = 0x01 ∧ (s.core c).passOpen = false) ∧
    (∃ (s : State) (c : Nat) (d : Dec), AtSequencer s c d ∧ iMajor d.word = 0x01 ∧ (s.core c).passOpen = true ∧ (∀ e ∈ (s.core c).aq,
      iMajor e.word ≠ 0x20) ∧ (s.core c).run = 1 ∧ (s.core c).test = false) :=
  ⟨⟨atSeq 0, 63, dec 0, by unfold AtSequencer; decide +kernel⟩,
   ⟨atSeq wLoop, 63, dec wLoop, by unfold AtSequencer; decide +kernel⟩,
   ⟨atSeq wJump, 63, dec wJump, by unfold AtSequencer; decide +kernel⟩,
   ⟨atSeq wFence, 63, dec wFence, by unfold AtSequencer; decide +kernel⟩,
   ⟨with63 { kern with cur := some (dec wFence), mq := [dec 0], lq := [dec 0] }, 63, dec wFence, by unfold AtSequencer; decide +kernel⟩,
   ⟨atSeq wEnd, 63, dec wEnd, by unfold AtSequencer; decide +kernel⟩,
   ⟨leftOpen, 63, dec wEnd, by unfold AtSequencer; decide +kernel⟩⟩

/-- A state and operands that meet the hypotheses of each clause of KernelCompletesWhenEveryUnitIsIdle. -/
theorem witness_KernelCompletesWhenEveryUnitIsIdle :
    (∃ (s : State) (c : Nat) (d : Dec) (n : Nat), AtSequencer s c d ∧ iMajor d.word = 0x01 ∧ (s.core c).waiting = some n ∧ (s.core c).run = 1 ∧
      (s.core c).moveIdle = true ∧ (s.core c).loaderIdle = true ∧ (s.core c).arrayIdle = true ∧ (s.core c).vq = [] ∧ (s.core c).epis = [] ∧
      (s.core c).traverseIdle = true ∧ (s.core c).test = false) ∧
    (∃ (s : State) (c : Nat) (d : Dec) (n : Nat), AtSequencer s c d ∧ iMajor d.word = 0x01 ∧ (s.core c).waiting = some n ∧ (s.core c).run = 1 ∧
      (s.core c).moveIdle = true ∧ (s.core c).loaderIdle = true ∧ (s.core c).arrayIdle = true ∧ (s.core c).vq = [] ∧ (s.core c).epis = [] ∧
      (s.core c).traverseIdle = true ∧ (s.core c).test = true) :=
  ⟨⟨ending false, 63, dec wEnd, 5, by unfold AtSequencer; decide +kernel⟩,
   ⟨ending true, 63, dec wEnd, 5, by unfold AtSequencer; decide +kernel⟩⟩

/-- A state and operands that meet the hypotheses of each clause of DecodeQueuesInOrder. -/
theorem witness_DecodeQueuesInOrder :
    (∃ (s : State) (n : Nat), n < 64 ∧ (s.core n).stalled = false ∧ (s.fetch n (s.core n).pc).code = 0 ∧ (s.fetch n (s.core n).pc).state.core n = s.core n ∧ (let w := ((s.core n).resolve (s.fetch n (s.core n).pc).word).1; (let faults := wordFaults n false w ++ ((s.core n).resolve (s.fetch n (s.core n).pc).word).2 ++ (s.core n).flowFaults w; faults = [] ∧ (s.core n).full (unitOfWord w) = false))) ∧
    (∃ (s : State) (n : Nat), n < 64 ∧ (s.core n).stalled = false ∧ (s.fetch n (s.core n).pc).code = 0 ∧ (s.fetch n (s.core n).pc).state.core n = s.core n ∧ (let w := ((s.core n).resolve (s.fetch n (s.core n).pc).word).1; (let faults := wordFaults n false w ++ ((s.core n).resolve (s.fetch n (s.core n).pc).word).2 ++ (s.core n).flowFaults w; faults ≠ [] ∧ (s.core n).test = false))) :=
  ⟨⟨fetching wJump, 63, by dsimp only; decide +kernel⟩,
   ⟨fetching (insn 0x60 0 0 []), 63, by dsimp only; decide +kernel⟩⟩

/-- A state and operands that meet the hypotheses of each clause of CoreFaultStopsTheCore. -/
theorem witness_CoreFaultStopsTheCore :
    (∃ (s : State) (n : Nat) (code : Nat), n < 64 ∧ (s.core n).run = 1 ∧ (s.core n).test = false ∧ code < 16) ∧
    (∃ (s : State) (n : Nat) (code : Nat) (m : _), n < 64 ∧ (s.core n).run = 1 ∧ (s.core n).test = false ∧ code < 16 ∧ (s.core m).run ≠ 1) ∧
    (∃ (s : State) (n : Nat) (code : Nat) (m : _), n < 64 ∧ (s.core n).run = 1 ∧ (s.core n).test = false ∧ code < 16 ∧ m ≠ n ∧
      (s.core m).gang ≠ (s.core n).gang) :=
  ⟨⟨with63 kern, 63, 15, by decide +kernel⟩,
   ⟨with63 kern, 63, 15, 0, by decide +kernel⟩,
   ⟨with63 kern, 63, 15, 62, by decide +kernel⟩⟩

/-- A state and operands that meet the hypotheses of each clause of ResidencyDeadlockFaults. -/
theorem witness_ResidencyDeadlockFaults :
    (∃ (s : State) (c : Nat) (d : Dec) (l : List Dec), Deadlocked s c (d :: l)) ∧
    (∃ (s : State) (c : Nat) (d : Dec) (l : List Dec), Deadlocked s c (d :: l)) :=
  ⟨⟨stuckAtEnd, 63, dec wMma, [], ⟨by decide +kernel, by decide +kernel, by decide +kernel, by decide +kernel, (fun d q h => by
    have e : (stuckAtEnd.core 63).aq = [dec wMma] := by decide +kernel
    rw [e] at h; cases h; decide +kernel), (fun d q h => by
    have e : (stuckAtEnd.core 63).lq = [] := by decide +kernel
    rw [e] at h; cases h), by decide +kernel, .inl ⟨dec wEnd, by decide +kernel⟩⟩⟩,
   ⟨stuckFull, 63, dec wMma, List.replicate 15 (dec wMma), ⟨by decide +kernel, by decide +kernel, by decide +kernel, by decide +kernel,
     (fun d q h => by
    have e : (stuckFull.core 63).aq = dec wMma :: List.replicate 15 (dec wMma) := by decide +kernel
    rw [e] at h; cases h; decide +kernel), (fun d q h => by
    have e : (stuckFull.core 63).lq = [] := by decide +kernel
    rw [e] at h; cases h), by decide +kernel, .inr (by decide +kernel)⟩⟩⟩

/-! ### The matrix unit -/

/-- An MMA over halves 0 and 2. -/
def mma (mode fl : Nat) : Nat := insn 0x20 mode fl [(24, 0), (28, 0), (35, 4), (62, 0), (68, 10), (84, 20)]

/-- A half with one record. -/
def half1 (st k : Nat) : Half := { state := st, fmt := 0, k := k, recs := [(List.range 64).map (BitVec.ofNat 8)] }

/-- Core 63 with an instruction at its array unit, halves 0 and 2 filled. -/
def atArr (w : Nat) : State := with63 { kern with halves := [(0, half1 2 4), (2, half1 2 4)], aq := [dec w] }

/-- The instruction stands at the array unit of core 63, its table in memory. -/
def withTable (w : Nat) (b : Bytes) : State := stored 0xFC02000 b (with63 { kern with aq := [dec w] })

def wPdset : Nat := insn 0x23 0 0 [(24, 2), (32, 0xFC02000)]
def wMskset : Nat := insn 0x24 0 0 [(24, 2), (32, 0xFC02000)]
def wWtset : Nat := insn 0x25 0 0 [(24, 2), (32, 0xFC02000)]
def wOpld : Nat := insn 0x21 0 0 [(24, 0), (64, 4), (75, 1), (96, 1), (32, 0xFC02000)]

/-- A final pass descriptor: a kernel without an epilogue's record. -/
def finalDesc : Nat := 2 + 0xFC05000 * 2 ^ 32 + 0xFC03000 * 2 ^ 64 + 0xFC06000 * 2 ^ 96 + 64 * 2 ^ 128

/-- An accumulator set. -/
def accSet (st desc : Nat) (feeding : Bool) : AccSet := { AccSet.idle with state := st, desc := desc, claimSeq := some 5, feeding := feeding }

/-- A waiting epilogue. -/
def epi1 : Epi := { set := 0, seq := 5, desc := 2, pc := 0xFC03000, rows := 1, cols := 1, orgM := 0, orgN := 0, started := false, ip := 0, taken := 0 }

/-- Core 63 with an accumulator set. -/
def withSet (u : Nat) (x : AccSet) : State := with63 { kern with sets := [(u, x)] }

/-- An open record at the descriptor's pass base that has lapsed: its header, and its areas zeros. -/
def openRecord (s : State) : State :=
  ((s.setGran 63 3 (granWord 1 0 1 1 0 3 0)).writeMem { Who.self 3 4 with pass := true } 0xFC10000 (leBytes 64 (9 + 5 * 2 ^ 32))).1

/-- The hypotheses of an issuing MMA that can be computed. -/
theorem mmaIssues_of {s : State} {c : Nat} {d : Dec} {u : Nat} {x : AccSet} (g : MmaGoes s c d u x)
    (h : iMajor d.word = 0x20 ∧ (s.core c).mmaResident d.word = true ∧ (s.core c).mmaMismatch d.word = false ∧ (s.core c).notFeeding = true ∧
      (s.halfErrors c (mmaAHalf d.word) x.rows (mmaK d.word) = [] ∧ s.halfErrors c (mmaBHalf d.word) x.cols (mmaK d.word) = []) ∧
      s.heldBack (2 * c) = false ∧ (s.core c).trap = false) : MmaIssues s c d u x :=
  ⟨h.1, g, h.2.1, h.2.2.1, h.2.2.2.1, h.2.2.2.2.1, h.2.2.2.2.2.1, h.2.2.2.2.2.2⟩

/-- A state and operands that meet the hypotheses of each clause of IssuedMmaAddsItsCombine. -/
theorem witness_IssuedMmaAddsItsCombine :
    (∃ (s : State) (c : Nat) (d : Dec) (q : List Dec) (mode : Nat) (u : Nat) (x : AccSet), AtArray s c d q ∧ MmaIssues s c d u x ∧ mode ≤ 6 ∧
      iMinor d.word = mode) ∧
    (∃ (s : State) (c : Nat) (d : Dec) (q : List Dec) (mode : Nat) (u : Nat) (x : AccSet), AtArray s c d q ∧ MmaIssues s c d u x ∧ mode ≤ 6 ∧
      iMinor d.word = mode) ∧
    (∃ (s : State) (c : Nat) (d : Dec) (q : List Dec) (mode : Nat) (u : Nat) (x : AccSet), AtArray s c d q ∧ MmaIssues s c d u x ∧ mode ≤ 6 ∧
      iMinor d.word = mode) ∧
    (∃ (s : State) (c : Nat) (d : Dec) (q : List Dec) (mode : Nat) (u : Nat) (x : AccSet), AtArray s c d q ∧ MmaIssues s c d u x ∧ mode ≤ 6 ∧
      iMinor d.word = mode) :=
  ⟨⟨atArr (mma 6 1), 63, dec (mma 6 1), [], 6, 0, kern.openSet (mma 6 1) 5 3, ⟨by unfold AtArray; decide +kernel,
    mmaIssues_of (Or.inl (by decide +kernel)) (by decide +kernel), by decide +kernel⟩⟩,
   ⟨with63 { kern with halves := [(0, half1 2 4), (2, half1 2 4)], pd := [(0, 1)], sets := [(1, accSet 2 1 false)], aq := [dec (mma 6 1)] }, 63,
     dec (mma 6 1), [], 6, 1, accSet 2 1 false, ⟨by unfold AtArray; decide +kernel,
     mmaIssues_of (Or.inr (Or.inl (by decide +kernel))) (by decide +kernel), by decide +kernel⟩⟩,
   ⟨with63 { kern with halves := [(0, half1 2 4), (2, half1 2 4)], sets := [(1, kern.openSet (mma 6 0) 5 3)], aq := [dec (mma 6 0)] }, 63,
     dec (mma 6 0), [], 6, 1, kern.openSet (mma 6 0) 5 3, ⟨by unfold AtArray; decide +kernel,
     mmaIssues_of (Or.inr (Or.inr (Or.inl (by decide +kernel)))) (by decide +kernel), by decide +kernel⟩⟩,
   ⟨(((atArr (mma 6 3)).put Fld.CORE_CORE_STATE_STATE 3 63).put Fld.CORE_CORE_CFG_ACC_SPLIT 4 63).put Fld.CORE_CORE_CFG_SPLIT_BARE 1 63, 63,
     dec (mma 6 3), [], 6, 0, kern.openSet (mma 6 3) 5 3, ⟨by unfold AtArray; decide +kernel, mmaIssues_of (Or.inr (Or.inr (Or.inr ⟨(4, true),
     by decide +kernel⟩))) (by decide +kernel), by decide +kernel⟩⟩⟩

/-- A state and operands that meet the hypotheses of each clause of MisplacedMmaFaults. -/
theorem witness_MisplacedMmaFaults :
    (∃ (s : State) (c : Nat) (d : Dec) (q : List Dec) (mode : Nat), AtArray s c d q ∧ mode ≤ 6 ∧ iMajor d.word = 0x20 ∧ iMinor d.word = mode ∧
      s.split c = none ∧ (s.core c).run = 1 ∧ (s.core c).test = false ∧ mmaOpen d.word = (s.core c).openPass.isSome) ∧
    (∃ (s : State) (c : Nat) (d : Dec) (q : List Dec) (mode : Nat), AtArray s c d q ∧ mode ≤ 6 ∧ iMajor d.word = 0x20 ∧ iMinor d.word = mode ∧
      s.split c = none ∧ (s.core c).run = 1 ∧ (s.core c).test = false ∧ mmaOpen d.word = true ∧ (s.core c).openPass = none ∧
      (s.core c).openTarget d ≠ none ∧ (s.core c).mmaResident d.word = true ∧ (s.core c).mmaMismatch d.word = true) :=
  ⟨⟨atArr (mma 6 0), 63, dec (mma 6 0), [], 6, by unfold AtArray; decide +kernel⟩,
   ⟨with63 { kern with halves := [(0, { half1 2 4 with fmt := 1 }), (2, half1 2 4)], aq := [dec (mma 6 1)] }, 63, dec (mma 6 1), [], 6,
     by unfold AtArray; decide +kernel⟩⟩

/-- A state and operands that meet the hypotheses of each clause of OperandHalfGoesRound. -/
theorem witness_OperandHalfGoesRound :
    (∃ (s : State) (c : Nat) (d : _) (q : _), c < 64 ∧ (s.core c).lq = d :: q ∧ ((s.core c).half (opldHalf d.word)).state = 0 ∧
      (opldReads s c d.word).1.status = 0 ∧ (opldReads s c d.word).1.state.core c = s.core c) ∧
    (∃ (s : State) (c : Nat) (h : _) (l : List Nat), c < 64 ∧ (s.core c).loading = h :: l) ∧
    (∃ (s : State) (c : Nat) (d : _) (q : _), c < 64 ∧ (s.core c).aq = d :: q ∧ iMajor d.word = 0x22) ∧
    (∃ (s : State) (c : Nat) (h : _), c < 64 ∧ h < 4 ∧ ((s.core c).half h).state = 3) :=
  ⟨⟨stored 0xFC02000 (zeros 128) (with63 { kern with lq := [dec wOpld] }), 63, dec wOpld, [], by decide +kernel⟩,
   ⟨with63 { kern with loading := [3], halves := [(3, half1 1 4)] }, 63, 3, [], by decide +kernel⟩,
   ⟨with63 { kern with aq := [dec (insn 0x22 0 0 [(24, 15)])] }, 63, dec (insn 0x22 0 0 [(24, 15)]), [], by decide +kernel⟩,
   ⟨with63 { kern with halves := [(3, half1 3 4)] }, 63, 3, by decide +kernel⟩⟩

/-- A state and operands that meet the hypotheses of each clause of TablesLoadFromTheWindow. -/
theorem witness_TablesLoadFromTheWindow :
    (∃ (s : State) (c : Nat) (d : Dec) (q : List Dec), AtArray s c d q ∧ (let r := s.readMem (s.coreWho c 3) (iAddr32 d.word) 32;
      iMajor d.word = 0x23 ∧ (∀ e ∈ (s.core c).sets, e.2.pd ≠ iSel d.word) ∧ r.status = 0 ∧ r.state.core c = s.core c ∧
      r.state.pdFaults c ((s.core c).resolvePd (leVal r.bytes)).1 ((s.core c).resolvePd (leVal r.bytes)).2 = [])) ∧
    (∃ (s : State) (c : Nat) (d : Dec) (q : List Dec), AtArray s c d q ∧ (let r := s.readMem (s.coreWho c 3) (iAddr32 d.word) 32;
      iMajor d.word = 0x24 ∧ (∀ e ∈ (s.core c).sets, e.2.state = 3 ∨ e.2.state = 4 → e.2.maskSel ≠ bitsAt d.word 24 2) ∧ r.status = 0 ∧
      r.state.core c = s.core c)) ∧
    (∃ (s : State) (c : Nat) (d : Dec) (q : List Dec), AtArray s c d q ∧ (let r := s.readMem (s.coreWho c 3) (iAddr32 d.word) 16;
      iMajor d.word = 0x25 ∧ (∀ e ∈ (s.core c).sets, e.2.feeding = true → e.2.feedWt ≠ some (bitsAt d.word 24 2)) ∧ r.status = 0 ∧
      r.state.core c = s.core c ∧ (∀ e < 16, bitsAt (leVal r.bytes) (8 * e + 6) 2 = 0))) :=
  ⟨⟨withTable wPdset (leBytes 32 finalDesc), 63, dec wPdset, [], by unfold AtArray; dsimp only; decide +kernel⟩,
   ⟨withTable wMskset (zeros 32), 63, dec wMskset, [], by unfold AtArray; dsimp only; decide +kernel⟩,
   ⟨withTable wWtset (zeros 16), 63, dec wWtset, [], by unfold AtArray; dsimp only; decide +kernel⟩⟩

/-- A state and operands that meet the hypotheses of each clause of AccumulatorSetGoesThroughItsStates. -/
theorem witness_AccumulatorSetGoesThroughItsStates :
    (∃ (s : State) (c : Nat) (u : _) (d : _), c < 64 ∧ (s.core c).aq ≠ [] ∧ s.claimable c = some (u, d)) ∧
    (∃ (s : State) (c : Nat) (u : _), c < 64 ∧ u < 2 ∧ ((s.core c).set u).state = 1 ∧
      (s.core c).recordBusy u (pdPassBase ((s.core c).set u).desc) = true) ∧
    (∃ (s : State) (c : Nat) (u : _), c < 64 ∧ u < 2 ∧ ((s.core c).set u).state = 1 ∧ (s.core c).recordBusy u (pdPassBase ((s.core c).set u).desc) = false ∧ (let r := s.readMem (s.passWho c) (pdPassBase ((s.core c).set u).desc) 64; r.status = 0 ∧ (hdrFlag r.bytes 0 = false ∨ leAt r.bytes 1 1 ≠ ((s.core c).set u).mode ∨ hdrFlag r.bytes 2 ≠ ((s.core c).set u).b64) ∧ r.state.core c = s.core c)) ∧
    (∃ (s : State) (c : Nat) (u : _), c < 64 ∧ u < 2 ∧ ((s.core c).set u).state = 1 ∧ (s.core c).recordBusy u (pdPassBase ((s.core c).set u).desc) = false ∧ (let x := (s.core c).set u; (let r := s.readMem (s.passWho c) (pdPassBase x.desc) 64; (let q := r.state.readElems c (pdPassBase x.desc) 9 passOff (x.acc.map (·.1)); r.status = 0 ∧ hdrFlag r.bytes 0 = true ∧ leAt r.bytes 1 1 = x.mode ∧ hdrFlag r.bytes 2 = x.b64 ∧ q.1.status = 0 ∧ q.1.state.core c = s.core c)))) ∧
    (∃ (s : State) (c : Nat) (u : _), c < 64 ∧ u < 64 ∧ ((s.core c).set u).state = 3 ∧ ((s.core c).set u).feeding = true ∧
      ((s.core c).set u).closeSeq = none) ∧
    (∃ (s : State) (c : Nat) (u : _), c < 64 ∧ u < 64 ∧ ((s.core c).set u).state = 3 ∧ ((s.core c).set u).feeding = true ∧
      ((s.core c).set u).closeSeq.isSome = true ∧ pdFinal ((s.core c).set u).desc = false) ∧
    (∃ (s : State) (c : Nat) (u : _), c < 64 ∧ u < 64 ∧ ((s.core c).set u).state = 3 ∧ ((s.core c).set u).feeding = true ∧
      ((s.core c).set u).closeSeq.isSome = true ∧ pdFinal ((s.core c).set u).desc = true ∧ (s.core c).epis ≠ []) ∧
    (∃ (s : State) (c : Nat) (u : _), c < 64 ∧ u < 64 ∧ ((s.core c).set u).state = 4) :=
  ⟨⟨with63 { kern with pd := [(0, 1 + 0xFC10000 * 2 ^ 32)], aq := [dec (mma 0 1)] }, 63, 0, dec (mma 0 1), by decide +kernel⟩,
   ⟨with63 { kern with sets := [(0, { accSet 5 (1 + 0xFC10000 * 2 ^ 32) false with claimSeq := some 4 }), (1, accSet 1 (1 + 0xFC10000 * 2 ^ 32) false)] }, 63, 1, by decide +kernel⟩,
   ⟨withSet 1 (accSet 1 (1 + 0xFC10000 * 2 ^ 32) false), 63, 1, by dsimp only; decide +kernel⟩,
   ⟨openRecord (withSet 1 { accSet 1 (1 + 0xFC10000 * 2 ^ 32) false with acc := [(0, 0)] }), 63, 1, by dsimp only; decide +kernel⟩,
   ⟨withSet 63 (accSet 3 1 true), 63, 63, by decide +kernel⟩,
   ⟨withSet 63 { accSet 3 1 true with closeSeq := some 6 }, 63, 63, by decide +kernel⟩,
   ⟨with63 { kern with sets := [(63, { accSet 3 2 true with closeSeq := some 6 })], epis := [epi1] }, 63, 63, by decide +kernel⟩,
   ⟨withSet 63 (accSet 4 1 false), 63, 63, by decide +kernel⟩⟩

/-- A state and operands that meet the hypotheses of each clause of SpillWritesThePassRecord. -/
theorem witness_SpillWritesThePassRecord :
    (∃ (s : State) (c : Nat) (u : Nat), c < 64 ∧ u < 64 ∧ ((s.core c).set u).state = 5 ∧ pdFinal ((s.core c).set u).desc = false ∧
      (s.core c).sets.any (fun e => e.1 != u && e.2.closeSeq.isSome && decide (e.2.order < ((s.core c).set u).order) && pdUsesRecord e.2.desc && pdPassBase e.2.desc == pdPassBase ((s.core c).set u).desc) = true) ∧
    (∃ (s : State) (c : Nat) (u : Nat), c < 64 ∧ u < 64 ∧ ((s.core c).set u).state = 5 ∧ pdFinal ((s.core c).set u).desc = false ∧ (∀ e ∈ (s.core c).sets, e.1 = u ∨ pdPassBase e.2.desc ≠ pdPassBase ((s.core c).set u).desc) ∧ s.split c = none ∧ s.mayWritePass c (pdPassBase ((s.core c).set u).desc) = true ∧ (let x := (s.core c).set u; (let base := pdPassBase x.desc; (let h (o n : Nat) : Nat := if x.resumed then leAt x.hdr o n else 0; h 2 1 + 1 < (s.core c).spill + 1 ∧ (let w := s.writeElems c base 9 passOff x.acc; w.2 = 0))))) ∧
    (∃ (s : State) (c : Nat) (u : Nat), c < 64 ∧ u < 64 ∧ ((s.core c).set u).state = 5 ∧ pdFinal ((s.core c).set u).desc = false ∧ (∀ e ∈ (s.core c).sets, e.1 = u ∨ pdPassBase e.2.desc ≠ pdPassBase ((s.core c).set u).desc) ∧ s.split c = none ∧ s.mayWritePass c (pdPassBase ((s.core c).set u).desc) = true ∧ (let x := (s.core c).set u; (let base := pdPassBase x.desc; (let h (o n : Nat) : Nat := if x.resumed then leAt x.hdr o n else 0; (let led : Bool := x.resumed && hdrFlag x.hdr 1; (s.core c).spill + 1 ≤ h 2 1 + 1 ∧ (let r := if led then s.readElems c base 16 ledgerOff (x.acc.map (·.1)) else (⟨s, 0, []⟩, x.acc.map (fun e => (e.1, 0))); (let entry (e : (Nat × Nat) × (Nat × Nat)) : Val × Val := if led then foldResult x.mode (fB64.dec (e.2.2 % 2 ^ 64), fB64.dec (e.2.2 / 2 ^ 64)) (contSum x.b64 e.1.2) (contComp x.b64 e.1.2) else (contSum x.b64 e.1.2, contComp x.b64 e.1.2); (let w := r.1.state.writeElems c base 16 ledgerOff ((x.acc.zip r.2).map (fun e => (e.1.1, fB64.enc (entry e).1 + 2 ^ 64 * fB64.enc (entry e).2))); (let z := w.1.writeElems c base 9 passOff (x.acc.map (fun e => (e.1, contOf x.b64 (freshSum x.mode) vzero))); r.1.status = 0 ∧ (led = true → ¬(3 ≤ x.mode ∧ x.mode ≤ 5) → ∀ e ∈ x.acc.zip r.2, (entry e).1.isInf = false ∧ (entry e).1.isNan = false) ∧ w.2 = 0 ∧ z.2 = 0))))))))) ∧
    (∃ (s : State) (c : Nat) (u : Nat), c < 64 ∧ u < 64 ∧ ((s.core c).set u).state = 5 ∧ pdFinal ((s.core c).set u).desc = false ∧ (∀ e ∈ (s.core c).sets, e.1 = u ∨ pdPassBase e.2.desc ≠ pdPassBase ((s.core c).set u).desc) ∧ s.split c = none ∧ s.mayWritePass c (pdPassBase ((s.core c).set u).desc) = true ∧ (let x := (s.core c).set u; (let base := pdPassBase x.desc; (let h (o n : Nat) : Nat := if x.resumed then leAt x.hdr o n else 0; (let led : Bool := x.resumed && hdrFlag x.hdr 1; (s.core c).spill + 1 ≤ h 2 1 + 1 ∧ (let r := if led then s.readElems c base 16 ledgerOff (x.acc.map (·.1)) else (⟨s, 0, []⟩, x.acc.map (fun e => (e.1, 0))); (let entry (e : (Nat × Nat) × (Nat × Nat)) : Val × Val := if led then foldResult x.mode (fB64.dec (e.2.2 % 2 ^ 64), fB64.dec (e.2.2 / 2 ^ 64)) (contSum x.b64 e.1.2) (contComp x.b64 e.1.2) else (contSum x.b64 e.1.2, contComp x.b64 e.1.2); (let w := r.1.state.writeElems c base 16 ledgerOff ((x.acc.zip r.2).map (fun e => (e.1.1, fB64.enc (entry e).1 + 2 ^ 64 * fB64.enc (entry e).2))); (let z := w.1.writeElems c base 9 passOff (x.acc.map (fun e => (e.1, contOf x.b64 (freshSum x.mode) vzero))); r.1.status = 0 ∧ (led = true → ¬(3 ≤ x.mode ∧ x.mode ≤ 5) → ∀ e ∈ x.acc.zip r.2, (entry e).1.isInf = false ∧ (entry e).1.isNan = false) ∧ w.2 = 0 ∧ z.2 = 0))))))))) ∧
    (∃ (s : State) (c : Nat) (u : Nat), c < 64 ∧ u < 64 ∧ ((s.core c).set u).state = 5 ∧ pdFinal ((s.core c).set u).desc = false ∧
      (∀ e ∈ (s.core c).sets, e.1 = u ∨ pdPassBase e.2.desc ≠ pdPassBase ((s.core c).set u).desc) ∧
      s.mayWritePass c (pdPassBase ((s.core c).set u).desc) = false ∧ (s.core c).run = 1 ∧ (s.core c).test = false) :=
  ⟨⟨with63 { kern with sets := [(0, { accSet 3 (1 + 0xFC10000 * 2 ^ 32) false with closeSeq := some 4, order := 1 }), (1, { accSet 5 (1 + 0xFC10000 * 2 ^ 32) false with order := 2 })] }, 63, 1, by decide +kernel⟩,
   ⟨withSet 63 { accSet 5 (1 + 0xFC10000 * 2 ^ 32) false with rows := 1, cols := 1, acc := [(0, 5)] }, 63, 63, by dsimp only; decide +kernel⟩,
   ⟨(openRecord (with63 { kern with spill := 0, sets := [(63, { accSet 5 (1 + 0xFC10000 * 2 ^ 32) false with rows := 1, cols := 1, acc := [(0, 5)] })] })), 63, 63, by dsimp only; decide +kernel⟩,
   ⟨(openRecord (with63 { kern with spill := 0, sets := [(63, { { accSet 5 (1 + 0xFC10000 * 2 ^ 32) false with rows := 1, cols := 1, acc := [(0, 5)] } with resumed := true, hdr := leBytes 64 3 })] })), 63, 63, by dsimp only; decide +kernel⟩,
   ⟨{ withSet 63 (accSet 5 (1 + 0xFC10000 * 2 ^ 32) false) with gangs := [{ gid := 5, queue := 0, ring := 0, members := [63], dom := 3, kinst := 256, step := 0, arg := 0, group := true, level := 1, regions := [], writable := [], started := 0, limit := 0, sigAdd := none, stop := none }] }, 63, 63, by decide +kernel⟩⟩

/-! ### The vector engine -/

/-- A vector instruction word: destination 2, sources 0, 1 and 3, an element type, a count and more fields. -/
def vec (maj mi fl et cnt : Nat) (fs : List (Nat × Nat)) : Nat :=
  insn maj mi fl ([(24, 2), (28, 0), (32, 1), (36, 3), (40, 1), (43, et), (46, cnt)] ++ fs)

/-- Core 63 with a vector instruction next, and predicate 1. -/
def atVec (w : Nat) : State := with63 { kern with preds := [(1, 3)], vq := [dec w] }

/-- The same with an index past the count in register 1. -/
def atPerm (w : Nat) : State := with63 { kern with vregs := [(8192, 0xFFFF#32)], preds := [(1, 3)], vq := [dec w] }

/-- A final pass descriptor with its output in memory. -/
def outDesc : Nat := 2 + 0xFC06000 * 2 ^ 96 + 256 * 2 ^ 128
def epi2 (started : Bool) : Epi :=
  { set := 0, seq := 5, desc := outDesc, pc := 0xFC03000, rows := 3, cols := 3, orgM := 0, orgN := 0, started := started, ip := 0, taken := 0 }

/-- Core 63 with an epilogue over a draining set. -/
def atEpi (w : Nat) (started : Bool) : State :=
  with63 { kern with sets := [(0, { accSet 5 outDesc false with closeSeq := some 5, rows := 3, cols := 3, acc := [(0, 5), (1, 6), (128, 7), (129, 8)] })],
                     epis := [epi2 started], epiPc := some 0xFC03000, epiCode := [w] }

/-- The hypotheses of a vector instruction of the main program that can be computed. -/
theorem vecReady_main {s : State} {c : Nat} {d : Dec} {q : List Dec}
    (h : c < 64 ∧ s.vecFlips c d.word = [] ∧ vCount d.word ≤ 8192 ∧ (s.core c).trap = false ∧ (s.core c).vq = d :: q ∧
      (s.core c).sharedWait d = false ∧ s.heldBack (2 * c + 1) = false) : VecReady s c false d :=
  ⟨h.1, h.2.1, h.2.2.1, h.2.2.2.1, fun _ => ⟨⟨q, h.2.2.2.2.1⟩, h.2.2.2.2.2⟩, (fun x => by cases x)⟩

/-- The hypotheses of a vector instruction of an epilogue that can be computed. -/
theorem vecReady_epi {s : State} {c : Nat} {d : Dec} {e : Epi} {q : List Epi}
    (h : c < 64 ∧ s.vecFlips c d.word = [] ∧ vCount d.word ≤ 8192 ∧ (s.core c).trap = false ∧ (s.core c).epis = e :: q ∧
      e.started = true ∧ (s.core c).epiCode[e.ip]? = some d.word ∧ d.seq = e.seq) : VecReady s c true d :=
  ⟨h.1, h.2.1, h.2.2.1, h.2.2.2.1, (fun x => by cases x), fun _ => ⟨e, q, h.2.2.2.2⟩⟩

/-- A numeric event. -/
def event3 : NumEv :=
  { unit := 1, cause := 3, seq := 5, group := 0, x := 1, y := 2, set := 0, orgM := 0, orgN := 0, kblk := 0, opa := 1, opb := 2, scales := 0 }

/-- Its core has recorded the event of instruction `seq`. -/
def recorded (seq : Nat) : State := (with63 kern).numEvents 63 { count := 1, best := some { event3 with seq := seq } }

/-- A state and operands that meet the hypotheses of each clause of ValuLanesHoldTheirResults. -/
theorem witness_ValuLanesHoldTheirResults :
    (∃ (s : State) (c : Nat) (epi : Bool) (d : Dec) (mi : Nat) (i : Instr), VecReady s c epi d ∧ isOp 0x30 mi d.word = true ∧
      valuCommand c epi mi = some i) :=
  ⟨atVec (vec 0x30 0x15 0 2 6 []), 63, false, dec (vec 0x30 0x15 0 2 6 []), 0x15, .valuSar 63 false, ⟨vecReady_main (q := []) (by decide +kernel),
    by decide +kernel, rfl⟩⟩

/-- A state and operands that meet the hypotheses of each clause of SelectAndSplitWriteTheirElements. -/
theorem witness_SelectAndSplitWriteTheirElements :
    (∃ (s : State) (c : Nat) (epi : Bool) (d : Dec), VecReady s c epi d ∧ (let w := d.word; isOp 0x30 0x0A w = true)) ∧
    (∃ (s : State) (c : Nat) (epi : Bool) (d : Dec), VecReady s c epi d ∧ (let w := d.word; isOp 0x30 0x16 w = true)) :=
  ⟨⟨atVec (vec 0x30 0x0A 0 0 6 []), 63, false, dec (vec 0x30 0x0A 0 0 6 []), ⟨vecReady_main (q := []) (by decide +kernel),
    by dsimp only; decide +kernel⟩⟩,
   ⟨atVec (vec 0x30 0x16 0 0 6 []), 63, false, dec (vec 0x30 0x16 0 0 6 []), ⟨vecReady_main (q := []) (by decide +kernel),
     by dsimp only; decide +kernel⟩⟩⟩

/-- A state and operands that meet the hypotheses of each clause of SpecialFunctionLanesHoldTheirValue. -/
theorem witness_SpecialFunctionLanesHoldTheirValue :
    (∃ f, f ≤ 0x0E ∧ f ≠ 3) ∧
    (∃ (f : _) (m : Int), f ∈ [0x01, 0x02] ∧ m < 0) ∧
    (∃ f, f ∈ [0x04, 0x06]) ∧
    (∃ f, f ∈ [0x05, 0x07]) ∧
    (∃ f, f ∈ [0x05, 0x07]) ∧
    (∃ (f : _) (m : Int), f ∈ [0x05, 0x07] ∧ m < 0) ∧
    (∃ f, f ∈ [0x08, 0x0C]) ∧
    (∃ f, f ∈ [0x0A, 0x0B]) ∧
    (∃ f, f ∈ [0x0D, 0x0E]) ∧
    (∃ (m : Int), 0 < m) ∧
    (∃ (f : _) (a : Val), f ≤ 0x0E ∧ f ≠ 2 ∧ f ≠ 3 ∧ sfuSpecial f a = none ∧ (let x := sfuExact f a; (fB32.rne x).isInf = true)) ∧
    (∃ (f : _) (a : Val), f ≤ 0x0E ∧ f ≠ 2 ∧ f ≠ 3 ∧ sfuSpecial f a = none ∧ (let x := sfuExact f a; (fB32.rne x).isInf = false)) ∧
    (∃ (s : State) (c : Nat) (epi : Bool) (d : Dec) (f : Nat) (i : Instr), VecReady s c epi d ∧ isOp 0x31 f d.word = true ∧
      vsfuCommand c epi f = some i) :=
  ⟨⟨0x0E, by decide +kernel⟩,
   ⟨0x02, -1, by decide +kernel⟩,
   ⟨0x06, by decide +kernel⟩,
   ⟨0x07, by decide +kernel⟩,
   ⟨0x07, by decide +kernel⟩,
   ⟨0x07, -1, by decide +kernel⟩,
   ⟨0x0C, by decide +kernel⟩,
   ⟨0x0B, by decide +kernel⟩,
   ⟨0x0E, by decide +kernel⟩,
   ⟨1, by decide +kernel⟩,
   ⟨0, .fin 1 (-149), by dsimp only; decide +kernel⟩,
   ⟨0x0E, .fin 1 18, by dsimp only; decide +kernel⟩,
   ⟨atVec (vec 0x31 0x0E 0 0 6 []), 63, false, dec (vec 0x31 0x0E 0 0 6 []), 0x0E, .vsfuCos 63 false, ⟨vecReady_main (q := []) (by decide +kernel),
     by decide +kernel, rfl⟩⟩⟩

/-- A state and operands that meet the hypotheses of each clause of ComparesWriteTheirPredicate. -/
theorem witness_ComparesWriteTheirPredicate :
    (∃ (s : State) (c : Nat) (epi : Bool) (d : Dec) (mi : Nat) (i : Instr) (f : Val → Val → Bool), VecReady s c epi d ∧ isOp 0x32 mi d.word = true ∧
      vcmpCommand c epi mi = some (i, f) ∧ bitsAt d.word 24 3 ≠ 0) ∧
    (∃ (v : Nat), iMajor v = 0x32 ∧ 7 ≤ iMinor v) ∧
    (∃ (v : Nat), iMajor v = 0x32 ∧ iMinor v ≤ 6 ∧ bitsAt v 24 3 = 0) ∧
    (∃ (v : Nat), iMajor v = 0x32 ∧ iMinor v = 6 ∧ 2 ≤ vEt v) :=
  ⟨⟨atVec (vec 0x32 6 0 0 6 []), 63, false, dec (vec 0x32 6 0 0 6 []), 6, .vcmpUnordered 63 false, fun a b => a.isNan || b.isNan,
    ⟨vecReady_main (q := []) (by decide +kernel), by decide +kernel, rfl, by decide +kernel⟩⟩,
   ⟨insn 0x32 7 0 [], by decide +kernel⟩,
   ⟨insn 0x32 6 0 [], by decide +kernel⟩,
   ⟨insn 0x32 6 0 [(24, 1), (43, 2)], by decide +kernel⟩⟩

/-- A state and operands that meet the hypotheses of each clause of BitReductionsFoldTheActiveElements. -/
theorem witness_BitReductionsFoldTheActiveElements :
    (∃ (s : State) (c : Nat) (epi : Bool) (d : Dec), VecReady s c epi d ∧ (let w := d.word; isOp 0x33 0x00 w = true ∧ vEt w = 2)) ∧
    (∃ (s : State) (c : Nat) (epi : Bool) (d : Dec), VecReady s c epi d ∧ (let w := d.word; isOp 0x33 0x03 w = true)) ∧
    (∃ (s : State) (c : Nat) (epi : Bool) (d : Dec), VecReady s c epi d ∧ (let w := d.word; isOp 0x33 0x04 w = true)) ∧
    (∃ (s : State) (c : Nat) (epi : Bool) (d : Dec), VecReady s c epi d ∧ (let w := d.word; isOp 0x33 0x05 w = true)) ∧
    (∃ (s : State) (c : Nat) (epi : Bool) (d : Dec), VecReady s c epi d ∧ (let w := d.word; isOp 0x33 0x06 w = true)) ∧
    (∃ (s : State) (c : Nat) (epi : Bool) (d : Dec), VecReady s c epi d ∧ (let w := d.word; isOp 0x33 0x10 w = true)) ∧
    (∃ (s : State) (c : Nat) (epi : Bool) (d : Dec), VecReady s c epi d ∧ (let w := d.word; isOp 0x33 0x11 w = true)) ∧
    (∃ (s : State) (c : Nat) (epi : Bool) (d : Dec), VecReady s c epi d ∧ (let w := d.word; isOp 0x33 0x12 w = true)) ∧
    (∃ (s : State) (c : Nat) (epi : Bool) (d : Dec), VecReady s c epi d ∧ (let w := d.word; isOp 0x33 0x13 w = true)) :=
  ⟨⟨atVec (vec 0x33 0 0 2 6 []), 63, false, dec (vec 0x33 0 0 2 6 []), ⟨vecReady_main (q := []) (by decide +kernel), by dsimp only; decide +kernel⟩⟩,
   ⟨atVec (vec 0x33 3 0 2 6 []), 63, false, dec (vec 0x33 3 0 2 6 []), ⟨vecReady_main (q := []) (by decide +kernel), by dsimp only; decide +kernel⟩⟩,
   ⟨atVec (vec 0x33 4 0 2 6 []), 63, false, dec (vec 0x33 4 0 2 6 []), ⟨vecReady_main (q := []) (by decide +kernel), by dsimp only; decide +kernel⟩⟩,
   ⟨atVec (vec 0x33 5 0 2 6 []), 63, false, dec (vec 0x33 5 0 2 6 []), ⟨vecReady_main (q := []) (by decide +kernel), by dsimp only; decide +kernel⟩⟩,
   ⟨atVec (vec 0x33 6 0 2 6 []), 63, false, dec (vec 0x33 6 0 2 6 []), ⟨vecReady_main (q := []) (by decide +kernel), by dsimp only; decide +kernel⟩⟩,
   ⟨atVec (vec 0x33 0x10 0 2 6 []), 63, false, dec (vec 0x33 0x10 0 2 6 []), ⟨vecReady_main (q := []) (by decide +kernel),
     by dsimp only; decide +kernel⟩⟩,
   ⟨atVec (vec 0x33 0x11 0 2 6 []), 63, false, dec (vec 0x33 0x11 0 2 6 []), ⟨vecReady_main (q := []) (by decide +kernel),
     by dsimp only; decide +kernel⟩⟩,
   ⟨atVec (vec 0x33 0x12 0 2 6 []), 63, false, dec (vec 0x33 0x12 0 2 6 []), ⟨vecReady_main (q := []) (by decide +kernel),
     by dsimp only; decide +kernel⟩⟩,
   ⟨atVec (vec 0x33 0x13 0 2 6 []), 63, false, dec (vec 0x33 0x13 0 2 6 []), ⟨vecReady_main (q := []) (by decide +kernel),
     by dsimp only; decide +kernel⟩⟩⟩

/-- A state and operands that meet the hypotheses of each clause of ValueReductionsFoldInOrder. -/
theorem witness_ValueReductionsFoldInOrder :
    (∃ (s : State) (c : Nat) (epi : Bool) (d : Dec), VecReady s c epi d ∧ (let w := d.word; (let et := vEt w; isOp 0x33 0x01 w = true ∧ et ≠ 2))) ∧
    (∃ (s : State) (c : Nat) (epi : Bool) (d : Dec), VecReady s c epi d ∧ (let w := d.word; (let et := vEt w; isOp 0x33 0x02 w = true ∧ et ≠ 2))) ∧
    (∃ (s : State) (c : Nat) (epi : Bool) (d : Dec), VecReady s c epi d ∧ (let w := d.word; (let et := vEt w; isOp 0x33 0x01 w = true ∧ et = 2))) ∧
    (∃ (s : State) (c : Nat) (epi : Bool) (d : Dec), VecReady s c epi d ∧ (let w := d.word; (let et := vEt w; isOp 0x33 0x02 w = true ∧ et = 2))) ∧
    (∃ (s : State) (c : Nat) (epi : Bool) (d : Dec), VecReady s c epi d ∧ (let w := d.word; (let et := vEt w; isOp 0x33 0x00 w = true ∧ et ≠ 2))) ∧
    (∃ (v : Nat), iMajor v = 0x33 ∧ (7 ≤ iMinor v ∧ iMinor v ≤ 15 ∨ 20 ≤ iMinor v)) ∧
    (∃ (v : Nat), iMajor v = 0x33 ∧ iMinor v ≤ 6 ∧ (vEt v = 3 ∨ (3 ≤ iMinor v ∧ vEt v ≠ 2))) :=
  ⟨⟨atVec (vec 0x33 1 0 1 6 []), 63, false, dec (vec 0x33 1 0 1 6 []), ⟨vecReady_main (q := []) (by decide +kernel), by dsimp only; decide +kernel⟩⟩,
   ⟨atVec (vec 0x33 2 0 1 6 []), 63, false, dec (vec 0x33 2 0 1 6 []), ⟨vecReady_main (q := []) (by decide +kernel), by dsimp only; decide +kernel⟩⟩,
   ⟨atVec (vec 0x33 1 0 2 6 []), 63, false, dec (vec 0x33 1 0 2 6 []), ⟨vecReady_main (q := []) (by decide +kernel), by dsimp only; decide +kernel⟩⟩,
   ⟨atVec (vec 0x33 2 0 2 6 []), 63, false, dec (vec 0x33 2 0 2 6 []), ⟨vecReady_main (q := []) (by decide +kernel), by dsimp only; decide +kernel⟩⟩,
   ⟨atVec (vec 0x33 0 0 1 6 []), 63, false, dec (vec 0x33 0 0 1 6 []), ⟨vecReady_main (q := []) (by decide +kernel), by dsimp only; decide +kernel⟩⟩,
   ⟨insn 0x33 255 0 [], by decide +kernel⟩,
   ⟨insn 0x33 6 0 [(43, 3)], by decide +kernel⟩⟩

/-- A state and operands that meet the hypotheses of each clause of PermutationFollowsItsIndexes. -/
theorem witness_PermutationFollowsItsIndexes :
    (∃ (s : State) (c : Nat) (epi : Bool) (d : Dec), VecReady s c epi d ∧ isOp 0x34 0 d.word = true ∧ (let w := d.word; (let k := s.core c;
      (let out (e : Nat) : Prop := k.active w e = true ∧ vCount w ≤ k.vword (vVb w) e; (vBit17 w = false ∨ (∀ e < vCount w, ¬ out e)))))) ∧
    (∃ (s : State) (c : Nat) (epi : Bool) (d : Dec), VecReady s c epi d ∧ isOp 0x34 0 d.word = true ∧ (let w := d.word; (let k := s.core c;
      (let out (e : Nat) : Prop := k.active w e = true ∧ vCount w ≤ k.vword (vVb w) e;
      vBit17 w = true ∧ (∃ e < vCount w, out e) ∧ (s.core c).run = 1 ∧ (s.core c).test = false)))) ∧
    (∃ (v : Nat), iMajor v = 0x34 ∧ iMinor v ≠ 0) ∧
    (∃ (v : Nat), iMajor v = 0x34 ∧ iMinor v = 0 ∧ vEt v = 3) :=
  ⟨⟨atVec (vec 0x34 0 0 0 6 []), 63, false, dec (vec 0x34 0 0 0 6 []), ⟨vecReady_main (q := []) (by decide +kernel), by decide +kernel,
    Or.inl (by decide +kernel)⟩⟩,
   ⟨atPerm (vec 0x34 0 2 0 6 []), 63, false, dec (vec 0x34 0 2 0 6 []), ⟨vecReady_main (q := []) (by decide +kernel), by decide +kernel,
     by dsimp only; decide +kernel⟩⟩,
   ⟨insn 0x34 1 0 [], by decide +kernel⟩,
   ⟨insn 0x34 0 0 [(43, 3)], by decide +kernel⟩⟩

/-- A state and operands that meet the hypotheses of each clause of LoadsReadTheirElements. -/
theorem witness_LoadsReadTheirElements :
    (∃ (s : State) (c : Nat) (epi : Bool) (d : Dec) (mi : Nat), VecReady s c epi d ∧ mi ≤ 4 ∧ isOp 0x35 mi d.word = true ∧ s.ecc = [] ∧
      (∀ e < vCount d.word, (s.core c).active d.word e = true → elemAddrOk (elemAddr (s.core c) d.word e) (etSize (vEt d.word)) = true ∧
      s.checkAccess (s.coreWho c 2) (elemAddr (s.core c) d.word e).toNat (etSize (vEt d.word)) = 0)) :=
  ⟨atVec (vec 0x35 4 0 0 6 [(64, 0xFC02000), (96, 2)]), 63, false, dec (vec 0x35 4 0 0 6 [(64, 0xFC02000), (96, 2)]), 4,
    ⟨vecReady_main (q := []) (by decide +kernel), by decide +kernel, by decide +kernel⟩⟩

/-- A state and operands that meet the hypotheses of each clause of StoresWriteTheirElementsOnly. -/
theorem witness_StoresWriteTheirElementsOnly :
    (∃ (s : State) (c : Nat) (epi : Bool) (d : Dec) (mi : Nat), VecReady s c epi d ∧ mi ≤ 2 ∧ isOp 0x36 mi d.word = true ∧ s.ecc = [] ∧ (let w := d.word; (let k := s.core c; (let size := etSize (vEt w); (let at_ (e : Nat) : Nat := (elemAddr k w e).toNat; (∀ e < vCount w, k.active w e = true → elemAddrOk (elemAddr k w e) size = true ∧ s.checkAccess (s.coreWho c 2) (at_ e) size = 0 ∧ s.groupMayWrite c (at_ e) (at_ e + size) = true)))))) :=
  ⟨atVec (vec 0x36 2 0 0 6 [(64, 0xFC02000), (96, 2)]), 63, false, dec (vec 0x36 2 0 0 6 [(64, 0xFC02000), (96, 2)]), 2,
    ⟨vecReady_main (q := []) (by decide +kernel), by decide +kernel, by decide +kernel, by decide +kernel, by dsimp only; decide +kernel⟩⟩

/-- A state and operands that meet the hypotheses of each clause of ConvertAndStoreWritesItsSegments. -/
theorem witness_ConvertAndStoreWritesItsSegments :
    (∃ (s : State) (c : Nat) (epi : Bool) (d : Dec), VecReady s c epi d ∧ (let w := d.word; iMajor w = 0x38 ∧ vBit17 w = false)) ∧
    (∃ (s : State) (c : Nat) (epi : Bool) (d : Dec), VecReady s c epi d ∧ (let w := d.word;
      iMajor w = 0x38 ∧ vBit17 w = false ∧ 6 ≤ iMinor w ∧ vImm w = false ∧ vAux14 w = 0 ∧ s.ecc = [] ∧ (let k := s.core c;
      (let f := targetFmt (iMinor w); (let size := f.bits / 8; (let at_ (e : Nat) : Nat := iAddr64 w + e * size;
      (∀ e < vCount w, k.active w e = true → at_ e % size = 0 ∧ inMemories (at_ e) (at_ e + size) = true ∧
      s.checkAccess (s.coreWho c 2) (at_ e) size = 0 ∧ s.groupMayWrite c (at_ e) (at_ e + size) = true))))))) ∧
    (∃ (s : State) (c : Nat) (epi : Bool) (d : Dec) (X : Nat), VecReady s c epi d ∧ (let w := d.word;
      iMajor w = 0x38 ∧ vBit17 w = false ∧ iMinor w ≤ 5 ∧ vImm w = false ∧ vAux14 w = 0 ∧ 1 ≤ vCount w ∧ vCount w ≤ 32 ∧ s.ecc = [] ∧ s.slotStochastic (vSlot w) = false ∧ (let k := s.core c; (let tgt := iMinor w; (let bits := targetBits tgt; (let base := iAddr64 w; (let size := ceilDiv (vCount w * bits) 8 + 1; (let v (e : Nat) : Val := etVal (vEt w) (k.vget (vEt w) (vVd w) e); (let vals := ((List.range (vCount w)).filter (k.active w)).map v; (∀ p ∈ linesOf base size, s.elemCode c 2 1 ((p.1 : Int), zeros p.2) = 0) ∧ ((s.get Fld.SCL_SLOT_CFG_SEL_MODE (vSlot w) = 1 ∧ (∀ h ∈ s.held, ¬(h.gang = k.gang ∧ h.slot = vSlot w ∧ h.target = tgt)) ∧ X = s.get Fld.SCL_SLOT_CFG_INIT_SCALE (vSlot w)) ∨ (s.get Fld.SCL_SLOT_CFG_SEL_MODE (vSlot w) = 2 ∧ X = scaleOf ((vals.filter (fun x => !x.isNan && !x.isInf)).foldl (fun m x => vmax m (vabs x)) vzero) (targetEmax tgt) (s.get Fld.SCL_SLOT_CFG_MARGIN (vSlot w)) (s.get Fld.SCL_SLOT_CFG_INIT_SCALE (vSlot w))))))))))))) ∧
    (∃ (s : State) (c : Nat) (epi : Bool) (d : Dec) (X : Nat), VecReady s c epi d ∧ (let w := d.word;
      iMajor w = 0x38 ∧ vBit17 w = false ∧ iMinor w ≤ 5 ∧ vImm w = false ∧ vAux14 w = 0 ∧ 1 ≤ vCount w ∧ vCount w ≤ 32 ∧ s.ecc = [] ∧ s.slotStochastic (vSlot w) = false ∧ (let k := s.core c; (let tgt := iMinor w; (let bits := targetBits tgt; (let base := iAddr64 w; (let size := ceilDiv (vCount w * bits) 8 + 1; (let v (e : Nat) : Val := etVal (vEt w) (k.vget (vEt w) (vVd w) e); (let vals := ((List.range (vCount w)).filter (k.active w)).map v; (∀ p ∈ linesOf base size, s.elemCode c 2 1 ((p.1 : Int), zeros p.2) = 0) ∧ ((s.get Fld.SCL_SLOT_CFG_SEL_MODE (vSlot w) = 1 ∧ (∀ h ∈ s.held, ¬(h.gang = k.gang ∧ h.slot = vSlot w ∧ h.target = tgt)) ∧ X = s.get Fld.SCL_SLOT_CFG_INIT_SCALE (vSlot w)) ∨ (s.get Fld.SCL_SLOT_CFG_SEL_MODE (vSlot w) = 2 ∧ X = scaleOf ((vals.filter (fun x => !x.isNan && !x.isInf)).foldl (fun m x => vmax m (vabs x)) vzero) (targetEmax tgt) (s.get Fld.SCL_SLOT_CFG_MARGIN (vSlot w)) (s.get Fld.SCL_SLOT_CFG_INIT_SCALE (vSlot w))))))))))))) ∧
    (∃ (s : State) (c : Nat) (epi : Bool) (d : Dec) (e : _) (q : _), VecReady s c epi d ∧ (let w := d.word;
      iMajor w = 0x38 ∧ vBit17 w = true ∧ bitOf w 16 = false ∧ epi = true ∧ (s.core c).epis = e :: q ∧ iMinor w = pdOutFmt e.desc ∧
      vAux14 w + vCount w ≤ e.order.length ∧ vAux14 w % popcount 128 e.cols = 0 ∧ (vAux14 w + vCount w) % popcount 128 e.cols = 0)) :=
  ⟨⟨atVec (insn 0x38 0 0 [(24, 0), (28, 5), (40, 0), (43, 0), (46, 6), (64, 0xFC02000), (96, 64), (112, 3)]), 63, false, dec (insn 0x38 0 0 [(24,
    0), (28, 5), (40, 0), (43, 0), (46, 6), (64, 0xFC02000), (96, 64), (112, 3)]), ⟨vecReady_main (q := []) (by decide +kernel),
    by dsimp only; decide +kernel⟩⟩,
   ⟨atVec (insn 0x38 6 0 [(24, 0), (40, 0), (43, 0), (46, 6), (64, 0xFC02000)]), 63, false, dec (insn 0x38 6 0 [(24, 0), (40, 0), (43, 0), (46, 6),
     (64, 0xFC02000)]), ⟨vecReady_main (q := []) (by decide +kernel), by dsimp only; decide +kernel⟩⟩,
   ⟨(atVec (insn 0x38 5 0 [(24, 0), (28, 5), (40, 0), (43, 0), (46, 32), (64, 0xFC02000)])).put Fld.SCL_SLOT_CFG_SEL_MODE 1 5, 63, false,
     dec (insn 0x38 5 0 [(24, 0), (28, 5), (40, 0), (43, 0), (46, 32), (64, 0xFC02000)]), (atVec 0).get Fld.SCL_SLOT_CFG_INIT_SCALE 5,
     ⟨vecReady_main (q := []) (by decide +kernel), by dsimp only; decide +kernel⟩⟩,
   ⟨(atVec (insn 0x38 5 0 [(24, 0), (28, 5), (40, 0), (43, 0), (46, 32), (64, 0xFC02000)])).put Fld.SCL_SLOT_CFG_SEL_MODE 2 5, 63, false,
     dec (insn 0x38 5 0 [(24, 0), (28, 5), (40, 0), (43, 0), (46, 32), (64, 0xFC02000)]), (atVec 0).get Fld.SCL_SLOT_CFG_INIT_SCALE 5,
     ⟨vecReady_main (q := []) (by decide +kernel), by dsimp only; decide +kernel⟩⟩,
   ⟨atEpi (insn 0x38 0 2 [(24, 0), (40, 0), (43, 0), (46, 4), (112, 0)]) true, 63, true, dec (insn 0x38 0 2 [(24, 0), (40, 0), (43, 0), (46, 4),
     (112, 0)]), epi2 true, [], ⟨vecReady_epi (e := epi2 true) (q := []) (by decide +kernel), by dsimp only; decide +kernel⟩⟩⟩

/-- A state and operands that meet the hypotheses of each clause of EpilogueDrainsItsParcel. -/
theorem witness_EpilogueDrainsItsParcel :
    (∃ (s : State) (c : Nat) (e : Epi) (q : List Epi), c < 64 ∧ (s.core c).epis = e :: q ∧ e.started = false ∧ ((s.core c).set e.set).state = 5 ∧
      (∀ d ∈ (s.core c).vq, e.seq ≤ d.seq) ∧ (s.core c).epiPc = some e.pc) ∧
    (∃ (s : State) (c : Nat) (e : Epi) (q : List Epi) (d : Dec), c < 64 ∧ (s.core c).epis = e :: q ∧ VecReady s c true d ∧
      isOp 0x37 0 d.word = true ∧ ((s.core c).set e.set).resumed = false ∧ ((s.core c).set e.set).closeSeq = some e.seq ∧
      e.order.length = ((s.core c).set e.set).acc.length) ∧
    (∃ (s : State) (c : Nat) (e : Epi) (q : List Epi) (d : Dec), c < 64 ∧ (s.core c).epis = e :: q ∧ VecReady s c true d ∧
      isOp 0x39 0 d.word = true ∧ ((s.core c).set e.set).resumed = false ∧
      ((s.core c).setFree e.set = true ∨ ((s.core c).set e.set).closeSeq = some e.seq) ∧ (∀ x ∈ q, x.seq ≠ e.seq)) :=
  ⟨⟨atEpi 0 false, 63, epi2 false, [], by decide +kernel⟩,
   ⟨atEpi (insn 0x37 0 0 [(24, 2), (46, 2)]) true, 63, epi2 true, [], dec (insn 0x37 0 0 [(24, 2), (46, 2)]), ⟨by decide +kernel,
     by decide +kernel, vecReady_epi (e := epi2 true) (q := []) (by decide +kernel), by decide +kernel⟩⟩,
   ⟨atEpi (insn 0x39 0 0 []) true, 63, epi2 true, [], dec (insn 0x39 0 0 []), ⟨by decide +kernel, by decide +kernel,
     vecReady_epi (e := epi2 true) (q := []) (by decide +kernel), by decide +kernel⟩⟩⟩

/-- A state and operands that meet the hypotheses of each clause of EngineControlSetsIndexAndPredicates. -/
theorem witness_EngineControlSetsIndexAndPredicates :
    (∃ (s : State) (c : Nat) (epi : Bool) (d : Dec), VecReady s c epi d ∧ (let w := d.word; isOp 0x39 1 w = true)) ∧
    (∃ (s : State) (c : Nat) (epi : Bool) (d : Dec), VecReady s c epi d ∧ (let w := d.word; isOp 0x39 2 w = true)) ∧
    (∃ (s : State) (c : Nat) (epi : Bool) (d : Dec), VecReady s c epi d ∧ (let w := d.word; (let p := bitsAt w 24 3; isOp 0x39 3 w = true ∧ p ≠ 0))) ∧
    (∃ (s : State) (c : Nat) (epi : Bool) (d : Dec), VecReady s c epi d ∧ (let w := d.word; (let p := bitsAt w 24 3; isOp 0x39 4 w = true ∧ p ≠ 0))) ∧
    (∃ (s : State) (c : Nat) (epi : Bool) (d : Dec) (v : _), VecReady s c epi d ∧ iMajor v = 0x39 ∧ iMinor v = 0) ∧
    (∃ (s : State) (c : Nat) (epi : Bool) (d : Dec) (v : _), VecReady s c epi d ∧ iMajor v = 0x39 ∧ 5 ≤ iMinor v) ∧
    (∃ (s : State) (c : Nat) (epi : Bool) (d : Dec) (v : _), VecReady s c epi d ∧ iMajor v = 0x39 ∧ (iMinor v = 3 ∨ iMinor v = 4) ∧
      bitsAt v 24 3 = 0) :=
  ⟨⟨atVec (vec 0x39 1 0 0 0 [(64, 77)]), 63, false, dec (vec 0x39 1 0 0 0 [(64, 77)]), ⟨vecReady_main (q := []) (by decide +kernel),
    by dsimp only; decide +kernel⟩⟩,
   ⟨atVec (vec 0x39 2 0 0 0 []), 63, false, dec (vec 0x39 2 0 0 0 []), ⟨vecReady_main (q := []) (by decide +kernel), by dsimp only; decide +kernel⟩⟩,
   ⟨atVec (vec 0x39 3 0 0 6 [(64, 3)]), 63, false, dec (vec 0x39 3 0 0 6 [(64, 3)]), ⟨vecReady_main (q := []) (by decide +kernel),
     by dsimp only; decide +kernel⟩⟩,
   ⟨atVec (vec 0x39 4 0 0 6 [(64, 3)]), 63, false, dec (vec 0x39 4 0 0 6 [(64, 3)]), ⟨vecReady_main (q := []) (by decide +kernel),
     by dsimp only; decide +kernel⟩⟩,
   ⟨atVec (vec 0x39 4 0 0 6 []), 63, false, dec (vec 0x39 4 0 0 6 []), insn 0x39 0 0 [], ⟨vecReady_main (q := []) (by decide +kernel),
     by decide +kernel⟩⟩,
   ⟨atVec (vec 0x39 4 0 0 6 []), 63, false, dec (vec 0x39 4 0 0 6 []), insn 0x39 5 0 [], ⟨vecReady_main (q := []) (by decide +kernel),
     by decide +kernel⟩⟩,
   ⟨atVec (vec 0x39 4 0 0 6 []), 63, false, dec (vec 0x39 4 0 0 6 []), insn 0x39 4 0 [], ⟨vecReady_main (q := []) (by decide +kernel),
     by decide +kernel⟩⟩⟩

/-- A state and operands that meet the hypotheses of each clause of NumericEventsAreRecordedInOrder. -/
theorem witness_NumericEventsAreRecordedInOrder :
    (∃ (s : State) (n : Nat) (a : EvSum) (e : NumEv), n < 64 ∧ a.best = some e ∧ (s.core n).run = 1 ∧ (s.core n).test = false) ∧
    (∃ (s : State) (n : Nat) (a : EvSum) (e : NumEv), n < 64 ∧ a.best = some e ∧ (s.core n).run = 1 ∧ (s.core n).test = false ∧
      s.get Fld.CORE_NER_INFO_VALID n = 0) ∧
    (∃ (s : State) (n : Nat) (a : EvSum) (e : NumEv), n < 64 ∧ a.best = some e ∧ (s.core n).run = 1 ∧ (s.core n).test = false ∧
      s.get Fld.CORE_NER_INFO_VALID n = 1 ∧ keyLt e.key (s.nerKey n) = false) ∧
    (∃ (s : State) (n : Nat) (a : EvSum) (e : NumEv), n < 64 ∧ a.best = some e ∧ (s.core n).run = 1 ∧ (s.core n).test = false ∧
      s.get Fld.CORE_NER_INFO_VALID n = 1 ∧ keyLt e.key (s.nerKey n) = true) ∧
    (∃ (s : State) (n : Nat) (a : EvSum) (e : NumEv), n < 64 ∧ a.best = some e ∧ (s.core n).run = 1 ∧ (s.core n).test = false ∧
      s.get Fld.CORE_NER_INFO_VALID n = 1) ∧
    (∃ (s : State) (n : Nat) (a : EvSum) (e : NumEv), n < 64 ∧ a.best = some e ∧ (s.core n).run = 1 ∧ (s.core n).test = false ∧
      s.get Fld.CORE_NER_INFO_VALID n = 1 ∧ (s.core n).trap = false) ∧
    (∃ (s : State) (n : Nat) (a : EvSum) (e : NumEv), n < 64 ∧ a.best = some e ∧ (s.core n).run = 1 ∧ (s.core n).test = false ∧
      (s.core n).trap = true) ∧
    (∃ (s : State) (n : Nat) (a : EvSum) (e : NumEv), n < 64 ∧ a.best = some e ∧ (s.core n).run = 1 ∧ (s.core n).test = false ∧
      (s.core n).trap = false) :=
  ⟨⟨with63 kern, 63, { count := 3, best := some event3 }, event3, by decide +kernel⟩,
   ⟨with63 kern, 63, { count := 3, best := some event3 }, event3, by decide +kernel⟩,
   ⟨recorded 2, 63, { count := 3, best := some event3 }, event3, by decide +kernel⟩,
   ⟨recorded 9, 63, { count := 3, best := some event3 }, event3, by decide +kernel⟩,
   ⟨recorded 2, 63, { count := 3, best := some event3 }, event3, by decide +kernel⟩,
   ⟨recorded 2, 63, { count := 3, best := some event3 }, event3, by decide +kernel⟩,
   ⟨with63 { kern with trap := true }, 63, { count := 3, best := some event3 }, event3, by decide +kernel⟩,
   ⟨with63 kern, 63, { count := 3, best := some event3 }, event3, by decide +kernel⟩⟩

/-! ### Memory, the move engine and paging -/

/-- A move descriptor: operation, flags, and fields at their bits. -/
def descr (op fl : Nat) (fs : List (Nat × Nat)) : Nat := fs.foldl (fun w f => w + f.2 * 2 ^ f.1) (op + 256 * fl)

/-- A job of an item. -/
def job (w : Nat) : MoveJob := { MoveJob.none with w := w, dom := 3, owner := .item 1 2 3, order := 0 }

/-- Slot 2047 holds a job. -/
def withJob (j : MoveJob) (s : State) : State := s.setMove 2047 j

def wCopy : Nat := descr 1 0 [(32, 100), (64, 0xFC02000), (128, 0xFC03000)]
def wFill : Nat := descr 2 0 [(32, 100), (128, 0xFC03000), (224, 0xA1B2C3D4)]
def wMap : Nat := descr 3 8 [(32, 0x1000), (128, 0x200000), (16, 1)]
def wMap2 : Nat := descr 3 8 [(32, 0x1000), (128, 0x300000), (16, 1)]
def wUnmap : Nat := descr 4 8 [(32, 0x1000), (128, 0x200000)]
def wTouch : Nat := descr 5 8 [(32, 4096), (128, 0x200000)]

/-- Two cores of a cluster with a MOVE each: core 56 has the turn. -/
def twoMoves : State :=
  let k : CoreSt := { kern with mq := [dec (insn 0x10 0 0 [(24, 2), (32, 0xFC02000)])] }
  (with63 k).setCore 56 k

/-- A pool of 64 frames behind one base die, that route 16 reaches over module 3. -/
def pooled : State :=
  let s := (ground.put Fld.XLT_POOL_BASE_FRAME 64).put Fld.XLT_POOL_COUNT_COUNT 64
  let s := ((s.put Fld.RTE_RT_CTL_VALID 1 16).put Fld.RTE_RT_PRI_MASK 8 16).put Fld.LNK_MOD_STATE_STATE 6 3
  let s := (s.put Fld.XLT_DOM_LIMIT_FRAMES 2000 3).put Fld.XLT_XLT_CFG_SCRUB_RATE 1
  { (s.put Fld.XLT_XLT_GEOM_STACK_FRAMES_K 1).put Fld.XLT_XLT_GEOM_STACKS 1 with cadastre := true }

/-- Frame 75 is domain 3's page at 0x200000, its translation in the die's TLB. -/
def paged : State :=
  let s : State := { pooled with pages := [(pageKey 3 0x200000, { size := 0, frame := 75, write := true, cls := 0, live := true })],
                                 frames := [(75, { code := 1, mapped := true })] }
  s.fillTlb 8 (pageKey 3 0x200000)

/-- The same page, in no TLB. -/
def paged0 : State := { paged with tlbs := [] }

/-- The hypotheses of a descriptor that may start that can be computed. -/
theorem moveReady_of {s : State} {k op : Nat}
    (h : k < 2048 ∧ s.moveHeld k = true ∧ ((s.move k).status = none ∧ (s.move k).dead = false) ∧ mvOp (s.move k).w = op ∧
      ((s.move k).started = true ∨ s.moveBlocked (s.move k) = false)) : MoveReady s k op :=
  ⟨h.1, h.2.1, h.2.2.1, h.2.2.2.1, h.2.2.2.2⟩

/-- The hypotheses of a descriptor of one row that can be computed. -/
theorem oneRow_of {s : State} {k q serial pos : Nat}
    (h : ((s.move k).wait = .run ∧ (s.move k).row = 0 ∧ (s.move k).off = 0 ∧ (s.move k).got = [] ∧ (s.move k).walked = none) ∧
      (s.move k).owner = .item q serial pos ∧ (mvDKind (s.move k).w = 0 ∧ mvDst (s.move k).w + mvRowLen (s.move k).w ≤ 2 ^ 32) ∧
      (mvRowsM1 (s.move k).w = 0 ∧ 0 < mvRowLen (s.move k).w ∧ mvDst (s.move k).w % 256 + mvRowLen (s.move k).w ≤ 256) ∧
      (s.ecc = [] ∧ s.fixups = []) ∧
      ∀ c ∈ linesOf (mvDst (s.move k).w) (mvRowLen (s.move k).w), s.checkAccess (s.moveWho k) c.1 c.2 = 0) : OneRow s k :=
  ⟨h.1, ⟨q, serial, pos, h.2.1⟩, h.2.2.1, h.2.2.2.1, h.2.2.2.2.1, h.2.2.2.2.2⟩

/-- A state and operands that meet the hypotheses of each clause of MemoryKeepsDomainsApart. -/
theorem witness_MemoryKeepsDomainsApart :
    (∃ (s : State) (w : Who) (addr : Nat) (b : Bytes), b ≠ [] ∧ addr % 64 + b.length ≤ 64 ∧ inAperture addr = false ∧
      s.checkAccess w addr b.length ≠ 0) ∧
    (∃ (w : Who) (addr : Nat) (b : Bytes), b ≠ [] ∧ addr % 64 + b.length ≤ 64 ∧ inAperture addr = true ∧ w.own = true ∧
      populated (aperturePage addr) = true) ∧
    (∃ (w : Who) (addr : Nat) (b : Bytes), b ≠ [] ∧ addr % 64 + b.length ≤ 64 ∧ inAperture addr = true ∧ w.own = true ∧
      populated (aperturePage addr) = false) ∧
    (∃ (s : State) (addr : Nat) (u : _), u < 64 ∧ memUnit addr = some u ∧ s.coreGone u = true) ∧
    (∃ (s : State) (w : Who) (addr : Nat) (u : _), memUnit addr = some u ∧ (u < 64 → s.coreGone u = false) ∧
      (s.granState u (granOf u addr) ≠ 1 ∨ s.granDomain u (granOf u addr) ≠ w.dom)) ∧
    (∃ (s : State) (w : Who) (addr : Nat) (u : _), memUnit addr = some u ∧ (u < 64 → s.coreGone u = false) ∧ s.granState u (granOf u addr) = 1 ∧
      s.granDomain u (granOf u addr) = w.dom ∧ s.granSealed u (granOf u addr) = true ∧ w.pass = false) ∧
    (∃ (s : State) (w : Who) (addr : Nat) (b : Bytes), s.ecc = [] ∧ s.fixups = [] ∧ (∀ c ∈ linesOf addr b.length, s.checkAccess w c.1 c.2 = 0)) ∧
    (∃ (s : State) (w : Who) (addr : Nat) (b : Bytes) (a : _), s.ecc = [] ∧ s.fixups = [] ∧ (∀ c ∈ linesOf addr b.length,
      s.checkAccess w c.1 c.2 = 0) ∧ (a < addr ∨ addr + b.length ≤ a)) :=
  ⟨⟨alive, Who.self 3 4, 0xFC0003F, [0], by decide +kernel⟩,
   ⟨Who.self 3 4, 0x4008003C, [1, 2, 3, 4], by decide +kernel⟩,
   ⟨Who.self 3 4, 0x43FF0000, [0], by decide +kernel⟩,
   ⟨alive.put Fld.CORE_CORE_STATE_STATE 4 63, 0xFC00000, 63, by decide +kernel⟩,
   ⟨alive, Who.self 3 4, 0xFC00000, 63, by decide +kernel⟩,
   ⟨ground, Who.self 3 4, 0xFC1FFFF, 63, by decide +kernel⟩,
   ⟨ground, Who.self 3 4, 0xFC0003E, [1, 2, 3, 4], by decide +kernel⟩,
   ⟨ground, Who.self 3 4, 0xFC0003E, [1, 2, 3, 4], 0xFC00042, by decide +kernel⟩⟩

/-- A state and operands that meet the hypotheses of each clause of RegionsCloseAndAreScrubbed. -/
theorem witness_RegionsCloseAndAreScrubbed :
    (∃ (s : State) (u : _) (g : _), u < 72 ∧ g < granCount u ∧ s.granState u g = 2 ∧ s.granHead u g = true ∧ g + s.granLen u g ≤ granCount u ∧
      (∀ i < s.granLen u g, s.granState u (g + i) = 2)) ∧
    (∃ (s : State) (u : _) (g : _), u < 72 ∧ g < granCount u ∧ s.granState u g = 3) ∧
    (∃ (s : State) (word : _), word ∈ s.fixups) ∧
    (∃ (s : State), s.get Fld.FLD_FLD_CFG_PATROL_HOURS ≠ 0 ∧ s.patrolFrom + s.patrolSpan ≤ s.now ∧ (∀ i < 72, s.get Fld.CL_PC_STATE_STATE i ≠ 6)) ∧
    (∃ (s : State), (s.get Fld.FLD_FLD_CFG_PATROL_HOURS = 0 ∨ s.now < s.patrolFrom + s.patrolSpan)) ∧
    (∃ (s : State) (a : Acc), a.cls = .dbg ∧ s.portOpen a = true ∧ s.unlocked = true) :=
  ⟨⟨alive.setGran 71 47 (granWord 2 0 0 1 0 3 0), 71, 47, by decide +kernel⟩,
   ⟨alive.setGran 71 47 (granWord 3 0 0 1 0 3 0), 71, 47, by decide +kernel⟩,
   ⟨{ ground with fixups := [0x1F80400] }, 0x1F80400, by decide +kernel⟩,
   ⟨atTime 360000000000 (alive.put Fld.FLD_FLD_CFG_PATROL_HOURS 1), by decide +kernel⟩,
   ⟨alive.put Fld.FLD_FLD_CFG_PATROL_HOURS 1, by decide +kernel⟩,
   ⟨openPort open1, dbg, by decide +kernel⟩⟩

/-- A state and operands that meet the hypotheses of each clause of DescriptorsRunToTheirEnd. -/
theorem witness_DescriptorsRunToTheirEnd :
    (∃ (s : State) (c : _) (d : _) (q : _) (k : _), c < 64 ∧ (s.core c).mq = d :: q ∧ iMajor d.word = 0x10 ∧
      (s.core c).mvCnt.getD (iSel d.word) 0 < 255 ∧ s.moveTurn c = true ∧ s.freeSlot (c / 8 * 2) (c / 8 * 2 + 2) = some k ∧
      (s.readMem (s.coreWho c 0) (iAddr32 d.word) 64).status = 0 ∧ (s.readMem (s.coreWho c 0) (iAddr32 d.word) 64).state.core c = s.core c) ∧
    (∃ (s : State) (c : _) (d : _) (q : _), c < 64 ∧ (s.core c).mq = d :: q ∧ iMajor d.word = 0x10 ∧ s.moveTurn c = false) ∧
    (∃ (s : State) (c : _) (d : _) (q : _), c < 64 ∧ (s.core c).mq = d :: q ∧ iMajor d.word = 0x11 ∧
      (if waitAll d.word then (s.core c).mvCnt.all (· == 0) else (s.core c).mvCnt.getD (iSel d.word) 0 == 0) = true) ∧
    (∃ (s : State) (k : _), MoveReady s k 0) ∧
    (∃ (s : State) (k : _), MoveReady s k 2 ∧ OneRow s k) ∧
    (∃ (s : State) (k : _), MoveReady s k 1 ∧ OneRow s k ∧ mvSKind (s.move k).w = 0 ∧ mvSrc (s.move k).w + mvRowLen (s.move k).w ≤ 2 ^ 32 ∧
      mvSrc (s.move k).w % 256 + mvRowLen (s.move k).w ≤ 256 ∧ (∀ c ∈ linesOf (mvSrc (s.move k).w) (mvRowLen (s.move k).w),
      s.checkAccess (s.moveWho k) c.1 c.2 = 0)) ∧
    (∃ (s : State) (k : _) (st : _) (c : _) (ctr : _) (seq : _), k < 2048 ∧ (s.move k).status = some st ∧
      (s.move k).owner = .core c ctr seq (s.core c).gang) :=
  ⟨⟨stored 0xFC02000 (leBytes 64 wCopy) (with63 { kern with mq := [dec (insn 0x10 0 0 [(24, 2), (32, 0xFC02000)])] }), 63, dec (insn 0x10 0 0 [(24,
    2), (32, 0xFC02000)]), [], 896, by decide +kernel⟩,
   ⟨twoMoves, 63, dec (insn 0x10 0 0 [(24, 2), (32, 0xFC02000)]), [], by decide +kernel⟩,
   ⟨with63 { kern with mq := [dec (insn 0x11 0 0 [(24, 2)])] }, 63, dec (insn 0x11 0 0 [(24, 2)]), [], by decide +kernel⟩,
   ⟨withJob (job 0) ground, 2047, moveReady_of (by decide +kernel)⟩,
   ⟨withJob (job wFill) ground, 2047, ⟨moveReady_of (by decide +kernel), oneRow_of (q := 1) (serial := 2) (pos := 3) (by decide +kernel)⟩⟩,
   ⟨withJob (job wCopy) ground, 2047, ⟨moveReady_of (by decide +kernel), oneRow_of (q := 1) (serial := 2) (pos := 3) (by decide +kernel),
     by decide +kernel⟩⟩,
   ⟨withJob { job wFill with owner := .core 63 2 5 5, status := some 0, started := true } (with63 kern), 2047, 0, 63, 2, 5, by decide +kernel⟩⟩

/-- A state and operands that meet the hypotheses of each clause of MapGivesEveryPageItsFrames. -/
theorem witness_MapGivesEveryPageItsFrames :
    (∃ (s : State) (k : Nat), MoveReady s k 3 ∧ (s.move k).started = false ∧ s.xltBusy k (s.move k) = false ∧ mvBeyond (s.move k).w = false ∧ s.domActive (s.move k).dom = true ∧ mvClass (s.move k).w = 0 ∧ mvPgsz (s.move k).w < 3 ∧ (let w := (s.move k).w; (let dom := (s.move k).dom; s.pagesIn dom (mvDst w) (mvDst w + mvRowLen w) ≠ []))) ∧
    (∃ (s : State) (k : Nat), MoveReady s k 3 ∧ (s.move k).started = false ∧ s.xltBusy k (s.move k) = false ∧ mvBeyond (s.move k).w = false ∧ s.domActive (s.move k).dom = true ∧ mvClass (s.move k).w = 0 ∧ mvPgsz (s.move k).w < 3 ∧ (let w := (s.move k).w; (let dom := (s.move k).dom; (let u := s.setMove k { s.move k with started := true }; (u.mapRange dom (mvDst w) (mvRowLen w) (mvPgsz w) 0 (mvWrite w) true).2 = 0)))) ∧
    (∃ (s : State) (k : Nat), MoveReady s k 3 ∧ (s.move k).started = false ∧ s.xltBusy k (s.move k) = false ∧ mvBeyond (s.move k).w = false ∧
      s.domActive (s.move k).dom = true ∧ mvClass (s.move k).w = 0 ∧ mvPgsz (s.move k).w < 3 ∧ PagesApart s) :=
  ⟨⟨withJob (job wMap) paged, 2047, ⟨moveReady_of (by decide +kernel), by dsimp only; decide +kernel⟩⟩,
   ⟨withJob (job wMap) pooled, 2047, ⟨moveReady_of (by decide +kernel), by dsimp only; decide +kernel⟩⟩,
   ⟨withJob (job wMap2) paged, 2047, ⟨moveReady_of (by decide +kernel), by decide +kernel, by decide +kernel, by decide +kernel, by decide +kernel,
     by decide +kernel, by decide +kernel, by unfold PagesApart; decide +kernel⟩⟩⟩

/-- A state and operands that meet the hypotheses of each clause of PagesAndFramesComeAndGo. -/
theorem witness_PagesAndFramesComeAndGo :
    (∃ (s : State) (k : _), MoveReady s k 4 ∧ (s.move k).started = false ∧ s.xltBusy k (s.move k) = false ∧ mvBeyond (s.move k).w = false ∧
      s.domActive (s.move k).dom = true) ∧
    (∃ (s : State) (k : _), k < 2048 ∧ (s.move k).wait = .drain ∧ s.framesBusy (s.move k).held = false) ∧
    (∃ (s : State) (k : _), MoveReady s k 5 ∧ (s.move k).started = false ∧ (s.move k).off = 0 ∧ (s.move k).held = [] ∧
      mvRowLen (s.move k).w = 4096 ∧ mvDst (s.move k).w % 4096 = 0 ∧ mvBeyond (s.move k).w = false ∧ (∀ e ∈ s.ecc, e.1 < eccTlb 0 0) ∧
      (s.tlbHit (s.move k).dom (mvDst (s.move k).w) 8).isSome = true) ∧
    (∃ (s : State) (k : _), MoveReady s k 5 ∧ (s.move k).started = false ∧ (s.move k).off = 0 ∧ (s.move k).held = [] ∧
      mvRowLen (s.move k).w = 4096 ∧ mvDst (s.move k).w % 4096 = 0 ∧ mvBeyond (s.move k).w = false ∧ (∀ e ∈ s.ecc, e.1 < eccTlb 0 0) ∧
      (s.tlbHit (s.move k).dom (mvDst (s.move k).w) 8).isSome = false ∧ s.walks = []) ∧
    (∃ (s : State) (dom : _) (cl : _) (va : _) (base : _) (p : _), dom < 256 ∧ cl < 9 ∧ s.moves = [] ∧ s.pageOf dom va = some (base, p) ∧
      p.live = true ∧ s.walks = [{ dom := dom, vpn := va / 4096, cls := [cl], reads := [], tag := none, bad := none }]) ∧
    (∃ (s : State) (f : _), s.frame f = { code := 2, mapped := true } ∧
      s.zeroing = [{ frame := f, waiters := [], left := 0, status := 0, scrub := false, first := none }]) ∧
    (∃ (s : State) (f : _) (k : _) (st : _), st ≠ 0 ∧
      s.zeroing = [{ frame := f, waiters := [k], left := 0, status := st, scrub := false, first := none }]) ∧
    (∃ (s : State) (f : _), s.poolLo ≤ f ∧ f < s.poolHi ∧ s.frame f = { code := 2, mapped := false } ∧ s.get Fld.XLT_XLT_CFG_SCRUB_RATE ≠ 0 ∧
      s.scrubHold = false ∧ (∀ z ∈ s.zeroing, z.frame ≠ f) ∧ (∀ i < 16,
      s.reachable (s.stackOf f) 1 (pktKey (s.stackWrite f (i * 256) 0 (zeros 256))) = true)) ∧
    (∃ (s : State) (f : _), s.frame f = { code := 2, mapped := false } ∧
      s.zeroing = [{ frame := f, waiters := [], left := 1, status := 0, scrub := true, first := none }]) :=
  ⟨⟨withJob (job wUnmap) paged, 2047, ⟨moveReady_of (by decide +kernel), by decide +kernel⟩⟩,
   ⟨withJob { job wUnmap with wait := .drain, started := true, held := [75] } paged, 2047, by decide +kernel⟩,
   ⟨withJob (job wTouch) paged, 2047, ⟨moveReady_of (by decide +kernel), by decide +kernel⟩⟩,
   ⟨withJob (job wTouch) paged0, 2047, ⟨moveReady_of (by decide +kernel), by decide +kernel⟩⟩,
   ⟨{ paged0 with walks := [{ dom := 3, vpn := 0x200, cls := [8], reads := [], tag := none, bad := none }] }, 3, 8, 0x200FFF, 0x200000,
     { size := 0, frame := 75, write := true, cls := 0, live := true }, by decide +kernel⟩,
   ⟨{ paged with frames := [(75, { code := 2, mapped := true })], zeroing := [{ frame := 75, waiters := [], left := 0, status := 0, scrub := false, first := none }] }, 75, by decide +kernel⟩,
   ⟨{ paged with frames := [(75, { code := 2, mapped := true })], zeroing := [{ frame := 75, waiters := [2047], left := 0, status := 0xA, scrub := false, first := none }] }, 75, 2047, 0xA, by decide +kernel⟩,
   ⟨pooled, 127, by decide +kernel⟩,
   ⟨{ pooled with zeroing := [{ frame := 127, waiters := [], left := 1, status := 0, scrub := true, first := none }] }, 127, by decide +kernel⟩⟩

/-! ### Queues, items, gangs and synchronisation -/

/-- The last queue, domain 3's, in a state, its ring of 16 entries at 0x200000. -/
def queueIn (st : Nat) (s : State) : State :=
  let s := ((s.put Fld.DSP_Q_CFG_DOMAIN 3 65535).put Fld.DSP_Q_RING_LOG2 4 65535).put Fld.DSP_Q_RING_BASE_VA 0x200 65535
  s.put Fld.DSP_Q_STATE_STATE st 65535

/-- An item: its kind, and fields at their bits. -/
def item (kind : Nat) (fs : List (Nat × Nat)) : Nat := fs.foldl (fun w f => w + f.2 * 2 ^ f.1) kind

/-- The last queue with one item that dispatch has not read; core 63 is free. -/
def unread : State := ((queueIn 1 paged).put Fld.DSP_Q_PTRS_TAIL 1 65535).put Fld.CORE_CORE_STATE_STATE 1 63

/-- The same with the item read. -/
def queued (w : Nat) : State := unread.setQueue 65535 { QueueSt.idle with head := some (0, w) }

def wKern : Nat := item 1 [(128, 0xFC00000), (160, 256)]
def wKernR : Nat := item 1 [(24, 1), (128, 0xFC00000), (160, 256), (192, 0x200040)]
def wMove : Nat := item 2 [(128, 1), (192, 0x200040)]
def wRalloc : Nat := item 3 [(128, 63), (192, 2 * 2 ^ 8)]
def wRfree : Nat := item 4 [(128, 0xFC00000)]
def wRgbegin : Nat := item 5 []
def wRgend : Nat := item 6 [(128, 1), (192, 0x200040)]

/-- An open resilience group. -/
def group1 (aborted : Bool) : Group :=
  { first := 0, last := 2, level := 0, attempt := 0, members := [], pos := 0, staging := [], nsw := 0, exhausted := false, aborted := aborted }
def inGroup (g : Group) (s : State) : State := s.setQueue 65535 { s.queueSt 65535 with group := some g }

/-- A gang of cores 62 and 63, which started at 0, and its item. -/
def gang1 : Gang :=
  { gid := 5, queue := 65535, ring := 1, members := [62, 63], dom := 3, kinst := 65535 * 2 ^ 48 + 7 * 256, step := 9, arg := 0, group := false, level := 0,
    regions := [], writable := [], started := 0, limit := 100, sigAdd := none, stop := none }
def item1 : Item := { queue := 65535, ring := 1, serial := 7, w := wKern, started := 0, next := 0, left := 0, bad := none, tag := 0, group := none }
def item2 : Item := { item1 with serial := 8 }

/-- A kernel with one request, for `len` granules of core memory, its list read. -/
def asking (len : Nat) : State :=
  (queued wKernR).setQueue 65535 { (queued wKernR).queueSt 65535 with reqs := some (0, leBytes 8 (0x10000 + 256 * (len - 1))) }

/-- The record of the first item. -/
def record1 : RecJob := { queue := 65535, item := some item1, bytes := zeros 32, status := 0, detail := 0 }

/-- The gang with its cores at a run state each. -/
def ganged (r0 r1 : Nat) (g : Gang) : State :=
  let s := ((queueIn 1 paged).setCore 62 { kern with run := r0 }).setCore 63 { kern with member := 1, run := r1 }
  { (atTime 100 s) with gangs := [g], items := [item1] }

/-- The gang with two regions of its core memory. -/
def gangR : Gang := { gang1 with regions := [(63, 0), (63, 1)] }

/-- A group's kernel ended with a numeric event. -/
def missed : State :=
  (inGroup (group1 false) (ganged 2 2 { gangR with group := true })).setCore 63 { kern with member := 1, run := 2, nsw := 1 }

/-- Core 63 of the gang holds an instruction at its sequencer. -/
def syncing (w : Nat) (f : CoreSt → CoreSt) : State :=
  let s := ganged 1 1 gang1
  s.setCore 63 (f { s.core 63 with cur := some (dec w) })

def wGinfo : Nat := insn 0x51 0 0 [(32, 0xFC02000)]
def wGbar : Nat := insn 0x52 0 0 [(24, 15)]
def wSignal : Nat := insn 0x53 0 0 [(24, 1023), (64, 5)]
def wSwait : Nat := insn 0x54 0 0 [(24, 1023), (64, 5)]
def wQpost : Nat := insn 0x55 0 0 [(24, 65535), (64, 0xFC02000)]

/-- Domain 3 owns the last signal counter. -/
def owned (s : State) : State := s.put Fld.DSP_SIG_OWN_OWNER3 3 0 255

/-- The hypotheses of a head item that can be computed. -/
theorem headItem_of {s : State} {q w : Nat}
    (h : q < 65536 ∧ s.mayStart q = true ∧ s.rerun q = none ∧ s.get Fld.DSP_Q_PTRS_HEAD q ≠ s.get Fld.DSP_Q_PTRS_TAIL q ∧
      (s.queueSt q).head = some (0, w) ∧ s.itemInvalid q w = false ∧ s.itemReady q w = true ∧ s.qTurn q = true) : HeadItem s q w :=
  ⟨h.1, h.2.1, h.2.2.1, h.2.2.2.1, h.2.2.2.2.1, h.2.2.2.2.2.1, h.2.2.2.2.2.2.1, h.2.2.2.2.2.2.2⟩

/-- A pair by its second part. -/
theorem pair_of {α β : Type} {x : α × β} {v : β} (h : x.2 = v) : x = (x.1, v) := by
  cases x; cases h; rfl

/-- A result that is some value. -/
theorem ok_of {α ε : Type} {x : Except ε α} {v : α} (h : x.toOption = some v) : x = .ok v := by
  cases x with
  | error _ => cases h
  | ok _ => cases h; rfl

/-- A result that is some error. -/
theorem error_of {α ε : Type} {x : Except ε α} {v : ε} (h : (match x with | .error e => some e | .ok _ => none) = some v) : x = .error v := by
  cases x with
  | error _ => cases h; rfl
  | ok _ => cases h

/-- A state and operands that meet the hypotheses of each clause of QueuesObeyTheirRegisters. -/
theorem witness_QueuesObeyTheirRegisters :
    (∃ (s : State) (a : Acc) (q : Nat) (tail : _), a.cls = .mp ∧ q < 65536 ∧ (s.qState q = 1 ∨ s.qState q = 2) ∧ tail < 65536) ∧
    (∃ (s : State) (a : Acc) (q : Nat) (tail : _), a.cls = .mp ∧ q < 65536 ∧ s.qState q = 4 ∧ tail < 65536) ∧
    (∃ (s : State) (a : Acc) (q : Nat) (tail : _), a.cls = .mp ∧ q < 65536 ∧ (s.qState q = 0 ∨ s.qState q = 3) ∧ tail < 65536) ∧
    (∃ (s : State) (a : Acc) (q : Nat), a.cls = .mp ∧ q < 65536 ∧
      (s.qState q ≠ 0 ∨ s.get Fld.DSP_Q_RING_LOG2 q = 0 ∨ 16 < s.get Fld.DSP_Q_RING_LOG2 q ∨ s.domActive (s.qDom q) = false)) ∧
    (∃ (s : State) (a : Acc) (q : Nat), a.cls = .mp ∧ q < 65536 ∧ s.qState q = 0 ∧ 1 ≤ s.get Fld.DSP_Q_RING_LOG2 q ∧
      s.get Fld.DSP_Q_RING_LOG2 q ≤ 16 ∧ s.domActive (s.qDom q) = true) ∧
    (∃ (s : State) (a : Acc) (q : Nat), a.cls = .mp ∧ q < 65536 ∧ 1 ≤ s.qState q ∧ s.qState q ≤ 2) ∧
    (∃ (s : State) (a : Acc) (q : Nat), a.cls = .mp ∧ q < 65536 ∧ s.qState q = 2) ∧
    (∃ (a : Acc) (q : Nat) (v : _), a.cls = .mp ∧ q < 65536 ∧ v < 65536) :=
  ⟨⟨queueIn 2 ground, mp, 65535, 65535, by decide +kernel⟩,
   ⟨queueIn 4 ground, mp, 65535, 65535, by decide +kernel⟩,
   ⟨queueIn 3 ground, mp, 65535, 65535, by decide +kernel⟩,
   ⟨(queueIn 0 ground).put Fld.DSP_Q_RING_LOG2 17 65535, mp, 65535, by decide +kernel⟩,
   ⟨(queueIn 0 ground).put Fld.DSP_Q_RING_LOG2 16 65535, mp, 65535, by decide +kernel⟩,
   ⟨queueIn 2 ground, mp, 65535, by decide +kernel⟩,
   ⟨queueIn 2 ground, mp, 65535, by decide +kernel⟩,
   ⟨mp, 65535, 65535, by decide +kernel⟩⟩

/-- A state and operands that meet the hypotheses of each clause of DomainsComeAndGo. -/
theorem witness_DomainsComeAndGo :
    (∃ (s : State) (a : Acc) (dom : Nat) (kind : _), a.cls = .mp ∧ dom < 256 ∧ s.get Fld.DSP_DOM_CMD_STATUS_BUSY = 0 ∧ s.cadastre = true ∧
      s.get Fld.DSP_DOM_CFG_STATE 0 dom = 0 ∧ kind < 3 ∧ s.get Fld.XLT_DOM_LIMIT_FRAMES dom = 0) ∧
    (∃ (s : State) (a : Acc) (dom : Nat) (kind : _), a.cls = .mp ∧ dom < 256 ∧ s.get Fld.DSP_DOM_CMD_STATUS_BUSY = 0 ∧ s.cadastre = true ∧
      s.get Fld.DSP_DOM_CFG_STATE 0 dom = 0 ∧ kind < 3 ∧ 1 ≤ s.get Fld.XLT_DOM_LIMIT_FRAMES dom ∧
      (s.get Fld.XLT_DOM_LIMIT_FRAMES dom < 8 ∨ (s.put Fld.DSP_DOM_CMD_STATUS_DOMAIN dom).allocRoot dom = none)) ∧
    (∃ (s : State) (a : Acc) (dom : Nat) (kind : _), a.cls = .mp ∧ dom < 256 ∧ s.get Fld.DSP_DOM_CMD_STATUS_BUSY = 0 ∧ s.cadastre = true ∧
      s.get Fld.DSP_DOM_CFG_STATE 0 dom = 0 ∧ kind < 3 ∧ 8 ≤ s.get Fld.XLT_DOM_LIMIT_FRAMES dom ∧ s.frameSpace ≤ 2 ^ 30 ∧
      ((s.put Fld.DSP_DOM_CMD_STATUS_DOMAIN dom).allocRoot dom).isSome = true) ∧
    (∃ (s : State) (a : Acc) (dom : Nat) (kind : _), a.cls = .mp ∧ dom < 256 ∧ s.get Fld.DSP_DOM_CMD_STATUS_BUSY = 0 ∧ s.cadastre = false ∧
      kind < 4) ∧
    (∃ (s : State) (a : Acc) (dom : Nat), a.cls = .mp ∧ dom < 256 ∧ s.released = true ∧ s.domWait = none) ∧
    (∃ (s : State) (a : Acc) (dom : Nat), a.cls = .mp ∧ dom < 256 ∧ s.get Fld.DSP_DOM_CMD_STATUS_BUSY = 0 ∧ s.get Fld.DSP_DOM_CFG_STATE 0 dom = 1) ∧
    (∃ (s : State) (a : Acc) (dom : Nat), a.cls = .mp ∧ dom < 256 ∧ s.domDying dom = true ∧ (∀ g ∈ s.gangs, g.dom ≠ dom) ∧ (∀ e ∈ s.moves,
      e.2.dom ≠ dom)) :=
  ⟨⟨pooled.put Fld.XLT_DOM_LIMIT_FRAMES 0 255, mp, 255, 2, by decide +kernel⟩,
   ⟨pooled.put Fld.XLT_DOM_LIMIT_FRAMES 7 255, mp, 255, 2, by decide +kernel⟩,
   ⟨pooled.put Fld.XLT_DOM_LIMIT_FRAMES 8 255, mp, 255, 2, by decide +kernel⟩,
   ⟨alive, mp, 255, 3, by decide +kernel⟩,
   ⟨alive, mp, 255, by decide +kernel⟩,
   ⟨ground, mp, 3, by decide +kernel⟩,
   ⟨alive.put Fld.DSP_DOM_CFG_STATE 2 0 255, mp, 255, by decide +kernel⟩⟩

/-- A state and operands that meet the hypotheses of each clause of ItemsDoWhatTheirKindSays. -/
theorem witness_ItemsDoWhatTheirKindSays :
    (∃ (s : State) (q : Nat) (w : Nat), HeadItem s q w ∧ wiKind w = 0) ∧
    (∃ (s : State) (q : Nat) (w : Nat) (cores : _), HeadItem s q w ∧ wiKind w = 1 ∧ (s.queueSt q).group = none ∧ wiReqs w = 0 ∧
      pickCores s.coreFree (wiPlace w) (wiGang w) = some cores ∧ handleAddr (fun _ => (0, 0)) (wiBase w) = some (wiBase w)) ∧
    (∃ (s : State) (q : Nat) (w : Nat), HeadItem s q w ∧ wiKind w = 1 ∧ (s.queueSt q).group = none ∧ wiReqs w = 0 ∧
      pickCores s.coreFree (wiPlace w) (wiGang w) = none ∧ (pickCores (fun n => !s.isHole n) (wiPlace w) (wiGang w)).isSome = true) ∧
    (∃ (s : State) (q : Nat) (w : Nat) (b : _) (cores : _) (v : _) (own : List Placed), HeadItem s q w ∧ wiKind w = 1 ∧ (s.queueSt q).group = none ∧ 0 < wiReqs w ∧ (s.queueSt q).reqs = some (0, b) ∧ (let reqs := (List.range (wiReqs w)).map (fun i => req1 (leAt b (8 * i) 8)); (let slice := cores.headD 0 / 8; (∀ e ∈ reqs, e.bad = false ∧ e.staging = false) ∧ (reqs.map (·.handle)).eraseDups.length = wiReqs w ∧ pickCores s.coreFree (wiPlace w) (wiGang w) = some cores ∧ s.allocAll (s.qDom q) cores slice slice reqs = (v, .ok own) ∧ handleAddr (fun _ => (0, 0)) (wiBase w) = some (wiBase w)))) ∧
    (∃ (s : State) (q : Nat) (w : Nat) (b : _) (cores : _) (v : _), HeadItem s q w ∧ wiKind w = 1 ∧ (s.queueSt q).group = none ∧ 0 < wiReqs w ∧ (s.queueSt q).reqs = some (0, b) ∧ (let reqs := (List.range (wiReqs w)).map (fun i => req1 (leAt b (8 * i) 8)); (let slice := cores.headD 0 / 8; (∀ e ∈ reqs, e.bad = false ∧ e.staging = false) ∧ (reqs.map (·.handle)).eraseDups.length = wiReqs w ∧ pickCores s.coreFree (wiPlace w) (wiGang w) = some cores ∧ s.allocAll (s.qDom q) cores slice slice reqs = (v, .error 5)))) ∧
    (∃ (s : State) (q : Nat) (w : Nat) (gr : _) (cores : _), HeadItem s q w ∧ wiKind w = 1 ∧ (s.queueSt q).group = some gr ∧ gr.aborted = false ∧ wiReqs w = 0 ∧ pickCores s.coreFree (wiPlace w) (wiGang w) = some cores ∧ (let code := (wiBase w + (gr.level - gr.first) * wiStride w) % 2 ^ 32; handleAddr (fun _ => (0, 0)) code = some code)) ∧
    (∃ (s : State) (q : Nat) (w : Nat), HeadItem s q w ∧ ((s.queueSt q).since.isSome = true ∨ (s.queueSt q).forCores = true)) ∧
    (∃ (s : State) (q : Nat) (w : Nat), HeadItem s q w ∧ (wiKind w = 2 ∨ (wiKind w = 6 ∧ (s.queueSt q).group.any (fun g => !g.aborted) = true))) ∧
    (∃ (s : State) (q : Nat) (w : Nat) (v : _) (x : _) (g : _), HeadItem s q w ∧ wiKind w = 3 ∧ (req1 (wiReq w)).bad = false ∧
      (req1 (wiReq w)).staging = false ∧
      s.allocIn (if (req1 (wiReq w)).mem = 0 then [wiBase w % 64] else if (req1 (wiReq w)).mem = 1 then [64 + wiBase w % 8] else sliceOrder 0) { unit := 0, len := (req1 (wiReq w)).len, cls := (req1 (wiReq w)).cls, sealed := (req1 (wiReq w)).sealed, life := 1, dom := s.qDom q } = (v, .ok (x, g))) ∧
    (∃ (s : State) (q : Nat) (w : Nat) (x : _) (g : _), HeadItem s q w ∧ wiKind w = 4 ∧ s.regionAt (s.qDom q) (wiBase w) = some (x, g) ∧
      g + s.granLen x g ≤ granCount x) ∧
    (∃ (s : State) (q : Nat) (w : Nat), HeadItem s q w ∧ wiKind w = 5 ∧ wiReqs w = 0) ∧
    (∃ (s : State) (q : Nat) (w : Nat), HeadItem s q w ∧ wiKind w = 6 ∧ (s.queueSt q).group.any (fun g => g.aborted) = true) ∧
    (∃ (s : State) (q : Nat) (serial : Nat) (pos : Nat) (k : Nat) (it : Item),
      s.items.find? (fun i => i.queue == q && i.serial == serial) = some it ∧ it.next = pos ∧ s.freeSlot 16 32 = some k) ∧
    (∃ (s : State) (q : Nat) (c : _), q < 65536 ∧ s.mayStart q = true ∧ s.rerun q = none ∧
      s.get Fld.DSP_Q_PTRS_HEAD q ≠ s.get Fld.DSP_Q_PTRS_TAIL q ∧ (s.queueSt q).head = none ∧ c ∈ [Instr.itemNop q, .itemKernel q, .itemMove q,
      .itemRalloc q, .itemRfree q, .rgbegin q, .rgend q]) :=
  ⟨⟨queued 0, 65535, 0, ⟨headItem_of (by decide +kernel), by decide +kernel⟩⟩,
   ⟨queued wKern, 65535, wKern, [63], ⟨headItem_of (by decide +kernel), by decide +kernel⟩⟩,
   ⟨(queued wKern).put Fld.CORE_CORE_STATE_STATE 0 63, 65535, wKern, ⟨headItem_of (by decide +kernel), by decide +kernel⟩⟩,
   ⟨asking 1, 65535, wKernR, leBytes 8 0x10000, [63], _, [⟨1, some 0, 63, 2, 1⟩], ⟨headItem_of (by decide +kernel), by decide +kernel,
     by decide +kernel, by decide +kernel, by decide +kernel, by decide +kernel, by decide +kernel, by decide +kernel,
     pair_of (ok_of (by decide +kernel)), by decide +kernel⟩⟩,
   ⟨asking 64, 65535, wKernR, leBytes 8 0x13F00, [63], _, ⟨headItem_of (by decide +kernel), by decide +kernel, by decide +kernel,
     by decide +kernel, by decide +kernel, by decide +kernel, by decide +kernel, by decide +kernel, pair_of (error_of (by decide +kernel))⟩⟩,
   ⟨inGroup (group1 false) (queued wKern), 65535, wKern, group1 false, [63], ⟨headItem_of (by decide +kernel), by decide +kernel,
     by decide +kernel, by decide +kernel, by decide +kernel, by decide +kernel, by decide +kernel⟩⟩,
   ⟨(queued wKern).setQueue 65535 { (queued wKern).queueSt 65535 with forCores := true }, 65535, wKern, ⟨headItem_of (by decide +kernel),
     by decide +kernel⟩⟩,
   ⟨queued wMove, 65535, wMove, ⟨headItem_of (by decide +kernel), Or.inl (by decide +kernel)⟩⟩,
   ⟨queued wRalloc, 65535, wRalloc, _, 63, 2, ⟨headItem_of (by decide +kernel), by decide +kernel, by decide +kernel, by decide +kernel,
     pair_of (ok_of (by decide +kernel))⟩⟩,
   ⟨(queued wRfree).setGran 63 0 (granWord 1 0 0 1 1 3 0), 65535, wRfree, 63, 0, ⟨headItem_of (by decide +kernel), by decide +kernel⟩⟩,
   ⟨queued wRgbegin, 65535, wRgbegin, ⟨headItem_of (by decide +kernel), by decide +kernel⟩⟩,
   ⟨inGroup (group1 true) (queued wRgend), 65535, wRgend, ⟨headItem_of (by decide +kernel), by decide +kernel⟩⟩,
   ⟨{ queueIn 1 paged with items := [item1] }, 65535, 7, 0, 1024, item1, by decide +kernel⟩,
   ⟨unread, 65535, .rgend 65535, by decide +kernel⟩⟩

/-- A state and operands that meet the hypotheses of each clause of KernelsAndItemsEnd. -/
theorem witness_KernelsAndItemsEnd :
    (∃ (s : State) (q : _) (t0 : _), q < 65536 ∧ s.get Fld.ERR_ERR_FATAL_FATAL = 0 ∧ (s.queueSt q).since = some t0 ∧ (s.queueSt q).group = none ∧
      (s.queueSt q).limit ≠ 0 ∧ t0 + (s.queueSt q).limit < s.now ∧ s.qState q = 1) ∧
    (∃ (s : State) (g : _) (x : _), s.gang? g = some x ∧ x.limit ≠ 0 ∧ x.started + x.limit ≤ s.now ∧ x.stop = none ∧ (∃ m ∈ x.members,
      (s.core m).run ≠ 2)) ∧
    (∃ (s : State) (g : _) (x : _), s.gang? g = some x ∧ x.stop = none ∧ (∃ m ∈ x.members, (s.core m).run = 2) ∧ (∃ m ∈ x.members,
      (s.core m).run = 1) ∧ (∀ m ∈ x.members, (s.core m).run = 2 ∨ s.atBarrier x m = true)) ∧
    (∃ (s : State) (g : _) (x : _) (it : _), s.gang? g = some x ∧ x.stop = none ∧ (∀ m ∈ x.members, (s.core m).run = 2 ∧
      (s.core m).mvCnt.all (· == 0) = true ∧ (s.core m).tvCnt.all (· == 0) = true) ∧
      s.items.find? (fun i => i.queue == x.queue && i.serial == x.kinst / 256 % 2 ^ 40) = some it ∧ s.get Fld.ERR_ERR_FATAL_FATAL = 0 ∧
      RegionsApart s x ∧ x.group = false ∧ s.qState x.queue ≠ 4) ∧
    (∃ (s : State) (g : _) (x : _) (it : _) (gr : _), s.gang? g = some x ∧ x.stop = none ∧ (∀ m ∈ x.members, (s.core m).run = 2 ∧
      (s.core m).mvCnt.all (· == 0) = true ∧ (s.core m).tvCnt.all (· == 0) = true) ∧
      s.items.find? (fun i => i.queue == x.queue && i.serial == x.kinst / 256 % 2 ^ 40) = some it ∧ s.get Fld.ERR_ERR_FATAL_FATAL = 0 ∧
      RegionsApart s x ∧ x.group = true ∧ (s.queueSt x.queue).group = some gr ∧ s.get Fld.DSP_Q_STATE_STATE x.queue = 1 ∧
      (bitOf (s.gangNsw x) 0 || bitOf (s.gangNsw x) 3) = true ∧ gr.level < gr.last) ∧
    (∃ (s : State) (q : _) (r : _) (it : _) (i : _), s.get Fld.ERR_ERR_FATAL_FATAL = 0 ∧ s.records.find? (fun r => r.queue == q) = some r ∧
      r.item = some it ∧ it.queue = q ∧ i ∈ (s.recordDone q 0).items ∧ i.queue = q) ∧
    (∃ (s : State) (q : _) (r : _) (it : _), s.get Fld.ERR_ERR_FATAL_FATAL = 0 ∧ s.records.find? (fun r => r.queue == q) = some r ∧
      r.item = some it ∧ it.queue = q ∧ s.qSize q ≤ 65536) ∧
    (∃ (s : State) (q : _) (r : _) (it : _) (st : _), s.get Fld.ERR_ERR_FATAL_FATAL = 0 ∧ s.records.find? (fun r => r.queue == q) = some r ∧
      r.item = some it ∧ it.queue = q ∧ s.get Fld.DSP_Q_STATE_STATE q = 1 ∧ st ≠ 0) :=
  ⟨⟨(atTime 101 (queued wKern)).setQueue 65535 { (queued wKern).queueSt 65535 with since := some 0, limit := 100 }, 65535, 0, by decide +kernel⟩,
   ⟨ganged 1 1 gang1, 5, gang1, by decide +kernel⟩,
   ⟨(ganged 1 2 gang1).setCore 62 { kern with cur := some (dec wGbar), waiting := some 5, barriers := (List.replicate 16 0).set 15 1 }, 5, gang1,
     by decide +kernel⟩,
   ⟨ganged 2 2 gangR, 5, gangR, item1, ⟨by decide +kernel, by decide +kernel, by decide +kernel, by decide +kernel, by decide +kernel,
     by unfold RegionsApart; decide +kernel, by decide +kernel, by decide +kernel⟩⟩,
   ⟨missed, 5, { gangR with group := true }, item1, group1 false, ⟨by decide +kernel, by decide +kernel, by decide +kernel, by decide +kernel,
     by decide +kernel, by unfold RegionsApart; decide +kernel, by decide +kernel, by decide +kernel, by decide +kernel, by decide +kernel,
     by decide +kernel⟩⟩,
   ⟨{ queueIn 1 paged with items := [item1, item2], records := [record1] }, 65535, record1, item1, item2, by decide +kernel⟩,
   ⟨{ queueIn 1 paged with items := [item1, item2], records := [record1] }, 65535, record1, item1, by decide +kernel⟩,
   ⟨{ queueIn 1 paged with items := [item1], records := [record1] }, 65535, record1, item1, 0xA, by decide +kernel⟩⟩

/-- A state and operands that meet the hypotheses of each clause of CoresSynchronise. -/
theorem witness_CoresSynchronise :
    (∃ (s : State) (c : Nat) (d : Dec), AtSequencer s c d ∧ (let k := s.core c;
      iMajor d.word = 0x51 ∧ (s.coreWrite c 2 (iAddr32 d.word) (s.gangBlock c)).2 = 0 ∧
      (s.coreWrite c 2 (iAddr32 d.word) (s.gangBlock c)).1.core c = k)) ∧
    (∃ (s : State) (c : Nat) (d : Dec), AtSequencer s c d ∧ (let k := s.core c;
      iMajor d.word = 0x52 ∧ k.waiting = none ∧ k.syncFenced = true ∧ k.barriers.length = 16 ∧ (let b := bitsAt d.word 24 4;
      (let n := k.barriers.getD b 0 + 1; (let members := if k.test then [c] else ((s.gang? k.gang).map (·.members)).getD [c];
      (∀ m ∈ members, m ≠ c → n ≤ (s.core m).barriers.getD b 0)))))) ∧
    (∃ (s : State) (c : Nat) (d : Dec), AtSequencer s c d ∧ (let k := s.core c;
      iMajor d.word = 0x52 ∧ k.waiting = none ∧ k.syncFenced = true ∧ k.barriers.length = 16 ∧ (let b := bitsAt d.word 24 4;
      (let n := k.barriers.getD b 0 + 1; (let members := if k.test then [c] else ((s.gang? k.gang).map (·.members)).getD [c];
      (∃ m ∈ members, m ≠ c ∧ (s.core m).barriers.getD b 0 < n)))))) ∧
    (∃ (s : State) (c : Nat) (d : Dec), AtSequencer s c d ∧ (let k := s.core c;
      iMajor d.word = 0x53 ∧ k.syncFenced = true ∧ s.sigOwner (sigCtr d.word) = k.dom)) ∧
    (∃ (s : State) (c : Nat) (d : Dec), AtSequencer s c d ∧ (let k := s.core c;
      iMajor d.word = 0x54 ∧ s.sigOwner (sigCtr d.word) = k.dom ∧ s.sigReached (sigCtr d.word) (sigVal d.word) = true)) ∧
    (∃ (s : State) (c : Nat) (d : Dec), AtSequencer s c d ∧ (let k := s.core c;
      iMajor d.word = 0x54 ∧ s.sigOwner (sigCtr d.word) = k.dom ∧ s.sigReached (sigCtr d.word) (sigVal d.word) = false)) ∧
    (∃ (s : State) (c : Nat) (d : Dec), AtSequencer s c d ∧ (let k := s.core c;
      k.run = 1 ∧ k.test = false ∧ s.sigOwner (sigCtr d.word) ≠ k.dom ∧ iMajor d.word = 0x53 ∧ k.syncFenced = true)) ∧
    (∃ (s : State) (c : Nat) (d : Dec), AtSequencer s c d ∧ (let k := s.core c;
      k.run = 1 ∧ k.test = false ∧ s.sigOwner (sigCtr d.word) ≠ k.dom ∧ iMajor d.word = 0x54)) ∧
    (∃ (s : State) (c : Nat) (d : Dec), AtSequencer s c d ∧ (let k := s.core c;
      iMajor d.word = 0x55 ∧ k.syncFenced = true ∧ (let q := qpostQueue d.word; (let tail := s.get Fld.DSP_Q_PTRS_TAIL q;
      (let r := s.readMem (s.coreWho c 4) (iAddr64 d.word) 64;
      s.qDom q = k.dom ∧ (s.qState q = 1 ∨ s.qState q = 2) ∧ (tail + 1) % s.qSize q ≠ s.get Fld.DSP_Q_PTRS_HEAD q ∧
      s.groupMayWrite c 0 (2 ^ 64) = true ∧ s.posting q = false ∧ r.status = 0))))) ∧
    (∃ (s : State) (c : Nat) (d : Dec), AtSequencer s c d ∧ (let k := s.core c; iMajor d.word = 0x55 ∧ k.run = 1 ∧ (let q := qpostQueue d.word;
      (let tail := s.get Fld.DSP_Q_PTRS_TAIL q;
      (s.qState q = 1 ∨ s.qState q = 2) ∧ (tail + 1) % s.qSize q ≠ s.get Fld.DSP_Q_PTRS_HEAD q ∧ s.get Fld.DSP_Q_PTRS_HEAD q < s.qSize q ∧
      tail < s.qSize q ∧ s.qSize q ≤ 65536)))) :=
  ⟨⟨syncing wGinfo id, 63, dec wGinfo, by unfold AtSequencer; dsimp only; decide +kernel⟩,
   ⟨(syncing wGbar id).setCore 62 { kern with barriers := (List.replicate 16 0).set 15 1 }, 63, dec wGbar,
     by unfold AtSequencer; dsimp only; decide +kernel⟩,
   ⟨syncing wGbar id, 63, dec wGbar, by unfold AtSequencer; dsimp only; decide +kernel⟩,
   ⟨owned (syncing wSignal id), 63, dec wSignal, by unfold AtSequencer; dsimp only; decide +kernel⟩,
   ⟨(owned (syncing wSwait id)).put Fld.DSP_SIG_VALUE 5 0 1023, 63, dec wSwait, by unfold AtSequencer; dsimp only; decide +kernel⟩,
   ⟨owned (syncing wSwait id), 63, dec wSwait, by unfold AtSequencer; dsimp only; decide +kernel⟩,
   ⟨syncing wSignal id, 63, dec wSignal, by unfold AtSequencer; dsimp only; decide +kernel⟩,
   ⟨syncing wSwait id, 63, dec wSwait, by unfold AtSequencer; dsimp only; decide +kernel⟩,
   ⟨syncing wQpost id, 63, dec wQpost, by unfold AtSequencer; dsimp only; decide +kernel⟩,
   ⟨syncing wQpost id, 63, dec wQpost, by unfold AtSequencer; dsimp only; decide +kernel⟩⟩

/-! ### Chains, traversals and stage queues -/

/-- A die of which route 1 leads to die 1 over module 3. -/
def linked : State := ((ground.put Fld.RTE_RT_CTL_VALID 1 1).put Fld.RTE_RT_PRI_MASK 8 1).put Fld.LNK_MOD_STATE_STATE 6 3

/-- The last chain, of two dies, for domain 3. -/
def chained : State :=
  let s := ((linked.put Fld.TRV_CH_CFG_EN 1 255).put Fld.TRV_CH_CFG_LEN_M1 1 255).put Fld.TRV_CH_CFG_DOMAIN 3 255
  let s := ((s.put Fld.TRV_CH_NBR_NEXT 1 255).put Fld.TRV_CH_NBR_PREV 1 255).put Fld.TRV_CH_BUF_ADDR 0xFC04000 255
  s.setCore 63 { kern with tvCnt := [1, 0, 0, 0] }

/-- A traversal descriptor on the last chain: operation, and more fields at their bits. -/
def trav (op : Nat) (fs : List (Nat × Nat)) : Nat :=
  ([(16, 255), (32, 8), (64, 0xFC02000), (96, 0xFC03000)] ++ fs).foldl (fun (w : Nat) (f : Nat × Nat) => w + f.2 * 2 ^ f.1) op

/-- A started round of it. -/
def round (w : Nat) : Round :=
  { gang := 5, contribs := [{ member := 0, core := 63, seq := 5, ctr := 0, desc := w }], started := true, shards := [4, 4], olds := [4, 4], posmap := [0, 1],
    held := [], sentR := 0, sentG := 0, gotR := 0, gotG := 0, sentTo := [], sent := 0, acked := 0, results := [], permGot := 0, sStep := 1, sOff := 0,
    rStep := 1, rOff := 0, gStep := 0, arr0 := 0, rel0 := 0, progress := 0 }

/-- The round runs, with grants of three messages. -/
def inRound (r : Round) : State :=
  let s := stored 0xFC02000 (zeros 64) chained
  s.setChain 255 { s.chain 255 with round := some r, grants := [(0, 0, 3), (0, 1, 3)] }

def r1 : Round := round (trav 1 [])
def r3 : Round := round (trav 3 [])
def r4 : Round := { round (trav 4 []) with olds := [8, 0] }
def r5 : Round := round (trav 5 [(256, 4)])
/-- The round whose permutation the peer's data finishes. -/
def r4in : Round := round (trav 4 [])
/-- A round that has sent and got all. -/
def rEnd : Round :=
  let n := (sendsReduce r1.desc 2 0 r1.shards).length + (sendsGather r1.desc 2 0 r1.shards).length
  { r1 with sentR := (sendsReduce r1.desc 2 0 r1.shards).length, sentG := (sendsGather r1.desc 2 0 r1.shards).length, sent := n, acked := n,
            gotR := gotsReduce r1.desc 2 0 r1.shards, gotG := gotsGather r1.desc 2 0 r1.shards, results := [1, 2, 3, 4] }

def wTrav : Nat := insn 0x40 0 0 [(24, 1), (32, 0xFC01000)]

/-- Core 63 begins a traversal whose chain two cores join here. -/
def joining : State :=
  let s := stored 0xFC01000 (leBytes 64 (trav 1 [])) (chained.put Fld.TRV_CH_CFG_LOCAL_M1 1 255)
  s.setCore 63 { s.core 63 with tq := [dec wTrav] }

/-- A message of the chain. -/
def chainPkt (typ src arg : Nat) : Packet := { pktOf typ with chain := 255, dom := 3, src := src, arg := arg }

/-- The last stage queue in a role and a state, its peer on die 1. -/
def staged (role st : Nat) : State :=
  let s := ((linked.put Fld.TRV_SQ_CFG_ROLE role 0 63).put Fld.TRV_SQ_CFG_DOMAIN 3 0 63).put Fld.TRV_SQ_CFG_PEER_DIE 1 0 63
  let s := ((s.put Fld.TRV_SQ_GEOM_DEPTH_M1 1 0 63).put Fld.TRV_SQ_GEOM_SLOT_64K 1 0 63).put Fld.TRV_SQ_BASE_ADDR 0xFC00000 0 63
  (s.put Fld.TRV_SQ_SIG_SIG 7 0 63).put Fld.TRV_SQ_STATE_STATE st 0 63

def wPush : Nat := insn 0x42 0 0 [(24, 63), (30, 1), (32, 0xFC02000), (64, 128)]
def wPop : Nat := insn 0x43 0 0 [(24, 63)]
def stageCore (w : Nat) (s : State) : State := s.setCore 63 { kern with tvCnt := [1, 0, 0, 0], tq := [dec w] }

/-- Both ends of a queue of this die. -/
def ends (st : Nat) : State :=
  let s := ((staged 1 st).put Fld.TRV_SQ_CFG_PEER_DIE 0 0 63).put Fld.TRV_SQ_CFG_PEER_Q 62 0 63
  let s := ((s.put Fld.TRV_SQ_CFG_ROLE 2 0 62).put Fld.TRV_SQ_CFG_DOMAIN 3 0 62).put Fld.TRV_SQ_CFG_PEER_Q 63 0 62
  let s := ((s.put Fld.TRV_SQ_GEOM_DEPTH_M1 1 0 62).put Fld.TRV_SQ_GEOM_SLOT_64K 1 0 62).put Fld.TRV_SQ_BASE_ADDR 0xFC00000 0 62
  (s.put Fld.TRV_SQ_SIG_SIG 8 0 62).put Fld.TRV_SQ_STATE_STATE st 0 62

/-- A push and a move wait for their replies. -/
def waitingMove : Req := { tag := 7, pkt := pktOf 0x10, owner := .move 2047, due := none }
def pushing : State :=
  let s := (staged 1 2).setCore 63 { kern with tvCnt := [0, 1, 0, 0] }
  let s := s.setStage 63 { s.stageEnd 63 with pushes := [{ num := 0, core := 63, ctr := 1, gang := 5, seq := 5 }] }
  { s with reqs := [{ tag := 6, pkt := pktOf 0x40, owner := .stage 63, due := some 9 }, waitingMove] }

/-- A message to the stage queue. -/
def stagePkt (typ arg total : Nat) (b : Bytes) : Packet :=
  { pktOf typ with sq := 63, dom := 3, src := 1, arg := arg, total := total, data := b }

/-- A read by its three parts. -/
theorem rd_of {r : Rd} {s : State} {b : Bytes} (h : r.state = s ∧ r.status = 0 ∧ r.bytes = b) : r = ⟨s, 0, b⟩ := by
  cases r; simp only at h; simp [h]

/-- A read by its state and status. -/
theorem rd_self {r : Rd} {s : State} (h : r.state = s ∧ r.status = 0) : r = ⟨s, 0, r.bytes⟩ := rd_of ⟨h.1, h.2, rfl⟩

/-- A triple by its second part. -/
theorem triple_of {α β : Type} {x : α × Nat × β} (h : x.2.1 = 0) : x = (x.1, 0, x.2.2) := by
  obtain ⟨a, b, c⟩ := x; simp only at h; simp [h]

/-- A segment of the chain's round: its phase and its shard. -/
def segment (op phase shard : Nat) (b : Bytes) : Packet :=
  { chainPkt 0x30 1 0 with op := op, count := 8, phase := phase, shard := shard, shardLen := 4, data := b }

/-- The hypotheses of a segment that lands which can be computed. -/
theorem segLands_of {s : State} {p : Packet} {r : Round} {n : Nat}
    (h : (s.chainTakes p = true ∧ (s.chain p.chain).round = some r ∧ r.started = true ∧ s.chEpoch p.chain = p.epoch) ∧
      (p.src = s.chPrev p.chain ∧ r.shapeOk p = true ∧ tdOp r.desc ∈ [1, 2, 3]) ∧ s.bufSlot p.chain r = some n ∧
      (segWrite s p n).2 = 0 ∧ (segWrite s p n).1.reachable p.src 0 p.chain = true) : SegLands s p r n :=
  ⟨h.1, h.2.1, h.2.2.1, h.2.2.2⟩

/-- The hypotheses of a traversal that can be computed. -/
theorem travReady_of {s : State} {c : Nat} {d : Dec} {q : List Dec} {w : Nat}
    (h : c < 64 ∧ (s.core c).tq = d :: q ∧ iMajor d.word = 0x40 ∧ (s.core c).tvCnt.getD (travCtr d.word) 0 < 255 ∧ w < 2 ^ 512)
    (r : (s.readMem (s.coreWho c 5) (iAddr32 d.word) 64).state = s ∧ (s.readMem (s.coreWho c 5) (iAddr32 d.word) 64).status = 0 ∧
      (s.readMem (s.coreWho c 5) (iAddr32 d.word) 64).bytes = leBytes 64 w) : TravReady s c d q w :=
  ⟨h.1, h.2.1, h.2.2.1, h.2.2.2.1, rd_of r, h.2.2.2.2⟩

/-- A state and operands that meet the hypotheses of each clause of TraversalsJoinTheirRound. -/
theorem witness_TraversalsJoinTheirRound :
    (∃ (s : State) (c : Nat) (d : Dec) (q : List Dec) (w : _), TravReady s c d q w ∧ (s.chain (tdChain w)).round = none ∧
      s.chOn (tdChain w) = true ∧ s.get Fld.TRV_CH_CFG_DOMAIN (tdChain w) = (s.core c).dom ∧
      (s.core c).member < s.contributors (tdChain w) (tdOp w) ∧ 2 ≤ s.contributors (tdChain w) (tdOp w)) ∧
    (∃ (s : State) (c : Nat) (d : Dec) (q : List Dec) (w : _), TravReady s c d q w ∧ (s.core c).run = 1 ∧ (s.core c).test = false ∧
      (s.chOn (tdChain w) = false ∨ s.get Fld.TRV_CH_CFG_DOMAIN (tdChain w) ≠ (s.core c).dom)) ∧
    (∃ (s : State) (c : Nat) (d : Dec) (q : List Dec), c < 64 ∧ (s.core c).tq = d :: q ∧ iMajor d.word = 0x41 ∧
      (if waitAll d.word then (s.core c).tvCnt.all (· == 0) else (s.core c).tvCnt.getD (travCtr d.word) 0 == 0) = true) :=
  ⟨⟨joining, 63, dec wTrav, [], trav 1 [], ⟨travReady_of (by decide +kernel) (by decide +kernel), by decide +kernel⟩⟩,
   ⟨joining.put Fld.TRV_CH_CFG_DOMAIN 4 255, 63, dec wTrav, [], trav 1 [], ⟨travReady_of (by decide +kernel) (by decide +kernel), by decide +kernel⟩⟩,
   ⟨chained.setCore 63 { kern with tq := [dec (insn 0x41 0 0 [(24, 1)])] }, 63, dec (insn 0x41 0 0 [(24, 1)]), [], by decide +kernel⟩⟩

/-- A state and operands that meet the hypotheses of each clause of RoundsSendWithinTheirWindows. -/
theorem witness_RoundsSendWithinTheirWindows :
    (∃ (s : State) (ch : Nat) (r : Round) (op : _) (k : _) (off : _) (codes : _) (u : _), (op = 1 ∨ op = 2 ∨ op = 6) ∧ RoundRuns s ch op r ∧
      2 ≤ s.chN ch ∧ s.chP ch < s.chN ch ∧ k = (s.chP ch + s.chN ch - 1) % s.chN ch ∧
      (sendsReduce r.desc (s.chN ch) (s.chP ch) r.shards).drop r.sentR = [(k, off)] ∧ (∀ g ∈ sendsGather r.desc (s.chN ch) (s.chP ch) r.shards,
      g.1 = s.chP ch ∧ r.sentG = 0 ∧ r.results = [] ∧ 0 < shardLen r.shards (s.chP ch)) ∧ r.sent < s.granted ch (s.chNext ch) ∧
      s.reachable (s.chNext ch) 0 ch = true ∧
      s.rndCombine ch r k off (List.replicate (min (segReduce r.desc) (shardLen r.shards k - off)) (redIdentity (tdRop r.desc) (tdDt r.desc))) = (u, 0, codes)) ∧
    (∃ (s : State) (ch : Nat) (r : Round) (off : _) (b : _), RoundRuns s ch 3 r ∧ 2 ≤ s.chN ch ∧ (sendsGather r.desc (s.chN ch) (s.chP ch) r.shards).drop r.sentG = [(s.chP ch, off)] ∧ r.sent < s.granted ch (s.chNext ch) ∧ s.reachable (s.chNext ch) 0 ch = true ∧ (let z := dtSize (tdDt r.desc); s.rndRead ch (tdSrc r.desc + off * z) (min (segGather r.desc) (shardLen r.shards (s.chP ch) - off) * z) = ⟨s, 0, b⟩)) ∧
    (∃ (s : State) (ch : Nat) (r : Round) (k : _), RoundRuns s ch 4 r ∧ s.permNext ch r = some k ∧ (let i := tget (fun _ => 0) k r.sentTo;
      (let r' : Round := { r with sent := r.sent + 1, sentTo := tset (fun _ => 0) k (i + 1) r.sentTo }; (let z := dtSize (tdDt r.desc);
      (let run := permRun r.olds r.shards (s.chP ch) k; (let g := run.1 + i * segGather r.desc;
      s.permNext ch r' = none ∧ s.reachable (r.posmap.getD k 0) 0 ch = true ∧
      (s.rndRead ch (tdSrc r.desc + (g - shardOff r.olds (s.chP ch)) * z) (min (segGather r.desc) (run.2 - g) * z)).status = 0 ∧
      (s.rndRead ch (tdSrc r.desc + (g - shardOff r.olds (s.chP ch)) * z) (min (segGather r.desc) (run.2 - g) * z)).state = s)))))) ∧
    (∃ (s : State) (ch : Nat) (r : Round), RoundRuns s ch 5 r ∧ r.gStep = 0 ∧ r.sStep = 1 ∧ r.sOff = 0 ∧ r.rStep = 1 ∧ (s.chain ch).steps = [] ∧
      1 ≤ tdSteps r.desc ∧ (∀ k < s.chN ch, 0 < shardLen r.shards k) ∧ s.chP ch < s.chN ch ∧ s.reachable (s.chPrev ch) 0 ch = true) ∧
    (∃ (s : State) (ch : Nat) (r : Round) (op : _), (op = 1 ∨ op = 2 ∨ op = 3 ∨ op = 6) ∧ RoundRuns s ch op r ∧ 2 ≤ s.chN ch ∧
      s.granted ch (s.chNext ch) ≤ r.sent) ∧
    (∃ (s : State) (ch : Nat) (r : Round) (k : _) (off : _), RoundRuns s ch 3 r ∧ 2 ≤ s.chN ch ∧
      (sendsGather r.desc (s.chN ch) (s.chP ch) r.shards).drop r.sentG = [(k, off)] ∧ r.sent < s.granted ch (s.chNext ch) ∧
      s.reachable (s.chNext ch) 0 ch = false) :=
  ⟨⟨inRound r1, 255, r1, 1, 1, 0, _, _, ⟨by decide +kernel, by unfold RoundRuns; decide +kernel, by decide +kernel, by decide +kernel,
    by decide +kernel, by decide +kernel, by decide +kernel, by decide +kernel, by decide +kernel, triple_of (by decide +kernel)⟩⟩,
   ⟨inRound r3, 255, r3, 0, _, ⟨by unfold RoundRuns; decide +kernel, by decide +kernel, by decide +kernel, by decide +kernel, by decide +kernel,
     by dsimp only; exact rd_self (by decide +kernel)⟩⟩,
   ⟨inRound r4, 255, r4, 1, ⟨by unfold RoundRuns; decide +kernel, by decide +kernel, by dsimp only; decide +kernel⟩⟩,
   ⟨inRound r5, 255, r5, ⟨by unfold RoundRuns; decide +kernel, by decide +kernel⟩⟩,
   ⟨inRound { r1 with sent := 99 }, 255, { r1 with sent := 99 }, 1, ⟨by decide +kernel, by unfold RoundRuns; decide +kernel, by decide +kernel,
     by decide +kernel⟩⟩,
   ⟨(inRound r3).put Fld.LNK_MOD_STATE_STATE 0 3, 255, r3, 0, 0, ⟨by unfold RoundRuns; decide +kernel, by decide +kernel, by decide +kernel,
     by decide +kernel, by decide +kernel⟩⟩⟩

/-- A state and operands that meet the hypotheses of each clause of RoundsEndOrTimeOut. -/
theorem witness_RoundsEndOrTimeOut :
    (∃ (s : State) (ch : Nat) (r : Round), ch < 256 ∧ (s.chain ch).round = some r ∧ s.roundDone ch r = true) ∧
    (∃ (s : State) (ch : Nat) (r : Round), ch < 256 ∧ (s.chain ch).round = some r ∧ s.get Fld.TRV_TRV_CFG_RND_TIMEOUT ≠ 0 ∧
      r.progress + s.get Fld.TRV_TRV_CFG_RND_TIMEOUT * 100000 ≤ s.now) :=
  ⟨⟨inRound rEnd, 255, rEnd, by decide +kernel⟩,
   ⟨(atTime (2 ^ 40) (inRound r1)).put Fld.TRV_TRV_CFG_RND_TIMEOUT 1, 255, r1, by decide +kernel⟩⟩

/-- A state and operands that meet the hypotheses of each clause of ChainMessagesReachTheirRound. -/
theorem witness_ChainMessagesReachTheirRound :
    (∃ (s : State) (p : Packet), s.chainTakes p = true ∧ (s.chain p.chain).round = none ∧ p.arg % 65536 ≠ 0 ∧ p.arg / 65536 = 0 ∧
      s.stand p false = .fits) ∧
    (∃ (s : State) (p : Packet) (r : _) (slot : _), SegLands s p r slot ∧ (let me := s.chP p.chain; p.phase = 0 ∧ p.shard ≠ me)) ∧
    (∃ (s : State) (p : Packet) (r : _) (slot : _) (u : _) (codes : _) (dst : _) (v : _), SegLands s p r slot ∧ (let me := s.chP p.chain;
      (let z := dtSize (tdDt r.desc); (let a := segTaken s p r slot; (let got0 : Round := { r with progress := a.now, gotR := r.gotR + 1 };
      p.phase = 0 ∧ p.shard = me ∧ (r.contribs.map (fun x => tdDst x.desc)).eraseDups = [dst] ∧
      a.rndCombine p.chain got0 me p.elemOff (bytesCodes (wireSize (tdRop r.desc) (tdDt r.desc)) p.data) = (u, 0, codes) ∧ (∀ c ∈ codes,
      (redResult (tdRop r.desc) (tdDt r.desc) c).2 = false) ∧
      u.rndWrite p.chain r.core (dst + (if tdOp r.desc = 2 then p.elemOff else shardOff r.shards me + p.elemOff) * z) (codesBytes z (codes.map (fun c => (redResult (tdRop r.desc) (tdDt r.desc) c).1))) = (v, 0)))))) ∧
    (∃ (s : State) (p : Packet) (r : _) (slot : _) (dst : _) (v : _), SegLands s p r slot ∧ (let z := dtSize (tdDt r.desc);
      (let a := segTaken s p r slot;
      p.phase = 1 ∧ tdOp r.desc ≠ 2 ∧ (r.contribs.map (fun x => tdDst x.desc)).eraseDups = [dst] ∧
      a.rndWrite p.chain r.core (dst + (shardOff r.shards p.shard + p.elemOff) * z) (codesBytes z (bytesCodes z p.data)) = (v, 0)))) ∧
    (∃ (s : State) (p : Packet) (r : _), s.chainTakes p = true ∧ (s.chain p.chain).round = some r ∧ r.started = true ∧ s.chEpoch p.chain = p.epoch ∧
      r.opOk p = true) ∧
    (∃ (s : State) (p : Packet) (r : _), s.chainTakes p = true ∧ (s.chain p.chain).round = some r ∧ r.started = true ∧ s.chEpoch p.chain = p.epoch) ∧
    (∃ (s : State) (p : Packet) (r : _), s.chainTakes p = true ∧ (s.chain p.chain).round = some r ∧ r.started = true ∧ s.chEpoch p.chain = p.epoch ∧
      p.arg ≠ 7) ∧
    (∃ (s : State) (p : Packet) (r : _), s.chainTakes p = true ∧ (s.chain p.chain).round = some r ∧ r.started = true ∧ s.chEpoch p.chain = p.epoch ∧
      r.opOk p = true ∧ p.src ≠ s.chPrev p.chain) ∧
    (∃ (s : State) (p : Packet) (r : _), s.chainTakes p = true ∧ (s.chain p.chain).round = some r ∧ r.started = true ∧ s.chEpoch p.chain = p.epoch ∧ (let me := s.chP p.chain; (let z := dtSize (tdDt r.desc); (let u := s.rndWrite p.chain r.core (tdDst r.desc + (p.elemOff - shardOff r.shards me) * z) p.data; s.ecc = [] ∧ r.shapeOk p = true ∧ tdOp r.desc = 4 ∧ p.shard = me ∧ shardOff r.shards me ≤ p.elemOff ∧ p.elemOff + p.data.length / z ≤ shardOff r.shards me + shardLen r.shards me ∧ u.2 = 0)))) ∧
    (∃ (s : State) (p : Packet), s.chainTakes p = false ∧ (p.typ = 0x34 ∨ p.typ = 0x35)) ∧
    (∃ (s : State) (p : Packet) (got : _), s.chainTakes p = false ∧ got ∈ [s.gotSeg p, s.gotPerm p, s.gotGrant p, s.gotCack p, s.gotAbort p,
      s.gotCrefuse p]) :=
  ⟨⟨chained, chainPkt 0x32 1 65535, by decide +kernel⟩,
   ⟨inRound r1, segment 1 0 1 (zeros 32), r1, 0, ⟨segLands_of (by decide +kernel), by decide +kernel⟩⟩,
   ⟨inRound r1, segment 1 0 0 (zeros 32), r1, 0, _, _, 0xFC03000, _, ⟨segLands_of (by decide +kernel), by dsimp only; exact ⟨by decide +kernel,
     by decide +kernel, by decide +kernel, triple_of (by decide +kernel), by decide +kernel, pair_of (by decide +kernel)⟩⟩⟩,
   ⟨inRound r3, segment 3 1 1 (zeros 8), r3, 0, 0xFC03000, _, ⟨segLands_of (by decide +kernel), by dsimp only; exact ⟨by decide +kernel,
     by decide +kernel, by decide +kernel, pair_of (by decide +kernel)⟩⟩⟩,
   ⟨inRound r1, { chainPkt 0x33 1 1 with op := 1, count := 8 }, r1, by decide +kernel⟩,
   ⟨inRound rEnd, chainPkt 0x34 1 7, rEnd, by decide +kernel⟩,
   ⟨inRound r1, chainPkt 0x34 1 8, r1, by decide +kernel⟩,
   ⟨inRound r1, { chainPkt 0x30 2 0 with op := 1, count := 8 }, r1, by decide +kernel⟩,
   ⟨inRound r4in, { chainPkt 0x31 1 0 with op := 4, count := 8, shard := 0, shardLen := 4, elemOff := 2, data := zeros 8 }, r4in,
     by dsimp only; decide +kernel⟩,
   ⟨chained, { chainPkt 0x35 1 0 with dom := 4 }, by decide +kernel⟩,
   ⟨chained, { chainPkt 0x30 1 0 with dom := 4 }, chained.gotSeg { chainPkt 0x30 1 0 with dom := 4 }, ⟨by decide +kernel, List.mem_cons_self⟩⟩⟩

/-- A state and operands that meet the hypotheses of each clause of StageQueuesCarryPushes. -/
theorem witness_StageQueuesCarryPushes :
    (∃ (s : State) (c : _) (d : _) (tail : _) (b : _), c < 64 ∧ (s.core c).tq = d :: tail ∧ iMajor d.word = 0x42 ∧ (s.core c).tvCnt.getD (spushCtr d.word) 0 < 255 ∧ (let q := stageQ d.word; (let m := s.get Fld.TRV_SQ_MOVED_COUNT 0 q; s.sqDomain q = (s.core c).dom ∧ s.sqRole q = 1 ∧ s.sqState q = 2 ∧ spushLen d.word ≤ s.sqSlot q ∧ s.groupMayWrite c 0 (2 ^ 64) = true ∧ s.sigReached (s.sqSig q) (m + 1) = true ∧ s.readMem (s.coreWho c 5) (iAddr32 d.word) (spushLen d.word) = ⟨s, 0, b⟩ ∧ s.sqDie q ≠ s.sysId ∧ s.sqReach q = true))) ∧
    (∃ (s : State) (c : _) (d : _) (tail : _) (b : _), c < 64 ∧ (s.core c).tq = d :: tail ∧ iMajor d.word = 0x42 ∧ (s.core c).tvCnt.getD (spushCtr d.word) 0 < 255 ∧ (let q := stageQ d.word; (let m := s.get Fld.TRV_SQ_MOVED_COUNT 0 q; s.sqDomain q = (s.core c).dom ∧ s.sqRole q = 1 ∧ s.sqState q = 2 ∧ spushLen d.word ≤ s.sqSlot q ∧ s.groupMayWrite c 0 (2 ^ 64) = true ∧ s.sigReached (s.sqSig q) (m + 1) = true ∧ s.readMem (s.coreWho c 5) (iAddr32 d.word) (spushLen d.word) = ⟨s, 0, b⟩ ∧ s.sqDie q = s.sysId))) ∧
    (∃ (s : State) (c : _) (d : _) (tail : _), c < 64 ∧ (s.core c).tq = d :: tail ∧ iMajor d.word = 0x42 ∧ (s.core c).tvCnt.getD (spushCtr d.word) 0 < 255 ∧ (let q := stageQ d.word; (s.sqDomain q ≠ (s.core c).dom ∨ s.sqRole q ≠ 1 ∨ s.sqState q ≠ 2 ∨ s.sqSlot q < spushLen d.word) ∧ (s.core c).run = 1 ∧ (s.core c).test = false)) ∧
    (∃ (s : State) (c : _) (d : _) (tail : _), c < 64 ∧ (s.core c).tq = d :: tail ∧ iMajor d.word = 0x43 ∧ (s.core c).moveIdle = true ∧ (s.core c).vectorIdle = true ∧ (let q := stageQ d.word; s.sqDomain q = (s.core c).dom ∧ s.sqRole q = 2 ∧ s.sqState q = 2 ∧ s.get Fld.TRV_SQ_POPPED_COUNT 0 q ≠ s.get Fld.TRV_SQ_MOVED_COUNT 0 q ∧ s.sqDie q ≠ s.sysId ∧ s.sqReach q = true)) ∧
    (∃ (s : State) (c : _) (d : _) (tail : _), c < 64 ∧ (s.core c).tq = d :: tail ∧ iMajor d.word = 0x43 ∧ (s.core c).moveIdle = true ∧ (s.core c).vectorIdle = true ∧ (let q := stageQ d.word; (s.sqDomain q ≠ (s.core c).dom ∨ s.sqRole q ≠ 2 ∨ s.sqState q ≠ 2 ∨ s.get Fld.TRV_SQ_POPPED_COUNT 0 q = s.get Fld.TRV_SQ_MOVED_COUNT 0 q) ∧ (s.core c).run = 1 ∧ (s.core c).test = false)) ∧
    (∃ (s : State) (p : Packet), p.sq < 64 ∧ s.fromPeer p.sq p = true ∧ s.sqRole p.sq = 1 ∧ s.sqState p.sq = 2) ∧
    (∃ (s : State) (p : Packet), p.sq < 64 ∧ s.fromPeer p.sq p = true ∧ s.sqRole p.sq = 2 ∧ (s.sqState p.sq = 1 ∨ s.sqState p.sq = 2) ∧ p.push = s.get Fld.TRV_SQ_MOVED_COUNT 0 p.sq ∧ p.arg = (s.stageEnd p.sq).got ∧ p.arg + p.data.length ≤ p.total ∧ p.total ≤ s.sqSlot p.sq ∧ s.ecc = [] ∧ s.fixups = [] ∧ (let at_ := s.get Fld.TRV_SQ_BASE_ADDR 0 p.sq / 65536 * 65536 + s.get Fld.TRV_SQ_MOVED_COUNT 0 p.sq % s.sqDepth p.sq * s.sqSlot p.sq + p.arg; (∀ c ∈ linesOf at_ p.data.length, s.checkAccess (Who.self (s.sqDomain p.sq) 5) c.1 c.2 = 0) ∧ p.arg + p.data.length < p.total)) ∧
    (∃ (s : State) (p : Packet), p.sq < 64 ∧ s.fromPeer p.sq p = true ∧ s.sqRole p.sq = 2 ∧ (s.sqState p.sq = 1 ∨ s.sqState p.sq = 2) ∧ p.push = s.get Fld.TRV_SQ_MOVED_COUNT 0 p.sq ∧ p.arg = (s.stageEnd p.sq).got ∧ p.arg + p.data.length ≤ p.total ∧ p.total ≤ s.sqSlot p.sq ∧ s.ecc = [] ∧ s.fixups = [] ∧ (let at_ := s.get Fld.TRV_SQ_BASE_ADDR 0 p.sq / 65536 * 65536 + s.get Fld.TRV_SQ_MOVED_COUNT 0 p.sq % s.sqDepth p.sq * s.sqSlot p.sq + p.arg; (∀ c ∈ linesOf at_ p.data.length, s.checkAccess (Who.self (s.sqDomain p.sq) 5) c.1 c.2 = 0) ∧ p.arg + p.data.length = p.total ∧ p.skind = 0 ∧ p.src ≠ s.sysId)) ∧
    (∃ (s : State) (p : Packet), p.sq < 64 ∧ s.fromPeer p.sq p = true ∧ s.sqRole p.sq = 1 ∧ s.sqState p.sq = 1 ∧ p.arg % 2 ^ 24 = s.sqShape p.sq) ∧
    (∃ (s : State) (p : Packet), p.sq < 64 ∧ s.fromPeer p.sq p = true ∧ s.sqRole p.sq = 1 ∧ s.sqState p.sq = 1 ∧ p.arg % 2 ^ 24 = s.sqShape p.sq ∧
      s.sqDie p.sq = s.sysId ∧ s.sqPeer p.sq ≠ p.sq ∧ s.sqState (s.sqPeer p.sq) = 1) ∧
    (∃ (s : State) (p : Packet), p.sq < 64 ∧ s.fromPeer p.sq p = true ∧ s.sqRole p.sq = 1 ∧ s.sqState p.sq = 1 ∧ p.arg % 2 ^ 24 ≠ s.sqShape p.sq ∧
      s.sqDie p.sq ≠ s.sysId ∧ s.sqReach p.sq = true) ∧
    (∃ (s : State) (p : Packet), p.sq < 64 ∧ s.fromPeer p.sq p = true ∧ (s.sqRole p.sq ≠ 1 ∨ s.sqState p.sq ≠ 1)) ∧
    (∃ (s : State) (p : Packet), p.sq < 64 ∧ s.fromPeer p.sq p = true ∧ (s.sqState p.sq = 1 ∨ s.sqState p.sq = 2)) ∧
    (∃ (s : State) (p : Packet), p.sq < 64 ∧ s.fromPeer p.sq p = true ∧ s.sqState p.sq = 0) ∧
    (∃ (s : State) (q : _) (cause : _), q < 64 ∧ (s.sqState q = 1 ∨ s.sqState q = 2) ∧ cause < 256) ∧
    (∃ (s : State) (q : _) (cause : _) (r : _), q < 64 ∧ (s.sqState q = 1 ∨ s.sqState q = 2) ∧ cause < 256 ∧ (let t := s.sqError q cause;
      r ∈ t.reqs)) ∧
    (∃ (s : State) (q : _) (cause : _) (x : _), q < 64 ∧ (s.sqState q = 1 ∨ s.sqState q = 2) ∧ cause < 256 ∧ (s.stageEnd q).pushes = [x] ∧
      x.core < 64 ∧ (s.core x.core).gang = x.gang ∧ (s.core x.core).run = 1 ∧ (s.core x.core).test = false) :=
  ⟨⟨stageCore wPush ((staged 1 2).put Fld.DSP_SIG_VALUE 5 0 7), 63, dec wPush, [], _, ⟨by decide +kernel, by decide +kernel, by decide +kernel,
    by decide +kernel, by dsimp only; exact ⟨by decide +kernel, by decide +kernel, by decide +kernel, by decide +kernel, by decide +kernel,
    by decide +kernel, rd_self (by decide +kernel), by decide +kernel, by decide +kernel⟩⟩⟩,
   ⟨stageCore wPush ((ends 2).put Fld.DSP_SIG_VALUE 5 0 7), 63, dec wPush, [], _, ⟨by decide +kernel, by decide +kernel, by decide +kernel,
     by decide +kernel, by dsimp only; exact ⟨by decide +kernel, by decide +kernel, by decide +kernel, by decide +kernel, by decide +kernel,
     by decide +kernel, rd_self (by decide +kernel), by decide +kernel⟩⟩⟩,
   ⟨stageCore wPush (staged 1 3), 63, dec wPush, [], by dsimp only; decide +kernel⟩,
   ⟨stageCore wPop ((staged 2 2).put Fld.TRV_SQ_MOVED_COUNT 3 0 63), 63, dec wPop, [], by dsimp only; decide +kernel⟩,
   ⟨stageCore wPop (staged 2 1), 63, dec wPop, [], by dsimp only; decide +kernel⟩,
   ⟨staged 1 2, stagePkt 0x41 1 0 [], by decide +kernel⟩,
   ⟨staged 2 2, stagePkt 0x40 0 128 (zeros 64), by dsimp only; decide +kernel⟩,
   ⟨staged 2 2, stagePkt 0x40 0 64 (zeros 64), by dsimp only; decide +kernel⟩,
   ⟨staged 1 1, stagePkt 0x42 0x101 0 [], by decide +kernel⟩,
   ⟨ends 1, { stagePkt 0x42 0x101 0 [] with src := 0 }, by decide +kernel⟩,
   ⟨staged 1 1, stagePkt 0x42 0xFFFFFF 0 [], by decide +kernel⟩,
   ⟨staged 1 2, stagePkt 0x42 0x101 0 [], by decide +kernel⟩,
   ⟨staged 2 2, stagePkt 0x44 0x1FF 0 [], by decide +kernel⟩,
   ⟨staged 1 0, stagePkt 0x44 5 0 [], by decide +kernel⟩,
   ⟨staged 1 2, 63, 255, by decide +kernel⟩,
   ⟨pushing, 63, 255, waitingMove, by dsimp only; decide +kernel⟩,
   ⟨pushing, 63, 255, (⟨0, 63, 1, 5, 5⟩ : Push), by decide +kernel⟩⟩

/-! ### Modules, flits and packets -/

/-- The last module in a state, between roled dies, with nothing that quarantines it. -/
def module (st : Nat) (x : ModSt → ModSt) : State :=
  let s : State := { ground with roled := true }
  let s := ((s.put Fld.LNK_MOD_STATE_STATE st 39).put Fld.LNK_MOD_CFG_PARTNER_ID 1 39).put Fld.LNK_MOD_CFG_MAX_RATE 3 39
  let s := ((s.put Fld.LNK_MOD_TUNE_RATE_CAP 4 39).put Fld.LNK_MOD_CFG_MIN_WIDTH 1 39).put Fld.LNK_MOD_TUNE_CRC_THRESH 0 39
  let s := (atTime 100000 s).put Fld.LNK_LNK_QUAR_VIOL_LIMIT 0
  s.setMod 39 (x (s.mod 39))

/-- A feature record of a die: its kind and its identity, level 2.0 and the least credits. -/
def features (kind : Nat) : BitVec 512 :=
  BitVec.ofNat 512 ([(1, kind), (2, 1), (4, 0x20), (7, 3), (10, 7), (12, [64, 64, 64, 72, 72, 32].foldr (fun c a => c + 1024 * a) 0)].foldl
    (fun (w : Nat) (f : Nat × Nat) => w + f.2 * 2 ^ (8 * f.1)) 0)

/-- A flit without a packet: its sequence number, its control bits, its CRC right or not. -/
def flit (seq ctl bad : Nat) : BitVec 2048 :=
  let b := leBytes 4 (seq + 4096 * 4095 + ctl) ++ leBytes 2 7 ++ leBytes 2 7 ++ leBytes 2 7 ++ leBytes 2 0x3F ++ zeros 236
  BitVec.ofNat 2048 (leVal (b ++ leBytes 8 (crc64 b + bad)))

/-- A packet from die 1 in domain 3. -/
def pkt (t arg : Nat) (b : Bytes) : Packet := { pktOf t with len := b.length, data := b, arg := arg, src := 1, dom := 3, tag := 7 }

/-- A waiting request. -/
def req (t : Nat) (o : ReqOwner) : Req := { tag := 7, pkt := { pktOf t with tag := 7 }, owner := o, due := some 0 }

/-- The last module is ACTIVE, and requests wait. -/
def waitingFor (l : List Req) : State := { atTime (2 ^ 40) (module 6 id) with reqs := l }

/-- A state and operands that meet the hypotheses of each clause of FeaturesAreExchanged. -/
theorem witness_FeaturesAreExchanged :
    (∃ (s : State) (m : _), m < 40 ∧ s.modState m = 2) ∧
    (∃ (s : State) (m : _) (r : BitVec 512), m < 40 ∧ s.modState m = 3 ∧ s.roled = true ∧ s.mayTrain m = true ∧ badFeature r = false ∧ (let kind := recAt r 1 1; kind = s.get Fld.LNK_MOD_CFG_PARTNER_KIND m ∧ (kind = 0 → recAt r 0 1 = 0) ∧ recAt r 2 2 = s.get Fld.LNK_MOD_CFG_PARTNER_ID m ∧ 0x10 ≤ recAt r 4 1 ∧ (∀ v < 6, minCredits v ≤ bitsAt (recAt r 12 8) (10 * v) 10))) ∧
    (∃ (s : State) (m : _) (r : BitVec 512), m < 40 ∧ s.modState m = 3 ∧ s.roled = true ∧ s.mayTrain m = true ∧ badFeature r = false ∧ (let kind := recAt r 1 1; kind ≠ s.get Fld.LNK_MOD_CFG_PARTNER_KIND m)) ∧
    (∃ (s : State) (m : _), m < 40 ∧ s.modState m = 3 ∧ (s.mod m).entered + 5000 ≤ s.now ∧ s.roled = true ∧ s.get Fld.LNK_LNK_QUAR_VIOL_LIMIT = 0 ∧
      (s.mod m).malformed = false) ∧
    (∃ (s : State) (m : _), m < 40 ∧ s.modState m = 3 ∧ (s.mod m).entered + 5000 ≤ s.now ∧ s.roled = true ∧ s.get Fld.LNK_LNK_QUAR_VIOL_LIMIT = 0 ∧
      (s.mod m).malformed = true) ∧
    (∃ (s : State) (m : _), m < 40 ∧ s.modState m = 9) :=
  ⟨⟨module 2 id, 39, by decide +kernel⟩,
   ⟨module 3 id, 39, features 0, by dsimp only; decide +kernel⟩,
   ⟨module 3 id, 39, features 2, by dsimp only; decide +kernel⟩,
   ⟨module 3 id, 39, by decide +kernel⟩,
   ⟨module 3 (fun x => { x with malformed := true }), 39, by decide +kernel⟩,
   ⟨module 9 id, 39, by decide +kernel⟩⟩

/-- A state and operands that meet the hypotheses of each clause of ModulesTrainAndRetrain. -/
theorem witness_ModulesTrainAndRetrain :
    (∃ (s : State) (m : _) (rate : _) (rest : _) (w : _) (map : _), m < 40 ∧ (s.modState m = 4 ∨ s.modState m = 7) ∧ s.mayTrain m = true ∧
      s.capped m (s.mod m).rates = rate :: rest ∧ (s.mod m).boot = false ∧ map = map % 65536 &&& (65535 - tget (fun _ => 0) m s.laneBad) ∧
      widest map 0 (s.common m 1) = some w ∧ w.1 ≤ s.get Fld.LNK_MOD_CFG_MIN_WIDTH m) ∧
    (∃ (s : State) (m : _) (rate : _) (rest : _) (map : _), m < 40 ∧ (s.modState m = 4 ∨ s.modState m = 7) ∧ s.mayTrain m = true ∧
      s.capped m (s.mod m).rates = rate :: rest ∧ (s.mod m).boot = false ∧ map = map % 65536 &&& (65535 - tget (fun _ => 0) m s.laneBad) ∧
      rest ≠ []) ∧
    (∃ (s : State) (m : _) (peerMap : _) (rate : _) (width : _) (set : _) (min : _) (resets : _), m < 40 ∧ peerMap < 65536 ∧ rate ≤ 4 ∧ width ≤ 2 ∧
      set < 2 ^ width ∧ min ≤ 2 ∧ resets < 65536 ∧ s.modState m = 5 ∧ (s.mod m).propRate = rate ∧ (s.mod m).propWidth = width ∧
      (s.mod m).propSet = set) ∧
    (∃ (s : State) (m : _) (peerMap : _) (rate : _) (width : _) (set : _) (min : _) (resets : _), m < 40 ∧ peerMap < 65536 ∧ rate ≤ 4 ∧ width ≤ 2 ∧
      set < 2 ^ width ∧ min ≤ 2 ∧ resets < 65536 ∧ s.modState m = 5 ∧ (s.mod m).propRate ≠ rate ∧ (s.mod m).mismatch < 2) ∧
    (∃ (s : State) (m : _), m < 40 ∧ s.modState m = 6) ∧
    (∃ (s : State) (m : _) (a : Acc), m < 40 ∧ s.modState m = 6 ∧ a.cls = .mp) ∧
    (∃ (s : State) (m : _), m < 40 ∧ s.modState m = 7 ∧ (s.mod m).held = true ∧ (s.mod m).entered + 100000 ≤ s.now) ∧
    (∃ (s : State) (m : _), m < 40 ∧ s.shutDown m = false ∧ 3 ≤ s.modState m ∧ s.modState m ≤ 7) ∧
    (∃ (s : State) (m : _), m < 40 ∧ s.shutDown m = false ∧ s.modState m = 8 ∧ 4 ≤ s.get Fld.LNK_MOD_STATE_DOWN_CAUSE m ∧
      s.get Fld.LNK_MOD_STATE_DOWN_CAUSE m ≤ 9) ∧
    (∃ (s : State) (m : _) (a : Acc), m < 40 ∧ s.shutDown m = false ∧ a.cls = .mp ∧ s.modState m = 9) ∧
    (∃ (s : State) (m : _) (a : Acc), m < 40 ∧ a.cls = .mp ∧ 1 ≤ s.modState m ∧ s.modState m ≤ 7) :=
  ⟨⟨module 7 (fun x => { x with rates := [3, 2] }), 39, 3, [2], (0, 0), 65535, by decide +kernel⟩,
   ⟨module 4 (fun x => { x with rates := [3, 2] }), 39, 3, [2], 65535, by decide +kernel⟩,
   ⟨module 5 (fun x => { x with propRate := 4, propWidth := 2, propSet := 3 }), 39, 65535, 4, 2, 3, 2, 65535, by decide +kernel⟩,
   ⟨module 5 (fun x => { x with propRate := 3, propWidth := 2, propSet := 3 }), 39, 65535, 4, 2, 3, 2, 65535, by decide +kernel⟩,
   ⟨module 6 id, 39, by decide +kernel⟩,
   ⟨module 6 id, 39, mp, by decide +kernel⟩,
   ⟨module 7 (fun x => { x with held := true }), 39, by decide +kernel⟩,
   ⟨module 7 id, 39, by decide +kernel⟩,
   ⟨(module 8 id).put Fld.LNK_MOD_STATE_DOWN_CAUSE 9 39, 39, by decide +kernel⟩,
   ⟨module 9 id, 39, mp, by decide +kernel⟩,
   ⟨module 7 id, 39, mp, by decide +kernel⟩⟩

set_option maxRecDepth 100000 in
/-- A state and operands that meet the hypotheses of each clause of FlitsAreCheckedAndAcknowledged. -/
theorem witness_FlitsAreCheckedAndAcknowledged :
    (∃ (s : State) (m : _), m < 40 ∧ s.modState m = 6 ∧ 0 < (s.mod m).ackOwed ∧ (∀ f ∈ (s.mod m).replay, f.bytes.length = 256)) ∧
    (∃ (s : State) (m : _) (bits : BitVec 2048), m < 40 ∧ s.modState m = 6 ∧ LinksKeep s ∧ (let b := leBytes 256 bits.toNat;
      crc64 (b.take 248) ≠ leAt b 248 8 ∧ s.get Fld.LNK_MOD_TUNE_CRC_THRESH m = 0)) ∧
    (∃ (s : State) (m : _) (bits : BitVec 2048), m < 40 ∧ s.modState m = 6 ∧ LinksKeep s ∧ (let b := leBytes 256 bits.toNat; (let w := leAt b 0 4;
      crc64 (b.take 248) = leAt b 248 8 ∧ bitsAt w 24 2 = 0 ∧ bitsAt w 27 5 = 0 ∧ (∀ i < 3, leAt b (4 + 2 * i) 2 % 8 = 7) ∧
      bitsAt (leAt b 10 2) 6 10 = 0 ∧ s.waiting = [] ∧ bitOf w 26 = true))) ∧
    (∃ (s : State) (m : _) (bits : BitVec 2048), m < 40 ∧ s.modState m = 6 ∧ LinksKeep s ∧ (let b := leBytes 256 bits.toNat; (let w := leAt b 0 4;
      crc64 (b.take 248) = leAt b 248 8 ∧ bitsAt w 24 2 = 0 ∧ bitsAt w 27 5 = 0 ∧ (∀ i < 3, leAt b (4 + 2 * i) 2 % 8 = 7) ∧
      bitsAt (leAt b 10 2) 6 10 = 0 ∧ s.waiting = [] ∧ bitOf w 26 = false ∧ w % 4096 = (s.mod m).rxSeq ∧ (s.mod m).rxSkip = false ∧
      (s.mod m).rxBuf = [] ∧ sub b 12 236 = zeros 236))) ∧
    (∃ (s : State) (m : _) (bits : BitVec 2048), m < 40 ∧ s.modState m = 6 ∧ LinksKeep s ∧ (let b := leBytes 256 bits.toNat; (let w := leAt b 0 4;
      crc64 (b.take 248) = leAt b 248 8 ∧ bitsAt w 24 2 = 0 ∧ bitsAt w 27 5 = 0 ∧ (∀ i < 3, leAt b (4 + 2 * i) 2 % 8 = 7) ∧
      bitsAt (leAt b 10 2) 6 10 = 0 ∧ s.waiting = [] ∧ bitOf w 26 = false ∧ w % 4096 ≠ (s.mod m).rxSeq))) :=
  ⟨⟨module 6 (fun x => { x with ackOwed := 1 }), 39, by decide +kernel⟩,
   ⟨module 6 id, 39, flit 0 0 1, by dsimp only [LinksKeep]; decide +kernel⟩,
   ⟨module 6 id, 39, flit 0 (2 ^ 26) 0, by dsimp only [LinksKeep]; decide +kernel⟩,
   ⟨module 6 id, 39, flit 0 0 0, by dsimp only [LinksKeep]; decide +kernel⟩,
   ⟨module 6 id, 39, flit 4095 0 0, by dsimp only [LinksKeep]; decide +kernel⟩⟩

/-- A state and operands that meet the hypotheses of each clause of PacketsReadBackAsTheyWereSent. -/
theorem witness_PacketsReadBackAsTheyWereSent :
    (∃ (p : Packet), PacketFits p) :=
  ⟨pkt 0x02 0 (zeros 64), ⟨by decide +kernel, by decide +kernel, by decide +kernel, by decide +kernel, by decide +kernel, by decide +kernel⟩⟩

/-- A state and operands that meet the hypotheses of each clause of ArrivalMovesTheStationNumber. -/
theorem witness_ArrivalMovesTheStationNumber :
    (∃ (s : State) (m : Nat) (t : Nat) (p : Packet), Accepted s m t p) :=
  ⟨module 6 id, 39, 0x58, pkt 0x58 1 [], ⟨by decide +kernel, ⟨by decide +kernel, by decide +kernel, by decide +kernel, by decide +kernel,
    by decide +kernel, by decide +kernel⟩, by decide +kernel, by decide +kernel, by decide +kernel, by decide +kernel, by decide +kernel⟩⟩

/-- A state and operands that meet the hypotheses of each clause of MemoryPacketsComplete. -/
theorem witness_MemoryPacketsComplete :
    (∃ (s : State) (m : Nat) (p : Packet), Accepted s m 0x01 p ∧ outsideBlock p = false) ∧
    (∃ (s : State) (m : Nat) (p : Packet), Accepted s m 0x02 p ∧ outsideBlock p = false) ∧
    (∃ (s : State) (m : Nat) (p : Packet), Accepted s m 0x20 p ∧ outsideBlock p = false) ∧
    (∃ (s : State) (m : Nat) (p : Packet) (r : _), s.reqs.find? (fun r => r.tag == p.tag && answers p.typ r.pkt.typ) = some r ∧ Accepted s m 0x10 p) ∧
    (∃ (s : State) (m : Nat) (p : Packet) (r : _), s.reqs.find? (fun r => r.tag == p.tag && answers p.typ r.pkt.typ) = some r ∧ Accepted s m 0x11 p) ∧
    (∃ (s : State) (m : Nat) (p : Packet) (r : _), s.reqs.find? (fun r => r.tag == p.tag && answers p.typ r.pkt.typ) = some r ∧
      Accepted s m 0x12 p ∧ 2 ≤ p.arg % 256 ∧ p.arg % 256 ≤ 0xA) ∧
    (∃ (s : State) (m : Nat) (p : Packet) (r : _), s.reqs.find? (fun r => r.tag == p.tag && answers p.typ r.pkt.typ) = some r ∧
      Accepted s m 0x51 p ∧ p.arg % 256 = 0) ∧
    (∃ (s : State) (m : Nat) (p : Packet) (r : _), s.reqs.find? (fun r => r.tag == p.tag && answers p.typ r.pkt.typ) = some r ∧ Accepted s m 0x54 p) ∧
    (∃ (s : State) (m : Nat) (p : Packet) (r : _), s.reqs.find? (fun r => r.tag == p.tag && answers p.typ r.pkt.typ) = some r ∧
      Accepted s m 0x58 p) :=
  ⟨⟨module 6 id, 39, { pkt 0x01 64 [] with addr := 0xFC00000 }, ⟨⟨by decide +kernel, ⟨by decide +kernel, by decide +kernel, by decide +kernel,
    by decide +kernel, by decide +kernel, by decide +kernel⟩, by decide +kernel, by decide +kernel, by decide +kernel, by decide +kernel,
    by decide +kernel⟩, by decide +kernel⟩⟩,
   ⟨module 6 id, 39, { pkt 0x02 0 (zeros 64) with addr := 0xFC00000 }, ⟨⟨by decide +kernel, ⟨by decide +kernel, by decide +kernel,
     by decide +kernel, by decide +kernel, by decide +kernel, by decide +kernel⟩, by decide +kernel, by decide +kernel, by decide +kernel,
     by decide +kernel, by decide +kernel⟩, by decide +kernel⟩⟩,
   ⟨module 6 id, 39, { pkt 0x20 0 (zeros 256) with addr := 0xFC00000 }, ⟨⟨by decide +kernel, ⟨by decide +kernel, by decide +kernel,
     by decide +kernel, by decide +kernel, by decide +kernel, by decide +kernel⟩, by decide +kernel, by decide +kernel, by decide +kernel,
     by decide +kernel, by decide +kernel⟩, by decide +kernel⟩⟩,
   ⟨waitingFor [req 0x01 .debug], 39, pkt 0x10 0 (zeros 1), req 0x01 .debug, ⟨by decide +kernel, ⟨by decide +kernel, ⟨by decide +kernel,
     by decide +kernel, by decide +kernel, by decide +kernel, by decide +kernel, by decide +kernel⟩, by decide +kernel, by decide +kernel,
     by decide +kernel, by decide +kernel, by decide +kernel⟩⟩⟩,
   ⟨waitingFor [req 0x02 .debug], 39, pkt 0x11 0 [], req 0x02 .debug, ⟨by decide +kernel, ⟨by decide +kernel, ⟨by decide +kernel,
     by decide +kernel, by decide +kernel, by decide +kernel, by decide +kernel, by decide +kernel⟩, by decide +kernel, by decide +kernel,
     by decide +kernel, by decide +kernel, by decide +kernel⟩⟩⟩,
   ⟨waitingFor [req 0x01 .debug], 39, pkt 0x12 10 [], req 0x01 .debug, ⟨by decide +kernel, ⟨by decide +kernel, ⟨by decide +kernel,
     by decide +kernel, by decide +kernel, by decide +kernel, by decide +kernel, by decide +kernel⟩, by decide +kernel, by decide +kernel,
     by decide +kernel, by decide +kernel, by decide +kernel⟩, by decide +kernel⟩⟩,
   ⟨waitingFor [req 0x50 .debug], 39, pkt 0x51 0 [], req 0x50 .debug, ⟨by decide +kernel, ⟨by decide +kernel, ⟨by decide +kernel,
     by decide +kernel, by decide +kernel, by decide +kernel, by decide +kernel, by decide +kernel⟩, by decide +kernel, by decide +kernel,
     by decide +kernel, by decide +kernel, by decide +kernel⟩, by decide +kernel⟩⟩,
   ⟨waitingFor [req 0x53 .debug], 39, pkt 0x54 1 [], req 0x53 .debug, ⟨by decide +kernel, ⟨by decide +kernel, ⟨by decide +kernel,
     by decide +kernel, by decide +kernel, by decide +kernel, by decide +kernel, by decide +kernel⟩, by decide +kernel, by decide +kernel,
     by decide +kernel, by decide +kernel, by decide +kernel⟩⟩⟩,
   ⟨waitingFor [req 0x55 .debug], 39, pkt 0x58 1 [], req 0x55 .debug, ⟨by decide +kernel, ⟨by decide +kernel, ⟨by decide +kernel,
     by decide +kernel, by decide +kernel, by decide +kernel, by decide +kernel, by decide +kernel⟩, by decide +kernel, by decide +kernel,
     by decide +kernel, by decide +kernel, by decide +kernel⟩⟩⟩⟩

/-- A state and operands that meet the hypotheses of each clause of ChainAndStagePacketsComplete. -/
theorem witness_ChainAndStagePacketsComplete :
    (∃ (s : State) (m : Nat) (p : Packet), Accepted s m 0x30 p) ∧
    (∃ (s : State) (m : Nat) (p : Packet), Accepted s m 0x31 p) ∧
    (∃ (s : State) (m : Nat) (p : Packet), Accepted s m 0x32 p) ∧
    (∃ (s : State) (m : Nat) (p : Packet), Accepted s m 0x33 p) ∧
    (∃ (s : State) (m : Nat) (p : Packet), Accepted s m 0x34 p) ∧
    (∃ (s : State) (m : Nat) (p : Packet), Accepted s m 0x35 p) ∧
    (∃ (s : State) (m : Nat) (p : Packet), Accepted s m 0x40 p) ∧
    (∃ (s : State) (m : Nat) (p : Packet), Accepted s m 0x41 p) ∧
    (∃ (s : State) (m : Nat) (p : Packet), Accepted s m 0x42 p) ∧
    (∃ (s : State) (m : Nat) (p : Packet), Accepted s m 0x43 p) ∧
    (∃ (s : State) (m : Nat) (p : Packet), Accepted s m 0x44 p) :=
  ⟨⟨module 6 id, 39, pkt 0x30 0 (zeros 4096), ⟨by decide +kernel, ⟨by decide +kernel, by decide +kernel, by decide +kernel, by decide +kernel,
    by decide +kernel, by decide +kernel⟩, by decide +kernel, by decide +kernel, by decide +kernel, by decide +kernel, by decide +kernel⟩⟩,
   ⟨module 6 id, 39, pkt 0x31 0 (zeros 8), ⟨by decide +kernel, ⟨by decide +kernel, by decide +kernel, by decide +kernel, by decide +kernel,
     by decide +kernel, by decide +kernel⟩, by decide +kernel, by decide +kernel, by decide +kernel, by decide +kernel, by decide +kernel⟩⟩,
   ⟨module 6 id, 39, pkt 0x32 1 [], ⟨by decide +kernel, ⟨by decide +kernel, by decide +kernel, by decide +kernel, by decide +kernel,
     by decide +kernel, by decide +kernel⟩, by decide +kernel, by decide +kernel, by decide +kernel, by decide +kernel, by decide +kernel⟩⟩,
   ⟨module 6 id, 39, pkt 0x33 1 [], ⟨by decide +kernel, ⟨by decide +kernel, by decide +kernel, by decide +kernel, by decide +kernel,
     by decide +kernel, by decide +kernel⟩, by decide +kernel, by decide +kernel, by decide +kernel, by decide +kernel, by decide +kernel⟩⟩,
   ⟨module 6 id, 39, pkt 0x34 255 [], ⟨by decide +kernel, ⟨by decide +kernel, by decide +kernel, by decide +kernel, by decide +kernel,
     by decide +kernel, by decide +kernel⟩, by decide +kernel, by decide +kernel, by decide +kernel, by decide +kernel, by decide +kernel⟩⟩,
   ⟨module 6 id, 39, pkt 0x35 0 [], ⟨by decide +kernel, ⟨by decide +kernel, by decide +kernel, by decide +kernel, by decide +kernel,
     by decide +kernel, by decide +kernel⟩, by decide +kernel, by decide +kernel, by decide +kernel, by decide +kernel, by decide +kernel⟩⟩,
   ⟨module 6 id, 39, pkt 0x40 0 (zeros 64), ⟨by decide +kernel, ⟨by decide +kernel, by decide +kernel, by decide +kernel, by decide +kernel,
     by decide +kernel, by decide +kernel⟩, by decide +kernel, by decide +kernel, by decide +kernel, by decide +kernel, by decide +kernel⟩⟩,
   ⟨module 6 id, 39, pkt 0x41 1 [], ⟨by decide +kernel, ⟨by decide +kernel, by decide +kernel, by decide +kernel, by decide +kernel,
     by decide +kernel, by decide +kernel⟩, by decide +kernel, by decide +kernel, by decide +kernel, by decide +kernel, by decide +kernel⟩⟩,
   ⟨module 6 id, 39, pkt 0x42 (2 ^ 24 - 1) [], ⟨by decide +kernel, ⟨by decide +kernel, by decide +kernel, by decide +kernel, by decide +kernel,
     by decide +kernel, by decide +kernel⟩, by decide +kernel, by decide +kernel, by decide +kernel, by decide +kernel, by decide +kernel⟩⟩,
   ⟨module 6 id, 39, pkt 0x43 1 [], ⟨by decide +kernel, ⟨by decide +kernel, by decide +kernel, by decide +kernel, by decide +kernel,
     by decide +kernel, by decide +kernel⟩, by decide +kernel, by decide +kernel, by decide +kernel, by decide +kernel, by decide +kernel⟩⟩,
   ⟨module 6 id, 39, pkt 0x44 9 [], ⟨by decide +kernel, ⟨by decide +kernel, by decide +kernel, by decide +kernel, by decide +kernel,
     by decide +kernel, by decide +kernel⟩, by decide +kernel, by decide +kernel, by decide +kernel, by decide +kernel, by decide +kernel⟩⟩⟩

/-- A state and operands that meet the hypotheses of each clause of EasementPacketsComplete. -/
theorem witness_EasementPacketsComplete :
    (∃ (s : State) (m : Nat) (p : Packet), (let size := if bitOf p.arg 1 then 8 else 4;
      s.easementWaiting < 64 ∧ Accepted s m 0x50 p ∧ bitsAt p.arg 2 2 = 0 ∧ bitOf p.arg 0 = true ∧ p.data.length = size)) ∧
    (∃ (s : State) (m : Nat) (p : Packet), s.easementWaiting < 64 ∧ Accepted s m 0x50 p ∧ bitsAt p.arg 2 2 = 0 ∧ bitOf p.arg 0 = false) ∧
    (∃ (s : State) (m : Nat) (p : Packet), s.easementWaiting < 64 ∧ Accepted s m 0x53 p) ∧
    (∃ (s : State) (m : Nat) (p : Packet), s.easementWaiting < 64 ∧ Accepted s m 0x55 p) ∧
    (∃ (s : State) (m : Nat) (p : Packet), s.easementWaiting < 64 ∧ Accepted s m 0x56 p ∧ (s.mod m).boot = true ∧ s.inPhase 5 = true ∧
      s.get Fld.CLK_CLK_AON_CFG_MASTER = 0 ∧ (s.boot.source = none ∨ s.boot.source = some m) ∧ s.lateTags.contains p.tag = false ∧
      p.arg * 256 = s.boot.stream.length ∧ p.arg ≠ 2 ^ 32 - 1) ∧
    (∃ (s : State) (m : Nat) (p : Packet), s.easementWaiting < 64 ∧ Accepted s m 0x52 p) ∧
    (∃ (s : State) (m : Nat) (p : Packet), s.easementWaiting < 64 ∧ Accepted s m 0x57 p) :=
  ⟨⟨module 6 id, 39, { pkt 0x50 3 (zeros 8) with addr := 0x40000008 }, by dsimp only; exact ⟨by decide +kernel, ⟨by decide +kernel,
    ⟨by decide +kernel, by decide +kernel, by decide +kernel, by decide +kernel, by decide +kernel, by decide +kernel⟩, by decide +kernel,
    by decide +kernel, by decide +kernel, by decide +kernel, by decide +kernel⟩, by decide +kernel, by decide +kernel, by decide +kernel⟩⟩,
   ⟨module 6 id, 39, { pkt 0x50 2 [] with addr := 0x40000008 }, ⟨by decide +kernel, ⟨by decide +kernel, ⟨by decide +kernel, by decide +kernel,
     by decide +kernel, by decide +kernel, by decide +kernel, by decide +kernel⟩, by decide +kernel, by decide +kernel, by decide +kernel,
     by decide +kernel, by decide +kernel⟩, by decide +kernel, by decide +kernel⟩⟩,
   ⟨module 6 id, 39, pkt 0x53 1 [], ⟨by decide +kernel, ⟨by decide +kernel, ⟨by decide +kernel, by decide +kernel, by decide +kernel,
     by decide +kernel, by decide +kernel, by decide +kernel⟩, by decide +kernel, by decide +kernel, by decide +kernel, by decide +kernel,
     by decide +kernel⟩⟩⟩,
   ⟨module 6 id, 39, pkt 0x55 14 (zeros 256), ⟨by decide +kernel, ⟨by decide +kernel, ⟨by decide +kernel, by decide +kernel, by decide +kernel,
     by decide +kernel, by decide +kernel, by decide +kernel⟩, by decide +kernel, by decide +kernel, by decide +kernel, by decide +kernel,
     by decide +kernel⟩⟩⟩,
   ⟨(module 6 (fun x => { x with boot := true })).put Fld.BOOT_BOOT_STATE_PHASE 5, 39, pkt 0x56 0 (zeros 256), ⟨by decide +kernel,
     ⟨by decide +kernel, ⟨by decide +kernel, by decide +kernel, by decide +kernel, by decide +kernel, by decide +kernel, by decide +kernel⟩,
     by decide +kernel, by decide +kernel, by decide +kernel, by decide +kernel, by decide +kernel⟩, by decide +kernel⟩⟩,
   ⟨module 6 id, 39, pkt 0x52 0 (zeros 16), ⟨by decide +kernel, ⟨by decide +kernel, ⟨by decide +kernel, by decide +kernel, by decide +kernel,
     by decide +kernel, by decide +kernel, by decide +kernel⟩, by decide +kernel, by decide +kernel, by decide +kernel, by decide +kernel,
     by decide +kernel⟩⟩⟩,
   ⟨module 6 id, 39, pkt 0x57 0 (zeros 64), ⟨by decide +kernel, ⟨by decide +kernel, ⟨by decide +kernel, by decide +kernel, by decide +kernel,
     by decide +kernel, by decide +kernel, by decide +kernel⟩, by decide +kernel, by decide +kernel, by decide +kernel, by decide +kernel,
     by decide +kernel⟩⟩⟩⟩

/-- A state and operands that meet the hypotheses of each clause of PacketsBeyondTheirCreditsAreDropped. -/
theorem witness_PacketsBeyondTheirCreditsAreDropped :
    (∃ (s : State) (m : Nat) (t : Nat) (p : Packet), vcOf t ≠ 6 ∧ m < 40 ∧ s.modState m = 6 ∧ PacketFits p ∧ p.typ = t ∧ p.vc = vcOf t ∧
      ownCredits p.vc < tget (fun _ => 0) (credKey p) (s.mod m).rxHeld + creditsOf p ∧ s.get Fld.LNK_LNK_QUAR_VIOL_LIMIT = 0) ∧
    (∃ (s : State) (m : Nat) (t : Nat) (p : Packet), vcOf t ≠ 6 ∧ m < 40 ∧ s.modState m ≠ 6 ∧ p.typ = t) :=
  ⟨⟨module 6 (fun x => { x with rxHeld := tset (fun _ => 0) (credKey (pkt 0x02 0 (zeros 64))) 1023 [] }), 39, 0x02, pkt 0x02 0 (zeros 64),
    ⟨by decide +kernel, by decide +kernel, by decide +kernel, ⟨by decide +kernel, by decide +kernel, by decide +kernel, by decide +kernel,
    by decide +kernel, by decide +kernel⟩, by decide +kernel⟩⟩,
   ⟨module 5 id, 39, 0x58, pkt 0x58 1 [], by decide +kernel⟩⟩

/-- A state and operands that meet the hypotheses of each clause of RequestsAreAnswered. -/
theorem witness_RequestsAreAnswered :
    (∃ (s : State) (m : Nat) (p : Packet), (s.mod m).boot = false ∧ s.get Fld.LNK_MOD_CFG_PARTNER_KIND m = 0 ∧ p.typ = 0x01 ∧
      outsideBlock p = false) ∧
    (∃ (s : State) (m : Nat) (p : Packet), (s.mod m).boot = false ∧ s.get Fld.LNK_MOD_CFG_PARTNER_KIND m = 0 ∧ (p.typ = 0x02 ∨ p.typ = 0x20) ∧
      outsideBlock p = false) ∧
    (∃ (s : State) (m : Nat) (p : Packet), (s.mod m).boot = false ∧ s.get Fld.LNK_MOD_CFG_PARTNER_KIND m = 0 ∧
      (p.typ = 0x01 ∨ p.typ = 0x02 ∨ p.typ = 0x20) ∧ outsideBlock p = true ∧ s.get Fld.LNK_LNK_QUAR_VIOL_LIMIT = 0) ∧
    (∃ (s : State) (m : Nat) (p : Packet), (s.mod m).boot = false ∧ s.get Fld.LNK_MOD_CFG_PARTNER_KIND m = 0 ∧ p.typ = 0x50 ∧
      s.easementWaiting < 64 ∧ bitsAt p.arg 2 2 = 0 ∧ bitOf p.arg 0 = true ∧ p.data.length = (if bitOf p.arg 1 then 8 else 4)) ∧
    (∃ (s : State) (m : Nat) (p : Packet), (s.mod m).boot = false ∧ s.get Fld.LNK_MOD_CFG_PARTNER_KIND m = 0 ∧ p.typ = 0x50 ∧
      s.easementWaiting < 64 ∧ (bitsAt p.arg 2 2 = 1 ∨ bitsAt p.arg 2 2 = 3)) ∧
    (∃ (s : State) (m : Nat) (p : Packet), (s.mod m).boot = false ∧ s.get Fld.LNK_MOD_CFG_PARTNER_KIND m = 0 ∧ p.typ = 0x53 ∧
      s.easementWaiting < 64) ∧
    (∃ (s : State) (m : Nat) (p : Packet), (s.mod m).boot = false ∧ s.get Fld.LNK_MOD_CFG_PARTNER_KIND m = 0 ∧ p.typ = 0x57) ∧
    (∃ (s : State) (m : Nat) (p : Packet), (s.mod m).boot = false ∧ s.get Fld.LNK_MOD_CFG_PARTNER_KIND m = 0 ∧ p.typ = 0x52) :=
  ⟨⟨module 6 id, 39, { pkt 0x01 64 [] with addr := 0xFC00000 }, by decide +kernel⟩,
   ⟨module 6 id, 39, { pkt 0x20 0 (zeros 256) with addr := 0xFC00000 }, by decide +kernel⟩,
   ⟨module 6 id, 39, { pkt 0x02 0 (zeros 64) with addr := 0xFC000FF }, by decide +kernel⟩,
   ⟨module 6 id, 39, { pkt 0x50 3 (zeros 8) with addr := 0x40000008 }, by decide +kernel⟩,
   ⟨module 6 id, 39, { pkt 0x50 13 (zeros 4) with addr := 0x40000008 }, by decide +kernel⟩,
   ⟨module 6 id, 39, pkt 0x53 1 [], by decide +kernel⟩,
   ⟨module 6 id, 39, pkt 0x57 0 (zeros 64), by decide +kernel⟩,
   ⟨module 6 id, 39, pkt 0x52 0 (zeros 16), by decide +kernel⟩⟩

/-- A state and operands that meet the hypotheses of each clause of RequestsEnd. -/
theorem witness_RequestsEnd :
    (∃ (s : State) (p : Packet) (r : Req), s.reqs.find? (fun r => r.tag == p.tag && answers p.typ r.pkt.typ) = some r ∧
      (p.typ = 0x10 ∨ p.typ = 0x11) ∧ (∀ x ∈ s.reqs, x.tag = p.tag → x = r) ∧ r.owner = .debug) ∧
    (∃ (s : State) (m : Nat) (p : Packet), m < 40 ∧ s.reqs = [] ∧ s.lateTags = [] ∧
      (p.typ = 0x10 ∨ p.typ = 0x11 ∨ p.typ = 0x12 ∨ p.typ = 0x51 ∨ p.typ = 0x54 ∨ p.typ = 0x58) ∧ s.get Fld.LNK_LNK_QUAR_VIOL_LIMIT = 0) ∧
    (∃ (s : State) (p : Packet), s.reqs.find? (fun r => r.tag == p.tag && answers p.typ r.pkt.typ) = none ∧ p.tag ∈ s.lateTags ∧ p.typ ∈ [0x10,
      0x11, 0x12, 0x51, 0x54, 0x58]) ∧
    (∃ (s : State) (tag : Nat) (r : Req) (d : Nat) (m : Nat), s.reqs.find? (fun r => r.tag == tag) = some r ∧ r.due = some d ∧ d ≤ s.now ∧
      r.owner = .image m) ∧
    (∃ (s : State) (tag : Nat) (r : Req), s.reqs.find? (fun r => r.tag == tag) = some r ∧ (r.due = none ∨ ∃ d, r.due = some d ∧ s.now < d)) ∧
    (∃ (s : State) (tag : Nat) (r : Req), s.reqs.find? (fun r => r.tag == tag) = some r ∧ (r.due = none ∨ ∃ d, r.due = some d ∧ s.now < d)) ∧
    (∃ (s : State) (tag : Nat) (r : Req) (d : Nat) (k : _), s.reqs.find? (fun r => r.tag == tag) = some r ∧ r.due = some d ∧ d ≤ s.now ∧
      r.owner = .move k ∧ (s.move k).wait = .reply tag ∧ (∀ z ∈ s.zeroing, z.first ≠ some k)) ∧
    (∃ (s : State) (e : _) (h : Nat × Nat), e < 64 ∧ s.holds.find? (fun h => h.1 == e) = some h ∧ h.2 + s.reqTimeout ≤ s.now ∧ s.waiting = [] ∧
      (∀ i < 64, s.get Fld.RTE_RT_CTL_VALID i = 0) ∧ (∀ q < 64, s.sqState q = 0)) :=
  ⟨⟨waitingFor [req 0x01 .debug], pkt 0x10 0 (zeros 1), req 0x01 .debug, by decide +kernel⟩,
   ⟨waitingFor [], 39, pkt 0x58 0 [], by decide +kernel⟩,
   ⟨{ waitingFor [] with lateTags := [7] }, pkt 0x58 0 [], by decide +kernel⟩,
   ⟨waitingFor [req 0x56 (.image 39)], 7, req 0x56 (.image 39), 0, 39, by decide +kernel⟩,
   ⟨waitingFor [{ req 0x01 .debug with due := none }], 7, { req 0x01 .debug with due := none }, ⟨by decide +kernel, Or.inl rfl⟩⟩,
   ⟨waitingFor [{ req 0x01 .debug with due := some (2 ^ 40 + 1) }], 7, { req 0x01 .debug with due := some (2 ^ 40 + 1) }, ⟨by decide +kernel,
     Or.inr ⟨2 ^ 40 + 1, by decide +kernel⟩⟩⟩,
   ⟨(waitingFor [req 0x01 (.move 2047)]).setMove 2047 { MoveJob.none with wait := .reply 7, status := none }, 7, req 0x01 (.move 2047), 0, 2047,
     by decide +kernel⟩,
   ⟨{ (waitingFor []).put Fld.RTE_RT_CTL_HOLDING 1 63 with holds := [(63, 0)] }, 63, (63, 0), by decide +kernel⟩⟩

/-! ### Power, and the invariant -/

/-- A die whose rail is at its 99th low sample. -/
def sagging (rail : Nat) : State := { alive with rails := tset (fun _ => RailSt.init) rail { alive.rail rail with low := 99 } alive.rails }

/-- A held die without waiting commands takes a ck of its chains. -/
theorem step_held {s : State} (h : s.pending = [] ∧ s.aon.held = true) : step s = .next s.chainTick := by
  simp [step, State.tick, h.1, h.2]

/-- A state and operands that meet the hypotheses of each clause of PowerMeasuresAndLimitsIssue. -/
theorem witness_PowerMeasuresAndLimitsIssue :
    (∃ (s : State) (rail : _) (mv : _) (i : _), s.aon.noVaon = false ∧ rail < 5 ∧ mv < 65536 ∧ i < 65536 ∧ mv < resetThreshold rail ∧
      99 ≤ (s.rail rail).low ∧ rail = 4) ∧
    (∃ (s : State) (rail : _) (mv : _) (i : _), s.aon.noVaon = false ∧ rail < 5 ∧ mv < 65536 ∧ i < 65536 ∧ mv < resetThreshold rail ∧
      99 ≤ (s.rail rail).low ∧ rail ≠ 4 ∧ s.aon.railOut = false) ∧
    (∃ (s : State) (rail : _) (mv : _) (i : _), s.aon.noVaon = false ∧ rail < 5 ∧ mv < 65536 ∧ i < 65536 ∧
      (resetThreshold rail ≤ mv ∨ (s.rail rail).low < 99)) ∧
    (∃ (x : List Int), x.length = 96 ∧ (∀ y ∈ x, -2048 ≤ y ∧ y < 2048)) :=
  ⟨⟨sagging 4, 4, 679, 65535, by decide +kernel⟩,
   ⟨sagging 3, 3, 1079, 65535, by decide +kernel⟩,
   ⟨alive, 4, 65535, 65535, by decide +kernel⟩,
   ⟨List.replicate 96 (-2048), by decide +kernel⟩⟩

/-- A state and operands that meet the hypotheses of each clause of ControlPeriodKeepsTheBudget. -/
theorem witness_ControlPeriodKeepsTheBudget :
    (∃ (s : State), s.commitBusy 4 = false) ∧
    (∃ (s : State), (let a := s.powerApply; a.released = false)) ∧
    (∃ (s : State), (let a := s.powerApply; a.released = true)) ∧
    (∃ (s : State) (op : _), op < 8 ∧ s.opTarget = some op) ∧
    (∃ (s : State) (op : _), s.opTarget = some op) ∧
    (∃ (s : State), s.opTarget = none ∧ s.get Fld.BOOT_BOOT_STATE_PHASE < 8) :=
  ⟨⟨alive, by decide +kernel⟩,
   ⟨atPhase 7, by dsimp only; decide +kernel⟩,
   ⟨alive, by dsimp only; decide +kernel⟩,
   ⟨{ alive with opTarget := some 7 }, 7, by decide +kernel⟩,
   ⟨{ alive with opTarget := some 7 }, 7, by decide +kernel⟩,
   ⟨atPhase 7, by decide +kernel⟩⟩

/-- A state and operands that meet the hypotheses of each clause of EveryStepKeepsTheTablesCanonical. -/
theorem witness_EveryStepKeepsTheTablesCanonical :
    (∃ (s : State) (t : State), s.Canonical ∧ step s = .next t) :=
  ⟨{ stored 0xFC00000 [1] ground with aon := State.reset.aon }, { stored 0xFC00000 [1] ground with aon := State.reset.aon }.chainTick,
    ⟨by unfold State.Canonical; decide +kernel, step_held (by decide +kernel)⟩⟩

/-! ### Ill-formed commands -/

/-- Each operand out of its range is refused (R7, R41, R48, R362), part 1. -/
theorem test_wf_refuses_1 : ([.warmResetByPin (some 4),
    .rstNDeassert false false 16,
    .pllLost 6,
    .thermalTrip 96,
    .release { mp with dom := 256 },
    .release { dbg with loc := true },
    .registerWrite { mp with dom := 256 } 0 4 0,
    .registerWrite { dbg with loc := true } 0 4 0,
    .registerWrite mp (2 ^ 32) 4 0,
    .registerWrite mp 0 2 0,
    .registerWrite mp 0 4 (2 ^ 32),
    .rcRead mp (2 ^ 32) 4] : List Instr).all (fun i => !i.wf) = true := by decide +kernel

/-- Each operand out of its range is refused (R7, R41, R48, R362), part 2. -/
theorem test_wf_refuses_2 : ([.rcRead mp 0 2,
    .commit mp 0x400,
    .instanceApply 0x400 0,
    .instanceApply 0 (2 ^ 17),
    .nop 64,
    .halfReleaseEnd 64 0,
    .halfReleaseEnd 0 4,
    .fillComplete 64 0,
    .fillComplete 0 2,
    .feedEnd 64 0,
    .feedEnd 0 64,
    .coreTestEnter mp 64] : List Instr).all (fun i => !i.wf) = true := by decide +kernel

/-- Each operand out of its range is refused (R7, R41, R48, R362), part 3. -/
theorem test_wf_refuses_3 : ([.regionCloseEnd 72 0,
    .regionCloseEnd 0 64,
    .scrubComplete 72 0,
    .scrubComplete 0 64,
    .correctedWriteback (2 ^ 59),
    .moveNop 2048,
    .walkComplete 256 0 0,
    .walkComplete 0 (2 ^ 42) 0,
    .walkComplete 0 0 9,
    .pendingZeroWriteDone (2 ^ 30) false,
    .doorbell mp 65536 0,
    .doorbell mp 0 65536] : List Instr).all (fun i => !i.wf) = true := by decide +kernel

/-- Each operand out of its range is refused (R7, R41, R48, R362), part 4. -/
theorem test_wf_refuses_4 : ([.itemNop 65536,
    .qEnable mp 65536,
    .cheadWrite mp 65536 0,
    .cheadWrite mp 0 65536,
    .domActivate mp 256 0,
    .domActivate mp 0 4,
    .domTearDown mp 256,
    .teardownComplete 256,
    .allreduce 256,
    .sbinitRetry 40,
    .rateAttempt 40 0 false,
    .rateAttempt 0 65536 false] : List Instr).all (fun i => !i.wf) = true := by decide +kernel

/-- Each operand out of its range is refused (R7, R41, R48, R362), part 5. -/
theorem test_wf_refuses_5 : ([.closureRecord 40 0 0 0 0 0 0,
    .closureRecord 0 65536 0 0 0 0 0,
    .closureRecord 0 0 8 0 0 0 0,
    .closureRecord 0 0 0 4 0 0 0,
    .closureRecord 0 0 0 0 4 0 0,
    .closureRecord 0 0 0 0 0 4 0,
    .closureRecord 0 0 0 0 0 0 65536,
    .retrain mp 40,
    .rd 40 (pkt 0x01 0 []),
    .rd 0 (pkt 0x59 0 []),
    .rd 0 { pkt 0x01 0 [] with len := 1 },
    .rd 0 (pkt 0x01 0 (zeros 4097))] : List Instr).all (fun i => !i.wf) = true := by decide +kernel

/-- Each operand out of its range is refused (R7, R41, R48, R362), part 6. -/
theorem test_wf_refuses_6 : ([.requestTimeout (2 ^ 24),
    .routeHoldEnd 64,
    .railSample 5 0 0,
    .railSample 0 65536 0,
    .railSample 0 0 65536,
    .vcoreReadyTimeout ⟨.late, 65536⟩, .vcoreReadyTimeout ⟨.noAck 2, 0⟩, .vcoreReadyTimeout ⟨.badStatus 2, 0⟩,
    .temperatureScan [],
    .fnRptrWrite mp (2 ^ 32),
    .dieFatal 0,
    .dieFatal 7,
    .mbReqWrite mp 16 0 0,
    .mbReqWrite mp 0 256 0] : List Instr).all (fun i => !i.wf) = true := by decide +kernel

/-- Each operand out of its range is refused (R7, R41, R48, R362), part 7. -/
theorem test_wf_refuses_7 : ([.mbReqWrite mp 0 0 (2 ^ 32),
    .post mp 16 0,
    .post mp 0 512,
    .mbRelease mp 16,
    .loadWindow 101,
    .surveyorMemoryError 0x200000,
    .extend mp 8,
    .clRetire mp 8 0 false,
    .clRetire mp 0 16 false,
    .recoveryTestEnd 8 false,
    .clear mp 4096,
    .scaleEntryWrite mp 4096 0 0] : List Instr).all (fun i => !i.wf) = true := by decide +kernel

/-- Each operand out of its range is refused (R7, R41, R48, R362), part 8. -/
theorem test_wf_refuses_8 : ([.scaleEntryWrite mp 0 16 0,
    .scaleEntryWrite mp 0 0 (2 ^ 64),
    .ijtag 64,
    .bypass 256] : List Instr).all (fun i => !i.wf) = true := by decide +kernel

/-- The largest operands are taken. -/
theorem test_wf_accepts : ([.warmResetByPin (some 3), .rstNDeassert true true 15, .pllLost 5, .thermalTrip 95,
  .registerWrite mp (2 ^ 32 - 1) 8 (2 ^ 64 - 1),
    .commit mp 0x3FF, .nop 63, .dieFatal 6, .flit 39 0] : List Instr).all Instr.wf = true := by decide +kernel

end Sys2Proof.Tests
end

section
/-! SUPPORT. Memory without flipped bits (R226-R229): a read finds no error and gives the stored bytes, a write stores its bytes
and touches nothing else, and an access of many bytes goes line by line (R221). -/

namespace Sys2Proof.Machine

/-! ### Accesses by line -/

/-- No line holds an empty access. -/
@[simp] theorem lineChunks_zero (fuel addr : Nat) : lineChunks fuel addr 0 = [] := by
  cases fuel <;> simp [lineChunks]

/-- An access that stays in one line is one piece. -/
theorem linesOf_one {addr n : Nat} (h0 : n ≠ 0) (h : addr % 64 + n ≤ 64) : linesOf addr n = [(addr, n)] := by
  have hmin : min n (64 - addr % 64) = n := by omega
  simp [linesOf, lineChunks, h0, hmin]

/-- The part of a run from its start on. -/
@[simp] theorem sub_all (b : Bytes) : sub b 0 b.length = b := by simp [sub]

/-- A write within one line. -/
theorem State.writeMem_one (s : State) (w : Who) {addr : Nat} {b : Bytes} (h0 : b ≠ []) (h : addr % 64 + b.length ≤ 64) :
    s.writeMem w addr b = s.writeLine w addr b := by
  simp [State.writeMem, linesOf_one (by simpa using h0) h]

/-- A read within one line. -/
theorem State.readMem_one (s : State) (w : Who) {addr n : Nat} (h0 : n ≠ 0) (h : addr % 64 + n ≤ 64) :
    s.readMem w addr n = s.readLine w addr n := by
  simp [State.readMem, linesOf_one h0 h]

/-! ### Bytes -/

/-- A run of no bytes changes no memory. -/
@[simp] theorem putRun_nil (at_ : Nat) (m : Tbl Byte) : putRun at_ [] m = m := rfl

/-- Two runs, one after the other. -/
theorem putRun_append (at_ : Nat) (a b : Bytes) (m : Tbl Byte) :
    putRun at_ (a ++ b) m = putRun (at_ + a.length) b (putRun at_ a m) := by
  induction b using List.reverseRecOn with
  | nil => simp
  | append_singleton b x ih => rw [← List.append_assoc, putRun_snoc, ih, putRun_snoc, List.length_append, Nat.add_assoc]

/-- Storing bytes changes no register. -/
@[simp] theorem State.storeBytes_regs (s : State) (addr : Nat) (b : Bytes) : (s.storeBytes addr b).regs = s.regs := rfl

/-- Storing no bytes changes nothing. -/
@[simp] theorem State.storeBytes_nil (s : State) (addr : Nat) : s.storeBytes addr [] = s := rfl

/-- Storing two runs, one after the other. -/
theorem State.storeBytes_append (s : State) (addr : Nat) (a b : Bytes) :
    s.storeBytes addr (a ++ b) = (s.storeBytes addr a).storeBytes (addr + a.length) b := by
  simp only [State.storeBytes_eq, putRun_append]

@[simp] theorem State.bytesAt_length (s : State) (addr n : Nat) : (s.bytesAt addr n).length = n := by simp [State.bytesAt]

/-- A stored run of bytes, in two parts. -/
theorem State.bytesAt_add (s : State) (addr m n : Nat) : s.bytesAt addr (m + n) = s.bytesAt addr m ++ s.bytesAt (addr + m) n := by
  simp [State.bytesAt, List.range_add, Nat.add_assoc]

/-- The bytes that were stored. -/
theorem State.bytesAt_storeBytes_self (s : State) (addr : Nat) (b : Bytes) : (s.storeBytes addr b).bytesAt addr b.length = b := by
  apply List.ext_getElem (by simp)
  intro i hi hb
  simp only [State.bytesAt, List.getElem_map, List.getElem_range, State.byteAt_storeBytes]
  rw [if_pos (by omega), Nat.add_sub_cancel_left, List.getD_eq_getElem _ _ hb]

/-! ### Checks -/

/-- The check of a byte reads its granule's word and whether the core whose memory it is in is gone, and nothing else. -/
theorem State.checkByte_congr {s t : State} {addr : Nat} (hgone : ∀ u < 64, memUnit addr = some u → t.coreGone u = s.coreGone u)
    (hgran : ∀ u, memUnit addr = some u → t.gran u (granOf u addr) = s.gran u (granOf u addr)) (w : Who) :
    t.checkByte w addr = s.checkByte w addr := by
  unfold State.checkByte
  cases hu : memUnit addr with
  | none => rfl
  | some u =>
    have hstate : t.granState u (granOf u addr) = s.granState u (granOf u addr) := by simp only [State.granState, hgran u hu]
    have hdom : t.granDomain u (granOf u addr) = s.granDomain u (granOf u addr) := by simp only [State.granDomain, hgran u hu]
    have hseal : t.granSealed u (granOf u addr) = s.granSealed u (granOf u addr) := by simp only [State.granSealed, hgran u hu]
    dsimp only
    rw [hstate, hdom, hseal]
    by_cases hlt : u < 64
    · rw [hgone u hlt hu]
    · simp only [hlt, false_and, if_false]

/-- An access is checked by its first and its last byte. -/
theorem State.checkAccess_congr {s t : State} {w : Who} (h : ∀ a, t.checkByte w a = s.checkByte w a) (addr n : Nat) :
    t.checkAccess w addr n = s.checkAccess w addr n := by
  simp only [State.checkAccess, h]

@[simp] theorem State.checkAccess_storeBytes (s : State) (at_ : Nat) (b : Bytes) (w : Who) (addr n : Nat) :
    (s.storeBytes at_ b).checkAccess w addr n = s.checkAccess w addr n := by
  refine State.checkAccess_congr (fun a => State.checkByte_congr (fun u _ _ => ?_) (fun u _ => rfl) w) addr n
  simp only [State.coreGone, State.isHole, State.get_congr (State.storeBytes_regs s at_ b)]

/-- What the first byte's check refuses, the access is refused for. -/
theorem State.checkAccess_of_checkByte {s : State} {w : Who} {addr st : Nat} (h : s.checkByte w addr = st) (h0 : st ≠ 0) (n : Nat) :
    s.checkAccess w addr n = st := by
  simp only [State.checkAccess, h, if_pos h0]

/-- No check allows an address that is in no memory of this die (R42, R53). -/
theorem State.checkAccess_unmapped {addr : Nat} (h : memUnit addr = none) (s : State) (w : Who) (n : Nat) : s.checkAccess w addr n ≠ 0 := by
  have hb : s.checkByte w addr ≠ 0 := by
    simp only [State.checkByte, h]
    split <;> decide
  rw [State.checkAccess_of_checkByte rfl hb]
  exact hb

/-- The control aperture lies outside the memories (R41). -/
theorem memUnit_inAperture {addr : Nat} (h : inAperture addr = true) : memUnit addr = none := by
  simp only [inAperture, Bool.and_eq_true, decide_eq_true_eq] at h
  simp only [memUnit]
  rw [if_neg (by omega), if_neg (by omega)]

/-- An access that every check allows is none to the control aperture. -/
theorem State.not_inAperture_of_checkAccess {s : State} {w : Who} {addr n : Nat} (h : s.checkAccess w addr n = 0) : inAperture addr = false := by
  by_contra ha
  exact State.checkAccess_unmapped (memUnit_inAperture (by simpa using ha)) s w n h

/-! ### No flipped bits -/

/-- No word has flipped bits. -/
theorem State.flips_clean {s : State} (h : s.ecc = []) (k : Nat) : s.flips k = 0 := by simp [State.flips, h, tget]

/-- A protection unit without flipped bits reads clean. -/
theorem State.readUnit_clean {s : State} (h : s.ecc = []) (w : Who) (word : Nat) : s.readUnit w word = ⟨s, 0⟩ := by
  have hn : s.unitFlips word = 0 := by simp [State.unitFlips, State.flips_clean h]
  simp [State.readUnit, hn]

/-- Going through clean protection units finds nothing. -/
theorem State.unitSteps_clean {s : State} (h : s.ecc = []) (w : Who) (skip : State → Nat → Bool) (l : List Nat) :
    l.foldl (State.unitStep w skip) (s, 0, []) = (s, 0, []) := by
  induction l with
  | nil => rfl
  | cons x l ih =>
    have hx : State.unitStep w skip (s, 0, []) x = (s, 0, []) := by
      simp [State.unitStep, State.readUnit_clean h]
    rw [List.foldl_cons, hx, ih]

/-- Decoding clean units finds nothing. -/
theorem State.decodeUnits_clean {s : State} (h : s.ecc = []) (w : Who) (words : List Nat) : s.decodeUnits w words = (s, 0, []) :=
  State.unitSteps_clean h w _ _

/-- An access that found no unit wrong delivers the stored byte. -/
@[simp] theorem State.decodedByte_nil (s : State) (a : Nat) : s.decodedByte [] a = s.byteAt a := by simp [State.decodedByte]

/-- An access that found no unit wrong draws nothing. -/
@[simp] theorem State.drew_nil (s : State) : s.drew [] = s := by simp [State.drew]

/-- Decoding a clean line gives its bytes. -/
theorem State.decodeLine_clean {s : State} (h : s.ecc = []) (w : Who) (addr n : Nat) : s.decodeLine w addr n = ⟨s, 0, s.bytesAt addr n⟩ := by
  simp [State.decodeLine, State.decodeUnits_clean h, State.bytesAt]

/-- Clearing the flipped bits of words changes nothing where none are flipped. -/
theorem State.setFlips_clean {s : State} (h : s.ecc = []) (k : Nat) : s.setFlips k 0 = s := by
  have e : tset (fun _ => 0) k 0 s.ecc = s.ecc := by simp [h, tset, tdel]
  simp only [State.setFlips, e]

/-- The protection unit at word `h` takes fresh check bits and waits no more to be written back (R227, R229). -/
def State.freshUnit (s : State) (h : Nat) : State :=
  { ((List.range (s.unitOf h).2).foldl (fun s i => s.setFlips (h + i) 0) s) with fixups := s.fixups.filter (· != h) }

/-- A clean unit only stops waiting. -/
theorem State.freshUnit_clean {s : State} (h : s.ecc = []) (x : Nat) : s.freshUnit x = { s with fixups := s.fixups.filter (· != x) } := by
  have hflips : ∀ l : List Nat, l.foldl (fun s i => s.setFlips (x + i) 0) s = s := by
    intro l
    induction l with
    | nil => rfl
    | cons i l ih => rw [List.foldl_cons, State.setFlips_clean h, ih]
  simp only [State.freshUnit, hflips]

/-- Clean units only stop waiting. -/
theorem State.freshUnits_clean (l : List Nat) : ∀ {s : State}, s.ecc = [] →
    l.foldl State.freshUnit s = { s with fixups := s.fixups.filter (fun x => !l.contains x) } := by
  induction l with
  | nil => intro s _; simp
  | cons x l ih =>
    intro s h
    rw [List.foldl_cons, State.freshUnit_clean h, ih (by exact h)]
    simp [Bool.and_comm, bne, Bool.beq_eq_decide_eq]

/-- Making units ready for a write, unless one is uncorrectable. -/
theorem State.openUnits_eq (s : State) (w : Who) (words : List Nat) (covers : Nat → Bool) :
    s.openUnits w words covers =
      let r := (s.headsOf words).foldl (State.unitStep w (fun t h => (List.range ((t.unitOf h).2 * 8)).all (fun i => covers (h * 8 + i)))) (s, 0, [])
      if r.2.1 ≠ 0 then (r.1, r.2.1) else (r.2.2.foldl State.spoilUnit ((s.headsOf words).foldl State.freshUnit r.1), 0) := rfl

/-- Clean units are ready for a write at once; those that waited to be written back no longer do (R229). -/
theorem State.openUnits_clean {s : State} (h : s.ecc = []) (w : Who) (words : List Nat) (covers : Nat → Bool) :
    s.openUnits w words covers = ({ s with fixups := s.fixups.filter (fun x => !(s.headsOf words).contains x) }, 0) := by
  simp [State.openUnits_eq, State.unitSteps_clean h, State.freshUnits_clean _ h]

/-- A write of no waiting unit changes nothing before it stores. -/
theorem State.openUnits_clean_settled {s : State} (h : s.ecc = []) (hf : s.fixups = []) (w : Who) (words : List Nat) (covers : Nat → Bool) :
    s.openUnits w words covers = (s, 0) := by
  have e : s.fixups.filter (fun x => !(s.headsOf words).contains x) = s.fixups := by simp [hf]
  rw [State.openUnits_clean h, e]

/-! ### Reads and writes that every check allows -/

section
variable {s : State} {w : Who} {addr n : Nat}

/-- An allowed read of a clean line. -/
theorem State.readLine_clean (h : s.ecc = []) (hc : s.checkAccess w addr n = 0) : s.readLine w addr n = ⟨s, 0, s.bytesAt addr n⟩ := by
  simp [State.readLine, hc, State.not_inAperture_of_checkAccess hc, State.decodeLine_clean h]

/-- An allowed write of a clean line. -/
theorem State.writeLine_clean {b : Bytes} (h : s.ecc = []) (hf : s.fixups = []) (hc : s.checkAccess w addr b.length = 0) :
    s.writeLine w addr b = (s.storeBytes addr b, 0) := by
  simp [State.writeLine, hc, State.not_inAperture_of_checkAccess hc, State.openUnits_clean_settled h hf]

end

/-- The pieces of an allowed read, taken one after the other, give the bytes in order. -/
theorem State.readChunks_clean {s : State} {w : Who} (h : s.ecc = []) (fuel : Nat) :
    ∀ (addr n : Nat) (acc : Bytes), (n ≠ 0 → addr % 64 + n ≤ 64 * fuel) → (∀ c ∈ lineChunks fuel addr n, s.checkAccess w c.1 c.2 = 0) →
      (lineChunks fuel addr n).foldl (fun (a : Rd) c =>
        if a.status ≠ 0 then a
        else
          let r := a.state.readLine w c.1 c.2
          ⟨r.state, r.status, a.bytes ++ r.bytes⟩) ⟨s, 0, acc⟩ = ⟨s, 0, acc ++ s.bytesAt addr n⟩ := by
  induction fuel with
  | zero =>
    intro addr n acc hfuel _
    have hn : n = 0 := by omega
    simp [hn, State.bytesAt]
  | succ fuel ih =>
    intro addr n acc hfuel hc
    by_cases hn : n = 0
    · simp [hn, State.bytesAt]
    · simp only [lineChunks, hn, if_false, List.forall_mem_cons] at hc ⊢
      obtain ⟨hfirst, hrest⟩ := hc
      have hlen : n = min n (64 - addr % 64) + (n - min n (64 - addr % 64)) := by omega
      simp only [List.foldl_cons, ne_eq, not_true_eq_false, if_false, State.readLine_clean h hfirst]
      rw [ih _ _ _ (by omega) hrest, List.append_assoc, ← State.bytesAt_add, ← hlen]

/-- A read that every check allows, in memory without flipped bits, changes nothing and gives the stored bytes. -/
theorem State.readMem_clean {s : State} {w : Who} {addr n : Nat} (h : s.ecc = []) (hc : ∀ c ∈ linesOf addr n, s.checkAccess w c.1 c.2 = 0) :
    s.readMem w addr n = ⟨s, 0, s.bytesAt addr n⟩ := by
  have hread := State.readChunks_clean h (n / 64 + 2) addr n [] (by omega) hc
  exact hread

/-- The pieces of an allowed write, taken one after the other from byte `addr` on, store the rest of the run. -/
theorem State.writeChunks_clean {w : Who} {base : Nat} {b : Bytes} (fuel : Nat) :
    ∀ (s : State) (addr n : Nat), s.ecc = [] → s.fixups = [] → base ≤ addr → addr - base + n = b.length →
      (n ≠ 0 → addr % 64 + n ≤ 64 * fuel) →
      (∀ c ∈ lineChunks fuel addr n, s.checkAccess w c.1 c.2 = 0) →
      (lineChunks fuel addr n).foldl (fun (a : State × Nat) c =>
        if a.2 ≠ 0 then a else a.1.writeLine w c.1 (sub b (c.1 - base) c.2)) (s, 0) = (s.storeBytes addr (b.drop (addr - base)), 0) := by
  induction fuel with
  | zero =>
    intro s addr n _ _ _ hlen hfuel _
    have hdrop : b.drop (addr - base) = [] := List.drop_eq_nil_of_le (by omega)
    have hn : n = 0 := by omega
    simp [hn, hdrop]
  | succ fuel ih =>
    intro s addr n h hf hbase hlen hfuel hc
    by_cases hn : n = 0
    · have hdrop : b.drop (addr - base) = [] := List.drop_eq_nil_of_le (by omega)
      simp [hn, hdrop]
    · simp only [lineChunks, hn, if_false, List.forall_mem_cons] at hc ⊢
      obtain ⟨hfirst, hrest⟩ := hc
      generalize hk : min n (64 - addr % 64) = k at *
      have hsub : (sub b (addr - base) k).length = k := by
        simp only [sub, List.length_take, List.length_drop]
        omega
      have hsplit : b.drop (addr - base) = sub b (addr - base) k ++ b.drop (addr + k - base) := by
        rw [show addr + k - base = addr - base + k by omega, ← List.drop_drop]
        exact (List.take_append_drop k _).symm
      have hline : s.writeLine w addr (sub b (addr - base) k) = (s.storeBytes addr (sub b (addr - base) k), 0) :=
        State.writeLine_clean h hf (by rw [hsub]; exact hfirst)
      simp only [List.foldl_cons, ne_eq, not_true_eq_false, if_false, hline]
      rw [ih (s.storeBytes addr (sub b (addr - base) k)) (addr + k) (n - k) h hf (by omega) (by omega) (by omega) (by simpa using hrest), hsplit,
        State.storeBytes_append, hsub]

/-- A write that every check allows, in memory without flipped bits, stores its bytes and does nothing else. -/
theorem State.writeMem_clean {s : State} {w : Who} {addr : Nat} {b : Bytes} (h : s.ecc = []) (hf : s.fixups = [])
    (hc : ∀ c ∈ linesOf addr b.length, s.checkAccess w c.1 c.2 = 0) : s.writeMem w addr b = (s.storeBytes addr b, 0) := by
  have hwrite := State.writeChunks_clean (base := addr) (b := b) (b.length / 64 + 2) s addr b.length h hf le_rfl (by omega) (by omega) hc
  simpa [State.writeMem, linesOf] using hwrite

end Sys2Proof.Machine
end

section
/-! SUPPORT. What refuses an access (R42, R53, R221, R235, R241), and the settled statement that memory keeps domains apart. -/

namespace Sys2Proof.Machine

/-! ### The answers of a line -/

section
variable {s : State} {w : Who} {addr : Nat}

/-- A line outside the aperture that its check refuses is not read. -/
theorem State.readLine_refused {n : Nat} (ha : inAperture addr = false) (hc : s.checkAccess w addr n ≠ 0) :
    s.readLine w addr n = ⟨s, s.checkAccess w addr n, []⟩ := by
  simp [State.readLine, ha, hc]

/-- A line outside the aperture that its check refuses is not written. -/
theorem State.writeLine_refused {b : Bytes} (ha : inAperture addr = false) (hc : s.checkAccess w addr b.length ≠ 0) :
    s.writeLine w addr b = (s, s.checkAccess w addr b.length) := by
  simp [State.writeLine, ha, hc]

/-- A read of the control aperture by this die (R53). -/
theorem State.readLine_aperture {n : Nat} (ha : inAperture addr = true) (hw : w.own = true) :
    s.readLine w addr n = ⟨(s.aperture addr).1, (s.aperture addr).2, zeros n⟩ := by
  simp [State.readLine, ha, hw]

/-- A write to the control aperture by this die (R53). -/
theorem State.writeLine_aperture {b : Bytes} (ha : inAperture addr = true) (hw : w.own = true) : s.writeLine w addr b = s.aperture addr := by
  simp [State.writeLine, ha, hw]

/-- A page of the aperture that is there refuses the access. -/
theorem State.aperture_populated (hp : populated (aperturePage addr) = true) : s.aperture addr = (s.apertureRefused addr, stProtection) := by
  simp [State.aperture, hp]

/-- A page of the aperture that is not there counts the access. -/
theorem State.aperture_unpopulated (hp : populated (aperturePage addr) = false) : s.aperture addr = (s.bump Fld.ERR_ERR_UNPOP_COUNT, 0) := by
  simp [State.aperture, hp]

/-! ### The reasons of a refusal -/

variable {u : Nat}

/-- The memory of a core that is gone is retired (R241). -/
theorem State.checkByte_gone (hu : memUnit addr = some u) (h64 : u < 64) (hgone : s.coreGone u = true) : s.checkByte w addr = stRetired := by
  simp [State.checkByte, hu, h64, hgone]

/-- A granule that is not ALLOC, or is another domain's, is protected (R235). -/
theorem State.checkByte_protected (hu : memUnit addr = some u) (hhere : u < 64 → s.coreGone u = false)
    (h : s.granState u (granOf u addr) ≠ 1 ∨ s.granDomain u (granOf u addr) ≠ w.dom) : s.checkByte w addr = stProtection := by
  have hlost : ¬ (u < 64 ∧ s.coreGone u = true) := fun ⟨hlt, hgone⟩ => by simp [hhere hlt] at hgone
  simp only [State.checkByte, hu, if_neg hlost, if_pos h]

/-- A sealed line is for the array's pass traffic alone (R157). -/
theorem State.checkByte_sealed (hu : memUnit addr = some u) (hhere : u < 64 → s.coreGone u = false)
    (hstate : s.granState u (granOf u addr) = 1) (hdom : s.granDomain u (granOf u addr) = w.dom)
    (hseal : s.granSealed u (granOf u addr) = true) (hpass : w.pass = false) : s.checkByte w addr = stSealed := by
  have hlost : ¬ (u < 64 ∧ s.coreGone u = true) := fun ⟨hlt, hgone⟩ => by simp [hhere hlt] at hgone
  simp [State.checkByte, hu, hlost, hstate, hdom, hseal, hpass]

end

/-- A saturating counter of one word reads one more, up to its largest value. -/
theorem State.get_bump {f : Fld} (h : f.one) (s : State) (n i e : Nat) : (s.bump f n i e).get f i e = satAdd f.len (s.get f i e) n := by
  have hlt : satAdd f.len (s.get f i e) n < 2 ^ f.len := by
    have hpos : 0 < 2 ^ f.len := by positivity
    simp only [satAdd]
    omega
  rw [State.bump, State.get_put_one h, Nat.mod_eq_of_lt hlt]

/-! ### The parts of the statement -/

/-- An access within one line outside the aperture whose check fails changes nothing and gives its status (R42, R221). -/
theorem State.refused_access_changes_nothing {s : State} {w : Who} {addr : Nat} {b : Bytes} (hb : b ≠ []) (hline : addr % 64 + b.length ≤ 64)
    (ha : inAperture addr = false) (hc : s.checkAccess w addr b.length ≠ 0) :
    s.writeMem w addr b = (s, s.checkAccess w addr b.length) ∧ s.readMem w addr b.length = ⟨s, s.checkAccess w addr b.length, []⟩ := by
  rw [State.writeMem_one s w hb hline, State.readMem_one s w (by simpa using hb) hline]
  exact ⟨State.writeLine_refused ha hc, State.readLine_refused ha hc⟩

/-- An access of this die within one line to the control aperture answers as its page does (R53). -/
theorem State.aperture_access {s : State} {w : Who} {addr : Nat} {b : Bytes} (hb : b ≠ []) (hline : addr % 64 + b.length ≤ 64)
    (ha : inAperture addr = true) (hw : w.own = true) :
    s.writeMem w addr b = s.aperture addr ∧ s.readMem w addr b.length = ⟨(s.aperture addr).1, (s.aperture addr).2, zeros b.length⟩ := by
  rw [State.writeMem_one s w hb hline, State.readMem_one s w (by simpa using hb) hline]
  exact ⟨State.writeLine_aperture ha hw, State.readLine_aperture ha hw⟩

/-- A write that every check allows, in memory without errors, is what a read then returns, and touches nothing else (R17, R221). -/
theorem State.allowed_write_reads_back {s : State} {w : Who} {addr : Nat} {b : Bytes} (hecc : s.ecc = []) (hfix : s.fixups = [])
    (hc : ∀ c ∈ linesOf addr b.length, s.checkAccess w c.1 c.2 = 0) :
    let t := (s.writeMem w addr b).1
    (s.writeMem w addr b).2 = 0 ∧ t = { s with mem := t.mem } ∧ t.readMem w addr b.length = ⟨t, 0, b⟩ ∧
      ∀ a, a < addr ∨ addr + b.length ≤ a → t.byteAt a = s.byteAt a := by
  rw [State.writeMem_clean hecc hfix hc]
  have hread : (s.storeBytes addr b).readMem w addr b.length = ⟨s.storeBytes addr b, 0, (s.storeBytes addr b).bytesAt addr b.length⟩ :=
    State.readMem_clean hecc (by simpa using hc)
  rw [State.bytesAt_storeBytes_self] at hread
  refine ⟨rfl, rfl, hread, fun a h => ?_⟩
  rw [State.byteAt_storeBytes, if_neg (by omega)]

/-- Settles O40: each refusal is the answer of the one line's check, and an allowed write stores its bytes line by line. -/
theorem memoryKeepsDomainsApart : Obligations.MemoryKeepsDomainsApart := by
  unfold Obligations.MemoryKeepsDomainsApart
  intro s w addr b
  refine ⟨State.refused_access_changes_nothing, fun hb hline ha hw => ⟨fun hp => ?_, fun hp => ?_⟩, fun u h64 hu hgone => ?_,
    fun u hu hhere => ⟨fun h => ?_, fun hstate hdom hseal hpass => ?_⟩, State.allowed_write_reads_back⟩
  · obtain ⟨hwrite, hread⟩ := State.aperture_access (s := s) hb hline ha hw
    simp [hwrite, hread, State.aperture_populated hp]
  · obtain ⟨hwrite, hread⟩ := State.aperture_access (s := s) hb hline ha hw
    simp [hwrite, hread, State.aperture_unpopulated hp, State.get_bump (f := Fld.ERR_ERR_UNPOP_COUNT) (by decide)]
  · exact State.checkAccess_of_checkByte (State.checkByte_gone hu h64 hgone) (by decide) _
  · exact State.checkAccess_of_checkByte (State.checkByte_protected hu hhere h) (by decide) _
  · exact State.checkAccess_of_checkByte (State.checkByte_sealed hu hhere hstate hdom hseal hpass) (by decide) _

end Sys2Proof.Machine
end

section
/-! SUPPORT. Vector registers (R177, R178): what an element and a word read after elements were written. -/

namespace Sys2Proof.Machine

/-- Bits of an element of type `et` (R178). -/
def etBits (et : Nat) : Nat := if et = 1 then 16 else 32

/-- A word of a register after a word write. -/
theorem CoreSt.vword_setVword (k : CoreSt) (r i v q j : Nat) :
    (k.setVword r i v).vword q j = if q * 8192 + j = r * 8192 + i then v % 2 ^ 32 else k.vword q j := by
  simp only [CoreSt.vword, CoreSt.setVword, tget_tset]
  split
  · simp
  · rfl

/-- Writing a word changes vector registers alone. -/
theorem CoreSt.setVword_frame (k : CoreSt) (r i v : Nat) : k.setVword r i v = { k with vregs := (k.setVword r i v).vregs } := by
  unfold CoreSt.setVword
  exact Eq.refl _

/-- Writing an element changes vector registers alone. -/
theorem CoreSt.vput_frame (k : CoreSt) (et r e v : Nat) : k.vput et r e v = { k with vregs := (k.vput et r e v).vregs } := by
  by_cases h : et = 1
  · simp only [CoreSt.vput, if_pos h]
    exact CoreSt.setVword_frame _ _ _ _
  · simp only [CoreSt.vput, if_neg h]
    exact CoreSt.setVword_frame _ _ _ _

/-- The element that was written reads as written, cut to its width. -/
theorem CoreSt.vget_vput_self (k : CoreSt) (et r e v : Nat) : (k.vput et r e v).vget et r e = v % 2 ^ etBits et := by
  unfold CoreSt.vget CoreSt.vput etBits
  split
  · have hin : 16 * (e % 2) + 16 ≤ 32 := by omega
    rw [CoreSt.vword_setVword, if_pos rfl, bitsAt_mod _ _ _ _ hin, bitsAt_bitsPut_self]
  · rw [CoreSt.vword_setVword, if_pos rfl]

/-- Every other element of the register stands. -/
theorem CoreSt.vget_vput_ne (k : CoreSt) (et r v : Nat) {e f : Nat} (h : f ≠ e) : (k.vput et r e v).vget et r f = k.vget et r f := by
  unfold CoreSt.vget CoreSt.vput
  split
  · by_cases hword : f / 2 = e / 2
    · have hin : 16 * (f % 2) + 16 ≤ 32 := by omega
      have hapart : 16 * (f % 2) + 16 ≤ 16 * (e % 2) ∨ 16 * (e % 2) + 16 ≤ 16 * (f % 2) := by omega
      rw [hword, CoreSt.vword_setVword, if_pos rfl, bitsAt_mod _ _ _ _ hin, bitsAt_bitsPut_apart _ _ _ _ _ _ hapart]
    · rw [CoreSt.vword_setVword, if_neg (by omega)]
  · rw [CoreSt.vword_setVword, if_neg (by omega)]

/-- Every word of another register stands. -/
theorem CoreSt.vword_vput_ne (k : CoreSt) (et v : Nat) {r e q i : Nat} (hq : q ≠ r) (he : e < 8192) (hi : i < 8192) :
    (k.vput et r e v).vword q i = k.vword q i := by
  unfold CoreSt.vput
  split <;> rw [CoreSt.vword_setVword, if_neg (by omega)]

/-- Elements are read from the vector registers. -/
theorem CoreSt.vget_congr {k l : CoreSt} (h : k.vregs = l.vregs) (et r e : Nat) : k.vget et r e = l.vget et r e := by
  simp only [CoreSt.vget, CoreSt.vword, h]

/-- Words are read from the vector registers. -/
theorem CoreSt.vword_congr {k l : CoreSt} (h : k.vregs = l.vregs) (r i : Nat) : k.vword r i = l.vword r i := by
  simp only [CoreSt.vword, h]

/-! ### Several elements -/

/-- Elements written one after the other, each given with its raw bits. -/
def CoreSt.putLanes (k : CoreSt) (et r : Nat) (l : List (Nat × Nat)) : CoreSt := l.foldl (fun k x => k.vput et r x.1 x.2) k

theorem CoreSt.putLanes_cons (k : CoreSt) (et r : Nat) (x : Nat × Nat) (l : List (Nat × Nat)) :
    k.putLanes et r (x :: l) = (k.vput et r x.1 x.2).putLanes et r l := rfl

theorem CoreSt.putLanes_append (k : CoreSt) (et r : Nat) (a b : List (Nat × Nat)) :
    k.putLanes et r (a ++ b) = (k.putLanes et r a).putLanes et r b := List.foldl_append

/-- Writing elements changes vector registers alone. -/
theorem CoreSt.putLanes_frame (k : CoreSt) (et r : Nat) (l : List (Nat × Nat)) :
    k.putLanes et r l = { k with vregs := (k.putLanes et r l).vregs } := by
  induction l generalizing k with
  | nil => rfl
  | cons x l ih =>
    rw [CoreSt.putLanes_cons, ih, CoreSt.vput_frame]

/-- An element that is not among the written ones stands. -/
theorem CoreSt.vget_putLanes_other (k : CoreSt) (et r : Nat) {l : List (Nat × Nat)} {e : Nat} (h : ∀ x ∈ l, x.1 ≠ e) :
    (k.putLanes et r l).vget et r e = k.vget et r e := by
  induction l generalizing k with
  | nil => rfl
  | cons x l ih =>
    rw [List.forall_mem_cons] at h
    rw [CoreSt.putLanes_cons, ih _ h.2, CoreSt.vget_vput_ne _ _ _ _ h.1.symm]

/-- An element that is written with one value alone holds that value. -/
theorem CoreSt.vget_putLanes (k : CoreSt) (et r : Nat) {l : List (Nat × Nat)} {e v : Nat} (hmem : (e, v) ∈ l) (h : ∀ x ∈ l, x.1 = e → x.2 = v) :
    (k.putLanes et r l).vget et r e = v % 2 ^ etBits et := by
  induction l using List.reverseRecOn generalizing k with
  | nil => cases hmem
  | append_singleton l x ih =>
    rw [CoreSt.putLanes_append]
    change ((k.putLanes et r l).vput et r x.1 x.2).vget et r e = _
    by_cases hx : x.1 = e
    · rw [← h x (by simp) hx, ← hx, CoreSt.vget_vput_self]
    · have hl : (e, v) ∈ l := by
        rcases List.mem_append.mp hmem with hl | hl
        · exact hl
        · rw [List.mem_singleton] at hl
          exact absurd (congrArg Prod.fst hl).symm hx
      rw [CoreSt.vget_vput_ne _ _ _ _ (Ne.symm hx), ih k hl (fun y hy => h y (by simp [hy]))]

/-- Every word of another register stands. -/
theorem CoreSt.vword_putLanes_other (k : CoreSt) (et : Nat) {r q i : Nat} {l : List (Nat × Nat)} (hq : q ≠ r) (hi : i < 8192)
    (h : ∀ x ∈ l, x.1 < 8192) : (k.putLanes et r l).vword q i = k.vword q i := by
  induction l generalizing k with
  | nil => rfl
  | cons x l ih =>
    rw [List.forall_mem_cons] at h
    rw [CoreSt.putLanes_cons, ih _ h.2, CoreSt.vword_vput_ne _ _ _ hq h.1 hi]

end Sys2Proof.Machine
end

section
/-! SUPPORT. What a vector instruction that may issue does (R201, R206, R211): its issue is counted, its work is done, its queue lets
it go and its numeric events are recorded. -/

namespace Sys2Proof.Machine

/-! ### Cores -/

@[simp] theorem State.core_setCore_self (s : State) (n : Nat) (k : CoreSt) : (s.setCore n k).core n = k := tget_tset_self _ n k s.cores

theorem State.core_setCore_ne (s : State) {n m : Nat} (h : m ≠ n) (k : CoreSt) : (s.setCore n k).core m = s.core m := tget_tset_ne _ h k s.cores

/-- Equal tables of cores hold equal cores. -/
theorem State.core_congr {s t : State} (h : t.cores = s.cores) (m : Nat) : t.core m = s.core m := by simp only [State.core, h]

theorem State.core_put (s : State) (f : Fld) (v i e m : Nat) : (s.put f v i e).core m = s.core m := State.core_congr (State.put_cores s f v i e) m

/-! ### A core's own registers -/

/-- A register field of the core pages. -/
abbrev Fld.ofCore (f : Fld) : Prop := f.page = 0x40 ∧ f.win = false ∧ f.off + 4 < 2 ^ 32

/-- The key of a field of core `n`'s page. -/
theorem Fld.ofCore.key {f : Fld} (h : f.ofCore) (n : Nat) : f.key n 0 = (0x40 + n) * 2 ^ 32 + f.off := by
  obtain ⟨hpage, hwin, _⟩ := h
  simp [Fld.key, regKey, hpage, hwin]

/-- A write of a field of core `n`'s page leaves the words of other pages alone. -/
theorem State.word_put_ofCore {f : Fld} (h : f.ofCore) (s : State) (v : Nat) {n k : Nat} (hk : k / 2 ^ 32 ≠ 0x40 + n) :
    (s.put f v n).word k = s.word k := by
  have hkey := h.key n
  obtain ⟨_, _, hoff⟩ := h
  exact State.word_put_ne s f v n 0 (by omega) (.inr (by omega))

/-- A write of a field of a core's page at offset `off` leaves the words at other offsets alone, on every page. -/
theorem State.word_put_ofCore_off (f : Fld) (h : f.ofCore) (s : State) (v n off : Nat) (ho : f.off = off) {k : Nat}
    (hk : k % 2 ^ 32 ≠ off ∧ k % 2 ^ 32 ≠ off + 4) : (s.put f v n).word k = s.word k := by
  have hkey := h.key n
  obtain ⟨_, _, hoff⟩ := h
  exact State.word_put_ne s f v n 0 (by omega) (.inr (by omega))

/-- Between `s` and `t` core `n` worked: it holds `k`, but for its numeric status word; memories and other cores stand, and so does every
register but those of its page and those that reports write. -/
structure CoreLeft (s t : State) (n : Nat) (k : CoreSt) : Prop where
  mem : t.mem = s.mem ∧ t.ecc = s.ecc
  others : ∀ m, m ≠ n → t.core m = s.core m
  core : t.core n = { k with nsw := (t.core n).nsw }
  regs : ∀ j, reportKey j = false → j / 2 ^ 32 ≠ 0x40 + n → t.word j = s.word j

namespace CoreLeft

/-- Nothing happened. -/
theorem refl (s : State) (n : Nat) : CoreLeft s s n (s.core n) := ⟨⟨rfl, rfl⟩, fun _ _ => rfl, rfl, fun _ _ _ => rfl⟩

/-- One work after another. -/
theorem trans {s t u : State} {n : Nat} {k l : CoreSt} (a : CoreLeft s t n k) (b : CoreLeft t u n l) : CoreLeft s u n l where
  mem := ⟨b.mem.1.trans a.mem.1, b.mem.2.trans a.mem.2⟩
  others m h := (b.others m h).trans (a.others m h)
  core := b.core
  regs j hj hp := (b.regs j hj hp).trans (a.regs j hj hp)

/-- A work that leaves the core as it finds it, but for its numeric status word, after another. -/
theorem andThen {s t u : State} {n : Nat} {k : CoreSt} (a : CoreLeft s t n k) (b : CoreLeft t u n (t.core n)) : CoreLeft s u n k where
  mem := (a.trans b).mem
  others := (a.trans b).others
  core := by rw [b.core, a.core]
  regs := (a.trans b).regs

section
variable {s t : State} {n : Nat} {k : CoreSt}

/-- A field of the core's page is written. -/
theorem put (h : CoreLeft s t n k) {f : Fld} (hf : f.ofCore) (v : Nat) : CoreLeft s (t.put f v n) n k where
  mem := by simpa using h.mem
  others m hm := by rw [State.core_put, h.others m hm]
  core := by rw [State.core_put, ← h.core]
  regs j hj hp := by rw [State.word_put_ofCore hf t v hp, h.regs j hj hp]

/-- A word of the core's page is written. -/
theorem setWord (h : CoreLeft s t n k) {j : Nat} (hj : j / 2 ^ 32 = 0x40 + n) (v : BitVec 32) : CoreLeft s (t.setWord j v) n k where
  mem := by simpa using h.mem
  others m hm := by rw [State.core_congr (State.setWord_cores t j v), h.others m hm]
  core := by rw [State.core_congr (State.setWord_cores t j v), ← h.core]
  regs i hi hp := by rw [State.word_setWord_ne t (by rintro rfl; exact hp hj), h.regs i hi hp]

/-- The core holds something else. -/
theorem setCore (h : CoreLeft s t n k) (l : CoreSt) : CoreLeft s (t.setCore n l) n l where
  mem := by simpa using h.mem
  others m hm := by rw [State.core_setCore_ne t hm, h.others m hm]
  core := by rw [State.core_setCore_self]
  regs j hj hp := by rw [State.word_congr (State.setCore_regs t n l), h.regs j hj hp]

/-- A bit of the numeric status word sets. -/
theorem setNsw (h : CoreLeft s t n k) (bit : Nat) : CoreLeft s (t.setNsw n bit) n k :=
  h.andThen { (CoreLeft.refl t n).setCore { t.core n with nsw := (t.core n).nsw ||| 2 ^ bit } with
    core := by simp only [State.setNsw, State.core_setCore_self] }

/-- Something is reported. -/
theorem reports (h : CoreLeft s t n k) {u : State} (r : Reports t u) : CoreLeft s u n k where
  mem := by
    rw [r.rest]
    exact h.mem
  others m hm := by rw [State.core_congr (congrArg State.cores r.rest), ← h.others m hm]; rfl
  core := by
    have e : u.core n = t.core n := State.core_congr (congrArg State.cores r.rest) n
    rw [e, ← h.core]
  regs j hj hp := by rw [r.words j hj, h.regs j hj hp]

end
end CoreLeft

/-! ### Numeric events -/

/-- Writing the numeric event record writes registers of the core's page (R175). -/
theorem State.writeNer_left (s : State) (n : Nat) (e : NumEv) (replaced : Bool) : CoreLeft s (s.writeNer n e replaced) n (s.core n) := by
  have hkey : Fld.CORE_NER_SCALES_SA.key n 0 / 2 ^ 32 = 0x40 + n := by
    have hoff := Fld.ofCore.key (f := Fld.CORE_NER_SCALES_SA) (by decide) n
    simp only [Fld.CORE_NER_SCALES_SA] at hoff ⊢
    omega
  unfold State.writeNer
  dsimp only
  refine CoreLeft.setWord ?_ hkey _
  repeat refine CoreLeft.put ?_ (by decide) _
  exact CoreLeft.refl s n

/-- The events of an instruction reach the record, the count and the numeric status word alone (R172). -/
theorem State.latchEvents_left (s : State) (n : Nat) (a : EvSum) : CoreLeft s (s.latchEvents n a).1 n (s.core n) := by
  unfold State.latchEvents
  cases a.best with
  | none => exact CoreLeft.refl s n
  | some e =>
    dsimp only
    have hcount : CoreLeft s ((s.bump Fld.CORE_NER_COUNT_COUNT a.count n).setNsw n nswNanSeen) n (s.core n) :=
      ((CoreLeft.refl s n).put (by decide) _).setNsw _
    split
    · exact hcount.andThen (State.writeNer_left _ n e false)
    · split
      · exact hcount.andThen (State.writeNer_left _ n e true)
      · exact hcount

/-- Without `NUM_TRAP` the numeric events of an instruction are recorded and the core works on (R172, R173). -/
theorem State.numEvents_left {s : State} {n : Nat} (htrap : (s.core n).trap = false) (a : EvSum) : CoreLeft s (s.numEvents n a) n (s.core n) := by
  unfold State.numEvents
  cases a.best with
  | none => exact CoreLeft.refl s n
  | some e =>
    simp only [htrap, Bool.false_eq_true, false_and, if_false, State.recordEvents, State.signalFirst]
    have hlatch := State.latchEvents_left s n a
    split
    · exact hlatch.reports (State.event_reports _ _ _ _)
    · exact hlatch

/-- An instruction without events records nothing. -/
@[simp] theorem State.numEvents_none (s : State) (n : Nat) : s.numEvents n EvSum.none = s := rfl

/-! ### Issue -/

/-- Charging an account changes accounts alone. -/
theorem State.charge_frame (s : State) (acct ck : Nat) : s.charge acct ck = { s with accounts := (s.charge acct ck).accounts } := by
  unfold State.charge
  split
  rfl

/-- Charging an account is no work of a core. -/
theorem State.charge_left (s : State) (acct ck n : Nat) : CoreLeft s (s.charge acct ck) n (s.core n) := by
  have hcore (m : Nat) : (s.charge acct ck).core m = s.core m := by
    rw [State.charge_frame]
    rfl
  have hword (j : Nat) : (s.charge acct ck).word j = s.word j := by
    rw [State.charge_frame]
    rfl
  exact ⟨by rw [State.charge_frame]; exact ⟨rfl, rfl⟩, fun m _ => hcore m, by rw [hcore], fun j _ _ => hword j⟩

/-- An epilogue's issue is counted (R211). -/
theorem vecStart_epilogue (s : State) (c w : Nat) :
    vecStart s c true w = s.put Fld.CORE_VEC_EPI_CK_COUNT (s.get Fld.CORE_VEC_EPI_CK_COUNT c + 1) c := by
  simp only [vecStart, if_true, State.count]

/-- An issue of the main context is charged and counted (R211, R415). -/
theorem vecStart_main (s : State) (c w : Nat) :
    vecStart s c false w = (s.charge (2 * c + 1) ((s.core c).vecOccupancy c w)).put Fld.CORE_VEC_ISSUE_CK_COUNT
      ((s.charge (2 * c + 1) ((s.core c).vecOccupancy c w)).get Fld.CORE_VEC_ISSUE_CK_COUNT c + 1) c := by
  simp only [vecStart, Bool.false_eq_true, if_false, State.count]

/-- The count of an issue writes one counter and accounts. -/
theorem vecStart_frame (s : State) (c : Nat) (epi : Bool) (w : Nat) :
    vecStart s c epi w = { s with regs := (vecStart s c epi w).regs, accounts := (vecStart s c epi w).accounts } := by
  cases epi with
  | true => rw [vecStart_epilogue, State.put_frame]
  | false => rw [vecStart_main, State.put_frame, State.charge_frame]

@[simp] theorem vecStart_mem (s : State) (c : Nat) (epi : Bool) (w : Nat) : (vecStart s c epi w).mem = s.mem := by rw [vecStart_frame]
@[simp] theorem vecStart_ecc (s : State) (c : Nat) (epi : Bool) (w : Nat) : (vecStart s c epi w).ecc = s.ecc := by rw [vecStart_frame]
@[simp] theorem vecStart_cores (s : State) (c : Nat) (epi : Bool) (w : Nat) : (vecStart s c epi w).cores = s.cores := by rw [vecStart_frame]
@[simp] theorem vecStart_gangs (s : State) (c : Nat) (epi : Bool) (w : Nat) : (vecStart s c epi w).gangs = s.gangs := by rw [vecStart_frame]
@[simp] theorem vecStart_core (s : State) (c : Nat) (epi : Bool) (w m : Nat) : (vecStart s c epi w).core m = s.core m :=
  State.core_congr (vecStart_cores s c epi w) m

/-- The count of an issue leaves the core as it is. -/
theorem vecStart_left (s : State) (c : Nat) (epi : Bool) (w : Nat) : CoreLeft s (vecStart s c epi w) c (s.core c) := by
  cases epi with
  | true =>
    rw [vecStart_epilogue]
    exact (CoreLeft.refl s c).put (by decide) _
  | false =>
    rw [vecStart_main]
    exact (State.charge_left s _ _ c).put (by decide) _

/-- The count of an issue leaves every register word but its counter alone (R211). -/
theorem vecStart_word (s : State) (c : Nat) (epi : Bool) (w : Nat) {k : Nat} (h : k % 2 ^ 32 < 0x310 ∨ 0x320 ≤ k % 2 ^ 32) :
    (vecStart s c epi w).word k = s.word k := by
  cases epi with
  | true => rw [vecStart_epilogue, State.word_put_ofCore_off _ (by decide) _ _ c 0x318 rfl (by omega)]
  | false =>
    have hcharge : (s.charge (2 * c + 1) ((s.core c).vecOccupancy c w)).word k = s.word k := by
      rw [State.charge_frame]
      rfl
    rw [vecStart_main, State.word_put_ofCore_off _ (by decide) _ _ c 0x310 rfl (by omega), hcharge]

/-- The granule of an address of a unit is one of the unit's. -/
theorem memUnit_bounds {addr u : Nat} (h : memUnit addr = some u) : u < 72 ∧ granOf u addr < 64 := by
  simp only [memUnit] at h
  split at h
  · have hu : addr / 0x400000 = u := by simpa using h
    have hlt : u < 64 := by omega
    simp only [granOf, unitBase, granSize, hlt, if_true]
    omega
  · split at h
    · have hu : 64 + (addr - 0x20000000) / 0x3000000 = u := by simpa using h
      have hge : ¬ u < 64 := by omega
      simp only [granOf, unitBase, granSize, hge, if_false]
      omega
    · cases h

/-- The count of an issue changes no access check. -/
@[simp] theorem vecStart_checkAccess (s : State) (c : Nat) (epi : Bool) (w : Nat) (who : Who) (addr n : Nat) :
    (vecStart s c epi w).checkAccess who addr n = s.checkAccess who addr n := by
  refine State.checkAccess_congr (fun a => State.checkByte_congr (fun u hlt _ => ?_) (fun u hu => ?_) who) addr n
  · have hholes : (vecStart s c epi w).get Fld.CL_CL_STATUS_HOLES (u / 8) = s.get Fld.CL_CL_STATUS_HOLES (u / 8) := by
      rw [State.get_one (by decide), State.get_one (by decide), vecStart_word]
      simp only [Fld.key, regKey, Fld.CL_CL_STATUS_HOLES, Bool.false_eq_true, if_false, if_true]
      omega
    have hstate : (vecStart s c epi w).get Fld.CORE_CORE_STATE_STATE u = s.get Fld.CORE_CORE_STATE_STATE u := by
      rw [State.get_one (by decide), State.get_one (by decide), vecStart_word]
      rw [Fld.ofCore.key (by decide)]
      simp only [Fld.CORE_CORE_STATE_STATE]
      omega
    simp only [State.coreGone, State.isHole, hholes, hstate]
  · obtain ⟨hunit, hgran⟩ := memUnit_bounds hu
    generalize granOf u a = g at hgran ⊢
    simp only [State.gran]
    rw [vecStart_word]
    simp only [granKey]
    split
    · simp only [Fld.key, regKey, Fld.CORE_CM_GRAN_STATE, Nat.reduceEqDiff, Bool.false_eq_true, if_false, if_true]
      omega
    · simp only [Fld.key, regKey, Fld.FLD_SL_GRAN_WORD, Nat.reduceEqDiff, if_false, if_true]
      omega

/-- The count of an issue changes no right of a replay group (R303). -/
@[simp] theorem vecStart_groupMayWrite (s : State) (c : Nat) (epi : Bool) (w n lo hi : Nat) :
    (vecStart s c epi w).groupMayWrite n lo hi = s.groupMayWrite n lo hi := by
  simp only [State.groupMayWrite, State.gang?, vecStart_core, vecStart_gangs]

@[simp] theorem vecStart_coreWho (s : State) (c : Nat) (epi : Bool) (w n unit : Nat) : (vecStart s c epi w).coreWho n unit = s.coreWho n unit := by
  simp only [State.coreWho, vecStart_core]

@[simp] theorem vecStart_vecFlips (s : State) (c : Nat) (epi : Bool) (w n v : Nat) : (vecStart s c epi w).vecFlips n v = s.vecFlips n v := by
  simp only [State.vecFlips, vecStart_core, vecStart_ecc]

/-! ### Running -/

/-- Decode has nothing to do for a vector queue that holds an instruction. -/
theorem State.forVector_of_queue {s : State} {c : Nat} {d : Dec} {q : List Dec} (h : (s.core c).vq = d :: q) : s.forVector c = s := by
  change State.decodeUntil _ c (63 + 1) s = s
  simp [State.decodeUntil, h]

/-- An instruction whose registers hold no error runs at once (R436). -/
theorem State.vecRun_clean {s : State} {n : Nat} {d : Dec} (h : s.vecFlips n d.word = []) (f : State → Nat → Dec → VecOut) :
    s.vecRun n d f = f s n d := by
  simp [State.vecRun, State.vecError, State.vecMend, h]

/-- A finished instruction leaves its context and its events are recorded. -/
theorem State.vecDone_ok (s : State) (n : Nat) (d : Dec) {o : VecOut} (h : o.code = 0) (next : CoreSt → CoreSt) :
    s.vecDone n d o next = (o.state.setCore n (next (o.state.core n))).numEvents n o.ev := by
  simp [State.vecDone, h]

/-- A vector instruction that may issue and ends without fault does its work, leaves its context and reports its events. -/
theorem State.vecRow_done {s : State} {c : Nat} {epi : Bool} {d : Dec} (h : VecReady s c epi d) {p : Nat → Bool} (hp : p d.word = true)
    {f : State → Nat → Dec → VecOut} {o : VecOut} (ho : f (vecStart s c epi d.word) c d = o) (hcode : o.code = 0)
    (hepis : (o.state.core c).epis = (s.core c).epis) :
    s.vecRow c epi p f = .next ((o.state.setCore c (vecNext epi (o.state.core c))).numEvents c o.ev) := by
  have hrun : (vecStart s c epi d.word).vecRun c d f = o := by
    rw [State.vecRun_clean (by simpa using h.clean), ho]
  cases epi with
  | false =>
    obtain ⟨⟨q, hq⟩, hshared, hheld⟩ := h.main rfl
    simp only [vecStart, Bool.false_eq_true, if_false] at hrun
    simp only [State.vecRow, State.vecMain, onUnit, h.core, State.forVector_of_queue hq, hq, hp, hshared, hheld, hrun, State.vecDone_ok _ _ _ hcode,
      vecNext, Bool.false_eq_true, if_false, if_true, Bool.not_true, Bool.or_self]
  | true =>
    obtain ⟨e, q, hq, hstarted, hcodeAt, hseq⟩ := h.epilogue rfl
    have hd : ({ seq := e.seq, word := d.word } : Dec) = d := by rw [← hseq]
    simp only [vecStart, if_true] at hrun
    simp only [State.vecRow, State.vecEpi, onUnit, h.core, hq, hstarted, hcodeAt, hp, hd, hrun, State.vecDone_ok _ _ _ hcode, vecNext, hepis,
      Bool.false_eq_true, if_false, if_true, Bool.not_true]

/-- No epilogue, none to advance. -/
theorem vecNext_idle {k : CoreSt} (h : k.epis = []) : vecNext true k = k := by simp [vecNext, h]

/-- The running epilogue advances. -/
theorem vecNext_running {k : CoreSt} {e : Epi} {r : List Epi} (h : k.epis = e :: r) :
    vecNext true k = { k with epis := { e with ip := e.ip + 1 } :: r } := by simp [vecNext, h]

/-- Leaving a context leaves `NUM_TRAP` as it is. -/
@[simp] theorem vecNext_trap (epi : Bool) (k : CoreSt) : (vecNext epi k).trap = k.trap := by
  unfold vecNext
  split
  · split <;> rfl
  · rfl

/-- Core `k` with other vector registers, predicates and numeric status word. -/
def CoreSt.withRegisters (k : CoreSt) (v : Tbl (BitVec 32)) (p : Tbl Nat) (x : Nat) : CoreSt := { k with vregs := v, preds := p, nsw := x }

/-- Leaving a context leaves the registers as they are. -/
theorem vecNext_withRegisters (epi : Bool) (k : CoreSt) (v : Tbl (BitVec 32)) (p : Tbl Nat) (x : Nat) :
    vecNext epi (k.withRegisters v p x) = (vecNext epi k).withRegisters v p x := by
  cases epi with
  | false => rfl
  | true =>
    obtain h | ⟨e, r, h⟩ : k.epis = [] ∨ ∃ e r, k.epis = e :: r := by cases k.epis <;> simp
    · rw [vecNext_idle h]
      exact vecNext_idle h
    · rw [vecNext_running h]
      exact vecNext_running h

/-- A vector instruction whose work leaves `v` and `q` in the vector registers and predicates of its core ends with them there, in the frame
of a register instruction. -/
theorem State.vecRow_registers {s : State} {c : Nat} {epi : Bool} {d : Dec} (h : VecReady s c epi d) {p : Nat → Bool} (hp : p d.word = true)
    {f : State → Nat → Dec → VecOut} {o : VecOut} (ho : f (vecStart s c epi d.word) c d = o) (hcode : o.code = 0)
    {v : Tbl (BitVec 32)} {q : Tbl Nat} {x : Nat} (hwork : CoreLeft s o.state c ((s.core c).withRegisters v q x)) :
    Answers (s.vecRow c epi p f) fun t => (t.core c).vregs = v ∧ (t.core c).preds = q ∧ VecFrame s t c epi := by
  have hcore : o.state.core c = (s.core c).withRegisters v q (o.state.core c).nsw := hwork.core
  have hepis : (o.state.core c).epis = (s.core c).epis := by
    rw [hcore]
    rfl
  have htrap : (o.state.core c).trap = false := by
    rw [hcore]
    exact h.noTrap
  refine ⟨_, State.vecRow_done h hp ho hcode hepis, ?_⟩
  have hleft := (hwork.setCore (vecNext epi (o.state.core c))).andThen (State.numEvents_left (by simpa using htrap) o.ev)
  generalize (o.state.setCore c (vecNext epi (o.state.core c))).numEvents c o.ev = t at hleft
  rw [hcore, vecNext_withRegisters] at hleft
  have ht : t.core c = (vecNext epi (s.core c)).withRegisters v q (t.core c).nsw := hleft.core
  have hv : (t.core c).vregs = v := by
    rw [ht]
    rfl
  have hq : (t.core c).preds = q := by
    rw [ht]
    rfl
  refine ⟨hv, hq, hleft.mem, hleft.others, ?_, hleft.regs⟩
  rw [hv, hq]
  exact ht

end Sys2Proof.Machine
end

section
/-! SUPPORT. The elements of one instruction, taken line by line (R227), and the settled statement on vector loads and stores. -/

namespace Sys2Proof.Machine

/-! ### The order of an instruction's accesses -/

section
variable {α : Type} (at_ : α → Nat)

/-- The elements of an instruction in the order of its accesses: line by line as they first come, each line's in their own order. -/
def byLine (l : List α) : List α := ((l.map (fun x => at_ x / 64)).eraseDups).flatMap (fun line => l.filter (fun x => at_ x / 64 == line))

/-- Every element has its access. -/
@[simp] theorem mem_byLine {l : List α} {x : α} : x ∈ byLine at_ l ↔ x ∈ l := by
  simp only [byLine, List.mem_flatMap, List.mem_eraseDups, List.mem_map, List.mem_filter, beq_iff_eq]
  exact ⟨fun ⟨_, _, hx, _⟩ => hx, fun hx => ⟨at_ x / 64, ⟨x, hx, rfl⟩, hx, rfl⟩⟩

/-- What is accessed after an element comes after it in the instruction, or is in another line. -/
theorem byLine_split (a : List α) (x : α) (b : List α) :
    ∃ c d, byLine at_ (a ++ x :: b) = c ++ x :: d ∧ ∀ y ∈ d, y ∈ b ∨ (y ∈ a ++ x :: b ∧ at_ y / 64 ≠ at_ x / 64) := by
  have hline : at_ x / 64 ∈ (((a ++ x :: b).map (fun y => at_ y / 64)).eraseDups).reverse := by simp
  obtain ⟨q, p, hsplit, hlast⟩ := List.eq_append_cons_of_mem hline
  have hlines : ((a ++ x :: b).map (fun y => at_ y / 64)).eraseDups = p.reverse ++ at_ x / 64 :: q.reverse := by
    rw [← List.reverse_reverse (List.eraseDups _), hsplit]
    simp
  refine ⟨p.reverse.flatMap (fun line => (a ++ x :: b).filter (fun y => at_ y / 64 == line)) ++ a.filter (fun y => at_ y / 64 == at_ x / 64),
    b.filter (fun y => at_ y / 64 == at_ x / 64) ++ q.reverse.flatMap (fun line => (a ++ x :: b).filter (fun y => at_ y / 64 == line)), ?_, ?_⟩
  · rw [byLine, hlines]
    simp
  · intro y hy
    rcases List.mem_append.mp hy with hb | hq
    · exact .inl (List.mem_filter.mp hb).1
    · obtain ⟨line, hin, hy⟩ := List.mem_flatMap.mp hq
      rw [List.mem_filter, beq_iff_eq] at hy
      refine .inr ⟨hy.1, fun heq => hlast ?_⟩
      rw [← heq, hy.2]
      exact List.mem_reverse.mp hin

end

/-! ### Loads -/

/-- The raw bits that a load of type `et` puts into an element from address `addr` (R121, R122, R194). -/
def State.loadedRaw (s : State) (et addr : Nat) : Nat := etCanon et (leVal (s.bytesAt addr (etSize et)))

/-- Core `n` becomes something else once more. -/
theorem CoreBecomes.setCore {s t : State} {n : Nat} {k : CoreSt} (h : CoreBecomes s t n k) (l : CoreSt) : CoreBecomes s (t.setCore n l) n l := by
  obtain ⟨hrest, _, hothers⟩ := h
  refine ⟨?_, State.core_setCore_self t n l, fun m hm => by rw [State.core_setCore_ne t hm, hothers m hm]⟩
  rw [State.setCore_eq, hrest]

/-- Memory stands where only a core changed. -/
theorem CoreBecomes.bytesAt {s t : State} {n : Nat} {k : CoreSt} (h : CoreBecomes s t n k) (addr m : Nat) : t.bytesAt addr m = s.bytesAt addr m := by
  rw [h.1]
  rfl

/-- Element `e.1` of a load takes what memory holds at address `e.2`; a NaN is an event (R194, R210). -/
def State.loadElem (s : State) (n : Nat) (d : Dec) (o : VecOut) (e : Nat × Nat) : VecOut :=
  let raw := leVal (s.bytesAt e.2 (etSize (vEt d.word)))
  { o with
    state := o.state.setCore n ((o.state.core n).vput (vEt d.word) (vVd d.word) e.1 (etCanon (vEt d.word) raw))
    ev := if (etVal (vEt d.word) raw).isNan then o.ev.add (laneEvent d.seq 0x15 e.1 raw 0) else o.ev }

/-- The elements of one line, in memory without flipped bits, are loaded one after the other. -/
theorem State.loadLine_clean {s : State} (hecc : s.ecc = []) (r : State) (n : Nat) (d : Dec) {o : VecOut} {k : CoreSt}
    (h : CoreBecomes s o.state n k) (els : List (Nat × Nat)) : r.loadLine n d o els = els.foldl (s.loadElem n d) o := by
  have hclean : o.state.ecc = [] := by
    rw [h.1]
    exact hecc
  have hraw (a : Nat) : (List.range (etSize (vEt d.word))).map (fun i => o.state.byteAt (a + i)) = s.bytesAt a (etSize (vEt d.word)) :=
    h.bytesAt a _
  simp only [State.loadLine, State.decodeUnits_clean hclean, State.decodedByte_nil, State.drew_nil, hraw, ne_eq, not_true_eq_false, if_false]
  rfl

/-- Loading elements writes them into their register and ends without fault. -/
theorem State.loadElems_becomes (s : State) (n : Nat) (d : Dec) (els : List (Nat × Nat)) : ∀ {o : VecOut} {k : CoreSt},
    CoreBecomes s o.state n k → o.code = 0 → (els.foldl (s.loadElem n d) o).code = 0 ∧ CoreBecomes s (els.foldl (s.loadElem n d) o).state n
      (k.putLanes (vEt d.word) (vVd d.word) (els.map (fun e => (e.1, s.loadedRaw (vEt d.word) e.2)))) := by
  induction els with
  | nil => exact fun h h0 => ⟨h0, h⟩
  | cons e els ih =>
    intro o k h h0
    have hstep : CoreBecomes s (s.loadElem n d o e).state n (k.vput (vEt d.word) (vVd d.word) e.1 (s.loadedRaw (vEt d.word) e.2)) := by
      rw [← h.2.1]
      exact h.setCore _
    exact ih hstep h0

/-- The lines of a load, in memory without flipped bits, are loaded one after the other. -/
theorem State.loadLines_clean {s : State} (hecc : s.ecc = []) (n : Nat) (d : Dec) (l : List (Nat × Nat)) (lines : List Nat) {o : VecOut}
    {k : CoreSt} (h : CoreBecomes s o.state n k) (h0 : o.code = 0) :
    let r := lines.foldl (fun (o : VecOut) line => if o.code ≠ 0 then o else s.loadLine n d o (l.filter (fun e => e.2 / 64 == line))) o
    r.code = 0 ∧ CoreBecomes s r.state n (k.putLanes (vEt d.word) (vVd d.word)
      ((lines.flatMap (fun line => l.filter (fun e => e.2 / 64 == line))).map (fun e => (e.1, s.loadedRaw (vEt d.word) e.2)))) := by
  induction lines generalizing o k with
  | nil => exact ⟨h0, h⟩
  | cons line lines ih =>
    obtain ⟨hcode, hstate⟩ := State.loadElems_becomes s n d (l.filter (fun e => e.2 / 64 == line)) h h0
    have hstep : (if o.code ≠ 0 then o else s.loadLine n d o (l.filter (fun e => e.2 / 64 == line))) =
        (l.filter (fun e => e.2 / 64 == line)).foldl (s.loadElem n d) o := by
      rw [if_neg (not_not_intro h0), State.loadLine_clean hecc s n d h]
    rw [List.foldl_cons, hstep, List.flatMap_cons, List.map_append, CoreSt.putLanes_append]
    exact ih hstate hcode

/-- The active elements of an instruction, ascending. -/
def CoreSt.activeElems (k : CoreSt) (w : Nat) : List Nat := (List.range (vCount w)).filter (k.active w)

theorem CoreSt.mem_activeElems {k : CoreSt} {w e : Nat} : e ∈ k.activeElems w ↔ e < vCount w ∧ k.active w e = true := by
  simp [CoreSt.activeElems]

/-- The inactive elements below the count with the +0 that `ZM` gives them, or nothing (R183). -/
def CoreSt.zeroedLanes (k : CoreSt) (w : Nat) : List (Nat × Nat) :=
  if vZm w then ((List.range (vCount w)).filter (fun e => !k.active w e)).map (fun e => (e, 0)) else []

/-- The elements that a load writes, in order, each with its raw bits: the zeroed ones, then the active ones line by line. -/
def State.loadLanes (s : State) (k : CoreSt) (w : Nat) : List (Nat × Nat) :=
  k.zeroedLanes w ++ (byLine (·.2) ((k.activeElems w).map (fun e => (e, (elemAddr k w e).toNat)))).map (fun e => (e.1, s.loadedRaw (vEt w) e.2))

/-- A load writes the active elements, each with what memory holds at its address, and the zeroed ones. -/
theorem State.mem_loadLanes {s : State} {k : CoreSt} {w e v : Nat} : (e, v) ∈ s.loadLanes k w ↔
    e < vCount w ∧ (k.active w e = true ∧ v = s.loadedRaw (vEt w) (elemAddr k w e).toNat ∨ vZm w = true ∧ k.active w e = false ∧ v = 0) := by
  have hzero : (e, v) ∈ k.zeroedLanes w ↔ vZm w = true ∧ e < vCount w ∧ k.active w e = false ∧ v = 0 := by
    unfold CoreSt.zeroedLanes
    cases vZm w <;> simp [and_assoc, @eq_comm _ 0 v]
  simp only [State.loadLanes, List.mem_append, hzero, List.mem_map, mem_byLine, CoreSt.mem_activeElems, Prod.mk.injEq]
  constructor
  · rintro (⟨hz, hlt, hoff, hv⟩ | ⟨_, ⟨e', ⟨hlt, hon⟩, rfl⟩, rfl, rfl⟩)
    · exact ⟨hlt, .inr ⟨hz, hoff, hv⟩⟩
    · exact ⟨hlt, .inl ⟨hon, rfl⟩⟩
  · rintro ⟨hlt, ⟨hon, rfl⟩ | ⟨hz, hoff, hv⟩⟩
    · exact .inr ⟨_, ⟨e, ⟨hlt, hon⟩, rfl⟩, rfl, rfl⟩
    · exact .inl ⟨hz, hlt, hoff, hv⟩

/-- Zeroing the inactive elements of an instruction, or leaving them (R183). -/
theorem CoreSt.putLanes_zeroedLanes (k : CoreSt) (w : Nat) : k.putLanes (vEt w) (vVd w) (k.zeroedLanes w) =
    if vZm w then (List.range (vCount w)).foldl (fun l e => if k.active w e then l else l.vput (vEt w) (vVd w) e 0) k else k := by
  unfold CoreSt.putLanes CoreSt.zeroedLanes
  split
  · rw [List.foldl_map, List.foldl_filter]
    congr 1
    funext l e
    cases k.active w e <;> rfl
  · rfl

/-- The work of a load whose elements may all be read, in memory without flipped bits: it writes its lanes and ends without fault. -/
theorem State.vldRow_work (n : Nat) : ∃ f : State → Nat → Dec → VecOut,
    (∀ (s : State) (epi : Bool) (mi : Nat), s.vldRow n epi mi = s.vecRow n epi (isOp 0x35 mi) f) ∧
    ∀ (s : State) (d : Dec), s.ecc = [] →
      (∀ e ∈ (s.core n).activeElems d.word, s.loadCode n (etSize (vEt d.word)) (elemAddr (s.core n) d.word e) = 0) →
      (f s n d).code = 0 ∧
        CoreBecomes s (f s n d).state n ((s.core n).putLanes (vEt d.word) (vVd d.word) (s.loadLanes (s.core n) d.word)) := by
  refine ⟨_, fun s epi mi => rfl, fun s d hecc hread => ?_⟩
  have hgood : (((s.core n).activeElems d.word).map (fun e => (e, elemAddr (s.core n) d.word e))).takeWhile
      (fun e => s.loadCode n (etSize (vEt d.word)) e.2 == 0) =
        ((s.core n).activeElems d.word).map (fun e => (e, elemAddr (s.core n) d.word e)) := by
    rw [List.takeWhile_eq_self_iff]
    intro x hx
    obtain ⟨e, he, rfl⟩ := List.mem_map.mp hx
    simp [hread e he]
  have hstart : CoreBecomes s (s.setCore n ((s.core n).putLanes (vEt d.word) (vVd d.word) ((s.core n).zeroedLanes d.word))) n
      ((s.core n).putLanes (vEt d.word) (vVd d.word) ((s.core n).zeroedLanes d.word)) :=
    CoreBecomes.setCore (k := s.core n) ⟨rfl, rfl, fun _ _ => rfl⟩ _
  obtain ⟨hcode, hstate⟩ := State.loadLines_clean hecc n d (((s.core n).activeElems d.word).map (fun e => (e, (elemAddr (s.core n) d.word e).toNat)))
    ((((s.core n).activeElems d.word).map (fun e => (elemAddr (s.core n) d.word e).toNat / 64)).eraseDups)
    (o := vecOk (s.setCore n ((s.core n).putLanes (vEt d.word) (vVd d.word) ((s.core n).zeroedLanes d.word)))) hstart rfl
  simp only [CoreSt.putLanes_zeroedLanes, CoreSt.activeElems] at hgood hcode hstate
  simp only [hgood, List.drop_length, List.map_map, Function.comp_def, hcode, ne_eq, not_true_eq_false, if_false, true_and]
  rw [State.loadLanes, CoreSt.putLanes_append, CoreSt.putLanes_zeroedLanes]
  simpa only [byLine, CoreSt.activeElems, List.map_map, Function.comp_def] using hstate

/-- A load may read an aligned element that its access check allows (R195). -/
theorem State.loadCode_allowed {s : State} {n size : Nat} {a : Int} (hok : elemAddrOk a size = true)
    (hc : s.checkAccess (s.coreWho n 2) a.toNat size = 0) : s.loadCode n size a = 0 := by
  simp [State.loadCode, hok, hc]

/-- A core that became `k` was left with `k`. -/
theorem CoreBecomes.left {s t : State} {n : Nat} {k : CoreSt} (h : CoreBecomes s t n k) : CoreLeft s t n k := by
  obtain ⟨hrest, hcore, hothers⟩ := h
  refine ⟨?_, hothers, by rw [hcore], fun j _ _ => State.word_congr ?_ j⟩
  · rw [hrest]
    exact ⟨rfl, rfl⟩
  · rw [hrest]

/-- The count of an issue changes nothing that a load reads. -/
@[simp] theorem vecStart_loadLanes (s : State) (c : Nat) (epi : Bool) (w : Nat) (k : CoreSt) (v : Nat) :
    (vecStart s c epi w).loadLanes k v = s.loadLanes k v := by
  simp only [State.loadLanes, State.loadedRaw, State.bytesAt, State.byteAt, vecStart_mem]

/-- Each of the five loads is its address form's minor opcode. -/
theorem exec_vldCommand (s : State) (c : Nat) (epi : Bool) : ∀ {mi : Nat}, mi ≤ 4 → exec (vldCommand c epi mi) s = s.vldRow c epi mi
  | 0, _ => exec_vldUnitStride s c epi
  | 1, _ => exec_vldStrided s c epi
  | 2, _ => exec_vldGather s c epi
  | 3, _ => exec_vldRepeat s c epi
  | 4, _ => exec_vldBroadcast s c epi

/-- A load whose active elements may all be read leaves its lanes in the vector registers, in the frame of a register instruction. -/
theorem State.vldRow_loads {s : State} {c : Nat} {epi : Bool} {d : Dec} {mi : Nat} (h : VecReady s c epi d) (hop : isOp 0x35 mi d.word = true)
    (hecc : s.ecc = []) (hread : ∀ e ∈ (s.core c).activeElems d.word, elemAddrOk (elemAddr (s.core c) d.word e) (etSize (vEt d.word)) = true ∧
      s.checkAccess (s.coreWho c 2) (elemAddr (s.core c) d.word e).toNat (etSize (vEt d.word)) = 0) :
    Answers (s.vldRow c epi mi) fun t =>
      (t.core c).vregs = ((s.core c).putLanes (vEt d.word) (vVd d.word) (s.loadLanes (s.core c) d.word)).vregs ∧
      (t.core c).preds = (s.core c).preds ∧ VecFrame s t c epi := by
  obtain ⟨f, hf, hwork⟩ := State.vldRow_work c
  obtain ⟨hcode, hbecomes⟩ := hwork (vecStart s c epi d.word) d (by simpa using hecc) (fun e he => by
    rw [vecStart_core] at he ⊢
    obtain ⟨hok, hc⟩ := hread e he
    exact State.loadCode_allowed hok (by simpa using hc))
  have hleft := (vecStart_left s c epi d.word).trans hbecomes.left
  rw [vecStart_core, vecStart_loadLanes, CoreSt.putLanes_frame] at hleft
  rw [hf]
  exact State.vecRow_registers h hop rfl hcode (x := (s.core c).nsw) hleft

/-- Every load puts each active element's value into its lane and leaves memory as it is (R194, R195). -/
theorem loads_read_their_elements : LoadsReadTheirElements := by
  intro s c epi d mi h hmi hop hecc hread
  obtain ⟨t, ht, hv, hp, hframe⟩ := State.vldRow_loads h hop hecc
    (fun e he => hread e (CoreSt.mem_activeElems.mp he).1 (CoreSt.mem_activeElems.mp he).2)
  rw [exec_vldCommand s c epi hmi]
  refine ⟨t, ht, fun e hlt hon => ?_, fun e hlt hoff => ?_, fun r hr i hi => ?_, hp, hframe⟩
  · have hlane : (e, s.loadedRaw (vEt d.word) (elemAddr (s.core c) d.word e).toNat) ∈ s.loadLanes (s.core c) d.word :=
      State.mem_loadLanes.mpr ⟨hlt, .inl ⟨hon, rfl⟩⟩
    have honly : ∀ x ∈ s.loadLanes (s.core c) d.word, x.1 = e → x.2 = s.loadedRaw (vEt d.word) (elemAddr (s.core c) d.word e).toNat := by
      rintro ⟨f, v⟩ hx rfl
      obtain ⟨_, ⟨_, hval⟩ | ⟨_, hoff, _⟩⟩ := State.mem_loadLanes.mp hx
      · exact hval
      · simp [hon] at hoff
    rw [LaneIs, CoreSt.vget_congr hv, CoreSt.vget_putLanes _ _ _ hlane honly]
    rfl
  · rw [CoreSt.vget_congr hv]
    cases hz : vZm d.word with
    | true =>
      have hlane : (e, 0) ∈ s.loadLanes (s.core c) d.word := State.mem_loadLanes.mpr ⟨hlt, .inr ⟨hz, hoff, rfl⟩⟩
      have honly : ∀ x ∈ s.loadLanes (s.core c) d.word, x.1 = e → x.2 = 0 := by
        rintro ⟨f, v⟩ hx rfl
        obtain ⟨_, ⟨hon, _⟩ | ⟨_, _, hval⟩⟩ := State.mem_loadLanes.mp hx
        · simp [hoff] at hon
        · exact hval
      rw [CoreSt.vget_putLanes _ _ _ hlane honly]
      simp
    | false =>
      refine CoreSt.vget_putLanes_other _ _ _ ?_
      rintro ⟨f, v⟩ hx rfl
      obtain ⟨_, ⟨hon, _⟩ | ⟨hzero, _⟩⟩ := State.mem_loadLanes.mp hx
      · simp [hoff] at hon
      · simp [hz] at hzero
  · rw [CoreSt.vword_congr hv]
    refine CoreSt.vword_putLanes_other _ _ (by simpa using hr) hi ?_
    rintro ⟨f, v⟩ hx
    exact lt_of_lt_of_le (State.mem_loadLanes.mp hx).1 h.count

/-! ### Stores -/

/-- Runs of bytes entered in a memory one after the other, each given with its address. -/
def putRuns (l : List (Nat × Bytes)) (m : Tbl Byte) : Tbl Byte := l.foldl (fun m e => putRun e.1 e.2 m) m

theorem putRuns_append (a b : List (Nat × Bytes)) (m : Tbl Byte) : putRuns (a ++ b) m = putRuns b (putRuns a m) := List.foldl_append

/-- A byte that no run covers stands. -/
theorem tget_putRuns_outside {l : List (Nat × Bytes)} {a : Nat} (h : ∀ x ∈ l, a < x.1 ∨ x.1 + x.2.length ≤ a) (m : Tbl Byte) :
    tget blankByte a (putRuns l m) = tget blankByte a m := by
  induction l generalizing m with
  | nil => rfl
  | cons x l ih =>
    rw [List.forall_mem_cons] at h
    change tget blankByte a (putRuns l (putRun x.1 x.2 m)) = _
    rw [ih h.2, tget_putRun, if_neg (by omega)]

/-- A run that no later one meets is read as it was entered. -/
theorem tget_putRuns_inside {a b : List (Nat × Bytes)} {x : Nat × Bytes} {i : Nat} (hi : i < x.2.length)
    (h : ∀ y ∈ b, y.1 + y.2.length ≤ x.1 ∨ x.1 + x.2.length ≤ y.1) (m : Tbl Byte) :
    tget blankByte (x.1 + i) (putRuns (a ++ x :: b) m) = x.2.getD i 0 := by
  rw [putRuns_append]
  change tget blankByte (x.1 + i) (putRuns b (putRun x.1 x.2 (putRuns a m))) = _
  rw [tget_putRuns_outside (fun y hy => by have := h y hy; omega), tget_putRun, if_pos (by omega), Nat.add_sub_cancel_left]

/-- Storing runs of bytes one after the other. -/
theorem State.storeRuns_eq (l : List (Nat × Bytes)) (s : State) :
    l.foldl (fun s e => s.storeBytes e.1 e.2) s = { s with mem := putRuns l s.mem } := by
  induction l generalizing s with
  | nil => rfl
  | cons x l ih =>
    rw [List.foldl_cons, ih, State.storeBytes_eq]
    rfl

/-- The elements of one line, in memory without flipped bits, are stored one after the other. -/
theorem State.putLine_clean {s : State} (h : s.ecc = []) (n unit line : Nat) (els : List (Nat × Bytes)) :
    ∃ fx, s.putLine n unit line els = ({ s with mem := putRuns (els.filter (fun e => e.1 / 64 == line)) s.mem, fixups := fx }, 0) := by
  simp only [State.putLine, State.openUnits_clean h, State.storeRuns_eq, ne_eq, not_true_eq_false, if_false]
  exact ⟨_, rfl⟩

/-- The elements of some lines, in memory without flipped bits, are stored line by line. -/
theorem State.putLines_clean (n unit : Nat) (els : List (Nat × Bytes)) (lines : List Nat) : ∀ {s : State}, s.ecc = [] →
    ∃ fx, lines.foldl (fun (a : State × Nat) line => if a.2 ≠ 0 then a else a.1.putLine n unit line els) (s, 0) =
      ({ s with mem := putRuns (lines.flatMap (fun line => els.filter (fun e => e.1 / 64 == line))) s.mem, fixups := fx }, 0) := by
  induction lines with
  | nil => exact fun {s} _ => ⟨s.fixups, rfl⟩
  | cons line lines ih =>
    intro s h
    obtain ⟨fx, hline⟩ := State.putLine_clean h n unit line els
    simp only [List.foldl_cons, ne_eq, not_true_eq_false, if_false, hline, List.flatMap_cons, putRuns_append] at ih ⊢
    exact ih h

/-- Elements that may all be written, in memory without flipped bits, are stored line by line, and nothing else changes but which units
wait to be written back. -/
theorem State.putElems_clean {s : State} (h : s.ecc = []) (n unit align : Nat) {els : List (Int × Bytes)}
    (hwrite : ∀ e ∈ els, s.elemCode n unit align e = 0) :
    ∃ fx, s.putElems n unit align els =
      ({ s with mem := putRuns (byLine (·.1) (els.map (fun e => (e.1.toNat, e.2)))) s.mem, fixups := fx }, 0) := by
  have hgood : els.takeWhile (fun e => s.elemCode n unit align e == 0) = els := by
    rw [List.takeWhile_eq_self_iff]
    exact fun e he => by simp [hwrite e he]
  obtain ⟨fx, hlines⟩ := State.putLines_clean n unit (els.map (fun e => (e.1.toNat, e.2)))
    (((els.map (fun e => (e.1.toNat, e.2))).map (fun e => e.1 / 64)).eraseDups) h
  refine ⟨fx, ?_⟩
  simp only [State.putElems, hgood, List.drop_length, hlines, byLine, ne_eq, not_true_eq_false, if_false]

/-- An element may be written that is aligned, in a memory, within its core's rights and allowed by its access check (R195, R303). -/
theorem State.elemCode_allowed {s : State} {n unit align : Nat} {a : Int} {b : Bytes} (hok : elemAddrOk a align = true) (hlen : b.length = align)
    (hc : s.checkAccess (s.coreWho n unit) a.toNat align = 0) (hgroup : s.groupMayWrite n a.toNat (a.toNat + align) = true) :
    s.elemCode n unit align (a, b) = 0 := by
  simp only [elemAddrOk, Bool.and_eq_true, decide_eq_true_eq, beq_iff_eq] at hok
  obtain ⟨⟨hpos, halign⟩, hmem⟩ := hok
  simp [State.elemCode, hlen, halign, hmem, hgroup, hc, Int.not_lt.mpr hpos]

@[simp] theorem length_leBytes (n v : Nat) : (leBytes n v).length = n := by
  induction n generalizing v with
  | zero => rfl
  | succ n ih => simp [leBytes, ih]

/-- What a store writes for element `e`: its address and its bytes (R194). -/
def CoreSt.storedElem (k : CoreSt) (w e : Nat) : Nat × Bytes :=
  ((elemAddr k w e).toNat, leBytes (etSize (vEt w)) (etCanon (vEt w) (k.vget (vEt w) (vVa w) e)))

/-- What a store writes, element by element in rising order. -/
def CoreSt.storedElems (k : CoreSt) (w : Nat) : List (Nat × Bytes) := (k.activeElems w).map (k.storedElem w)

/-- Each of the three stores is its address form's minor opcode. -/
theorem exec_vstCommand (s : State) (c : Nat) (epi : Bool) : ∀ {mi : Nat}, mi ≤ 2 → exec (vstCommand c epi mi) s = s.vstRow c epi mi
  | 0, _ => exec_vstUnitStride s c epi
  | 1, _ => exec_vstStrided s c epi
  | 2, _ => exec_vstScatter s c epi

/-- A store whose active elements may all be written stores them line by line; of its core only the queue changes. -/
theorem State.vstRow_stores {s : State} {c : Nat} {epi : Bool} {d : Dec} {mi : Nat} (h : VecReady s c epi d) (hop : isOp 0x36 mi d.word = true)
    (hecc : s.ecc = []) (hwrite : ∀ e ∈ (s.core c).activeElems d.word, elemAddrOk (elemAddr (s.core c) d.word e) (etSize (vEt d.word)) = true ∧
      s.checkAccess (s.coreWho c 2) (elemAddr (s.core c) d.word e).toNat (etSize (vEt d.word)) = 0 ∧
      s.groupMayWrite c (elemAddr (s.core c) d.word e).toNat ((elemAddr (s.core c) d.word e).toNat + etSize (vEt d.word)) = true) :
    Answers (s.vstRow c epi mi) fun t =>
      t.mem = putRuns (byLine (·.1) ((s.core c).storedElems d.word)) s.mem ∧ t.core c = vecNext epi (s.core c) ∧
      ∀ m, m ≠ c → t.core m = s.core m := by
  obtain ⟨fx, hput⟩ := State.putElems_clean (s := vecStart s c epi d.word) (by simpa using hecc) c 2 (etSize (vEt d.word))
    (els := ((s.core c).activeElems d.word).map (fun e => (elemAddr (s.core c) d.word e,
      leBytes (etSize (vEt d.word)) (etCanon (vEt d.word) ((s.core c).vget (vEt d.word) (vVa d.word) e))))) (fun x hx => by
    obtain ⟨e, he, rfl⟩ := List.mem_map.mp hx
    obtain ⟨hok, hc, hgroup⟩ := hwrite e he
    exact State.elemCode_allowed hok (length_leBytes _ _) (by simpa using hc) (by simpa using hgroup))
  rw [List.map_map] at hput
  have hcore (m : Nat) : (vecStart s c epi d.word).core m = s.core m := vecStart_core s c epi d.word m
  refine ⟨_, State.vecRow_done h hop (o := ⟨{ vecStart s c epi d.word with
    mem := putRuns (byLine (·.1) ((s.core c).storedElems d.word)) (vecStart s c epi d.word).mem, fixups := fx }, EvSum.none, 0⟩) ?_ rfl
    (congrArg CoreSt.epis (hcore c)), ?_, ?_, fun m hm => ?_⟩
  · dsimp only
    rw [hcore]
    simp only [CoreSt.activeElems] at hput
    rw [hput]
    rfl
  · simp
  · simp only [State.numEvents_none, State.core_setCore_self]
    exact congrArg (vecNext epi) (hcore c)
  · simp only [State.numEvents_none, State.core_setCore_ne _ hm]
    exact hcore m

/-- The active elements of an instruction come in rising order. -/
theorem CoreSt.activeElems_rising (k : CoreSt) (w : Nat) : (k.activeElems w).Pairwise (· < ·) := List.pairwise_lt_range.filter _

/-- Elements of a size that divides a line lie in one line each, so aligned elements of two lines are apart (R194, R227). -/
theorem aligned_apart {et a b : Nat} (ha : a % etSize et = 0) (hb : b % etSize et = 0) (h : a / 64 ≠ b / 64) :
    a + etSize et ≤ b ∨ b + etSize et ≤ a := by
  obtain hsize | hsize : etSize et = 2 ∨ etSize et = 4 := by
    unfold etSize
    split <;> simp
  · rw [hsize] at ha hb ⊢
    omega
  · rw [hsize] at ha hb ⊢
    omega

/-- The bytes of memory that a table lists. -/
theorem State.byteAt_of_mem {t : State} {m : Tbl Byte} (h : t.mem = m) (a : Nat) : t.byteAt a = tget blankByte a m := by
  rw [State.byteAt, h]

/-- A stored element that no later element of its store meets is read as it was stored. -/
theorem CoreSt.storedElems_read {k : CoreSt} {w e : Nat} (he : e ∈ k.activeElems w)
    (halign : ∀ f ∈ k.activeElems w, (elemAddr k w f).toNat % etSize (vEt w) = 0)
    (hlater : ∀ f ∈ k.activeElems w, e < f → (elemAddr k w f).toNat + etSize (vEt w) ≤ (elemAddr k w e).toNat ∨
      (elemAddr k w e).toNat + etSize (vEt w) ≤ (elemAddr k w f).toNat)
    {t : State} {m : Tbl Byte} (ht : t.mem = putRuns (byLine (·.1) (k.storedElems w)) m) :
    t.bytesAt (elemAddr k w e).toNat (etSize (vEt w)) = leBytes (etSize (vEt w)) (etCanon (vEt w) (k.vget (vEt w) (vVa w) e)) := by
  obtain ⟨a, b, hsplit⟩ := List.append_of_mem he
  have hrising := k.activeElems_rising w
  rw [hsplit, List.pairwise_append] at hrising
  have hafter : ∀ f ∈ b, e < f := (List.pairwise_cons.mp hrising.2.1).1
  have hstored : k.storedElems w = a.map (k.storedElem w) ++ k.storedElem w e :: b.map (k.storedElem w) := by
    rw [CoreSt.storedElems, hsplit, List.map_append, List.map_cons]
  obtain ⟨c, d, horder, hd⟩ := byLine_split (fun x : Nat × Bytes => x.1) (a.map (k.storedElem w)) (k.storedElem w e) (b.map (k.storedElem w))
  rw [← hstored] at horder hd
  have hapart : ∀ y ∈ d, y.1 + y.2.length ≤ (k.storedElem w e).1 ∨ (k.storedElem w e).1 + (k.storedElem w e).2.length ≤ y.1 := by
    intro y hy
    rcases hd y hy with hb | ⟨hin, hline⟩
    · obtain ⟨f, hf, rfl⟩ := List.mem_map.mp hb
      simpa [CoreSt.storedElem] using hlater f (by simp [hsplit, hf]) (hafter f hf)
    · obtain ⟨f, hf, rfl⟩ := List.mem_map.mp hin
      simpa [CoreSt.storedElem] using aligned_apart (halign f hf) (halign e he) hline
  apply List.ext_getElem (by simp)
  intro i hi hlen
  rw [horder] at ht
  simp only [State.bytesAt, List.getElem_map, List.getElem_range, State.byteAt_of_mem ht]
  rw [← List.getD_eq_getElem _ 0 hlen]
  exact tget_putRuns_inside hlen hapart m

/-- Every store writes each active element's bytes at its address, and no byte elsewhere (R194, R195). -/
theorem stores_write_their_elements_only : StoresWriteTheirElementsOnly := by
  intro s c epi d mi h hmi hop hecc w k size at_ hwrite
  obtain ⟨t, ht, hmem, hcore, hothers⟩ := State.vstRow_stores h hop hecc
    (fun e he => hwrite e (CoreSt.mem_activeElems.mp he).1 (CoreSt.mem_activeElems.mp he).2)
  rw [exec_vstCommand s c epi hmi]
  refine ⟨t, ht, fun e hlt hon hlater => ?_, fun a hout => ?_, hcore, hothers⟩
  · have halign : ∀ f ∈ k.activeElems w, at_ f % size = 0 := by
      intro f hf
      obtain ⟨hok, _⟩ := hwrite f (CoreSt.mem_activeElems.mp hf).1 (CoreSt.mem_activeElems.mp hf).2
      simp only [elemAddrOk, Bool.and_eq_true, beq_iff_eq] at hok
      exact hok.1.2
    exact CoreSt.storedElems_read (CoreSt.mem_activeElems.mpr ⟨hlt, hon⟩) halign
      (fun f hf hef => hlater f hef (CoreSt.mem_activeElems.mp hf).1 (CoreSt.mem_activeElems.mp hf).2) hmem
  · rw [State.byteAt_of_mem hmem]
    refine tget_putRuns_outside (fun x hx => ?_) s.mem
    obtain ⟨e, he, rfl⟩ := List.mem_map.mp ((mem_byLine _).mp hx)
    simpa only [CoreSt.storedElem, length_leBytes] using hout e (CoreSt.mem_activeElems.mp he).1 (CoreSt.mem_activeElems.mp he).2

/-- Settles O35: a load writes its lanes, a store its runs of bytes, each line by line, and what an element's lane or bytes hold then
depends on the elements that meet it alone. -/
theorem vectorMemoryMovesActiveElements : Obligations.VectorMemoryMovesActiveElements :=
  ⟨loads_read_their_elements, stores_write_their_elements_only⟩

end Sys2Proof.Machine
end

section
/-! SUPPORT. Every step keeps memory and the registers in canonical form (assumption 11). Only the few writes below change a table;
every other operation is built from them, and its lemma says so in the shape of the operation itself: `h.put.event` is the proof for a
field write and the event that follows it. -/

namespace Sys2Proof.Machine

variable {s t : State}

/-! ### The writes of a table -/

/-- Canonical form is a matter of memory and the registers alone: the other fields may take any value. -/
theorem State.Canonical.same (h : s.Canonical)
    {pending staged ctl free ckFrac station bootNonce fuses irq evq hostMsgs mods reqs nextTag waiting pathDrops ecc fixups lastCe
     patrolFrom cores held touched gangs nextGang frames pages tables tlbs walkCache walks zeroing condemned moves nextMove moveLast
     chains stages queues items records classLast cadastre domWait laneBad modBad roled lateTags holds routeUp phi allowance shareW
     tight boostRun coolRun opMaxRun powers rails opTarget episodes epiUnread accounts memBudget linkBudget vcoreSet vsramSet vsramDue
     avs qspi svyMem svyCode svyTimes svyCause kickedAt chal refusals quoteDraft maAccess poolKept keySlot aon boot trims tap : _} :
    State.Canonical { s with
      pending, staged, ctl, free, ckFrac, station, bootNonce, fuses, irq, evq, hostMsgs, mods, reqs, nextTag,
      waiting, pathDrops, ecc, fixups, lastCe, patrolFrom, cores, held, touched, gangs, nextGang, frames, pages, tables, tlbs,
      walkCache, walks, zeroing, condemned, moves, nextMove, moveLast, chains, stages, queues, items, records, classLast, cadastre,
      domWait, laneBad, modBad, roled, lateTags, holds, routeUp, phi, allowance, shareW, tight, boostRun, coolRun, opMaxRun, powers,
      rails, opTarget, episodes, epiUnread, accounts, memBudget, linkBudget, vcoreSet, vsramSet, vsramDue, avs, qspi, svyMem, svyCode,
      svyTimes, svyCause, kickedAt, chal, refusals, quoteDraft, maAccess, poolKept, keySlot, aon, boot, trims, tap } := h

/-- A word write enters one key of the register table. -/
theorem State.Canonical.setWord (h : s.Canonical) {k : Nat} {v : BitVec 32} : (s.setWord k v).Canonical := by
  obtain ⟨hmem, hregs⟩ := h
  exact ⟨hmem, twf_tset _ _ _ hregs⟩

/-- Storing bytes enters a run of keys in memory. -/
theorem State.Canonical.storeBytes (h : s.Canonical) {addr : Nat} {b : Bytes} : (s.storeBytes addr b).Canonical := by
  obtain ⟨hmem, hregs⟩ := h
  exact ⟨State.storeBytes_wf addr b hmem, hregs⟩

/-- A new memory in canonical form beside the old registers. -/
theorem State.Canonical.newMem (h : s.Canonical) (hmem : Memory.wf t.mem = true) (hregs : t.regs = s.regs := by rfl) : t.Canonical := by
  unfold State.Canonical
  rw [hregs]
  exact ⟨hmem, h.2⟩

/-- A table that lists nothing is in canonical form. -/
theorem State.Canonical.empty (hmem : t.mem = []) (hregs : t.regs = []) : t.Canonical := by
  unfold State.Canonical
  rw [hmem, hregs]
  exact ⟨rfl, rfl⟩

/-! ### Branches, folds and answers -/

theorem State.Canonical.ite {c : Prop} [Decidable c] (hs : s.Canonical) (ht : t.Canonical) : (if c then s else t).Canonical := by
  split
  · exact hs
  · exact ht

/-- A branch whose answer carries a state in its part `π`. -/
theorem State.Canonical.ite_of {σ : Type} (π : σ → State) {c : Prop} [Decidable c] {a b : σ} (ha : (π a).Canonical) (hb : (π
    b).Canonical) :
    (π (if c then a else b)).Canonical := by
  split
  · exact ha
  · exact hb

/-- A fold whose accumulator carries a state in its part `π`. -/
theorem State.Canonical.foldl_of {σ α : Type} (π : σ → State) {f : σ → α → σ} {l : List α} {a : σ} (ha : (π a).Canonical)
    (hf : ∀ {a x}, (π a).Canonical → (π (f a x)).Canonical) : (π (l.foldl f a)).Canonical := by
  induction l generalizing a with
  | nil => exact ha
  | cons x l ih => exact ih (hf ha)

theorem State.Canonical.foldl {α : Type} {f : State → α → State} {l : List α} (h : s.Canonical)
    (hf : ∀ {s x}, s.Canonical → (f s x).Canonical) : (l.foldl f s).Canonical := .foldl_of id h hf

/-- The state that a case distinction names is the one that was computed. -/
theorem State.Canonical.of_eq {β : Type} {p : State × β} {x : β} (h : p.1.Canonical) (e : p = (t, x)) : t.Canonical := by
  subst e
  exact h

/-- Where the command answers a next state, that state is in canonical form. -/
def Keeps (r : Res) : Prop := ∀ t, r = .next t → t.Canonical

theorem State.Canonical.next (h : s.Canonical) : Keeps (.next s) := by
  rintro t ⟨⟩
  exact h

theorem Keeps.fault (r : Fault) : Keeps (.fault r) := by rintro t ⟨⟩

theorem Keeps.ite {c : Prop} [Decidable c] {a b : Res} (ha : Keeps a) (hb : Keeps b) : Keeps (if c then a else b) := by
  split
  · exact ha
  · exact hb

theorem Keeps.onUnit {kind : String} {n i : Nat} {r : Res} (h : Keeps r) : Keeps (onUnit kind n i r) := .ite h (.fault _)

/-- The effects of the registers that have one of their own keep the form. -/
def RegAct.Keeps (act : RegAct) : Prop :=
  ∀ {s t : State} {a : Acc} {page inst off v : Nat}, s.Canonical → act s a page inst off v = some t → t.Canonical

/-- The tables are in canonical form at reset. -/
theorem State.reset_canonical : State.reset.Canonical := by
  refine ⟨State.reset_wf, ?_⟩
  decide

/-! ### Ops -/

theorem State.Canonical.put (h : s.Canonical) {f : Fld} {v i e : Nat} : (s.put f v i e).Canonical := by
  unfold State.put
  exact .ite h.setWord h.setWord.setWord

theorem State.Canonical.bump (h : s.Canonical) {f : Fld} {n i e : Nat} : (s.bump f n i e).Canonical := by
  unfold State.bump
  exact h.put

theorem State.Canonical.count (h : s.Canonical) {f : Fld} {n i e : Nat} : (s.count f n i e).Canonical := by
  unfold State.count
  exact h.put

theorem State.Canonical.putBytes (h : s.Canonical) {f : Fld} {i e : Nat} {b : Bytes} : (s.putBytes f i e b).Canonical := by
  unfold State.putBytes
  exact .foldl h fun h => h.put

theorem State.Canonical.stamp (h : s.Canonical) : s.stamp.Canonical := by
  unfold State.stamp
  exact h.same

theorem State.Canonical.receive (h : s.Canonical) {v : Nat} : (s.receive v).Canonical := by
  unfold State.receive
  exact h.same

theorem State.Canonical.setMod (h : s.Canonical) {m : Nat} {x : ModSt} : (s.setMod m x).Canonical := by
  unfold State.setMod
  exact h.same

theorem State.Canonical.flushWaiting (h : s.Canonical) : s.flushWaiting.Canonical := by
  unfold State.flushWaiting
  extract_lets step r __src
  have hr : r.1.Canonical := by
    unfold r
    refine .foldl_of Prod.fst h.same fun h => .ite_of Prod.fst h ?_
    split
    · exact h
    · exact h.setMod
  have h__src : __src.Canonical := hr
  exact h__src.same

theorem State.Canonical.markSent (h : s.Canonical) {l : List Packet} : (s.markSent l).Canonical := by
  unfold State.markSent
  exact h.same

theorem State.Canonical.sendOn (h : s.Canonical) {p : Packet} : (s.sendOn p).Canonical := by
  unfold State.sendOn
  exact .ite h.same.flushWaiting (.ite h.same h)

theorem State.Canonical.send (h : s.Canonical) {p : Packet} : (s.send p).Canonical := by
  unfold State.send
  exact h.sendOn

theorem State.Canonical.sendVia (h : s.Canonical) {m : Nat} {p : Packet} : (s.sendVia m p).Canonical := by
  unfold State.sendVia
  exact h.setMod

theorem State.Canonical.freshTag (h : s.Canonical) : s.freshTag.1.Canonical := by
  unfold State.freshTag
  exact h.same

theorem State.Canonical.request (h : s.Canonical) {p : Packet} {o : ReqOwner} : (s.request p o).Canonical := by
  unfold State.request
  exact .ite h.same.sendOn h.same.sendOn.markSent

theorem State.Canonical.putNote (h : s.Canonical) {n : Note} : (s.putNote n).1.Canonical := by
  unfold State.putNote
  extract_lets s1 raw wp full s2 s3 s4 s5
  have hs1 : s1.Canonical := h.stamp
  have hs2 : s2.Canonical := .ite hs1.count.bump hs1
  have hs3 : s3.Canonical := hs2.putBytes
  have hs4 : s4.Canonical := hs3.count
  have hs5 : s5.Canonical := .ite hs4.send hs4
  exact hs5

theorem State.Canonical.waitEvent (h : s.Canonical) {r : EvRec} : (s.waitEvent r).Canonical := by
  unfold State.waitEvent
  exact .ite h.same h.bump

theorem State.Canonical.raiseIrq (h : s.Canonical) {page : Nat} : (s.raiseIrq page).Canonical := by
  unfold State.raiseIrq
  exact .ite h h.same

theorem State.Canonical.signalPlain (h : s.Canonical) {page inst dest : Nat} : (s.signalPlain page inst dest).Canonical := by
  unfold State.signalPlain
  extract_lets s1 s2
  have hs1 : s1.Canonical := .ite h.waitEvent h
  have hs2 : s2.Canonical := .ite hs1.raiseIrq hs1
  exact .ite hs2.same hs2

theorem State.Canonical.orEvent (h : s.Canonical) {page bits : Nat} : (s.orEvent page bits).1.Canonical := by
  unfold State.orEvent
  exact h.setWord

theorem State.Canonical.noteOnly (h : s.Canonical) {n : Note} : (s.noteOnly n).Canonical := by
  unfold State.noteOnly
  exact .ite h.putNote.orEvent h.putNote

theorem State.Canonical.noteLost (h : s.Canonical) : s.noteLost.Canonical := by
  unfold State.noteLost
  exact .ite (.ite h.orEvent.signalPlain.noteOnly h.orEvent.signalPlain) h.orEvent

theorem State.Canonical.note (h : s.Canonical) {n : Note} : (s.note n).Canonical := by
  unfold State.note
  exact .ite h.putNote.noteLost h.putNote

theorem State.Canonical.signal (h : s.Canonical) {page inst dest : Nat} : (s.signal page inst dest).Canonical := by
  unfold State.signal
  exact .ite h.signalPlain.note h.signalPlain

theorem State.Canonical.raise (h : s.Canonical) {page bits inst : Nat} : (s.raise page bits inst).Canonical := by
  unfold State.raise
  exact .ite (State.Canonical.ite h.orEvent.signal h.orEvent).signal (.ite h.orEvent.signal h.orEvent)

theorem State.Canonical.event (h : s.Canonical) {f : Fld} {u inst : Nat} : (s.event f u inst).Canonical := by
  unfold State.event
  exact h.raise

theorem State.Canonical.charge (h : s.Canonical) {acct ck : Nat} : (s.charge acct ck).Canonical := by
  unfold State.charge
  exact h.same

/-! ### Power -/

theorem State.Canonical.putEpisode (h : s.Canonical) {r : Nat} {e : Episode} : (s.putEpisode r e).Canonical := by
  unfold State.putEpisode
  exact .ite h.putBytes.count.same.bump.event h.putBytes.count.same

theorem State.Canonical.endReason (h : s.Canonical) {r : Nat} : (s.endReason r).Canonical := by
  unfold State.endReason
  extract_lets s1
  have hs1 : s1.Canonical := h.put
  split
  · exact hs1
  · exact .ite hs1.same.putEpisode hs1.same

theorem State.Canonical.onReason (h : s.Canonical) {r detail peak : Nat} : (s.onReason r detail peak).Canonical := by
  unfold State.onReason
  exact .ite h.same h.put.same

theorem State.Canonical.trackEpisodes (h : s.Canonical) : s.trackEpisodes.Canonical := by
  unfold State.trackEpisodes
  exact h.same

theorem State.Canonical.reasons (h : s.Canonical) {l : List (Nat × Bool × Nat × Nat)} : (s.reasons l).Canonical := by
  unfold State.reasons
  extract_lets ended begun s1 s2
  have hs1 : s1.Canonical := .foldl h fun h => h.endReason
  have hs2 : s2.Canonical := .foldl hs1 fun h => .ite h.onReason h
  exact .ite hs2 hs2.raise

theorem State.Canonical.railStep (h : s.Canonical) {r : Nat} : (s.railStep r).Canonical := by
  unfold State.railStep
  exact .ite h.put (.ite h.put h)

theorem State.Canonical.railMicro (h : s.Canonical) {r : Nat} : (s.railMicro r).Canonical := by
  unfold State.railMicro
  exact .ite (.ite h.put.put.bump.event h.put.put.bump) h.put.put

theorem State.Canonical.keepCool (h : s.Canonical) : s.keepCool.Canonical := by
  unfold State.keepCool
  exact h.same

theorem State.Canonical.avsWrite (h : s.Canonical) {rail mv : Nat} : (s.avsWrite rail mv).Canonical := by
  unfold State.avsWrite
  exact .ite h.same h.same

theorem State.Canonical.vsramFollows (h : s.Canonical) {rail mv : Nat} : (s.vsramFollows rail mv).Canonical := by
  unfold State.vsramFollows
  split
  · exact .ite h.same.avsWrite h
  · exact h

theorem State.Canonical.railSample (h : s.Canonical) {rail milliVolt current : Nat} :
    (s.railSample rail milliVolt current).Canonical := by
  unfold State.railSample
  exact .ite h.put.vsramFollows.same h.put.vsramFollows.same.railMicro.railStep.reasons.keepCool

theorem State.Canonical.execIssueFractionUpdate (h : s.Canonical) {demand : Nat} : Keeps (execIssueFractionUpdate demand s) := by
  unfold Machine.execIssueFractionUpdate
  exact (State.Canonical.ite h.count.same h).same.reasons.next

theorem State.Canonical.askVcore (h : s.Canonical) {mv : Nat} : (s.askVcore mv).Canonical := by
  unfold State.askVcore
  exact .ite h.same.avsWrite.avsWrite h.same.avsWrite

theorem State.Canonical.runAt (h : s.Canonical) {op : Nat} : (s.runAt op).Canonical := by
  unfold State.runAt
  exact h.put.put.askVcore

theorem State.Canonical.moveTo (h : s.Canonical) {op : Nat} : (s.moveTo op).Canonical := by
  unfold State.moveTo
  exact .ite h.same.runAt h.same.askVcore

theorem State.Canonical.execVcoreReached (h : s.Canonical) : Keeps (execVcoreReached s) := by
  unfold Machine.execVcoreReached
  split
  · exact h.next
  · exact h.same.runAt.reasons.next

theorem State.Canonical.execVcoreReadyTimeout (h : s.Canonical) {miss : RailMiss} : Keeps (execVcoreReadyTimeout miss s) := by
  unfold Machine.execVcoreReadyTimeout
  extract_lets report
  split
  · exact h.same.askVcore.reasons.event.next
  · exact .ite h.same.event.next (State.Canonical.ite h h.reasons.event).next

theorem State.Canonical.powerStep (h : s.Canonical) : s.powerStep.Canonical := by
  unfold State.powerStep
  exact h.same.put

theorem State.Canonical.thermalStep (h : s.Canonical) : s.thermalStep.Canonical := by
  unfold State.thermalStep
  exact .ite h.put (.ite h.put h)

theorem State.Canonical.controlPeriod (h : s.Canonical) {p : PowerEstimate} : (s.controlPeriod p).Canonical := by
  unfold State.controlPeriod
  exact h.thermalStep.powerStep.same.moveTo.put.same.put.put.reasons.trackEpisodes

theorem State.Canonical.execTemperatureScan (h : s.Canonical) {quarterDegrees : List Int} :
    Keeps (execTemperatureScan quarterDegrees s) := by
  unfold Machine.execTemperatureScan
  split
  · exact h.next
  · exact .ite h.next (State.Canonical.ite h.put.put.onReason h.put.put).same.keepCool.next

theorem State.Canonical.execEnergyUpdate (h : s.Canonical) {energy : Nat} : Keeps (execEnergyUpdate energy s) := by
  unfold Machine.execEnergyUpdate
  exact h.count.next

/-! ### Control -/

theorem State.Canonical.done (h : s.Canonical) {code data : Nat} : (s.done code data).Canonical := by
  unfold State.done
  exact h.same

theorem State.Canonical.refuse (h : s.Canonical) {page : Nat} : (s.refuse page).Canonical := by
  unfold State.refuse
  exact h.raise.done

theorem State.Canonical.clearStage (h : s.Canonical) {page : Nat} : (s.clearStage page).Canonical := by
  unfold State.clearStage
  exact h.same.setWord.setWord

theorem State.Canonical.doCommit (h : s.Canonical) {a : Acc} {page : Nat} : (s.doCommit a page).Canonical := by
  unfold State.doCommit
  exact .ite h.raise.done (.ite h.raise.done (.ite h.done h.setWord.done))

theorem State.Canonical.doDiscard (h : s.Canonical) {a : Acc} {page : Nat} : (s.doDiscard a page).Canonical := by
  unfold State.doDiscard
  exact .ite h.raise.done (.ite h.raise.done (.ite h.raise.done h.clearStage.raise.done))

theorem State.Canonical.headerWrite (h : s.Canonical) {a : Acc} {page off v : Nat} : (s.headerWrite a page off v).Canonical := by
  unfold State.headerWrite
  extract_lets k
  split
  · exact .ite h.doDiscard (.ite h.doCommit h.done)
  · exact h.setWord.done
  · exact (State.Canonical.ite (State.Canonical.ite h.setWord.signal h.setWord).signal (.ite h.setWord.signal h.setWord)).done
  · exact (State.Canonical.ite (State.Canonical.ite h.setWord.signal h.setWord).signal (.ite h.setWord.signal h.setWord)).done
  · exact h.setWord.done
  · exact h.setWord.done
  · exact h.setWord.done
  · exact h.setWord.done
  · exact h.done

theorem State.Canonical.stage (h : s.Canonical) {a : Acc} {page k mask v : Nat} : (s.stage a page k mask v).Canonical := by
  unfold State.stage
  exact (State.Canonical.ite h h.setWord).same

theorem State.Canonical.plainWrite (h : s.Canonical) {k v : Nat} {w : RegW} : (s.plainWrite k v w).Canonical := by
  unfold State.plainWrite
  exact h.setWord

theorem State.Canonical.wordWrite (h : s.Canonical) {a : Acc} {page inst off v : Nat} : (s.wordWrite a page inst off v).Canonical := by
  unfold State.wordWrite
  split
  · exact h.done
  · extract_lets k
    refine .ite h.plainWrite.done ?_
    split
    · exact h.raise.done
    · exact h.raise.done
    · exact h.plainWrite.stage.done

theorem State.Canonical.wordRead (h : s.Canonical) {a : Acc} {page inst off : Nat} {staged : Bool} :
    (s.wordRead a page inst off staged).1.Canonical := by
  unfold State.wordRead
  split
  · exact h
  · exact .ite h.setWord h

theorem State.Canonical.putSpot (h : s.Canonical) {act : RegAct} {a : Acc} {page inst off v : Nat} (hact : act.Keeps) :
    (State.putSpot act s a page inst off v).Canonical := by
  unfold State.putSpot
  refine .ite h.headerWrite ?_
  split
  · next t e => exact hact h e
  · exact h.wordWrite

theorem State.Canonical.entryCheck (h : s.Canonical) {a : Acc} {page off size : Nat} {write : Bool}
    (e : s.entryCheck a page off size write = some t) : t.Canonical := by
  unfold State.entryCheck at e
  split at e
  · cases e; exact h.done
  split at e
  · cases e; exact h.bump.done
  split at e
  · cases e; exact h.done
  split at e
  · cases e; exact h.refuse
  split at e
  · cases e; exact h.refuse
  split at e
  · cases e; exact h.done
  · cases e

theorem State.Canonical.writeReg (h : s.Canonical) {act : RegAct} {a : Acc} {page inst off size v : Nat} (hact : act.Keeps) :
    (State.writeReg act s a page inst off size v).Canonical := by
  unfold State.writeReg
  exact .ite h.refuse (.ite (.ite ((h.putSpot hact).putSpot hact) (h.putSpot hact)) (h.putSpot hact))

theorem State.Canonical.pageOffWrite (h : s.Canonical) {act : RegAct} {a : Acc} {page off size v : Nat} (hact : act.Keeps) :
    (State.pageOffWrite act s a page off size v).Canonical := by
  unfold State.pageOffWrite
  split
  · next t e => exact h.entryCheck e
  · split
    · exact .ite h.done h.refuse
    · exact h.refuse
    · exact .ite h.raise.done h.refuse
    · exact h.writeReg hact

theorem State.Canonical.ctlWriteBy (h : s.Canonical) {act : RegAct} {a : Acc} {addr size v : Nat} (hact : act.Keeps) :
    (State.ctlWriteBy act s a addr size v).Canonical := by
  unfold State.ctlWriteBy
  exact .ite h.done (h.pageOffWrite hact)

theorem State.Canonical.getSpot (h : s.Canonical) {view : RegView} {a : Acc} {page inst off : Nat} {staged : Bool} :
    (State.getSpot view s a page inst off staged).1.Canonical := by
  unfold State.getSpot
  refine .ite_of Prod.fst h ?_
  split
  · exact h
  · exact h.wordRead

theorem State.Canonical.pageOffRead (h : s.Canonical) {view : RegView} {a : Acc} {page off size : Nat} :
    (State.pageOffRead view s a page off size).Canonical := by
  unfold State.pageOffRead
  split
  · next t e => exact h.entryCheck e
  · extract_lets sp
    refine .ite h.refuse ?_
    clear_value sp
    split
    · exact h.done
    · exact h.refuse
    · exact h.raise.done
    · exact .ite h.getSpot.getSpot.done h.getSpot.done

theorem State.Canonical.ctlReadBy (h : s.Canonical) {view : RegView} {a : Acc} {addr size : Nat} :
    (State.ctlReadBy view s a addr size).Canonical := by
  unfold State.ctlReadBy
  exact .ite h.done h.pageOffRead

theorem State.Canonical.ctlWindowBy (h : s.Canonical) {act : RegAct} {a : Acc} {page i off v size : Nat} (hact : act.Keeps) :
    (State.ctlWindowBy act s a page i off v size).Canonical := by
  unfold State.ctlWindowBy
  exact .ite h.done (.ite h.refuse (.ite h.refuse (h.writeReg hact)))

/-! ### Memory -/

theorem State.Canonical.setGran (h : s.Canonical) {u g w : Nat} : (s.setGran u g w).Canonical := by
  unfold State.setGran
  exact h.setWord

theorem State.Canonical.apertureRefused (h : s.Canonical) {addr : Nat} : (s.apertureRefused addr).Canonical := by
  unfold State.apertureRefused
  exact .ite h.raise h

theorem State.Canonical.aperture (h : s.Canonical) {addr : Nat} : (s.aperture addr).1.Canonical := by
  unfold State.aperture
  exact .ite_of Prod.fst h.apertureRefused h.bump

theorem State.Canonical.setFlips (h : s.Canonical) {k n : Nat} : (s.setFlips k n).Canonical := by
  unfold State.setFlips
  exact h.same

theorem State.Canonical.noteUe (h : s.Canonical) {w : Who} {unit cls loc off : Nat} : (s.noteUe w unit cls loc off).Canonical := by
  unfold State.noteUe
  exact h.event.note

theorem State.Canonical.noteCe (h : s.Canonical) {w : Who} {unit cls loc off : Nat} : (s.noteCe w unit cls loc off).Canonical := by
  unfold State.noteCe
  extract_lets fresh
  split
  · exact h.note.same
  · exact .ite h.bump h.note.same

theorem State.Canonical.platAdd (h : s.Canonical) {e : Nat} : (s.platAdd e).Canonical := by
  unfold State.platAdd
  exact .ite h.put.put.put.put.event h.event

theorem State.Canonical.retiring (h : s.Canonical) {n phys trig : Nat} : (s.retiring n phys trig).Canonical := by
  unfold State.retiring
  exact h.same

theorem State.Canonical.retired (h : s.Canonical) {n : Nat} : (s.retired n).Canonical := by
  unfold State.retired
  exact h.same

theorem State.Canonical.scrubCore (h : s.Canonical) {n : Nat} : (s.scrubCore n).Canonical := by
  unfold State.scrubCore
  extract_lets out
  exact h.newMem (twf_tkeep _ _ h.1)

theorem State.Canonical.makeHole (h : s.Canonical) {n phys trig : Nat} {rec : State → State} (hrec : ∀ {t : State}, t.Canonical → (rec
    t).Canonical) :
    (s.makeHole n phys trig rec).Canonical := by
  unfold State.makeHole
  exact (hrec (State.Canonical.foldl h.scrubCore.put fun h => h.setGran).put.event).note

theorem State.Canonical.recoveryFailed (h : s.Canonical) {cl phys : Nat} {seen rec : State → State} (hseen : ∀ {t : State}, t.Canonical →
    (seen t).Canonical) (hrec : ∀ {t : State}, t.Canonical → (rec t).Canonical) :
    (s.recoveryFailed cl phys seen rec).Canonical := by
  unfold State.recoveryFailed
  exact (hseen h.put.platAdd).retired.makeHole hrec

theorem State.Canonical.retireTrigger (h : s.Canonical) {cl phys trig : Nat} {seen rec : State → State} (hseen : ∀ {t : State},
    t.Canonical → (seen t).Canonical) (hrec : ∀ {t : State}, t.Canonical → (rec t).Canonical) :
    (s.retireTrigger cl phys trig seen rec).Canonical := by
  unfold State.retireTrigger
  extract_lets i
  split
  · exact (hrec (hseen h.put.put.retiring.platAdd).event).note
  · exact (hrec (hseen h.put.put.put.platAdd).event).note
  · exact h.recoveryFailed hseen hrec
  · exact hrec (hseen h)

theorem State.Canonical.countCore (h : s.Canonical) {n : Nat} {ue : Bool} {seen rec : State → State} (hseen : ∀ {t : State}, t.Canonical
    → (seen t).Canonical) (hrec : ∀ {t : State}, t.Canonical → (rec t).Canonical) :
    (s.countCore n ue seen rec).Canonical := by
  unfold State.countCore
  exact .ite ((State.Canonical.ite h.bump h.bump).retireTrigger hseen hrec) (hrec (hseen (.ite h.bump h.bump)))

theorem State.Canonical.coreError (h : s.Canonical) {w : Who} {n off cls : Nat} {opbuf ue : Bool} :
    (s.coreError w n off cls opbuf ue).Canonical := by
  unfold State.coreError
  extract_lets +onlyGivenNames unit
  refine .ite ?_ (h.bump.countCore (fun h => h) (fun h => h.noteCe))
  exact (State.Canonical.ite h.bump h.bump.put.put.put).countCore (fun h => h.event) (fun h => h.note)

theorem State.Canonical.sliceError (h : s.Canonical) {w : Who} {sl off cls : Nat} {ue : Bool} :
    (s.sliceError w sl off cls ue).Canonical := by
  unfold State.sliceError
  refine .ite ?_ (State.Canonical.ite h.bump.event h.bump).noteCe
  exact (State.Canonical.ite h.bump h.bump.put.put.put).event.event.note

theorem State.Canonical.memError (h : s.Canonical) {w : Who} {addr : Nat} {ue : Bool} : (s.memError w addr ue).Canonical := by
  unfold State.memError
  split
  · exact h
  · exact .ite h.coreError h.sliceError

theorem State.Canonical.readUnit (h : s.Canonical) {w : Who} {word : Nat} : (s.readUnit w word).state.Canonical := by
  unfold State.readUnit
  extract_lets +onlyGivenNames u n fix addr ce
  refine .ite_of UnitRead.state h ?_
  refine .ite_of UnitRead.state h.memError.same ?_
  refine .ite_of UnitRead.state h.memError ?_
  exact .ite_of UnitRead.state h.same.memError.same (.ite_of UnitRead.state h.same h.same.memError)

theorem State.Canonical.spoilUnit (hs : s.Canonical) {h : Nat} : (s.spoilUnit h).Canonical := by
  unfold State.spoilUnit
  exact hs.storeBytes.same

theorem State.Canonical.unitStep {a : State × Nat × List Nat} (hs : a.1.Canonical) {w : Who} {skip : State → Nat → Bool} {h : Nat} :
    (State.unitStep w skip a h).1.Canonical := by
  unfold State.unitStep
  exact .ite_of Prod.fst hs hs.readUnit

theorem State.Canonical.decodeUnits (h : s.Canonical) {w : Who} {words : List Nat} : (s.decodeUnits w words).1.Canonical := by
  unfold State.decodeUnits
  exact .foldl_of Prod.fst h fun h => h.unitStep

theorem State.Canonical.drew (h : s.Canonical) {bad : List Nat} : (s.drew bad).Canonical := by
  unfold State.drew
  exact .ite h h.same

theorem State.Canonical.decodeLine (h : s.Canonical) {w : Who} {addr n : Nat} : (s.decodeLine w addr n).state.Canonical := by
  unfold State.decodeLine
  exact .ite_of Rd.state h.decodeUnits h.decodeUnits.drew

theorem State.Canonical.rd (h : s.Canonical) {st : Nat} {b : Bytes} : (Rd.mk s st b).state.Canonical := h

theorem State.Canonical.readLine (h : s.Canonical) {w : Who} {addr n : Nat} : (s.readLine w addr n).state.Canonical := by
  unfold State.readLine
  exact .ite_of Rd.state h.aperture.rd (.ite_of Rd.state h.rd h.decodeLine)

theorem State.Canonical.readMem (h : s.Canonical) {w : Who} {addr n : Nat} : (s.readMem w addr n).state.Canonical := by
  unfold State.readMem
  exact .foldl_of Rd.state h fun h => .ite_of Rd.state h h.readLine

theorem State.Canonical.openUnits (h : s.Canonical) {w : Who} {words : List Nat} {covers : Nat → Bool} :
    (s.openUnits w words covers).1.Canonical := by
  unfold State.openUnits
  extract_lets +onlyGivenNames heads r
  have hr : r.1.Canonical := .foldl_of Prod.fst h fun h => h.unitStep
  refine .ite_of Prod.fst hr ?_
  exact .foldl (.foldl hr fun h => (State.Canonical.foldl h fun h => h.setFlips).same) fun h => h.spoilUnit

theorem State.Canonical.writeLine (h : s.Canonical) {w : Who} {addr : Nat} {b : Bytes} : (s.writeLine w addr b).1.Canonical := by
  unfold State.writeLine
  exact .ite_of Prod.fst h.aperture (.ite_of Prod.fst h (.ite_of Prod.fst h.openUnits h.openUnits.storeBytes))

theorem State.Canonical.writeMem (h : s.Canonical) {w : Who} {addr : Nat} {b : Bytes} : (s.writeMem w addr b).1.Canonical := by
  unfold State.writeMem
  exact .foldl_of Prod.fst h fun h => .ite_of Prod.fst h h.writeLine

theorem State.Canonical.markRegion (h : s.Canonical) {r : Region} {g : Nat} : (s.markRegion r g).Canonical := by
  unfold State.markRegion
  exact .foldl h fun h => h.setGran

theorem State.Canonical.releaseRegion (h : s.Canonical) {u g : Nat} : (s.releaseRegion u g).Canonical := by
  unfold State.releaseRegion
  exact .foldl h fun h => h.setGran

theorem State.Canonical.releaseWhere (h : s.Canonical) {u : Nat} {p : State → Nat → Nat → Bool} : (s.releaseWhere u p).Canonical := by
  unfold State.releaseWhere
  exact .foldl h fun h => .ite h.releaseRegion h

theorem State.Canonical.zeroGranule (h : s.Canonical) {u g : Nat} : (s.zeroGranule u g).Canonical := by
  unfold State.zeroGranule
  extract_lets lo out
  exact h.newMem (twf_tkeep _ _ h.1)

theorem State.Canonical.execRegionCloseEnd (h : s.Canonical) {unit head : Nat} : Keeps (execRegionCloseEnd unit head s) := by
  unfold Machine.execRegionCloseEnd
  exact .onUnit (.onUnit (.ite (State.Canonical.ite (State.Canonical.foldl h fun h => .ite h.setGran h).event (.foldl h fun h => .ite
    h.setGran h)).next h.next))

theorem State.Canonical.execScrubComplete (h : s.Canonical) {unit gran : Nat} : Keeps (execScrubComplete unit gran s) := by
  unfold Machine.execScrubComplete
  exact .onUnit (.onUnit (.ite h.zeroGranule.setGran.next h.next))

theorem State.Canonical.execCorrectedWriteback (h : s.Canonical) {word : Nat} : Keeps (execCorrectedWriteback word s) := by
  unfold Machine.execCorrectedWriteback
  exact .ite (State.Canonical.foldl (.ite h h.spoilUnit) fun h => h.setFlips).same.next h.next

theorem State.Canonical.patrolUnit (h : s.Canonical) {word : Nat} : (s.patrolUnit word).Canonical := by
  unfold State.patrolUnit
  split
  · exact h
  · exact .ite h (.ite (State.Canonical.foldl h.readUnit fun h => h.setFlips).same h.readUnit)

theorem State.Canonical.execPatrolPeriod (h : s.Canonical) : Keeps (execPatrolPeriod s) := by
  unfold Machine.execPatrolPeriod
  exact .ite h.next (State.Canonical.foldl h.same fun h => h.patrolUnit).event.next

/-! ### Rounds -/

theorem State.Canonical.setChain (h : s.Canonical) {ch : Nat} {c : Chain} : (s.setChain ch c).Canonical := by
  unfold State.setChain
  exact h.same

theorem State.Canonical.setRound (h : s.Canonical) {ch : Nat} {r : Round} : (s.setRound ch r).Canonical := by
  unfold State.setRound
  exact h.setChain

theorem State.Canonical.closeRound (h : s.Canonical) {ch st : Nat} : (s.closeRound ch st).Canonical := by
  unfold State.closeRound
  exact .ite h.setChain.put.put.put.put.count h.setChain.put.put.put.put.count.put.event

theorem State.Canonical.sendAborts (h : s.Canonical) {ch st : Nat} : (s.sendAborts ch st).Canonical := by
  unfold State.sendAborts
  split
  · exact h
  · exact .ite h h.send.send

theorem State.Canonical.dropScales (h : s.Canonical) {gang : Nat} : (s.dropScales gang).Canonical := by
  unfold State.dropScales
  exact h.same

theorem State.Canonical.forgetKernel (h : s.Canonical) {gang : Nat} : (s.forgetKernel gang).Canonical := by
  unfold State.forgetKernel
  extract_lets s1
  have hs1 : s1.Canonical := h.dropScales
  refine .foldl hs1 fun h => ?_
  split
  · exact .ite h.sendAborts.closeRound h
  · exact h

/-! ### Flags -/

theorem State.Canonical.setCore (h : s.Canonical) {n : Nat} {c : CoreSt} : (s.setCore n c).Canonical := by
  unfold State.setCore
  exact h.same

theorem State.Canonical.setNsw (h : s.Canonical) {n bit : Nat} : (s.setNsw n bit).Canonical := by
  unfold State.setNsw
  exact h.setCore

theorem State.Canonical.setNswIf (h : s.Canonical) {b : Bool} {n bit : Nat} : (s.setNswIf b n bit).Canonical := by
  unfold State.setNswIf
  exact .ite h.setNsw h

theorem State.Canonical.clearNer (h : s.Canonical) {n : Nat} : (s.clearNer n).Canonical := by
  unfold State.clearNer
  exact .foldl h fun h => h.setWord

theorem State.Canonical.writeNer (h : s.Canonical) {n : Nat} {e : NumEv} {replaced : Bool} : (s.writeNer n e replaced).Canonical := by
  unfold State.writeNer
  exact h.put.put.put.put.put.put.put.put.put.put.put.put.put.put.put.put.put.put.put.put.setWord

theorem State.Canonical.haltCore (h : s.Canonical) {n run : Nat} : (s.haltCore n run).Canonical := by
  unfold State.haltCore
  exact h.setCore

theorem State.Canonical.setGang (h : s.Canonical) {g : Gang} : (s.setGang g).Canonical := by
  unfold State.setGang
  exact h.same

theorem State.Canonical.stopGang (h : s.Canonical) {gid : Nat} {why : Stop} : (s.stopGang gid why).Canonical := by
  unfold State.stopGang
  split
  · exact h
  · exact .ite h (.foldl h.setGang fun h => .ite h.haltCore h)

theorem State.Canonical.stopOnFault (h : s.Canonical) {n code seq : Nat} : (s.stopOnFault n code seq).Canonical := by
  unfold State.stopOnFault
  exact h.put.put.haltCore

theorem State.Canonical.latchFault (h : s.Canonical) {n code seq : Nat} : (s.latchFault n code seq).Canonical := by
  unfold State.latchFault
  exact h.stopOnFault.event.note

theorem State.Canonical.testOver (h : s.Canonical) {n gang : Nat} : (s.testOver n gang).Canonical := by
  unfold State.testOver
  exact h.forgetKernel.event

theorem State.Canonical.faultHeard (h : s.Canonical) {n : Nat} {c : CoreSt} {code seq : Nat} :
    (s.faultHeard n c code seq).Canonical := by
  unfold State.faultHeard
  exact .ite h.testOver h.stopGang

theorem State.Canonical.coreFault (h : s.Canonical) {n code seq : Nat} : (s.coreFault n code seq).Canonical := by
  unfold State.coreFault
  exact .ite h h.latchFault.faultHeard

theorem State.Canonical.coreFaults (h : s.Canonical) {code : Nat} {l : List (Nat × Nat × Nat)} : (s.coreFaults code l).Canonical := by
  unfold State.coreFaults
  exact .foldl (.foldl (.foldl h fun h => h.stopOnFault.event) fun h => h.note) fun h => h.faultHeard

theorem State.Canonical.latchEvents (h : s.Canonical) {n : Nat} {a : EvSum} : (s.latchEvents n a).1.Canonical := by
  unfold State.latchEvents
  split
  · exact h
  · exact .ite h.bump.setNsw.writeNer (.ite h.bump.setNsw.writeNer h.bump.setNsw)

theorem State.Canonical.signalFirst (h : s.Canonical) {n : Nat} {first : Bool} : (s.signalFirst n first).Canonical := by
  unfold State.signalFirst
  exact .ite h.event h

theorem State.Canonical.recordEvents (h : s.Canonical) {n : Nat} {a : EvSum} : (s.recordEvents n a).Canonical := by
  unfold State.recordEvents
  exact h.latchEvents.signalFirst

theorem State.Canonical.trapFault (h : s.Canonical) {n seq : Nat} {first : Bool} : (s.trapFault n seq first).Canonical := by
  unfold State.trapFault
  exact h.stopOnFault.note.signalFirst.event.note.faultHeard

theorem State.Canonical.numEvents (h : s.Canonical) {n : Nat} {a : EvSum} : (s.numEvents n a).Canonical := by
  unfold State.numEvents
  split
  · exact h
  · exact .ite h.latchEvents.trapFault h.recordEvents

/-! ### Sequencer -/

theorem State.Canonical.startCore (h : s.Canonical) {n : Nat} {k : KStart} : (s.startCore n k).Canonical := by
  unfold State.startCore
  exact h.setCore.same.put.put.put.clearNer.put.put.setWord

theorem State.Canonical.fetch (h : s.Canonical) {n pc : Nat} : (s.fetch n pc).state.Canonical := by
  unfold State.fetch
  exact .ite_of Fetched.state h (.ite_of Fetched.state h (.ite_of Fetched.state h.readMem h.readMem))

theorem State.Canonical.decode1 (h : s.Canonical) {n : Nat} : (s.decode1 n).Canonical := by
  unfold State.decode1
  extract_lets +onlyGivenNames c
  refine .ite h ?_
  extract_lets +onlyGivenNames f
  have hf : f.state.Canonical := h.fetch
  refine .ite hf.coreFault ?_
  extract_lets r
  split
  · exact hf.coreFault
  · exact .ite h hf.setCore.put

theorem State.Canonical.decodeUntil {p : CoreSt → Bool} {n : Nat} : ∀ {k : Nat} {s : State}, s.Canonical →
    (State.decodeUntil p n k s).Canonical
  | 0, _, h => h
  | _ + 1, _, h => .ite h (decodeUntil h.decode1)

theorem State.Canonical.forSequencer (h : s.Canonical) {n : Nat} : (s.forSequencer n).Canonical := by
  unfold State.forSequencer
  exact h.decodeUntil

theorem State.Canonical.forMove (h : s.Canonical) {n : Nat} : (s.forMove n).Canonical := by
  unfold State.forMove
  exact h.decodeUntil

theorem State.Canonical.forLoader (h : s.Canonical) {n : Nat} : (s.forLoader n).Canonical := by
  unfold State.forLoader
  exact h.decodeUntil

theorem State.Canonical.forArray (h : s.Canonical) {n : Nat} : (s.forArray n).Canonical := by
  unfold State.forArray
  exact h.decodeUntil

theorem State.Canonical.forVector (h : s.Canonical) {n : Nat} : (s.forVector n).Canonical := by
  unfold State.forVector
  exact h.decodeUntil

theorem State.Canonical.forTraverse (h : s.Canonical) {n : Nat} : (s.forTraverse n).Canonical := by
  unfold State.forTraverse
  exact h.decodeUntil

theorem State.Canonical.sequencerRow (h : s.Canonical) {n maj : Nat} {f : State → CoreSt → Dec → State} (hf : ∀ {t : State} {a1 : CoreSt}
    {a2 : Dec}, t.Canonical → (f t a1 a2).Canonical) :
    Keeps (s.sequencerRow n maj f) := by
  unfold State.sequencerRow
  refine .onUnit ?_
  extract_lets t
  have ht : t.Canonical := h.forSequencer
  split
  · exact .ite (hf ht).next ht.next
  · exact ht.next

theorem State.Canonical.execNop (h : s.Canonical) {c : Nat} : Keeps (execNop c s) := by
  unfold Machine.execNop
  exact h.sequencerRow (fun h => h.setCore)

theorem State.Canonical.execEndInstr (h : s.Canonical) {c : Nat} : Keeps (execEndInstr c s) := by
  unfold Machine.execEndInstr
  exact h.sequencerRow (fun h => .ite h.coreFault h.setCore)

theorem State.Canonical.execKernelCompletion (h : s.Canonical) {c : Nat} : Keeps (execKernelCompletion c s) := by
  unfold Machine.execKernelCompletion
  refine .onUnit ?_
  extract_lets k
  split
  · exact h.next
  · exact .ite h.next (.ite (.ite (.ite h.haltCore.testOver.next h.haltCore.next) (.ite h.coreFault.next h.next)) h.next)

theorem State.Canonical.execLoop (h : s.Canonical) {c : Nat} : Keeps (execLoop c s) := by
  unfold Machine.execLoop
  exact h.sequencerRow (fun h => h.setCore)

theorem State.Canonical.execJump (h : s.Canonical) {c : Nat} : Keeps (execJump c s) := by
  unfold Machine.execJump
  exact h.sequencerRow (fun h => h.setCore)

theorem State.Canonical.execFence (h : s.Canonical) {c : Nat} : Keeps (execFence c s) := by
  unfold Machine.execFence
  exact h.sequencerRow (fun h => .ite h.setCore h)

theorem State.Canonical.decodeAll (h : s.Canonical) {n : Nat} : (s.decodeAll n).Canonical := by
  unfold State.decodeAll
  exact h.decodeUntil

theorem State.Canonical.testEnter (h : s.Canonical) {n : Nat} : (s.testEnter n).Canonical := by
  unfold State.testEnter
  exact .ite h.put h.event

theorem State.Canonical.testStart (h : s.Canonical) {n : Nat} : (s.testStart n).Canonical := by
  unfold State.testStart
  exact .ite h.same.startCore h.event

theorem State.Canonical.dropSplit (h : s.Canonical) {n : Nat} : (s.dropSplit n).Canonical := by
  unfold State.dropSplit
  exact h.put.put

theorem State.Canonical.testLeave (h : s.Canonical) {n : Nat} : (s.testLeave n).Canonical := by
  unfold State.testLeave
  exact .ite h.dropSplit.setCore.clearNer.put h.event

/-! ### Conv -/

theorem State.Canonical.sclFlag (h : s.Canonical) {slot : Nat} {status page : Fld} : (s.sclFlag slot status page).Canonical := by
  unfold State.sclFlag
  exact h.put.put.event

theorem State.Canonical.touch (h : s.Canonical) {gang slot : Nat} : (s.touch gang slot).Canonical := by
  unfold State.touch
  exact .ite h h.same

theorem State.Canonical.setEntryRead (h : s.Canonical) {slot e : Nat} {b : Bool} : (s.setEntryRead slot e b).Canonical := by
  unfold State.setEntryRead
  exact h.put

theorem State.Canonical.checkEntry (h : s.Canonical) {w : Who} {slot e : Nat} : (s.checkEntry w slot e).Canonical := by
  unfold State.checkEntry
  exact .ite h (.ite h.setFlips.noteCe h.setFlips.put.noteUe)

theorem State.Canonical.record (h : s.Canonical) {w : Who} {slot t : Nat} {m : Val} : (s.record w slot t m).Canonical := by
  unfold State.record
  extract_lets +onlyGivenNames e s1 old d s2
  have hs1 : s1.Canonical := h.checkEntry
  have hs2 : s2.Canonical := .ite hs1.put.put.put.setEntryRead hs1
  exact .ite (.ite (State.Canonical.ite hs2.sclFlag hs2).put (.ite hs2.sclFlag hs2)) hs2.sclFlag

theorem State.Canonical.recordBlock (h : s.Canonical) {w : Who} {slot t : Nat} {l : List Val} :
    (s.recordBlock w slot t l).Canonical := by
  unfold State.recordBlock
  split
  · exact h
  · exact h.record

theorem State.Canonical.window (h : s.Canonical) {who : Who} {slot t : Nat} : (s.window who slot t).1.Canonical := by
  unfold State.window
  exact .foldl_of Prod.fst h fun h => .ite_of Prod.fst h.checkEntry.setEntryRead h.checkEntry

theorem State.Canonical.chooseScale (h : s.Canonical) {who : Who} {slot target t : Nat} {block : List Val} :
    (s.chooseScale who slot target t block).1.Canonical := by
  unfold State.chooseScale
  extract_lets emax margin init
  split
  · exact h
  · exact h
  · exact .ite h.window.sclFlag h.window

theorem State.Canonical.selectScale (h : s.Canonical) {who : Who} {gang slot target t : Nat} {block : List Val} :
    (s.selectScale who gang slot target t block).1.Canonical := by
  unfold State.selectScale
  extract_lets same current
  split
  · exact h
  · exact .ite h.chooseScale.put h.chooseScale.put.same

theorem State.Canonical.convert (h : s.Canonical) {who : Who} {gang step seed slot target : Nat} {pair : Bool} {lanes : List Lane} :
    (s.convert who gang step seed slot target pair lanes).state.Canonical := by
  unfold State.convert
  extract_lets +onlyGivenNames stoch s1
  have hs1 : s1.Canonical := .ite h.touch h
  exact .ite_of Converted.state (.foldl_of Prod.fst hs1 fun h => h.recordBlock.selectScale) hs1.recordBlock

theorem State.Canonical.cvFlags (h : s.Canonical) {n slot : Nat} {f : CvFlags} : (s.cvFlags n slot f).Canonical := by
  unfold State.cvFlags
  extract_lets s1 s2
  have hs1 : s1.Canonical := .ite h.put.setNsw h
  have hs2 : s2.Canonical := .ite hs1.put.setNsw hs1
  exact .ite hs2.put.setNsw hs2

theorem State.Canonical.coreWrite (h : s.Canonical) {n unit addr : Nat} {b : Bytes} : (s.coreWrite n unit addr b).1.Canonical := by
  unfold State.coreWrite
  exact .ite_of Prod.fst h.writeMem h

theorem State.Canonical.putLine (h : s.Canonical) {n unit line : Nat} {els : List (Nat × Bytes)} :
    (s.putLine n unit line els).1.Canonical := by
  unfold State.putLine
  exact .ite_of Prod.fst h.openUnits (.foldl h.openUnits fun h => h.storeBytes)

theorem State.Canonical.putElems (h : s.Canonical) {n unit align : Nat} {els : List (Int × Bytes)} :
    (s.putElems n unit align els).1.Canonical := by
  unfold State.putElems
  exact .foldl_of Prod.fst h fun h => .ite_of Prod.fst h h.putLine

theorem State.Canonical.clearSlot (h : s.Canonical) {slot : Nat} : (s.clearSlot slot).Canonical := by
  unfold State.clearSlot
  exact (State.Canonical.foldl h fun h => h.setWord.put).put

/-! ### Paging -/

theorem State.Canonical.setFrame (h : s.Canonical) {f code : Nat} {mapped : Bool} : (s.setFrame f code mapped).Canonical := by
  unfold State.setFrame
  exact h.same

theorem State.Canonical.poolLowCheck (h : s.Canonical) {before : Nat} : (s.poolLowCheck before).Canonical := by
  unfold State.poolLowCheck
  exact .ite h.event h

theorem State.Canonical.takeFrames (h : s.Canonical) {n : Nat} {hw : Bool} {r : State × Nat} (e : s.takeFrames n hw = some r) :
    r.1.Canonical := by
  unfold State.takeFrames at e
  split at e
  · cases e
  · cases e
    exact .foldl h fun h => h.setFrame

theorem State.Canonical.giveFrames (h : s.Canonical) {fs : List Nat} : (s.giveFrames fs).Canonical := by
  unfold State.giveFrames
  exact .foldl h fun h => h.setFrame

theorem State.Canonical.pruneTables (h : s.Canonical) {dom : Nat} : (s.pruneTables dom).Canonical := by
  unfold State.pruneTables
  exact h.giveFrames.same.put

/-- Steps that may fail keep the form while they succeed. -/
theorem canonical_of_foldl_bind {α : Type} {f : State → α → Option State} (hf : ∀ {s t x}, s.Canonical → f s x = some t → t.Canonical)
    {l : List α} : ∀ {o : Option State}, (∀ s, o = some s → s.Canonical) →
    ∀ t, l.foldl (fun o x => o.bind fun s => f s x) o = some t → t.Canonical := by
  induction l with
  | nil => exact fun ho t e => ho t e
  | cons x l ih =>
    intro o ho
    refine ih fun s e => ?_
    obtain ⟨u, hu, hs⟩ := Option.bind_eq_some_iff.mp e
    exact hf (ho u hu) hs

/-- Frames are taken, and a table says so. -/
theorem State.Canonical.takeFrames_map (h : s.Canonical) {n : Nat} {hw : Bool} {f : State × Nat → State}
    (hf : ∀ {r}, r.1.Canonical → (f r).Canonical) (e : (s.takeFrames n hw).map f = some t) : t.Canonical := by
  obtain ⟨r, hr, rfl⟩ := Option.map_eq_some_iff.mp e
  exact hf (h.takeFrames hr)

theorem State.Canonical.placePages (h : s.Canonical) {dom z cls : Nat} {write live : Bool} {vas : List Nat}
    (e : s.placePages dom z cls write live vas = some t) : t.Canonical := by
  unfold State.placePages at e
  refine canonical_of_foldl_bind (fun h => h.takeFrames_map fun h => h.same) (fun u hu => ?_) t e
  exact canonical_of_foldl_bind (fun h => h.takeFrames_map fun h => h.same) (fun u hu => Option.some.inj hu ▸ h) u hu

theorem State.Canonical.mapRange (h : s.Canonical) {dom va len z cls : Nat} {write live : Bool} :
    (s.mapRange dom va len z cls write live).1.Canonical := by
  unfold State.mapRange
  extract_lets vas need frames
  refine .ite_of Prod.fst h ?_
  refine .ite_of Prod.fst h ?_
  split
  · exact h.event
  · next t e => exact (h.placePages e).put.poolLowCheck

theorem State.Canonical.dropTlb (h : s.Canonical) {p : Nat → Bool} : (s.dropTlb p).Canonical := by
  unfold State.dropTlb
  exact h.same

theorem State.Canonical.unmapRange (h : s.Canonical) {dom lo hi : Nat} : (s.unmapRange dom lo hi).1.Canonical := by
  unfold State.unmapRange
  exact h.same.dropTlb

theorem State.Canonical.unmapDone (h : s.Canonical) {dom : Nat} {fs : List Nat} : (s.unmapDone dom fs).Canonical := by
  unfold State.unmapDone
  exact h.giveFrames.put.pruneTables

theorem State.Canonical.allocRoot (h : s.Canonical) {dom : Nat} (e : s.allocRoot dom = some t) : t.Canonical := by
  unfold State.allocRoot at e
  obtain ⟨u, hu, rfl⟩ := Option.map_eq_some_iff.mp e
  have hroot : u.Canonical := canonical_of_foldl_bind (fun h => h.takeFrames_map fun h => h.same) (fun u hu => Option.some.inj hu ▸ h) u
    hu
  exact hroot.put.poolLowCheck

theorem State.Canonical.freeDomain (h : s.Canonical) {dom : Nat} : (s.freeDomain dom).Canonical := by
  unfold State.freeDomain
  exact h.unmapRange.giveFrames.giveFrames.same.dropTlb.put

theorem State.Canonical.tryRequest (h : s.Canonical) {p : Packet} {o : ReqOwner} : (s.tryRequest p o).1.Canonical := by
  unfold State.tryRequest
  exact .ite_of Prod.fst h.request h

theorem State.Canonical.startZero (h : s.Canonical) {f dom : Nat} {waiters : List Nat} {scrub : Bool} :
    (s.startZero f dom waiters scrub).Canonical := by
  unfold State.startZero
  extract_lets step r __src
  have hr : r.1.Canonical := .foldl_of Prod.fst h fun h => h.tryRequest
  have h__src : __src.Canonical := hr
  exact h__src.same

theorem State.Canonical.zeroReply (h : s.Canonical) {f st : Nat} : (s.zeroReply f st).Canonical := by
  unfold State.zeroReply
  split
  · exact h
  · exact .ite (.ite h.same.setFrame h.same) h.same

theorem State.Canonical.fillTlb (h : s.Canonical) {i key : Nat} : (s.fillTlb i key).Canonical := by
  unfold State.fillTlb
  exact h.same

theorem State.Canonical.domFault (h : s.Canonical) {dom status va : Nat} : (s.domFault dom status va).Canonical := by
  unfold State.domFault
  exact .ite h h.put.put.put

theorem State.Canonical.landed (h : s.Canonical) {dom va : Nat} {r : Nat × Nat × Nat} : (s.landed dom va r).1.Canonical := by
  unfold State.landed
  exact .ite_of Prod.fst h h.domFault

theorem State.Canonical.landLate (h : s.Canonical) {dom va : Nat} {r : Nat × Nat × Nat} : (s.landLate dom va r).1.Canonical := by
  unfold State.landLate
  exact h.landed

theorem State.Canonical.dropErrors (h : s.Canonical) : s.dropErrors.Canonical := by
  unfold State.dropErrors
  exact .ite h h.same

theorem State.Canonical.countWalk (h : s.Canonical) {dom : Nat} : (s.countWalk dom).Canonical := by
  unfold State.countWalk
  exact h.count.count

theorem State.Canonical.badTable (h : s.Canonical) {dom k : Nat} : (s.badTable dom k).Canonical := by
  unfold State.badTable
  exact h.event.event.note.setFrame.unmapRange.same.put.pruneTables

theorem State.Canonical.freeCondemned (h : s.Canonical) : s.freeCondemned.Canonical := by
  unfold State.freeCondemned
  exact h.giveFrames.same

theorem State.Canonical.setWalk (h : s.Canonical) {x : Walk} : (s.setWalk x).Canonical := by
  unfold State.setWalk
  exact h.same

theorem State.Canonical.walkNext (h : s.Canonical) {w : Walk} : (s.walkNext w).Canonical := by
  unfold State.walkNext
  split
  · exact h.setWalk
  · exact .ite h.setWalk.tryRequest h.setWalk

theorem State.Canonical.walkReply (h : s.Canonical) {dom vpn tag st : Nat} : (s.walkReply dom vpn tag st).Canonical := by
  unfold State.walkReply
  split
  · exact h
  · exact .ite h.setWalk h.walkNext

theorem State.Canonical.endWalk (h : s.Canonical) {w : Walk} {va : Nat} : (s.endWalk w va).1.Canonical := by
  unfold State.endWalk
  split
  · exact .ite h.badTable h
  · split
    · exact h
    · exact .ite_of Prod.fst h (.foldl h.same fun h => h.fillTlb)

theorem State.Canonical.execFrameScrub (h : s.Canonical) {frame : Nat} : Keeps (execFrameScrub frame s) := by
  unfold Machine.execFrameScrub
  exact .ite h.startZero.next h.next

/-! ### Moves -/

theorem State.Canonical.setMove (h : s.Canonical) {k : Nat} {j : MoveJob} : (s.setMove k j).Canonical := by
  unfold State.setMove
  exact h.same

theorem State.Canonical.acceptMove (h : s.Canonical) {k w dom stream : Nat} {o : MoveOwner} :
    (s.acceptMove k w dom stream o).Canonical := by
  unfold State.acceptMove
  exact h.setMove.same

theorem State.Canonical.endMove (h : s.Canonical) {k st : Nat} : (s.endMove k st).Canonical := by
  unfold State.endMove
  exact h.setMove

theorem State.Canonical.waitMove (h : s.Canonical) {k : Nat} {w : MoveWait} : (s.waitMove k w).Canonical := by
  unfold State.waitMove
  exact h.setMove

theorem State.Canonical.askWalk (h : s.Canonical) {dom va cl : Nat} : (s.askWalk dom va cl).1.Canonical := by
  unfold State.askWalk
  exact .ite_of Prod.fst h.count.same (.ite_of Prod.fst h.count.countWalk.same.walkNext h)

theorem State.Canonical.moveXlate (h : s.Canonical) {k va : Nat} {write : Bool} : (s.moveXlate k va write).1.Canonical := by
  unfold State.moveXlate
  extract_lets s1 j said fresh
  have hs1 : s1.Canonical := h.dropErrors
  clear_value fresh
  split
  · exact hs1.setMove.landLate
  · exact hs1.setMove
  · split
    · exact (State.Canonical.ite hs1.fillTlb hs1).setMove.landLate
    · exact hs1.setMove.askWalk.waitMove

theorem State.Canonical.moveRequest (h : s.Canonical) {k : Nat} {p : Packet} : (s.moveRequest k p).1.Canonical := by
  unfold State.moveRequest
  exact .ite_of Prod.fst h.waitMove.tryRequest h

theorem State.Canonical.waitZero (h : s.Canonical) {k f off : Nat} : (s.waitZero k f off).Canonical := by
  unfold State.waitZero
  exact h.waitMove.same

theorem State.Canonical.moveFrameRead (h : s.Canonical) {k f off n : Nat} : (s.moveFrameRead k f off n).1.Canonical := by
  unfold State.moveFrameRead
  exact .ite_of Prod.fst h.waitZero (.ite_of Prod.fst h h.moveRequest)

theorem State.Canonical.moveFrameWrite (h : s.Canonical) {k f off : Nat} {b : Bytes} : (s.moveFrameWrite k f off b).1.Canonical := by
  unfold State.moveFrameWrite
  exact .ite_of Prod.fst h.waitZero (.ite_of Prod.fst h.waitMove.startZero h.moveRequest)

theorem State.Canonical.moveRead (h : s.Canonical) {k kind a n : Nat} {tr : Option (Nat × Nat)} :
    (s.moveRead k kind a n tr).1.Canonical := by
  unfold State.moveRead
  split
  · exact h
  · exact h.readMem
  · exact h.moveRequest
  · split
    · exact h.moveFrameRead
    · split
      · next t e => exact h.moveXlate.of_eq e
      · next t e e => exact h.moveXlate.of_eq e
      · next t f off e => exact (h.moveXlate.of_eq e).moveFrameRead

theorem State.Canonical.movePut (h : s.Canonical) {k kind a : Nat} {b : Bytes} {tr : Option (Nat × Nat)} :
    (s.movePut k kind a b tr).1.Canonical := by
  unfold State.movePut
  split
  · exact h
  · refine .ite_of Prod.fst h ?_
    split
    · exact h.writeMem
    · exact h.moveRequest
    · split
      · exact h.moveFrameWrite
      · split
        · next t e => exact h.moveXlate.of_eq e
        · next t e e => exact h.moveXlate.of_eq e
        · next t f off e => exact (h.moveXlate.of_eq e).moveFrameWrite

theorem State.Canonical.moveStep (h : s.Canonical) {k : Nat} {tr : Option (Nat × Nat)} : (s.moveStep k tr).1.Canonical := by
  unfold State.moveStep
  extract_lets +onlyGivenNames j
  refine .ite_of Prod.fst h ?_
  refine .ite_of Prod.fst h.endMove ?_
  extract_lets +onlyGivenNames n dst
  refine .ite_of Prod.fst ?_ ?_
  · extract_lets src
    split
    · next t b e => exact (h.moveRead.of_eq e).setMove
    · next t st e => exact (h.moveRead.of_eq e).endMove
    · next t e => exact h.moveRead.of_eq e
  · split
    · next t b e => exact (h.movePut.of_eq e).setMove
    · next t st e => exact (h.movePut.of_eq e).endMove
    · next t e => exact h.movePut.of_eq e

theorem State.Canonical.moveLoop {k : Nat} : ∀ {fuel : Nat} {s : State} {tr : Option (Nat × Nat)}, s.Canonical →
    (State.moveLoop k fuel s tr).Canonical
  | 0, _, _, h => h
  | _ + 1, _, _, h => .ite (moveLoop h.moveStep) h.moveStep

theorem State.Canonical.dispatchStep (h : s.Canonical) {k : Nat} {tr : Option (Nat × Nat)} : (s.dispatchStep k tr).1.Canonical := by
  unfold State.dispatchStep
  extract_lets j r
  have hr : r.1.Canonical := .ite_of Prod.fst h.moveRead h.movePut
  clear_value r
  refine .ite_of Prod.fst h (.ite_of Prod.fst h.endMove ?_)
  split
  · exact hr.setMove
  · exact hr.endMove
  · exact hr

theorem State.Canonical.dispatchLoop {k : Nat} : ∀ {fuel : Nat} {s : State} {tr : Option (Nat × Nat)}, s.Canonical →
    (State.dispatchLoop k fuel s tr).Canonical
  | 0, _, _, h => h
  | _ + 1, _, _, h => .ite (dispatchLoop h.dispatchStep) h.dispatchStep

theorem State.Canonical.dispatchAccess (h : s.Canonical) {u : VUse} {dom va n : Nat} {data : Option Bytes} :
    (s.dispatchAccess u dom va n data).Canonical := by
  unfold State.dispatchAccess
  exact h.same.setMove.dispatchLoop

theorem State.Canonical.dropAccess (h : s.Canonical) {p : VUse → Bool} : (s.dropAccess p).Canonical := by
  unfold State.dropAccess
  exact h.same

theorem State.Canonical.touchLoop {k : Nat} : ∀ {fuel : Nat} {s : State}, s.Canonical → (State.touchLoop k fuel s).Canonical
  | 0, _, h => h
  | _ + 1, _, h => .ite (.ite h.dropErrors.endMove h.dropErrors.waitMove)
      (.ite (touchLoop h.dropErrors.setMove) (.ite (touchLoop h.dropErrors.askWalk.setMove) h.dropErrors.askWalk.waitMove))

theorem State.Canonical.resumeMove (h : s.Canonical) {k : Nat} {tr : Option (Nat × Nat)} : (s.resumeMove k tr).Canonical := by
  unfold State.resumeMove
  exact .ite h (.ite h.setMove.dispatchLoop (.ite h.setMove.touchLoop (.ite h.setMove.moveLoop h.setMove)))

theorem State.Canonical.zeroGo (h : s.Canonical) {l : List Nat} : (s.zeroGo l).Canonical := by
  unfold State.zeroGo
  refine .foldl h fun h => ?_
  split
  · exact h.resumeMove
  · exact h

theorem State.Canonical.firstDone (h : s.Canonical) {k : Nat} : (s.firstDone k).Canonical := by
  unfold State.firstDone
  exact .ite h h.same.zeroGo

theorem State.Canonical.moveReply (h : s.Canonical) {k tag st : Nat} {data : Bytes} : (s.moveReply k tag st data).Canonical := by
  unfold State.moveReply
  extract_lets +onlyGivenNames s1 j write
  have hs1 : s1.Canonical := .ite h.firstDone h
  exact .ite hs1 (.ite hs1.endMove (.ite hs1.endMove (.ite hs1.setMove.resumeMove hs1.setMove.resumeMove)))

theorem State.Canonical.moveCode (h : s.Canonical) {k st : Nat} : (s.moveCode k st).Canonical := by
  unfold State.moveCode
  extract_lets s1 j
  have hs1 : s1.Canonical := .ite h.event h
  split
  · exact .ite hs1.waitMove (.ite hs1.endMove hs1.same.endMove)
  · exact hs1

theorem State.Canonical.execMove (h : s.Canonical) {c : Nat} : Keeps (execMove c s) := by
  unfold Machine.execMove
  refine .onUnit ?_
  extract_lets t k
  have ht : t.Canonical := h.forMove
  split
  · exact ht.next
  · extract_lets ctr
    refine .ite ht.next ?_
    split
    · exact ht.next
    · exact .ite ht.readMem.coreFault.next ht.readMem.setCore.same.acceptMove.next

theorem State.Canonical.execMwait (h : s.Canonical) {c : Nat} : Keeps (execMwait c s) := by
  unfold Machine.execMwait
  refine .onUnit ?_
  extract_lets t k
  have ht : t.Canonical := h.forMove
  split
  · exact ht.next
  · exact .ite ht.setCore.next ht.next

theorem State.Canonical.moveRow (h : s.Canonical) {k op : Nat} {f : State → MoveJob → State} (hf : ∀ {t : State} {a1 : MoveJob},
    t.Canonical → (f t a1).Canonical) :
    Keeps (s.moveRow k op f) := by
  unfold State.moveRow
  exact .onUnit (.ite h.next (hf h.setMove).next)

theorem State.Canonical.execMoveNop (h : s.Canonical) {k : Nat} : Keeps (execMoveNop k s) := by
  unfold Machine.execMoveNop
  exact h.moveRow (fun h => h.endMove)

theorem State.Canonical.moveGo (h : s.Canonical) {k : Nat} : (s.moveGo k).Canonical := by
  unfold State.moveGo
  split
  · exact h.resumeMove
  · exact .ite h h.resumeMove
  · exact h

theorem State.Canonical.execMoveCopy (h : s.Canonical) {k : Nat} : Keeps (execMoveCopy k s) := by
  unfold Machine.execMoveCopy
  exact h.moveRow (fun h => h.moveGo)

theorem State.Canonical.execMoveFill (h : s.Canonical) {k : Nat} : Keeps (execMoveFill k s) := by
  unfold Machine.execMoveFill
  exact h.moveRow (fun h => h.moveGo)

theorem State.Canonical.askCodes (h : s.Canonical) {k : Nat} {frames : List Nat} : (s.askCodes k frames).1.Canonical := by
  unfold State.askCodes
  exact .foldl_of Prod.fst h fun h => .ite_of Prod.fst h h.request

theorem State.Canonical.execMoveMap (h : s.Canonical) {k : Nat} : Keeps (execMoveMap k s) := by
  unfold Machine.execMoveMap
  refine .ite (.onUnit h.next) ?_
  exact h.moveRow (fun h => .ite h.endMove (.ite h.endMove (.ite h.mapRange.endMove (.ite h.mapRange.endMove (.ite (State.Canonical.ite
    h.mapRange.setMove.askCodes.event h.mapRange.setMove.askCodes).waitMove.moveCode (State.Canonical.ite
    h.mapRange.setMove.askCodes.event h.mapRange.setMove.askCodes).waitMove)))))

theorem State.Canonical.execMoveUnmap (h : s.Canonical) {k : Nat} : Keeps (execMoveUnmap k s) := by
  unfold Machine.execMoveUnmap
  exact .ite (.onUnit h.next) (h.moveRow (fun h => .ite h.endMove (.ite h.endMove h.unmapRange.setMove)))

theorem State.Canonical.execUnmapComplete (h : s.Canonical) {k : Nat} : Keeps (execUnmapComplete k s) := by
  unfold Machine.execUnmapComplete
  exact .onUnit (.ite h.unmapDone.endMove.next h.next)

theorem State.Canonical.execMoveTouch (h : s.Canonical) {k : Nat} : Keeps (execMoveTouch k s) := by
  unfold Machine.execMoveTouch
  exact h.moveRow (fun h => .ite h.endMove (.ite h h.resumeMove))

theorem State.Canonical.afterWalk (h : s.Canonical) {dom va st : Nat} {same : Nat → Bool} :
    (s.afterWalk dom va st same).Canonical := by
  unfold State.afterWalk
  refine .foldl h fun h => ?_
  extract_lets j
  split
  · exact .ite h.setMove.resumeMove h.setMove.resumeMove
  · exact h

theorem State.Canonical.detach (h : s.Canonical) : s.detach.Canonical := by
  unfold State.detach
  extract_lets hit ks
  refine .foldl h.same fun h => ?_
  split
  · exact h.resumeMove
  · exact h

theorem State.Canonical.zeroDone (h : s.Canonical) {z : ZeroSt} : (s.zeroDone z).Canonical := by
  unfold State.zeroDone
  extract_lets s1 u
  have hs1 : s1.Canonical := h.same
  have hu : u.Canonical := .ite hs1.setFrame hs1
  split
  · exact hu
  · refine .ite ?_ hu.endMove.zeroGo
    extract_lets t
    have ht : t.Canonical := hu.same.zeroGo
    split
    · exact ht
    · exact ht.firstDone

theorem State.Canonical.dropWaiters (h : s.Canonical) : s.dropWaiters.Canonical := by
  unfold State.dropWaiters
  exact h.same

/-! ### Traverse -/

theorem State.Canonical.sigAdd (h : s.Canonical) {c n : Nat} : (s.sigAdd c n).Canonical := by
  unfold State.sigAdd
  exact h.put

theorem State.Canonical.travsDone (h : s.Canonical) {l : List (Nat × Nat × Nat × Nat)} {st : Nat} : (s.travsDone l st).Canonical := by
  unfold State.travsDone
  exact .ite (.foldl h fun h => .ite h h.setCore) (State.Canonical.foldl h fun h => .ite h h.setCore).coreFaults

theorem State.Canonical.endRound (h : s.Canonical) {ch st : Nat} : (s.endRound ch st).Canonical := by
  unfold State.endRound
  split
  · exact h
  · exact h.closeRound.travsDone

theorem State.Canonical.failRound (h : s.Canonical) {ch st : Nat} : (s.failRound ch st).Canonical := by
  unfold State.failRound
  exact h.sendAborts.endRound

theorem State.Canonical.grantSegs (h : s.Canonical) {ch die n w : Nat} : (s.grantSegs ch die n w).Canonical := by
  unfold State.grantSegs
  exact .ite h.failRound (.foldl h fun h => h.send)

theorem State.Canonical.failFrom (h : s.Canonical) {ch src : Nat} : (s.failFrom ch src).Canonical := by
  unfold State.failFrom
  extract_lets t
  have ht : t.Canonical := by
    unfold t
    refine .ite h ?_
    split
    · exact h
    · exact h.send
  exact ht.failRound

theorem State.Canonical.rndRead (h : s.Canonical) {ch a n : Nat} : (s.rndRead ch a n).state.Canonical := by
  unfold State.rndRead
  exact h.readMem

theorem State.Canonical.rndWrite (h : s.Canonical) {ch core a : Nat} {b : Bytes} : (s.rndWrite ch core a b).1.Canonical := by
  unfold State.rndWrite
  exact .ite_of Prod.fst h h.writeMem

theorem State.Canonical.rndInput (h : s.Canonical) {ch : Nat} {r : Round} {x : Contrib} {k off n : Nat} :
    (s.rndInput ch r x k off n).1.Canonical := by
  unfold State.rndInput
  exact .ite_of Prod.fst (.foldl_of Prod.fst h fun h => h.checkEntry) h.rndRead

theorem State.Canonical.rndNsw (h : s.Canonical) {r : Round} {bit : Nat} : (s.rndNsw r bit).Canonical := by
  unfold State.rndNsw
  exact .foldl h fun h => .ite h.setNsw h

theorem State.Canonical.rndCombine (h : s.Canonical) {ch : Nat} {r : Round} {k off : Nat} {acc : List Nat} :
    (s.rndCombine ch r k off acc).1.Canonical := by
  unfold State.rndCombine
  extract_lets w step
  exact .foldl_of Prod.fst h fun h => .ite_of Prod.fst h (.ite_of Prod.fst h.rndInput (State.Canonical.ite (State.Canonical.ite
    h.rndInput.put h.rndInput).rndNsw (.ite h.rndInput.put h.rndInput)).count)

theorem State.Canonical.rndDeliver (h : s.Canonical) {ch : Nat} {r : Round} {k off : Nat} {codes : List Nat} :
    (s.rndDeliver ch r k off codes).1.Canonical := by
  unfold State.rndDeliver
  extract_lets +onlyGivenNames w z
  refine .ite_of Prod.fst (.foldl h fun h => h.touch.recordBlock) ?_
  exact .foldl_of Prod.fst h fun h => .ite_of Prod.fst h h.rndWrite

theorem State.Canonical.sendSeg (h : s.Canonical) {ch : Nat} {r : Round} {phase k off : Nat} {data : Bytes} {step : Nat} :
    (s.sendSeg ch r phase k off data step).Canonical := by
  unfold State.sendSeg
  exact h.send

theorem State.Canonical.tryReduce (h : s.Canonical) {ch : Nat} {r : Round} : (s.tryReduce ch r).1.Canonical := by
  unfold State.tryReduce
  extract_lets w n p
  split
  · exact h
  · next k off _ _ =>
    extract_lets cnt go
    have hgo {t : State} {acc : List Nat} {r : Round} {free : Bool} (h : t.Canonical) : (go t acc r free).1.Canonical :=
      .ite_of Prod.fst h.rndCombine.failRound (State.Canonical.ite h.rndCombine.sendSeg.setRound.grantSegs h.rndCombine.sendSeg.setRound)
    clear_value go
    refine .ite_of Prod.fst h (.ite_of Prod.fst h.failRound (.ite_of Prod.fst (hgo h) ?_))
    split
    · exact h
    · exact .ite_of Prod.fst h.rndRead.failRound (hgo h.rndRead)

theorem State.Canonical.tryGather (h : s.Canonical) {ch : Nat} {r : Round} : (s.tryGather ch r).1.Canonical := by
  unfold State.tryGather
  extract_lets w p z
  split
  · exact h
  · next k off _ _ =>
    extract_lets cnt go d
    have hgo {t : State} {data : Bytes} {r : Round} {free : Bool} (h : t.Canonical) : (go t data r free).1.Canonical :=
      State.Canonical.ite h.sendSeg.setRound.grantSegs h.sendSeg.setRound
    have hd : d.state.Canonical := h.rndRead
    clear_value go d
    refine .ite_of Prod.fst h (.ite_of Prod.fst h.failRound (.ite_of Prod.fst ?_ ?_))
    · exact .ite_of Prod.fst (.ite_of Prod.fst h (hgo h)) (.ite_of Prod.fst hd.failRound (hgo hd))
    · split
      · exact h
      · exact .ite_of Prod.fst h.rndRead.failRound (hgo h.rndRead)

theorem State.Canonical.finishElems (h : s.Canonical) {ch : Nat} {r : Round} {off : Nat} {acc : List Nat} :
    (s.finishElems ch r off acc).1.Canonical := by
  unfold State.finishElems
  extract_lets +onlyGivenNames w c
  have hc : c.1.Canonical := h.rndCombine
  refine .ite_of Prod.fst hc.failRound ?_
  extract_lets v t d
  have ht : t.Canonical := .ite hc.rndNsw hc
  have hd : d.1.Canonical := ht.rndDeliver
  exact .ite_of Prod.fst hd.failRound hd.setRound

theorem State.Canonical.tryLocal (h : s.Canonical) {ch : Nat} {r : Round} : (s.tryLocal ch r).1.Canonical := by
  unfold State.tryLocal
  exact .ite_of Prod.fst h.finishElems h

theorem State.Canonical.tryPermute (h : s.Canonical) {ch : Nat} {r : Round} : (s.tryPermute ch r).1.Canonical := by
  unfold State.tryPermute
  extract_lets w
  refine .ite_of Prod.fst h ?_
  split
  · exact h
  · exact .ite_of Prod.fst h.rndRead.failRound (.ite_of Prod.fst h.rndRead.failRound h.rndRead.send.setRound)

theorem State.Canonical.tryRingGrant (h : s.Canonical) {ch : Nat} {r : Round} : (s.tryRingGrant ch r).1.Canonical := by
  unfold State.tryRingGrant
  exact .ite_of Prod.fst h (.ite_of Prod.fst (.ite_of Prod.fst h.failRound h.send.setRound) h)

theorem State.Canonical.tryRingSend (h : s.Canonical) {ch : Nat} {r : Round} : (s.tryRingSend ch r).1.Canonical := by
  unfold State.tryRingSend
  extract_lets +onlyGivenNames w n t
  refine .ite_of Prod.fst h ?_
  extract_lets +onlyGivenNames k len
  refine .ite_of Prod.fst h.setRound ?_
  refine .ite_of Prod.fst h ?_
  exact .ite_of Prod.fst h.failRound (.ite_of Prod.fst h.rndRead.failRound h.rndRead.sendSeg.setRound)

theorem State.Canonical.tryRingEmpty (h : s.Canonical) {ch : Nat} {r : Round} : (s.tryRingEmpty ch r).1.Canonical := by
  unfold State.tryRingEmpty
  exact .ite_of Prod.fst h.sigAdd.setRound h

/-- One attempt of a round, where the ones before it did nothing. -/
theorem State.Canonical.attempt {a : Tried} {f : State → Nat → Round → Tried} (ha : a.1.Canonical) {ch : Nat} {r : Round}
    (hf : ∀ {t r}, t.Canonical → (f t ch r).1.Canonical) :
    (match (a.1.chain ch).round with
      | none => a
      | some _ => if a.2 then a else f a.1 ch r).1.Canonical := by
  split
  · exact ha
  · exact .ite_of Prod.fst ha (hf ha)

theorem State.Canonical.chainTry (h : s.Canonical) {ch : Nat} : (s.chainTry ch).1.Canonical := by
  unfold State.chainTry
  extract_lets first
  have hfirst {l : List (State → Nat → Round → Tried)} (hl : ∀ f ∈ l, ∀ t r, t.Canonical → (f t ch r).1.Canonical) {r : Round} :
      (first l r).1.Canonical := by
    unfold first
    have hacc : ∀ a : Tried, a.1.Canonical → (l.foldl (fun (a : Tried) f => match (a.1.chain ch).round with
        | none => a
        | some _ => if a.2 then a else f a.1 ch r) a).1.Canonical := by
      induction l with
      | nil => exact fun a ha => ha
      | cons f l ih => exact fun a ha => ih (fun f hf => hl f (.tail _ hf)) _ (ha.attempt (hl f (.head _) _ _))
    exact hacc _ h
  clear_value first
  split
  · exact h
  · refine .ite_of Prod.fst h (hfirst ?_)
    simp only [List.forall_mem_cons]
    exact ⟨fun _ _ h => h.tryLocal, fun _ _ h => h.tryReduce, fun _ _ h => h.tryGather, fun _ _ h => h.tryPermute,
      fun _ _ h => h.tryRingGrant, fun _ _ h => h.tryRingEmpty, fun _ _ h => h.tryRingSend, nofun⟩

theorem State.Canonical.chainLoop {ch : Nat} : ∀ {fuel : Nat} {s : State}, s.Canonical → (State.chainLoop ch fuel s).Canonical
  | 0, _, h => h
  | _ + 1, _, h => .ite (chainLoop h.chainTry) h.chainTry

theorem State.Canonical.chainRun (h : s.Canonical) {ch : Nat} : (s.chainRun ch).Canonical := by
  unfold State.chainRun
  split
  · exact h
  · exact h.chainLoop

theorem State.Canonical.shardTable (h : s.Canonical) {ch a count : Nat} : (s.shardTable ch a count).1.Canonical := by
  unfold State.shardTable
  exact .ite_of Prod.fst h h.rndRead

theorem State.Canonical.openRound (h : s.Canonical) {ch : Nat} {r : Round} : (s.openRound ch r).Canonical := by
  unfold State.openRound
  extract_lets w p n z r2 s1 s2
  have hs1 : s1.Canonical := h.put.setRound
  have hs2 : s2.Canonical := .ite hs1.rndNsw.rndNsw.put.put.event hs1
  split
  · refine .ite hs2.rndRead.failRound ?_
    exact .ite hs2.rndRead.rndWrite.failRound (.ite hs2.rndRead.rndWrite.grantSegs hs2.rndRead.rndWrite)
  · refine .ite hs2.rndRead.failRound ?_
    refine .ite (State.Canonical.ite_of Prod.fst hs2 hs2.rndRead.rndWrite).failRound ?_
    exact .foldl (State.Canonical.ite_of Prod.fst hs2 hs2.rndRead.rndWrite).setRound fun h => h.grantSegs
  · exact hs2
  · exact .ite hs2.grantSegs hs2

theorem State.Canonical.startRound (h : s.Canonical) {ch : Nat} {r : Round} : (s.startRound ch r).Canonical := by
  unfold State.startRound
  extract_lets +onlyGivenNames w p n z
  refine .ite h.endRound ?_
  refine .ite h.failRound ?_
  refine .ite h.failRound ?_
  refine .ite h.failRound ?_
  refine .ite h.failRound ?_
  extract_lets +onlyGivenNames a
  have ha : a.1.Canonical := h.shardTable
  refine .ite ha.failRound ?_
  refine .ite ha.failRound ?_
  refine .ite (.ite ha.failRound ha.openRound.chainRun) ?_
  extract_lets +onlyGivenNames b
  have hb : b.1.Canonical := ha.shardTable
  refine .ite hb.failRound ?_
  refine .ite hb.failRound ?_
  extract_lets +onlyGivenNames m
  have hm : m.state.Canonical := hb.rndRead
  refine .ite hm.failRound ?_
  exact .ite hm.failRound (.ite hm.failRound (.ite hm.failRound (.ite hm.failRound hm.openRound.chainRun)))

theorem State.Canonical.popTrav (h : s.Canonical) {n : Nat} : (s.popTrav n).Canonical := by
  unfold State.popTrav
  exact h.setCore

theorem State.Canonical.takeTrav (h : s.Canonical) {n ctr : Nat} : (s.takeTrav n ctr).Canonical := by
  unfold State.takeTrav
  exact h.popTrav.setCore

theorem State.Canonical.noChain (h : s.Canonical) {ch : Nat} : (s.noChain ch).Canonical := by
  unfold State.noChain
  exact h.put.put.event

theorem State.Canonical.joinRound (h : s.Canonical) {ch : Nat} {r : Round} : (s.joinRound ch r).Canonical := by
  unfold State.joinRound
  exact .ite h.setRound.failRound (.ite h.setRound.failRound (.ite h.setRound.startRound h.setRound))

theorem State.Canonical.execTrav (h : s.Canonical) {c : Nat} : Keeps (execTrav c s) := by
  unfold Machine.execTrav
  refine .onUnit ?_
  extract_lets t k
  have ht : t.Canonical := h.forTraverse
  split
  · exact ht.next
  · extract_lets +onlyGivenNames ctr
    refine .ite ht.next ?_
    extract_lets +onlyGivenNames r
    have hr : r.state.Canonical := ht.readMem
    refine .ite hr.coreFault.next ?_
    extract_lets +onlyGivenNames w ch u x
    have hu : u.Canonical := hr
    refine .ite hu.popTrav.noChain.coreFault.next ?_
    exact .ite hu.popTrav.coreFault.next (.ite hu.next (.ite hu.popTrav.coreFault.next hu.takeTrav.joinRound.next))

theorem State.Canonical.execTwait (h : s.Canonical) {c : Nat} : Keeps (execTwait c s) := by
  unfold Machine.execTwait
  refine .onUnit ?_
  extract_lets t k
  have ht : t.Canonical := h.forTraverse
  split
  · exact ht.next
  · exact .ite ht.popTrav.next ht.next

theorem State.Canonical.chainRow (h : s.Canonical) {ch op : Nat} : Keeps (s.chainRow ch op) := by
  unfold State.chainRow
  refine .onUnit ?_
  split
  · exact .ite h.chainRun.next h.next
  · exact h.next

theorem State.Canonical.execAllreduce (h : s.Canonical) {ch : Nat} : Keeps (execAllreduce ch s) := by
  unfold Machine.execAllreduce
  exact h.chainRow

theorem State.Canonical.execRedscat (h : s.Canonical) {ch : Nat} : Keeps (execRedscat ch s) := by
  unfold Machine.execRedscat
  exact h.chainRow

theorem State.Canonical.execAllgather (h : s.Canonical) {ch : Nat} : Keeps (execAllgather ch s) := by
  unfold Machine.execAllgather
  exact h.chainRow

theorem State.Canonical.execPermute (h : s.Canonical) {ch : Nat} : Keeps (execPermute ch s) := by
  unfold Machine.execPermute
  exact h.chainRow

theorem State.Canonical.execRpass (h : s.Canonical) {ch : Nat} : Keeps (execRpass ch s) := by
  unfold Machine.execRpass
  exact h.chainRow

theorem State.Canonical.execHmerge (h : s.Canonical) {ch : Nat} : Keeps (execHmerge ch s) := by
  unfold Machine.execHmerge
  exact h.chainRow

theorem State.Canonical.execRoundComplete (h : s.Canonical) {ch : Nat} : Keeps (execRoundComplete ch s) := by
  unfold Machine.execRoundComplete
  refine .onUnit ?_
  split
  · exact .ite h.endRound.next h.next
  · exact h.next

theorem State.Canonical.execRoundTimeout (h : s.Canonical) {ch : Nat} : Keeps (execRoundTimeout ch s) := by
  unfold Machine.execRoundTimeout
  refine .onUnit ?_
  extract_lets limit
  split
  · exact .ite h.failRound.next h.next
  · exact h.next

theorem State.Canonical.endRounds (h : s.Canonical) {p : Nat → Round → Bool} : (s.endRounds p).Canonical := by
  unfold State.endRounds
  refine .foldl h fun h => ?_
  split
  · exact .ite h.failRound h
  · exact h

theorem State.Canonical.trvRefused (h : s.Canonical) : s.trvRefused.Canonical := by
  unfold State.trvRefused
  exact h.bump

theorem State.Canonical.refuseChain (h : s.Canonical) {p : Packet} : (s.refuseChain p).Canonical := by
  unfold State.refuseChain
  exact .ite h.put.trvRefused.event h.put.trvRefused.event.send

theorem State.Canonical.heardFrom (h : s.Canonical) {p : Packet} : (s.heardFrom p).Canonical := by
  unfold State.heardFrom
  exact h.setChain

theorem State.Canonical.strayFrom (h : s.Canonical) {ch src : Nat} : (s.strayFrom ch src).Canonical := by
  unfold State.strayFrom
  extract_lets old next
  have hnext : next.Canonical := h.setChain
  split
  · exact .ite h.failFrom hnext
  · exact hnext

theorem State.Canonical.withRound (h : s.Canonical) {p : Packet} {f : State → Round → State} (hf : ∀ {t : State} {a1 : Round},
    t.Canonical → (f t a1).Canonical) :
    (s.withRound p f).Canonical := by
  unfold State.withRound
  refine .ite h.refuseChain ?_
  split
  · exact h.trvRefused
  · exact h.strayFrom
  · extract_lets s1
    have hs1 : s1.Canonical := h.heardFrom
    split
    · exact .ite hs1.trvRefused (.ite hs1.failFrom (hf hs1))
    · exact hs1.trvRefused

theorem State.Canonical.ackSeg (h : s.Canonical) {p : Packet} {w : Nat} : (s.ackSeg p w).Canonical := by
  unfold State.ackSeg
  exact h.send

theorem State.Canonical.ringSeg (h : s.Canonical) {p : Packet} {r : Round} : (s.ringSeg p r).Canonical := by
  unfold State.ringSeg
  extract_lets +onlyGivenNames w ch z t
  refine .ite h.failFrom ?_
  extract_lets +onlyGivenNames u
  have hu : u.1.Canonical := h.rndWrite
  exact .ite hu.failRound (.ite hu.failRound (State.Canonical.ite hu.ackSeg.sigAdd hu.ackSeg).setRound.chainRun)

theorem State.Canonical.chainSeg (h : s.Canonical) {p : Packet} {r : Round} : (s.chainSeg p r).Canonical := by
  unfold State.chainSeg
  extract_lets w ch me n
  split
  · exact h.trvRefused
  · extract_lets +onlyGivenNames b
    have hb : b.1.Canonical := h.writeMem
    refine .ite hb.failRound ?_
    refine .ite hb.failRound ?_
    extract_lets +onlyGivenNames s1 h2 r2
    have hs1 : s1.Canonical := hb.ackSeg
    refine .ite ?_ ?_
    · exact .ite (.ite hs1.finishElems.grantSegs.chainRun hs1.finishElems) hs1.setRound.chainRun
    · extract_lets +onlyGivenNames d
      have hd : d.1.Canonical := hs1.rndDeliver
      exact .ite hd.failRound (.ite hd.setRound.grantSegs.chainRun hd.setRound.chainRun)

theorem State.Canonical.gotSeg (h : s.Canonical) {p : Packet} : (s.gotSeg p).Canonical := by
  unfold State.gotSeg
  exact h.withRound (fun h => .ite h.trvRefused (.ite h.failFrom (.ite h.ringSeg h.chainSeg)))

theorem State.Canonical.gotPerm (h : s.Canonical) {p : Packet} : (s.gotPerm p).Canonical := by
  unfold State.gotPerm
  exact h.withRound (fun h => .ite h.failFrom (.ite h.rndWrite.failRound (.ite h.rndWrite.failRound
    h.rndWrite.ackSeg.grantSegs.setRound.chainRun)))

theorem State.Canonical.gotGrant (h : s.Canonical) {p : Packet} : (s.gotGrant p).Canonical := by
  unfold State.gotGrant
  refine .ite h.refuseChain ?_
  split
  · exact h
  · exact h.strayFrom
  · exact .ite h.heardFrom.failFrom h.heardFrom.setChain.chainRun

theorem State.Canonical.gotCack (h : s.Canonical) {p : Packet} : (s.gotCack p).Canonical := by
  unfold State.gotCack
  exact h.withRound (fun h => h.setRound)

theorem State.Canonical.passAbort (h : s.Canonical) {p : Packet} : (s.passAbort p).Canonical := by
  unfold State.passAbort
  exact .ite h.send (.ite h.send h)

theorem State.Canonical.gotAbort (h : s.Canonical) {p : Packet} : (s.gotAbort p).Canonical := by
  unfold State.gotAbort
  refine .ite h.refuseChain ?_
  extract_lets +onlyGivenNames ch ahead
  split
  · exact h.trvRefused
  · exact h.strayFrom
  · extract_lets +onlyGivenNames s1 wait
    have hs1 : s1.Canonical := h.heardFrom
    have hwait {t : State} (h : t.Canonical) : (wait t).Canonical := h.setChain.put
    clear_value s1 wait
    split
    · exact .ite hs1.endRound.trvRefused (.ite hs1.passAbort.endRound (hwait hs1.passAbort))
    · exact hwait hs1.passAbort

theorem State.Canonical.gotCrefuse (h : s.Canonical) {p : Packet} : (s.gotCrefuse p).Canonical := by
  unfold State.gotCrefuse
  refine .ite h.refuseChain ?_
  split
  · exact .ite h.failRound h.trvRefused
  · exact h.trvRefused

/-! ### Stages -/

theorem State.Canonical.setStage (h : s.Canonical) {q : Nat} {x : Stage} : (s.setStage q x).Canonical := by
  unfold State.setStage
  exact h.same

theorem State.Canonical.sqError (h : s.Canonical) {q cause : Nat} : (s.sqError q cause).Canonical := by
  unfold State.sqError
  exact .ite h h.setStage.put.same.put.put.event.travsDone

theorem State.Canonical.gotSerr (h : s.Canonical) {p : Packet} : (s.gotSerr p).Canonical := by
  unfold State.gotSerr
  exact .ite h.sqError h.trvRefused

theorem State.Canonical.sqSend (h : s.Canonical) {q : Nat} {p : Packet} {here : State → Packet → State} (hhere : ∀ {t : State} {a1 :
    Packet}, t.Canonical → (here t a1).Canonical) :
    (s.sqSend q p here).Canonical := by
  unfold State.sqSend
  exact .ite (hhere h) (.ite h.send h.sqError)

theorem State.Canonical.sqFail (h : s.Canonical) {q cause : Nat} : (s.sqFail q cause).Canonical := by
  unfold State.sqFail
  exact .ite h (h.sqError.sqSend (fun h => h.gotSerr))

theorem State.Canonical.sqRefuse (h : s.Canonical) {p : Packet} : (s.sqRefuse p).Canonical := by
  unfold State.sqRefuse
  exact .ite h.trvRefused.event h.trvRefused.event.send

theorem State.Canonical.sqCompare (h : s.Canonical) {q shape : Nat} : (s.sqCompare q shape).Canonical := by
  unfold State.sqCompare
  exact .ite (.ite h.put.put.put h.put.put) h.sqFail

theorem State.Canonical.gotSopen (h : s.Canonical) {p : Packet} : (s.gotSopen p).Canonical := by
  unfold State.gotSopen
  exact .ite h.sqCompare (.ite h.sqRefuse h.setStage)

theorem State.Canonical.sqApply (h : s.Canonical) {q : Nat} : (s.sqApply q).Canonical := by
  unfold State.sqApply
  extract_lets +onlyGivenNames old s1 s2 s3
  have hs1 : s1.Canonical := h.setStage
  have hs2 : s2.Canonical := hs1.setWord.put.put
  have hs3 : s3.Canonical := .ite hs2.put.put.event hs2
  refine .ite hs3 ?_
  extract_lets +onlyGivenNames s4
  have hs4 : s4.Canonical := hs3.put
  refine .ite hs4.sqError ?_
  extract_lets s5
  have hs5 : s5.Canonical := hs4.put
  refine .ite hs5.sqError ?_
  refine .ite (hs5.sqSend (fun h => h.gotSopen)) ?_
  split
  · exact hs5.sqCompare
  · exact hs5

theorem State.Canonical.gotSack (h : s.Canonical) {p : Packet} : (s.gotSack p).Canonical := by
  unfold State.gotSack
  exact .ite h.sqRefuse (.ite h.bump (.ite h h.setStage.same.travsDone))

theorem State.Canonical.gotScredit (h : s.Canonical) {p : Packet} : (s.gotScredit p).Canonical := by
  unfold State.gotScredit
  exact .ite h.sqRefuse (.ite h h.sigAdd.count)

theorem State.Canonical.gotSdata (h : s.Canonical) {p : Packet} : (s.gotSdata p).Canonical := by
  unfold State.gotSdata
  extract_lets +onlyGivenNames q
  refine .ite h.sqRefuse ?_
  refine .ite h ?_
  extract_lets +onlyGivenNames s1 m x
  have hs1 : s1.Canonical := h.put
  refine .ite hs1.sqFail ?_
  extract_lets +onlyGivenNames w
  have hw : w.1.Canonical := hs1.writeMem
  exact .ite hw.sqFail (.ite hw.setStage (hw.setStage.count.sigAdd.sqSend (fun h => h.gotSack)))

theorem State.Canonical.execSpush (h : s.Canonical) {c : Nat} : Keeps (execSpush c s) := by
  unfold Machine.execSpush
  refine .onUnit ?_
  extract_lets t k
  have ht : t.Canonical := h.forTraverse
  split
  · exact ht.next
  · extract_lets +onlyGivenNames ctr q m
    refine .ite ht.next ?_
    refine .ite ht.popTrav.coreFault.next ?_
    refine .ite ht.popTrav.coreFault.next ?_
    refine .ite ht.next ?_
    extract_lets +onlyGivenNames r
    have hr : r.state.Canonical := ht.readMem
    refine .ite hr.popTrav.coreFault.next ?_
    extract_lets u x u2 l f old u3
    have hu : u.Canonical := hr.takeTrav
    have hu2 : u2.Canonical := hu.setStage.count
    have hf : f.1.Canonical := hu2.freshTag
    have hu3 : u3.Canonical := .ite hu2 hf.same
    exact (State.Canonical.foldl hu3 fun h => .ite (h.sqSend (fun h => h.gotSdata)) h).next

theorem State.Canonical.execSpop (h : s.Canonical) {c : Nat} : Keeps (execSpop c s) := by
  unfold Machine.execSpop
  refine .onUnit ?_
  extract_lets t k
  have ht : t.Canonical := h.forTraverse
  split
  · exact ht.next
  · exact .ite ht.next (.ite ht.popTrav.coreFault.next (ht.popTrav.count.sqSend (fun h => h.gotScredit)).next)

theorem State.Canonical.sqPaths (h : s.Canonical) : s.sqPaths.Canonical := by
  unfold State.sqPaths
  exact .foldl h fun h => .ite h.sqError h

theorem State.Canonical.sqTeardown (h : s.Canonical) {dom : Nat} : (s.sqTeardown dom).Canonical := by
  unfold State.sqTeardown
  exact .foldl h fun h => .ite h.sqFail h

/-! ### Queues -/

theorem State.Canonical.setQueue (h : s.Canonical) {q : Nat} {x : QueueSt} : (s.setQueue q x).Canonical := by
  unfold State.setQueue
  exact h.same

theorem State.Canonical.ring (h : s.Canonical) {q tail : Nat} : (s.ring q tail).1.Canonical := by
  unfold State.ring
  extract_lets n head
  split
  · exact h
  · exact .ite_of Prod.fst h.event h.put
  · exact .ite_of Prod.fst h.event h.put
  · exact h.event

theorem State.Canonical.releaseStaging (h : s.Canonical) {g : Machine.Group} : (s.releaseStaging g).Canonical := by
  unfold State.releaseStaging
  exact .foldl h fun h => .ite h.releaseRegion h

theorem State.Canonical.dropFetch (h : s.Canonical) {q : Nat} : (s.dropFetch q).Canonical := by
  unfold State.dropFetch
  exact h.dropAccess.setQueue

theorem State.Canonical.clearQueue (h : s.Canonical) {q : Nat} : (s.clearQueue q).Canonical := by
  unfold State.clearQueue
  extract_lets s1
  have hs1 : s1.Canonical := by
    unfold s1
    split
    · exact h.releaseStaging
    · exact h
  exact hs1.dropFetch.setQueue

theorem State.Canonical.drained (h : s.Canonical) {q : Nat} : (s.drained q).Canonical := by
  unfold State.drained
  exact .ite h.put.clearQueue h

theorem State.Canonical.qControl (h : s.Canonical) {q v : Nat} : (s.qControl q v).Canonical := by
  unfold State.qControl
  extract_lets +onlyGivenNames st
  refine .ite (.ite h.clearQueue.put.setWord.setWord.put h.event) ?_
  exact .ite (.ite h.put.drained h) (.ite (.ite h.put h) (.ite (.ite h.clearQueue.put.put h) h))

theorem State.Canonical.setChead (h : s.Canonical) {q v : Nat} : (s.setChead q v).Canonical := by
  unfold State.setChead
  exact .ite h.put h.event

theorem State.Canonical.notify (h : s.Canonical) {q i : Nat} : (s.notify q i).Canonical := by
  unfold State.notify
  exact .ite h.same h

theorem State.Canonical.qError (h : s.Canonical) {q status detail : Nat} : (s.qError q status detail).Canonical := by
  unfold State.qError
  exact .ite h.put.put.put.event h

theorem State.Canonical.itemSignal (h : s.Canonical) {it : Item} : (s.itemSignal it).Canonical := by
  unfold State.itemSignal
  exact .ite h.sigAdd h

theorem State.Canonical.pumpRecords (h : s.Canonical) {q : Nat} : (s.pumpRecords q).Canonical := by
  unfold State.pumpRecords
  refine .ite h ?_
  split
  · exact h
  · exact h.dispatchAccess

theorem State.Canonical.complete (h : s.Canonical) {it : Item} {r : Rec} : (s.complete it r).Canonical := by
  unfold State.complete
  exact .ite h (.ite h.same (State.Canonical.ite h h.qError).same.pumpRecords)

theorem State.Canonical.recordDone (h : s.Canonical) {q st : Nat} : (s.recordDone q st).Canonical := by
  unfold State.recordDone
  refine .ite h ?_
  split
  · exact h
  · next r _ =>
    extract_lets i s1 s2 s3 s4
    have hs1 : s1.Canonical := h.same
    have hs2 : s2.Canonical := .ite hs1.put.count hs1.qError
    have hs3 : s3.Canonical := .ite hs2.notify hs2
    have hs4 : s4.Canonical := by
      unfold s4
      split
      · exact .ite hs2 hs2.bump
      · exact hs3.same.itemSignal.drained
    exact hs4.pumpRecords

theorem State.Canonical.takeItem (h : s.Canonical) {q w : Nat} : (s.takeItem q w).1.Canonical := by
  unfold State.takeItem
  exact h.setQueue.put.put.same

theorem State.Canonical.endItem (h : s.Canonical) {q w status detail : Nat} : (s.endItem q w status detail).Canonical := by
  unfold State.endItem
  exact h.takeItem.same.complete

theorem State.Canonical.takeUp (h : s.Canonical) {u : VUse} {st : Nat} {data : Bytes} : (s.takeUp u st data).Canonical := by
  unfold State.takeUp
  split
  · exact h.setQueue
  · exact h.setQueue
  · exact h.recordDone
  · exact h

theorem State.Canonical.fetchItem (h : s.Canonical) {q : Nat} : (s.fetchItem q).Canonical := by
  unfold State.fetchItem
  exact .ite h h.dispatchAccess

theorem State.Canonical.waitSpace (h : s.Canonical) {q : Nat} : (s.waitSpace q).Canonical := by
  unfold State.waitSpace
  extract_lets x
  split <;> exact h.setQueue

theorem State.Canonical.waitCores (h : s.Canonical) {q : Nat} : (s.waitCores q).Canonical := by
  unfold State.waitCores
  exact h.setQueue

theorem State.Canonical.allocIn (h : s.Canonical) {us : List Nat} {r : Region} : (s.allocIn us r).1.Canonical := by
  unfold State.allocIn
  refine .foldl_of Prod.fst h fun h => ?_
  split
  · split
    · exact h.markRegion
    · exact h
    · exact h
    · exact h
  · exact h

theorem State.Canonical.allocAll (h : s.Canonical) {dom : Nat} {members : List Nat} {first only : Nat} {l : List Req1} :
    (s.allocAll dom members first only l).1.Canonical := by
  unfold State.allocAll
  extract_lets one got
  have hgot : got.1.Canonical := by
    unfold got
    refine .foldl_of Prod.fst h fun h => .ite_of Prod.fst (.foldl_of Prod.fst h fun h => .ite_of Prod.fst h ?_) (.ite_of Prod.fst h ?_)
    · split
      · next t u g e => exact h.allocIn.of_eq e
      · next t e e => exact h.allocIn.of_eq e
    · split
      · next t u g e => exact h.allocIn.of_eq e
      · next t e e => exact h.allocIn.of_eq e
  split
  · exact hgot
  · exact .foldl hgot fun h => h.releaseRegion

theorem State.Canonical.readReqs (h : s.Canonical) {q w : Nat} : (s.readReqs q w).1.Canonical := by
  unfold State.readReqs
  extract_lets n
  refine .ite_of Prod.fst h ?_
  split
  · exact .ite h h.dispatchAccess
  · exact .ite_of Prod.fst h (.ite_of Prod.fst h h)

theorem State.Canonical.startGang (h : s.Canonical) {it : Item} {cores : List Nat} {own : List Placed} {grp : Option Machine.Group} :
    (s.startGang it cores own grp).Canonical := by
  unfold State.startGang
  exact .foldl h.same.count fun h => .ite h.startCore h.startCore.coreFault

theorem State.Canonical.placeKernel (h : s.Canonical) {q w : Nat} {again : Option Member} : (s.placeKernel q w again).Canonical := by
  unfold State.placeKernel
  extract_lets grp idle stop l
  clear_value grp
  have hstop {t : State} {status : Nat} (h : t.Canonical) : (stop t status).Canonical := by
    unfold stop
    split
    · exact h.endItem
    · split
      · exact h
      · exact h.setQueue.qError
  have hl : l.1.Canonical := h.readReqs
  clear_value stop l
  refine .ite (hstop h) ?_
  split
  · exact hl
  · exact hstop hl
  · refine .ite (hstop hl) ?_
    split
    · exact .ite (hstop hl) hl.waitCores
    · extract_lets +onlyGivenNames slice a
      have ha : a.1.Canonical := hl.allocAll
      clear_value a
      split
      · exact ha.waitSpace
      · exact hstop ha
      · split
        · exact ha.setQueue.same.startGang
        · extract_lets +onlyGivenNames t old u
          have ht : t.1.Canonical := ha.takeItem
          have hu : u.Canonical := by
            unfold u
            split
            · exact ht
            · exact ht.setQueue
          exact hu.startGang

theorem State.Canonical.setItem (h : s.Canonical) {it : Item} : (s.setItem it).Canonical := by
  unfold State.setItem
  exact h.same

theorem State.Canonical.endMoves (h : s.Canonical) {it : Item} : (s.endMoves it).Canonical := by
  unfold State.endMoves
  extract_lets el
  refine .ite ?_ ?_
  · split
    · exact h.complete
    · exact h.releaseStaging.complete
  · split <;> exact h.complete

theorem State.Canonical.fillMoves (h : s.Canonical) {it : Item} : (s.fillMoves it).Canonical := by
  unfold State.fillMoves
  exact .ite (.ite h.setItem.endMoves h.setItem) (.ite h.setItem h.setItem.dispatchAccess)

theorem State.Canonical.takeDescriptor (h : s.Canonical) {q serial pos st : Nat} {data : Bytes} :
    (s.takeDescriptor q serial pos st data).Canonical := by
  unfold State.takeDescriptor
  split
  · exact .ite h (.ite h.fillMoves h.acceptMove.fillMoves)
  · exact h

theorem State.Canonical.postDone (h : s.Canonical) {c seq st : Nat} : (s.postDone c seq st).Canonical := by
  unfold State.postDone
  extract_lets k
  split
  · exact h
  · exact .ite h (.ite h.coreFault h.ring.setCore)

theorem State.Canonical.settleLoop : ∀ {fuel : Nat} {s : State}, s.Canonical → (State.settleLoop fuel s).Canonical
  | 0, _, h => h
  | fuel + 1, s, h => by
    unfold State.settleLoop
    extract_lets room
    split
    · exact h
    · refine settleLoop (.ite h.same ?_)
      split
      · exact h.same.takeDescriptor
      · exact h.same.postDone
      · exact h.same.takeUp

theorem State.Canonical.settle (h : s.Canonical) : s.settle.Canonical := by
  unfold State.settle
  exact h.freeCondemned.settleLoop

theorem State.Canonical.refill (h : s.Canonical) : s.refill.Canonical := by
  unfold State.refill
  refine (State.Canonical.foldl h fun h => ?_).settle
  split
  · exact .ite h.fillMoves h
  · exact h

theorem State.Canonical.itemRow (h : s.Canonical) {q kind : Nat} {run : State → Nat → State} (hrun : ∀ {t : State} {a1 : Nat},
    t.Canonical → (run t a1).Canonical) :
    Keeps (s.itemRow q kind run) := by
  unfold State.itemRow
  refine .onUnit (.ite h.next ?_)
  split
  · exact .ite (hrun h).settle.next h.next
  · refine .ite h.next ?_
    split
    · exact h.fetchItem.settle.next
    · exact .ite h.endItem.settle.next (.ite h.endItem.settle.next (.ite (hrun h).settle.next h.next))

theorem State.Canonical.execItemNop (h : s.Canonical) {q : Nat} : Keeps (execItemNop q s) := by
  unfold Machine.execItemNop
  exact h.itemRow (fun h => h.endItem)

theorem State.Canonical.execItemKernel (h : s.Canonical) {q : Nat} : Keeps (execItemKernel q s) := by
  unfold Machine.execItemKernel
  exact h.itemRow (fun h => h.placeKernel)

theorem State.Canonical.startMoves (h : s.Canonical) {q w : Nat} : (s.startMoves q w).Canonical := by
  unfold State.startMoves
  exact (State.Canonical.ite h.takeItem.setQueue h.takeItem).same.fillMoves

theorem State.Canonical.execItemMove (h : s.Canonical) {q : Nat} : Keeps (execItemMove q s) := by
  unfold Machine.execItemMove
  exact h.itemRow (fun h => h.startMoves)

theorem State.Canonical.execMoveComplete (h : s.Canonical) {k : Nat} : Keeps (execMoveComplete k s) := by
  unfold Machine.execMoveComplete
  refine .onUnit ?_
  extract_lets j
  split
  · exact h.next
  · split
    · exact .ite h.same.next (State.Canonical.ite h.same.setCore h.same.setCore.coreFault).next
    · split
      · exact h.same.refill.next
      · exact (State.Canonical.ite h.same h.same.fillMoves).refill.next
    · exact h.next

theorem State.Canonical.ralloc (h : s.Canonical) {q w : Nat} : (s.ralloc q w).Canonical := by
  unfold State.ralloc
  extract_lets +onlyGivenNames r
  refine .ite h.endItem ?_
  extract_lets us
  split
  · next fst e => exact h.waitSpace
  · next fst e e => exact h.endItem
  · next t u g e => exact (h.allocIn.of_eq e).takeItem.complete

theorem State.Canonical.execItemRalloc (h : s.Canonical) {q : Nat} : Keeps (execItemRalloc q s) := by
  unfold Machine.execItemRalloc
  exact h.itemRow (fun h => h.ralloc)

theorem State.Canonical.execItemRfree (h : s.Canonical) {q : Nat} : Keeps (execItemRfree q s) := by
  unfold Machine.execItemRfree
  refine (h.itemRow (fun h => ?_))
  split
  · exact h.endItem
  · exact h.releaseRegion.endItem

theorem State.Canonical.beginGroup (h : s.Canonical) {q w : Nat} : (s.beginGroup q w).Canonical := by
  unfold State.beginGroup
  extract_lets l
  have hl : l.1.Canonical := h.readReqs
  split
  · exact hl
  · exact hl.endItem
  · extract_lets a
    have ha : a.1.Canonical := hl.allocAll
    split
    · exact ha.waitSpace
    · exact ha.endItem
    · exact ha.endItem.setQueue

theorem State.Canonical.execRgbegin (h : s.Canonical) {q : Nat} : Keeps (execRgbegin q s) := by
  unfold Machine.execRgbegin
  exact h.itemRow (fun h => h.beginGroup)

theorem State.Canonical.execRgend (h : s.Canonical) {q : Nat} : Keeps (execRgend q s) := by
  unfold Machine.execRgend
  refine (h.itemRow (fun h => ?_))
  split
  · exact h
  · exact .ite h.takeItem.clearQueue.complete h.startMoves

theorem State.Canonical.retryItem (h : s.Canonical) {q : Nat} : Keeps (s.retryItem q) := by
  unfold State.retryItem
  extract_lets x w run
  have hrun {t : State} {k w : Nat} (h : t.Canonical) : (run k t w).Canonical := by
    unfold run
    split
    · exact h.ralloc
    · split
      · exact h.beginGroup
      · exact h.placeKernel
  refine .ite h.next ?_
  split
  · exact .ite h.placeKernel.settle.next h.next
  · exact h.itemRow hrun

theorem State.Canonical.execPlacementRetry (h : s.Canonical) {q : Nat} : Keeps (execPlacementRetry q s) := by
  unfold Machine.execPlacementRetry
  exact .onUnit h.retryItem

theorem State.Canonical.execPlaceLimitExpiry (h : s.Canonical) {q : Nat} : Keeps (execPlaceLimitExpiry q s) := by
  unfold Machine.execPlaceLimitExpiry
  refine .onUnit ?_
  extract_lets x
  split
  · exact h.next
  · refine .ite h.next ?_
    split
    · exact h.setQueue.qError.next
    · exact h.endItem.settle.next

theorem State.Canonical.execKernelTimeout (h : s.Canonical) {g : Nat} : Keeps (execKernelTimeout g s) := by
  unfold Machine.execKernelTimeout
  split
  · exact h.next
  · exact .ite h.next (State.Canonical.foldl h.stopGang fun h => .ite h.setCore h).next

theorem State.Canonical.execBarrierBroken (h : s.Canonical) {g : Nat} : Keeps (execBarrierBroken g s) := by
  unfold Machine.execBarrierBroken
  split
  · exact h.next
  · exact .ite h.stopGang.next h.next

theorem State.Canonical.freeGang (h : s.Canonical) {x : Gang} : (s.freeGang x).Canonical := by
  unfold State.freeGang
  exact (State.Canonical.foldl (.foldl h fun h => .ite h.releaseRegion h) fun h => h.setCore).same.dropScales

theorem State.Canonical.zeroStaging (h : s.Canonical) {g : Machine.Group} : (s.zeroStaging g).Canonical := by
  unfold State.zeroStaging
  exact .foldl h fun h => .foldl h fun h => h.zeroGranule

theorem State.Canonical.replay (h : s.Canonical) {q nsw : Nat} {g : Machine.Group} : (s.replay q nsw g).Canonical := by
  unfold State.replay
  exact h.zeroStaging.count.event.note.waitEvent.setQueue

theorem State.Canonical.memberEnd (h : s.Canonical) {q status nsw : Nat} {g : Machine.Group} :
    (s.memberEnd q status nsw g).Canonical := by
  unfold State.memberEnd
  exact .ite h.releaseStaging.setQueue (.ite h.replay h.setQueue)

theorem State.Canonical.execKernelEnd (h : s.Canonical) {g : Nat} : Keeps (execKernelEnd g s) := by
  unfold Machine.execKernelEnd
  split
  · exact h.next
  · extract_lets s1 nsw s2 grp r s3
    have hs1 : s1.Canonical := .ite h.endRounds h
    have hs2 : s2.Canonical := .foldl hs1 fun h => .ite h.note h
    have hs3 : s3.Canonical := hs2.freeGang
    clear_value s3 grp
    refine .ite hs1.next ?_
    split
    · exact hs3.next
    · split
      · exact hs3.complete.settle.next
      · exact (State.Canonical.ite hs3.memberEnd.complete (State.Canonical.ite hs3.memberEnd.same
          hs3.memberEnd.same.qError).drained).settle.next

theorem State.Canonical.resumeDecode (h : s.Canonical) {n : Nat} : (s.resumeDecode n).Canonical := by
  unfold State.resumeDecode
  exact h.setCore

theorem State.Canonical.execGinfo (h : s.Canonical) {c : Nat} : Keeps (execGinfo c s) := by
  unfold Machine.execGinfo
  exact h.sequencerRow (fun h => .ite h.coreWrite.coreFault h.coreWrite.resumeDecode)

theorem State.Canonical.execGbar (h : s.Canonical) {c : Nat} : Keeps (execGbar c s) := by
  unfold Machine.execGbar
  exact h.sequencerRow (fun h => .ite (State.Canonical.ite h.setCore h).resumeDecode (.ite h.setCore h))

theorem State.Canonical.execSignal (h : s.Canonical) {c : Nat} : Keeps (execSignal c s) := by
  unfold Machine.execSignal
  exact h.sequencerRow (fun h => .ite h (.ite h.coreFault h.sigAdd.resumeDecode))

theorem State.Canonical.execSwait (h : s.Canonical) {c : Nat} : Keeps (execSwait c s) := by
  unfold Machine.execSwait
  exact h.sequencerRow (fun h => .ite h.coreFault (.ite h.resumeDecode h))

theorem State.Canonical.execQpost (h : s.Canonical) {c : Nat} : Keeps (execQpost c s) := by
  unfold Machine.execQpost
  exact h.sequencerRow (fun h => .ite h (.ite h.coreFault (.ite h.readMem.coreFault h.readMem.dispatchAccess.settle)))

theorem State.Canonical.execEventRecordPost (h : s.Canonical) : Keeps (execEventRecordPost s) := by
  unfold Machine.execEventRecordPost
  split
  · exact h.next
  · exact h.same.pumpRecords.settle.next

theorem State.Canonical.setDom (h : s.Canonical) {d st : Nat} : (s.setDom d st).Canonical := by
  unfold State.setDom
  exact h.put.put

theorem State.Canonical.domResult (h : s.Canonical) {busy result : Nat} : (s.domResult busy result).Canonical := by
  unfold State.domResult
  exact h.put.put

theorem State.Canonical.execWalkComplete (h : s.Canonical) {dom va cluster : Nat} : Keeps (execWalkComplete dom va cluster s) := by
  unfold Machine.execWalkComplete
  refine .onUnit (.onUnit ?_)
  split
  · exact h.next
  · exact h.same.endWalk.afterWalk.detach.settle.next

theorem State.Canonical.execPendingZeroWriteDone (h : s.Canonical) {frame : Nat} {ok : Bool} :
    Keeps (execPendingZeroWriteDone frame ok s) := by
  unfold Machine.execPendingZeroWriteDone
  split
  · exact h.next
  · exact h.zeroDone.settle.next

theorem State.Canonical.activate (h : s.Canonical) {d kind : Nat} : (s.activate d kind).Canonical := by
  unfold State.activate
  extract_lets limit
  refine .ite h.domResult ?_
  refine .ite h.domResult ?_
  split
  · exact h.domResult
  · next t e => exact (h.allocRoot e).put.setDom.domResult

theorem State.Canonical.stopTests (h : s.Canonical) {d : Nat} : (s.stopTests d).Canonical := by
  unfold State.stopTests
  exact .foldl h fun h => .ite h.haltCore.testOver h

theorem State.Canonical.tearDown (h : s.Canonical) {d : Nat} : (s.tearDown d).Canonical := by
  unfold State.tearDown
  extract_lets s1 mine s2 s3 s4 s5 stop s6
  have hs1 : s1.Canonical := h.setDom
  have hs2 : s2.Canonical := hs1.dropAccess
  have hs3 : s3.Canonical := hs2.same
  have hs4 : s4.Canonical := .foldl hs3 fun h => h.stopGang
  have hs5 : s5.Canonical := hs4.stopTests.endRounds.sqTeardown
  have hs6 : s6.Canonical := (State.Canonical.foldl hs5 fun h => .ite h (.ite h (.ite h.setMove h.endMove))).dropWaiters
  exact hs6.domResult

theorem State.Canonical.domCommand (h : s.Canonical) {d cmd kind : Nat} : (s.domCommand d cmd kind).Canonical := by
  unfold State.domCommand
  exact .ite h (.ite h.put (.ite (.ite h.put.activate h.put.domResult.same) (.ite h.put.domResult h.put.tearDown)))

theorem State.Canonical.execCadastreWritten (h : s.Canonical) : Keeps (execCadastreWritten s) := by
  unfold Machine.execCadastreWritten
  refine .ite h.next ?_
  extract_lets t
  have ht : t.Canonical := h.same
  split
  · exact ht.next
  · exact ht.activate.next

theorem State.Canonical.execTeardownComplete (h : s.Canonical) {d : Nat} : Keeps (execTeardownComplete d s) := by
  unfold Machine.execTeardownComplete
  exact .onUnit (.ite h.next (State.Canonical.foldl (State.Canonical.foldl (State.Canonical.foldl h.same fun h =>
    h.releaseWhere).freeDomain fun h => h.put).setDom fun h => h.put).domResult.event.waitEvent.next)

/-! ### Links -/

theorem State.Canonical.pullEntry (h : s.Canonical) {e : Nat} : (s.pullEntry e).Canonical := by
  unfold State.pullEntry
  exact (State.Canonical.foldl h fun h => h.setMod).same

theorem State.Canonical.routeCheck (h : s.Canonical) {e : Nat} : (s.routeCheck e).Canonical := by
  unfold State.routeCheck
  refine .ite h ?_
  extract_lets +onlyGivenNames pri up was now s1
  have hs1 : s1.Canonical := .ite h (.ite h.same h.same.put.event)
  exact .ite hs1 (.ite hs1.put.bump.put.same.pullEntry.put.event hs1.put.bump.put.same.pullEntry)

theorem State.Canonical.endRequest (h : s.Canonical) {tag st : Nat} {data : Bytes} : (s.endRequest tag st data).Canonical := by
  unfold State.endRequest
  split
  · exact h
  · extract_lets s1
    have hs1 : s1.Canonical := h.same
    split
    · exact hs1.moveReply.settle
    · exact hs1.moveCode
    · exact hs1
    · exact hs1.sqFail
    · exact hs1.walkReply
    · exact hs1.zeroReply
    · exact hs1.same

theorem State.Canonical.roundPath (h : s.Canonical) {p : Packet} : (s.roundPath p).Canonical := by
  unfold State.roundPath
  split
  · exact .ite h.failRound h
  · exact h

theorem State.Canonical.noPath (h : s.Canonical) {p : Packet} : (s.noPath p).Canonical := by
  unfold State.noPath
  exact .ite h.markSent.same (.ite (.ite h.endRequest (.ite h.roundPath h)) h.send)

theorem State.Canonical.dropDead (h : s.Canonical) : s.dropDead.Canonical := by
  unfold State.dropDead
  exact .foldl h.same fun h => h.noPath

theorem State.Canonical.routesCheck (h : s.Canonical) : s.routesCheck.Canonical := by
  unfold State.routesCheck
  exact .foldl h fun h => h.routeCheck

theorem State.Canonical.routesSettle (h : s.Canonical) : s.routesSettle.Canonical := by
  unfold State.routesSettle
  exact h.dropDead.flushWaiting.sqPaths

theorem State.Canonical.routesChanged (h : s.Canonical) : s.routesChanged.Canonical := by
  unfold State.routesChanged
  exact h.routesCheck.routesSettle

theorem State.Canonical.execRouteHoldEnd (h : s.Canonical) {entry : Nat} : Keeps (execRouteHoldEnd entry s) := by
  unfold Machine.execRouteHoldEnd
  refine .onUnit ?_
  split
  · exact h.next
  · exact .ite h.next h.same.put.routesChanged.next

theorem State.Canonical.execRequestTimeout (h : s.Canonical) {tag : Nat} : Keeps (execRequestTimeout tag s) := by
  unfold Machine.execRequestTimeout
  split
  · exact h.next
  · exact .ite h.next h.same.endRequest.next

theorem State.Canonical.lnkEvent (h : s.Canonical) {f : Fld} {m : Nat} : (s.lnkEvent f m).Canonical := by
  unfold State.lnkEvent
  exact h.put.event

theorem State.Canonical.setModState (h : s.Canonical) {m st : Nat} : (s.setModState m st).Canonical := by
  unfold State.setModState
  exact h.put.put.setMod

theorem State.Canonical.requeue (h : s.Canonical) {m : Nat} : (s.requeue m).Canonical := by
  unfold State.requeue
  exact h.setMod.same

theorem State.Canonical.dropFlits (h : s.Canonical) {m : Nat} : (s.dropFlits m).1.Canonical := by
  unfold State.dropFlits
  exact .ite_of Prod.fst h.setMod h.setMod.bump

theorem State.Canonical.flitsLost (h : s.Canonical) {m : Nat} : (s.flitsLost m).Canonical := by
  unfold State.flitsLost
  exact h.put.event

theorem State.Canonical.loseFlits (h : s.Canonical) {m : Nat} : (s.loseFlits m).Canonical := by
  unfold State.loseFlits
  exact .ite h.dropFlits.flitsLost h.dropFlits

theorem State.Canonical.stepOut (h : s.Canonical) {m st : Nat} : (s.stepOut m st).Canonical := by
  unfold State.stepOut
  exact h.setModState.setMod.requeue

theorem State.Canonical.leaveActive (h : s.Canonical) {m st : Nat} : (s.leaveActive m st).Canonical := by
  unfold State.leaveActive
  exact h.stepOut.routesChanged

theorem State.Canonical.leaveAll (h : s.Canonical) {l : List (Nat × Nat)} {ev : State → State} (hev : ∀ {t : State}, t.Canonical → (ev
    t).Canonical) :
    (s.leaveAll l ev).Canonical := by
  unfold State.leaveAll
  extract_lets r
  have hr : r.1.Canonical := .foldl_of Prod.fst h fun h => h.dropFlits.stepOut
  exact .foldl (hev hr).routesCheck fun h => h.flitsLost

theorem State.Canonical.fallen (h : s.Canonical) {m cause : Nat} : (s.fallen m cause).Canonical := by
  unfold State.fallen
  exact (State.Canonical.ite h.put.lnkEvent h.put).lnkEvent

theorem State.Canonical.modsDown (h : s.Canonical) {l : List Nat} {cause : Nat} {rec : State → State} (hrec : ∀ {t : State}, t.Canonical
    → (rec t).Canonical) :
    (s.modsDown l cause rec).Canonical := by
  unfold State.modsDown
  exact (hrec (.foldl (h.leaveAll (fun h => .foldl h fun h => h.fallen)) fun h => h.note)).routesSettle

theorem State.Canonical.modDown (h : s.Canonical) {m cause : Nat} : (s.modDown m cause).Canonical := by
  unfold State.modDown
  exact h.modsDown (fun h => h)

theorem State.Canonical.modSbinit (h : s.Canonical) {m : Nat} : (s.modSbinit m).Canonical := by
  unfold State.modSbinit
  exact .ite h h.put.leaveActive.setMod

theorem State.Canonical.quarantine (h : s.Canonical) {m : Nat} : (s.quarantine m).Canonical := by
  unfold State.quarantine
  exact (h.leaveAll (fun h => h.lnkEvent)).note.routesSettle

theorem State.Canonical.countViolation (h : s.Canonical) {m code : Nat} : (s.countViolation m code).Canonical := by
  unfold State.countViolation
  exact h.bump.put.setMod

theorem State.Canonical.quarCheck (h : s.Canonical) {m : Nat} : (s.quarCheck m).Canonical := by
  unfold State.quarCheck
  exact .ite h.quarantine h

theorem State.Canonical.quarSince {t : State} (h : t.Canonical) {s : State} {m : Nat} : (t.quarSince s m).Canonical := by
  unfold State.quarSince
  exact .ite h h.quarCheck

theorem State.Canonical.violation (h : s.Canonical) {m code : Nat} : (s.violation m code).Canonical := by
  unfold State.violation
  exact h.countViolation.quarCheck

theorem State.Canonical.mbtrain (h : s.Canonical) {m top : Nat} : (s.mbtrain m top).Canonical := by
  unfold State.mbtrain
  exact .ite h.setModState.modDown h.setModState.setMod

theorem State.Canonical.enterRetrain (h : s.Canonical) {m : Nat} : (s.enterRetrain m).Canonical := by
  unfold State.enterRetrain
  exact .ite h h.setModState.setMod.bump.lnkEvent

theorem State.Canonical.modActive (h : s.Canonical) {m rate width set : Nat} : (s.modActive m rate width set).Canonical := by
  unfold State.modActive
  exact (State.Canonical.ite h.put.put.put.setModState.setMod.lnkEvent h.put.put.put.setModState.setMod).routesChanged

theorem State.Canonical.badRecord (h : s.Canonical) {m : Nat} : (s.badRecord m).Canonical := by
  unfold State.badRecord
  exact .ite h.setMod.violation.modDown h.setMod.violation

theorem State.Canonical.execSbinitRetry (h : s.Canonical) {m : Nat} : Keeps (execSbinitRetry m s) := by
  unfold Machine.execSbinitRetry
  exact .onUnit (.ite h.setModState.next h.next)

theorem State.Canonical.sendSideband (h : s.Canonical) {m : Nat} {x : Sideband} : (s.sendSideband m x).Canonical := by
  unfold State.sendSideband
  exact h.setMod

theorem State.Canonical.sidebandIn (h : s.Canonical) {m : Nat} {r : State → Res} (hr : ∀ {t : State}, t.Canonical → Keeps (r t)) :
    Keeps (s.sidebandIn m r) := by
  unfold State.sidebandIn
  exact .ite h.sendSideband.next (hr h)

theorem State.Canonical.execSbinitDone (h : s.Canonical) {m : Nat} : Keeps (execSbinitDone m s) := by
  unfold Machine.execSbinitDone
  exact .onUnit (.ite h.setModState.sendSideband.next h.next)

theorem State.Canonical.takeFeature (h : s.Canonical) {m : Nat} {r : BitVec 512} : (s.takeFeature m r).Canonical := by
  unfold State.takeFeature
  exact (State.Canonical.ite h.put.put.put.put.put.put.put.put h.put.put.put.put.put.put.put.put.loseFlits).setMod

theorem State.Canonical.execFeatureRecord (h : s.Canonical) {m : Nat} {r : BitVec 512} : Keeps (execFeatureRecord m r s) := by
  unfold Machine.execFeatureRecord
  exact .onUnit (h.sidebandIn (fun h => .ite h.next (.ite h.badRecord.next (.ite h.takeFeature.next (.ite (.ite
    h.takeFeature.setMod.mbtrain.next h.takeFeature.next) (.ite h.takeFeature.setMod.modDown.next (.ite h.takeFeature.setMod.modDown.next
    (.ite h.takeFeature.setMod.modDown.next (.ite h.takeFeature.setMod.modDown.next (State.Canonical.ite h.takeFeature.setMod.lnkEvent
    h.takeFeature.setMod).mbtrain.next)))))))))

theorem State.Canonical.execExchangeTimeout (h : s.Canonical) {m : Nat} : Keeps (execExchangeTimeout m s) := by
  unfold Machine.execExchangeTimeout
  exact .onUnit (.ite h.badRecord.next h.next)

theorem State.Canonical.execRateAttempt (h : s.Canonical) {m ownMap : Nat} {peerOk : Bool} :
    Keeps (execRateAttempt m ownMap peerOk s) := by
  unfold Machine.execRateAttempt
  refine .onUnit ?_
  extract_lets s1 x
  have hs1 : s1.Canonical := .ite h.setModState h
  split
  · exact (State.Canonical.ite hs1.modDown hs1).next
  · split
    · exact hs1.put.setModState.setMod.sendSideband.next
    · exact .ite hs1.put.modDown.next hs1.put.setModState.setMod.next

theorem State.Canonical.execClosureRecord (h : s.Canonical) {m peerMap peerRate peerWidth peerSet peerMin peerResets : Nat} :
    Keeps (execClosureRecord m peerMap peerRate peerWidth peerSet peerMin peerResets s) := by
  unfold Machine.execClosureRecord
  refine .onUnit (h.sidebandIn (fun h => .ite h.next (.ite h.badRecord.next ?_)))
  extract_lets +onlyGivenNames x t
  have ht : t.Canonical := h.put
  refine .ite ht.modActive.next ?_
  extract_lets +onlyGivenNames t2
  have ht2 : t2.Canonical := ht.bump
  refine .ite ht2.setMod.mbtrain.next ?_
  extract_lets old t3 own
  have ht3 : t3.Canonical := ht2.setMod
  split
  · exact ht3.modDown.next
  · exact ht3.bump.modActive.lnkEvent.note.next

theorem State.Canonical.execPartnerRetrainRequest (h : s.Canonical) {m : Nat} : Keeps (execPartnerRetrainRequest m s) := by
  unfold Machine.execPartnerRetrainRequest
  exact .onUnit (h.sidebandIn (fun h => h.enterRetrain.next))

theorem State.Canonical.execRetrainTimeout (h : s.Canonical) {m : Nat} : Keeps (execRetrainTimeout m s) := by
  unfold Machine.execRetrainTimeout
  exact .onUnit (.ite h.modDown.next h.next)

theorem State.Canonical.execSidebandLoss (h : s.Canonical) {m : Nat} : Keeps (execSidebandLoss m s) := by
  unfold Machine.execSidebandLoss
  exact .onUnit (.ite h.modSbinit.next h.next)

theorem State.Canonical.execPartnerSidebandRestart (h : s.Canonical) {m : Nat} : Keeps (execPartnerSidebandRestart m s) := by
  unfold Machine.execPartnerSidebandRestart
  exact .onUnit (h.sidebandIn (fun h => .ite h.modSbinit.next (.ite h.modSbinit.next h.next)))

theorem State.Canonical.modControl (h : s.Canonical) {m v : Nat} : (s.modControl m v).Canonical := by
  unfold State.modControl
  extract_lets +onlyGivenNames st cause
  refine .ite (.ite h h.modDown) ?_
  extract_lets s1
  have hs1 : s1.Canonical := .ite h.modSbinit h
  exact .ite (.ite hs1.enterRetrain (.ite hs1.modSbinit hs1)) hs1

theorem State.Canonical.sendFlit (h : s.Canonical) {m : Nat} : (s.sendFlit m).1.Canonical := by
  unfold State.sendFlit
  extract_lets bulk old x done c again
  clear_value again
  split
  · exact .ite_of Prod.fst h.setMod (.ite_of Prod.fst h.setMod.bump h.setMod.count)
  · exact .ite_of Prod.fst h.setMod h.same.markSent.setMod.count

theorem State.Canonical.limitHit (h : s.Canonical) {m : Nat} : (s.limitHit m).Canonical := by
  unfold State.limitHit
  exact h.put.event.enterRetrain

theorem State.Canonical.txFlit (h : s.Canonical) {m : Nat} : (s.txFlit m).Canonical := by
  unfold State.txFlit
  exact .ite h.sendFlit.limitHit h.sendFlit

theorem State.Canonical.execAckDue (h : s.Canonical) {m : Nat} : Keeps (execAckDue m s) := by
  unfold Machine.execAckDue
  exact .onUnit (.ite h.txFlit.next h.next)

theorem State.Canonical.flitControl (h : s.Canonical) {m : Nat} {b : Bytes} : (s.flitControl m b).Canonical := by
  unfold State.flitControl
  extract_lets w ack x y s1 s2
  have hs1 : s1.Canonical := .ite (.ite h.countViolation h.setMod) h
  have hs2 : s2.Canonical := .foldl hs1 fun h => .ite h (.ite h.setMod.countViolation h.setMod)
  exact .ite hs2.countViolation hs2

theorem State.Canonical.badCrc (h : s.Canonical) {m : Nat} : (s.badCrc m).Canonical := by
  unfold State.badCrc
  exact .ite h.setMod.bump.setMod.put.event.enterRetrain h.setMod.bump

theorem State.Canonical.flitIn (h : s.Canonical) {m : Nat} {b : Bytes} : (s.flitIn m b).1.Canonical := by
  unfold State.flitIn
  refine .ite_of Prod.fst h.badCrc ?_
  extract_lets +onlyGivenNames w x
  refine .ite_of Prod.fst h.setMod ?_
  extract_lets +onlyGivenNames s1
  have hs1 : s1.Canonical := h.flitControl.flushWaiting
  refine .ite_of Prod.fst hs1 ?_
  extract_lets +onlyGivenNames first x2 x3 s2 pay
  have hs2 : s2.Canonical := hs1.count
  refine .ite_of Prod.fst hs2.setMod ?_
  extract_lets stream c s3
  have hs3 : s3.Canonical := hs2.setMod
  refine ?_
  split
  · exact hs3.countViolation
  · exact hs3

/-! ### Surveyor -/

theorem State.Canonical.readNotes (h : s.Canonical) {v : Nat} : (s.readNotes v).Canonical := by
  unfold State.readNotes
  exact h.put

theorem State.Canonical.execDieFatal (h : s.Canonical) {unit : Nat} : Keeps (execDieFatal unit s) := by
  unfold Machine.execDieFatal
  refine .ite h.next ?_
  exact ((State.Canonical.foldl h fun h => .ite h.haltCore h).same.put.put.event.modsDown (fun h => h.note)).next

theorem State.Canonical.mbOwnBy (h : s.Canonical) {a : Acc} {i : Nat} : (s.mbOwnBy a i).Canonical := by
  unfold State.mbOwnBy
  exact h.put.put

theorem State.Canonical.mbRefused (h : s.Canonical) {i code : Nat} : (s.mbRefused i code).Canonical := by
  unfold State.mbRefused
  exact .ite h.put.event h.put

theorem State.Canonical.mbAccept (h : s.Canonical) {a : Acc} {i len : Nat} : (s.mbAccept a i len).Canonical := by
  unfold State.mbAccept
  exact h.mbOwnBy.put.put.put.event

theorem State.Canonical.mbPost (h : s.Canonical) {a : Acc} {i len : Nat} : (s.mbPost a i len).Canonical := by
  unfold State.mbPost
  exact .ite h.mbRefused.refuse (.ite h.mbRefused.done (.ite h.done h.mbAccept.done))

theorem State.Canonical.mbMessage (h : s.Canonical) {a : Acc} {i : Nat} {data : Bytes} : (s.mbMessage a i data).1.Canonical := by
  unfold State.mbMessage
  exact .ite_of Prod.fst h.mbRefused (.ite_of Prod.fst h.mbRefused h.putBytes.mbAccept)

theorem State.Canonical.mbFill (h : s.Canonical) {a : Acc} {i w v : Nat} : (s.mbFill a i w v).Canonical := by
  unfold State.mbFill
  exact .ite h.refuse (.ite h.mbOwnBy.put.put.done (.ite h.refuse (.ite h.put.done (.ite h.put.put.done h.done))))

theorem State.Canonical.mbReplyWord (h : s.Canonical) {a : Acc} {i w v : Nat} : (s.mbReplyWord a i w v).Canonical := by
  unfold State.mbReplyWord
  exact .ite h.put.done h.refuse

theorem State.Canonical.mbRelease (h : s.Canonical) {a : Acc} {i : Nat} : (s.mbRelease a i).Canonical := by
  unfold State.mbRelease
  exact .ite h.put.put.put.done h.refuse

theorem State.Canonical.mbTake (h : s.Canonical) {a : Acc} {i : Nat} : (s.mbTake a i).Canonical := by
  unfold State.mbTake
  exact .ite h.refuse (.ite h.put.done h.done)

theorem State.Canonical.mbReplied (h : s.Canonical) {i len status : Nat} : (s.mbReplied i len status).Canonical := by
  unfold State.mbReplied
  exact h.put.put.put

theorem State.Canonical.mbReply (h : s.Canonical) {a : Acc} {i len : Nat} : (s.mbReply a i len).Canonical := by
  unfold State.mbReply
  exact .ite h.refuse (.ite h.mbReplied.done h.done)

theorem State.Canonical.mbControl (h : s.Canonical) {a : Acc} {i v : Nat} : (s.mbControl a i v).Canonical := by
  unfold State.mbControl
  exact .ite h.mbPost (.ite h.mbRelease (.ite h.mbTake (.ite h.mbReply h.done)))

theorem State.Canonical.execLoadWindow (h : s.Canonical) {percent : Nat} : Keeps (execLoadWindow percent s) := by
  unfold Machine.execLoadWindow
  exact .ite h.next (.ite h.put.next h.put.put.event.note.next)

theorem State.Canonical.execMirrorSnapshot (h : s.Canonical) : Keeps (execMirrorSnapshot s) := by
  unfold Machine.execMirrorSnapshot
  exact (State.Canonical.foldl h.put.put fun h => h.put).put.put.next

theorem State.Canonical.kick (h : s.Canonical) {a : Acc} {v : Nat} : (s.kick a v).Canonical := by
  unfold State.kick
  exact .ite h.refuse (.ite h.same.done h.done)

theorem State.Canonical.mbAbandon (h : s.Canonical) {status : Nat} : (s.mbAbandon status).Canonical := by
  unfold State.mbAbandon
  exact .foldl h fun h => .ite h.mbReplied h

theorem State.Canonical.svyHalt (h : s.Canonical) {rec : State → State} (hrec : ∀ {t : State}, t.Canonical → (rec t).Canonical) :
    (s.svyHalt rec).Canonical := by
  unfold State.svyHalt
  exact (hrec h.put.mbAbandon.event).note

theorem State.Canonical.svyRestart (h : s.Canonical) {cause : Nat} {rec : State → State} (hrec : ∀ {t : State}, t.Canonical → (rec
    t).Canonical) :
    (s.svyRestart cause rec).Canonical := by
  unfold State.svyRestart
  exact .ite (h.svyHalt hrec) (hrec h).put.mbAbandon.same

theorem State.Canonical.execWatchdogExpiry (h : s.Canonical) : Keeps (execWatchdogExpiry s) := by
  unfold Machine.execWatchdogExpiry
  exact .ite (h.svyRestart (fun h => h)).next h.next

theorem State.Canonical.execSurveyorMemoryError (h : s.Canonical) {addr : Nat} : Keeps (execSurveyorMemoryError addr s) := by
  unfold Machine.execSurveyorMemoryError
  exact .onUnit (.ite h.next (.ite h.setFlips.noteCe.next (State.Canonical.ite (h.event.svyHalt (fun h => h.note)) (h.event.svyRestart
    (fun h => h.note))).next))

theorem State.Canonical.execSurveyorRestartEnd (h : s.Canonical) : Keeps (execSurveyorRestartEnd s) := by
  unfold Machine.execSurveyorRestartEnd
  exact .ite h.next (State.Canonical.foldl h.put.bump.same.event.note fun h => .ite h.raiseIrq h).next

theorem State.Canonical.setMeas (h : s.Canonical) {i : Nat} {b : Bytes} : (s.setMeas i b).Canonical := by
  unfold State.setMeas
  exact h.putBytes

theorem State.Canonical.extend (h : s.Canonical) {i : Nat} {d : Bytes} : (s.extend i d).Canonical := by
  unfold State.extend
  exact h.setMeas

theorem State.Canonical.measControl (h : s.Canonical) {a : Acc} {v : Nat} : (s.measControl a v).Canonical := by
  unfold State.measControl
  exact .ite h.done (.ite h.refuse (.ite h.done h.extend.done))

theorem State.Canonical.quoteControl (h : s.Canonical) {a : Acc} {v : Nat} : (s.quoteControl a v).Canonical := by
  unfold State.quoteControl
  exact .ite h.done (.ite h.refuse (.ite h.event.done h.put.same.done))

theorem State.Canonical.execQuoteDone (h : s.Canonical) : Keeps (execQuoteDone s) := by
  unfold Machine.execQuoteDone
  exact .ite h.next h.putBytes.put.same.event.note.next

theorem State.Canonical.freshChallenge (h : s.Canonical) : s.freshChallenge.Canonical := by
  unfold State.freshChallenge
  exact h.same

theorem State.Canonical.submitToken (h : s.Canonical) : s.submitToken.Canonical := by
  unfold State.submitToken
  exact (State.Canonical.ite h.put.extend.put.event.note h.put.same.event.note).freshChallenge

theorem State.Canonical.maStart (h : s.Canonical) {write : Bool} : (s.maStart write).Canonical := by
  unfold State.maStart
  exact .ite h.put.same (.ite h.put.same (.ite h.put.same.tryRequest h.put.same))

theorem State.Canonical.dbgControl (h : s.Canonical) {v : Nat} : (s.dbgControl v).Canonical := by
  unfold State.dbgControl
  exact .ite h.refuse (State.Canonical.ite (State.Canonical.ite h.submitToken h).maStart (.ite h.submitToken h)).done

theorem State.Canonical.maMemory (h : s.Canonical) {addr : Nat} {write : Option Bytes} : (s.maMemory addr write).1.Canonical := by
  unfold State.maMemory
  split
  · exact h
  · extract_lets g st old w
    refine .ite_of Prod.fst h ?_
    refine .ite_of Prod.fst h ?_
    split
    · exact .ite_of Prod.fst h.writeLine h
    · exact .ite_of Prod.fst h.readLine (.ite_of Prod.fst h.decodeLine h)

theorem State.Canonical.execMaComplete (h : s.Canonical) : Keeps (execMaComplete s) := by
  unfold Machine.execMaComplete
  split
  · exact h.next
  · extract_lets +onlyGivenNames data a
    refine .ite h.next ?_
    extract_lets r t t2
    have hr : r.1.Canonical := by
      unfold r
      split
      · exact h
      · exact h.maMemory
    have ht : t.Canonical := hr.put.put
    have ht2 : t2.Canonical := .ite ht ht.putBytes
    exact ht2.same.next

/-! ### Bringup -/

theorem State.Canonical.crystal (h : s.Canonical) : s.crystal.Canonical := by
  unfold State.crystal
  exact h.put.put

theorem State.Canonical.latch (h : s.Canonical) : s.latch.Canonical := by
  unfold State.latch
  exact h.same.put.put.put.crystal.put

theorem State.Canonical.keep (h : s.Canonical) {old : State} {f : Fld} {e : Nat} : (s.keep old f e).Canonical := by
  unfold State.keep
  exact h.put

theorem State.warmReset_canonical {s : State} {cause count : Nat} : (s.warmReset cause count).Canonical := by
  unfold State.warmReset
  extract_lets r old t1 t2 t3 t4
  have ht1 : t1.Canonical := .empty rfl rfl
  have ht2 : t2.Canonical := .foldl ht1 fun h => h.keep
  have ht3 : t3.Canonical := .foldl ht2 fun h => h.keep
  exact ht3.put.put.put.crystal.freshChallenge

theorem State.Canonical.powerUp (_ : s.Canonical) : s.powerUp.Canonical := by
  unfold State.powerUp
  exact State.reset_canonical.same.freshChallenge

theorem State.Canonical.execColdPowerUp (h : s.Canonical) : Keeps (execColdPowerUp s) := by
  unfold Machine.execColdPowerUp
  exact h.powerUp.crystal.next

theorem State.Canonical.pinReset (h : s.Canonical) : s.pinReset.Canonical := by
  unfold State.pinReset
  exact .ite h State.warmReset_canonical

theorem State.Canonical.railLost (h : s.Canonical) : s.railLost.Canonical := by
  unfold State.railLost
  exact h.pinReset.same

theorem State.Canonical.execWarmResetByPin (h : s.Canonical) {rail : Option Nat} : Keeps (execWarmResetByPin rail s) := by
  unfold Machine.execWarmResetByPin
  split
  · exact h.pinReset.same.next
  · exact .onUnit h.railLost.next

theorem State.Canonical.execVsramBelowVcore (h : s.Canonical) : Keeps (execVsramBelowVcore s) := by
  unfold Machine.execVsramBelowVcore
  exact h.railLost.next

theorem State.Canonical.holdChanged (h : s.Canonical) {old : State} : (s.holdChanged old).Canonical := by
  unfold State.holdChanged
  exact .ite h.latch h

theorem State.Canonical.execRailsValid (h : s.Canonical) : Keeps (execRailsValid s) := by
  unfold Machine.execRailsValid
  exact h.same.holdChanged.next

theorem State.Canonical.execVaonLoss (h : s.Canonical) : Keeps (execVaonLoss s) := by
  unfold Machine.execVaonLoss
  exact h.powerUp.same.next

theorem State.Canonical.vaonSample (h : s.Canonical) {milliVolt : Nat} : (s.vaonSample milliVolt).Canonical := by
  unfold State.vaonSample
  exact .ite h.powerUp.crystal h.same

theorem State.Canonical.execRailSample (h : s.Canonical) {rail milliVolt current : Nat} :
    Keeps (execRailSample rail milliVolt current s) := by
  unfold Machine.execRailSample
  exact .onUnit (.ite (State.Canonical.ite h.vaonSample h).next (.ite h.railSample.next (.ite h.railSample.execVaonLoss
    (State.Canonical.ite h.railSample h.railSample.railLost).next)))

theorem State.Canonical.execRstNDeassert (h : s.Canonical) {datumEn cfgMaster : Bool} {diepos : Nat} :
    Keeps (execRstNDeassert datumEn cfgMaster diepos s) := by
  unfold Machine.execRstNDeassert
  exact h.same.holdChanged.next

theorem State.Canonical.execReferenceGlitch (h : s.Canonical) : Keeps (execReferenceGlitch s) := by
  unfold Machine.execReferenceGlitch
  exact h.bump.event.next

theorem State.Canonical.refReset (h : s.Canonical) : s.refReset.Canonical := by
  unfold State.refReset
  exact (State.Canonical.ite h State.warmReset_canonical).same

theorem State.Canonical.execReferenceLost (h : s.Canonical) : Keeps (execReferenceLost s) := by
  unfold Machine.execReferenceLost
  exact h.put.refReset.next

theorem State.Canonical.execPllLost (h : s.Canonical) {island : Nat} : Keeps (execPllLost island s) := by
  unfold Machine.execPllLost
  exact .onUnit h.put.refReset.next

theorem State.Canonical.execReferenceReturn (h : s.Canonical) : Keeps (execReferenceReturn s) := by
  unfold Machine.execReferenceReturn
  exact h.same.holdChanged.next

theorem State.Canonical.execSecondReferenceSeen (h : s.Canonical) : Keeps (execSecondReferenceSeen s) := by
  unfold Machine.execSecondReferenceSeen
  exact .ite h.next h.put.event.next

theorem State.Canonical.execThermalTrip (_ : s.Canonical) {sensor : Nat} : Keeps (execThermalTrip sensor s) := by
  unfold Machine.execThermalTrip
  exact .onUnit State.warmReset_canonical.put.same.next

theorem State.Canonical.commandReset (h : s.Canonical) : s.commandReset.Canonical := by
  unfold State.commandReset
  exact .ite h State.warmReset_canonical.latch

theorem State.Canonical.toPhase (h : s.Canonical) {p : Nat} : (s.toPhase p).Canonical := by
  unfold State.toPhase
  exact (State.Canonical.ite h.put h).put.same

theorem State.Canonical.fail (h : s.Canonical) {code : Nat} : (s.fail code).Canonical := by
  unfold State.fail
  exact h.toPhase.put.event

theorem State.Canonical.execAonPhase (h : s.Canonical) : Keeps (execAonPhase s) := by
  unfold Machine.execAonPhase
  exact .ite h.next (State.Canonical.ite h.toPhase h.toPhase.latch).next

theorem State.Canonical.execFusePhase (h : s.Canonical) : Keeps (execFusePhase s) := by
  unfold Machine.execFusePhase
  refine .ite h.next (.ite h.fail.next ?_)
  extract_lets old f s1 s2 l s3 s4 s5 s6 s7 s8
  have hs2 : s2.Canonical := h.put.put.put
  have hs4 : s4.Canonical := .foldl hs2.put fun h => h.put
  have hs5 : s5.Canonical := .ite hs4.putBytes hs4
  have hs8 : s8.Canonical := hs5.setMeas.put.put.askVcore.same
  exact (State.Canonical.foldl hs8 fun h => h.put).toPhase.next

theorem State.Canonical.execBist (h : s.Canonical) {findings : List (BitVec 32)} {codes : List Nat} {fatal : Bool} :
    Keeps (execBist findings codes fatal s) := by
  unfold Machine.execBist
  extract_lets s1 s2 old s3
  have hs1 : s1.Canonical := .foldl h fun h => h.put
  have hs2 : s2.Canonical := .foldl hs1 fun h => h.put
  clear_value s2
  have hs3 : s3.Canonical := hs2.newMem rfl
  exact .ite h.next (State.Canonical.ite hs3.fail hs3.toPhase).next

theorem State.Canonical.markLinks (h : s.Canonical) {l : List Nat} : (s.markLinks l).Canonical := by
  unfold State.markLinks
  exact .foldl h fun h => .ite h.same (.ite h.same.put h)

theorem State.Canonical.execReconcile (h : s.Canonical) : Keeps (execReconcile s) := by
  unfold Machine.execReconcile
  exact .ite h.next (State.Canonical.ite h.event h).markLinks.toPhase.next

theorem State.Canonical.newFindings (h : s.Canonical) : s.newFindings.Canonical := by
  unfold State.newFindings
  exact .foldl h fun h => h.platAdd

theorem State.Canonical.execSideband (h : s.Canonical) : Keeps (execSideband s) := by
  unfold Machine.execSideband
  refine .ite h.next ?_
  extract_lets s1
  have hs1 : s1.Canonical := .foldl h fun h => .ite h.modSbinit h
  exact .ite hs1.toPhase.next hs1.next

theorem State.Canonical.execFetchQspi (h : s.Canonical) {stream : Bytes} : Keeps (execFetchQspi stream s) := by
  unfold Machine.execFetchQspi
  exact .ite h.next (.ite h.same.put.toPhase.next (State.Canonical.ite h.same.event h.same.event.fail).next)

theorem State.Canonical.askImage (h : s.Canonical) {m : Nat} : (s.askImage m).Canonical := by
  unfold State.askImage
  exact h.freshTag.same.sendVia

theorem State.Canonical.execFetchBootLink (h : s.Canonical) : Keeps (execFetchBootLink s) := by
  unfold Machine.execFetchBootLink
  refine .ite h.next ?_
  extract_lets old s1
  have hs1 : s1.Canonical := .ite h.same.event h
  exact .ite hs1.next (State.Canonical.foldl hs1 fun h => .ite h h.askImage).next

theorem State.Canonical.serveStream (h : s.Canonical) {m : Nat} : (s.serveStream m).Canonical := by
  unfold State.serveStream
  split
  · exact h
  · exact .foldl h.setMod fun h => h.sendVia

theorem State.Canonical.gotImage (h : s.Canonical) {m : Nat} {p : Packet} : (s.gotImage m p).Canonical := by
  unfold State.gotImage
  refine .ite h ?_
  exact .ite (.ite h.setMod.serveStream h.setMod) (.ite h.bump (.ite h (.ite h.same.put.put.toPhase h.same.put.put)))

theorem State.Canonical.execVerify (h : s.Canonical) : Keeps (execVerify s) := by
  unfold Machine.execVerify
  refine .ite h.next ?_
  extract_lets +onlyGivenNames b signed pub slot
  refine .ite h.fail.next ?_
  refine .ite h.fail.next ?_
  refine .ite h.fail.next ?_
  refine .ite h.fail.next ?_
  refine .ite h.fail.next ?_
  extract_lets s1 pos mine master s2 s3
  have hs1 : s1.Canonical := h.setMeas.put
  have hs2 : s2.Canonical := .ite hs1.event hs1
  have hs3 : s3.Canonical := hs2.same.toPhase
  exact (State.Canonical.foldl hs3 fun h => h.serveStream).next

theorem State.Canonical.assignCore (h : s.Canonical) {l : List Nat} {n p : Nat} : (s.assignCore l n p).Canonical := by
  unfold State.assignCore
  exact .foldl h.put.setWord.put.put fun h => h.setGran

theorem State.Canonical.numberCluster (h : s.Canonical) {fuse bist all : List Nat} {cl : Nat} :
    (s.numberCluster fuse bist all cl).Canonical := by
  unfold State.numberCluster
  extract_lets good s1 s2 s3
  have hs1 : s1.Canonical := h.put.put
  have hs2 : s2.Canonical := .foldl hs1 fun h => .ite h.setWord h.setWord.put
  have hs3 : s3.Canonical := by
    unfold s3
    refine .foldl hs2 fun h => ?_
    split
    · exact h.assignCore
    · exact .foldl h.put fun h => h.setGran
  split
  · exact hs3.put.put.put
  · exact hs3.put

theorem State.Canonical.dropField (h : s.Canonical) : s.dropField.Canonical := by
  unfold State.dropField
  exact (State.Canonical.foldl h fun h => h.put).put.same.markLinks

theorem State.Canonical.mergeField (h : s.Canonical) : s.mergeField.1.Canonical := by
  unfold State.mergeField
  split
  · exact h
  · refine .ite_of Prod.fst h.event ?_
    exact .ite_of Prod.fst h.event (.ite (State.Canonical.foldl h.put fun h => h.put).event (.foldl h.put fun h => h.put))

theorem State.Canonical.roleEvents (h : s.Canonical) {m : Nat} {a : RoleOutcome} : (s.roleEvents m a).Canonical := by
  unfold State.roleEvents
  split
  · exact h.fallen
  · exact h.put.setMod
  · exact h

theorem State.Canonical.roleNote (h : s.Canonical) {m : Nat} {a : RoleOutcome} : (s.roleNote m a).Canonical := by
  unfold State.roleNote
  split
  · exact h.note
  · exact h.note
  · exact h

theorem State.Canonical.takeRoles (h : s.Canonical) {l : List Nat} : (s.takeRoles l).Canonical := by
  unfold State.takeRoles
  extract_lets o s1 t
  have hs1 : s1.Canonical := .foldl h fun h => h.setMod
  have ht : t.Canonical := (hs1.leaveAll (fun h => .foldl h fun h => h.roleEvents))
  exact (State.Canonical.foldl ht fun h => h.roleNote).routesSettle

theorem State.Canonical.relayDone (h : s.Canonical) : s.relayDone.Canonical := by
  unfold State.relayDone
  exact .ite h.takeRoles h

theorem State.Canonical.loaded (h : s.Canonical) : s.loaded.Canonical := by
  unfold State.loaded
  extract_lets old s1 s2
  have hs1 : s1.Canonical := h.same
  have hs2 : s2.Canonical := hs1.takeRoles
  split
  · exact hs2
  · exact hs2.same.put

theorem State.Canonical.loadEnd (h : s.Canonical) : s.loadEnd.Canonical := by
  unfold State.loadEnd
  exact .ite h.loaded h

theorem State.Canonical.execCommitPhase (h : s.Canonical) : Keeps (execCommitPhase s) := by
  unfold Machine.execCommitPhase
  refine .ite h.next ?_
  extract_lets +onlyGivenNames m t fuse bist field t2 all t3 t4 bad t5
  have hm : m.1.Canonical := h.mergeField
  have ht : t.Canonical := hm.setMeas
  have ht2 : t2.Canonical := ht.newFindings
  have ht3 : t3.Canonical := .foldl ht2 fun h => h.numberCluster
  have ht4 : t4.Canonical := .foldl ht3 fun h => .foldl h fun h => h.setGran
  have ht5 : t5.Canonical := .foldl ht4 fun h => .ite h.leaveActive h
  exact ht5.markLinks.same.loadEnd.next

theorem State.Canonical.execRelayHoldExpiry (h : s.Canonical) : Keeps (execRelayHoldExpiry s) := by
  unfold Machine.execRelayHoldExpiry
  exact .ite h.next h.same.relayDone.next

theorem State.Canonical.execReleaseCompute (h : s.Canonical) : Keeps (execReleaseCompute s) := by
  unfold Machine.execReleaseCompute
  refine .ite h.next ?_
  extract_lets +onlyGivenNames s1
  have hs1 : s1.Canonical := h.relayDone
  refine .ite hs1.next ?_
  extract_lets +onlyGivenNames pool old s2 s3 s4 s5
  have hs2 : s2.Canonical := hs1.same
  have hs3 : s3.Canonical := .foldl hs2 fun h => .ite h h.dropSplit.put
  have hs4 : s4.Canonical := hs3.runAt.put
  have hs5 : s5.Canonical := hs4.toPhase.event
  exact (State.Canonical.ite hs5.same.event hs5).next

theorem State.Canonical.retireCommand (h : s.Canonical) {cl v : Nat} : (s.retireCommand cl v).Canonical := by
  unfold State.retireCommand
  extract_lets +onlyGivenNames p
  refine .ite h.event ?_
  extract_lets +onlyGivenNames i st
  refine .ite h.event ?_
  exact .ite (h.retireTrigger (fun h => h) (fun h => h)).stopGang (h.retireTrigger (fun h => h) (fun h => h))

theorem State.Canonical.postLost (h : s.Canonical) {n : Nat} : (s.postLost n).Canonical := by
  unfold State.postLost
  exact .ite h (State.Canonical.foldl h fun h => h.waitEvent).event

theorem State.Canonical.execQuiescePoint (h : s.Canonical) {c : Nat} : Keeps (execQuiescePoint c s) := by
  unfold Machine.execQuiescePoint
  exact .onUnit (.ite h.next (.ite h.postLost.releaseWhere.put.put.put.put.put.put.next (h.postLost.releaseWhere.put.retired.makeHole
    (fun h => h)).next))

theorem State.Canonical.execRecoveryTestEnd (h : s.Canonical) {cl : Nat} {pass : Bool} : Keeps (execRecoveryTestEnd cl pass s) := by
  unfold Machine.execRecoveryTestEnd
  refine .onUnit ?_
  split
  · exact h.next
  · refine .ite (h.recoveryFailed (fun h => h) (fun h => h)).next ?_
    exact h.scrubCore.setCore.assignCore.put.dropSplit.event.retired.note.next

/-! ### Matrix -/

theorem State.Canonical.feedErrors (h : s.Canonical) {n : Nat} {l : List (Nat × Nat)} : (s.feedErrors n l).1.Canonical := by
  unfold State.feedErrors
  exact .foldl_of Prod.fst h fun h => h.coreError

theorem State.Canonical.mmaIssue (h : s.Canonical) {n u : Nat} {d : Dec} {x : AccSet} {bare : Bool} :
    (s.mmaIssue n u d x bare).Canonical := by
  unfold State.mmaIssue
  extract_lets +onlyGivenNames w c a b k e1
  have he1 : e1.1.Canonical := h.feedErrors
  exact .ite he1.coreFault (State.Canonical.foldl he1.setCore.count.setNswIf.setNswIf fun h => h.setNsw).numEvents

theorem State.Canonical.mmaCharge (h : s.Canonical) {n u : Nat} {d : Dec} {x : AccSet} {bare : Bool} :
    (s.mmaCharge n u d x bare).Canonical := by
  unfold State.mmaCharge
  exact .ite h h.mmaIssue.charge

theorem State.Canonical.mmaTry (h : s.Canonical) {n u : Nat} {d : Dec} {x : AccSet} {bare : Bool} {codes : List Nat} :
    (s.mmaTry n u d x bare codes).Canonical := by
  unfold State.mmaTry
  extract_lets c
  refine .ite h ?_
  split
  · exact h.coreFault
  · exact .ite h.mmaCharge h

theorem State.Canonical.mmaNormal (h : s.Canonical) {n : Nat} {d : Dec} : (s.mmaNormal n d).Canonical := by
  unfold State.mmaNormal
  refine .ite h.coreFault ?_
  split
  · exact h
  · exact h.mmaTry

theorem State.Canonical.mmaSplit (h : s.Canonical) {n : Nat} {d : Dec} {sp : Nat × Bool} : (s.mmaSplit n d sp).Canonical := by
  unfold State.mmaSplit
  extract_lets c w slot
  clear_value slot
  split
  · exact h.coreFault
  · split
    · exact h
    · exact h.mmaTry

theorem State.Canonical.arrayRow (h : s.Canonical) {n maj : Nat} {p : Nat → Bool} {f : State → CoreSt → Dec → State} (hf : ∀ {t : State}
    {a1 : CoreSt} {a2 : Dec}, t.Canonical → (f t a1 a2).Canonical) :
    Keeps (s.arrayRow n maj p f) := by
  unfold State.arrayRow
  refine .onUnit ?_
  extract_lets t
  have ht : t.Canonical := h.forArray
  split
  · exact .ite (hf ht).next ht.next
  · exact ht.next

theorem State.Canonical.mmaRow (h : s.Canonical) {n mode : Nat} : Keeps (s.mmaRow n mode) := by
  unfold State.mmaRow
  refine (h.arrayRow (fun h => ?_))
  split
  · exact h.mmaNormal
  · exact h.mmaSplit

theorem State.Canonical.execMmaMultiplyAdd (h : s.Canonical) {c : Nat} : Keeps (execMmaMultiplyAdd c s) := by
  unfold Machine.execMmaMultiplyAdd
  exact h.mmaRow

theorem State.Canonical.execMmaL1Distance (h : s.Canonical) {c : Nat} : Keeps (execMmaL1Distance c s) := by
  unfold Machine.execMmaL1Distance
  exact h.mmaRow

theorem State.Canonical.execMmaSquaredDifference (h : s.Canonical) {c : Nat} : Keeps (execMmaSquaredDifference c s) := by
  unfold Machine.execMmaSquaredDifference
  exact h.mmaRow

theorem State.Canonical.execMmaMaxPlus (h : s.Canonical) {c : Nat} : Keeps (execMmaMaxPlus c s) := by
  unfold Machine.execMmaMaxPlus
  exact h.mmaRow

theorem State.Canonical.execMmaMinPlus (h : s.Canonical) {c : Nat} : Keeps (execMmaMinPlus c s) := by
  unfold Machine.execMmaMinPlus
  exact h.mmaRow

theorem State.Canonical.execMmaMaxTimes (h : s.Canonical) {c : Nat} : Keeps (execMmaMaxTimes c s) := by
  unfold Machine.execMmaMaxTimes
  exact h.mmaRow

theorem State.Canonical.execMmaEqualityCount (h : s.Canonical) {c : Nat} : Keeps (execMmaEqualityCount c s) := by
  unfold Machine.execMmaEqualityCount
  exact h.mmaRow

theorem State.Canonical.execOpld (h : s.Canonical) {c : Nat} : Keeps (execOpld c s) := by
  unfold Machine.execOpld
  refine .onUnit ?_
  extract_lets t
  have ht : t.Canonical := h.forLoader
  split
  · exact ht.next
  · extract_lets +onlyGivenNames w h2
    refine .ite ht.next ?_
    extract_lets +onlyGivenNames size r
    have hr : r.1.state.Canonical := .foldl_of (fun a : Rd × _ => a.1.state) ht fun h => .ite_of (fun a : Rd × _ => a.1.state) h h.readMem
    exact .ite hr.coreFault.next hr.same.setCore.next

theorem State.Canonical.execLoadComplete (h : s.Canonical) {c : Nat} : Keeps (execLoadComplete c s) := by
  unfold Machine.execLoadComplete
  refine .onUnit ?_
  extract_lets k
  split
  · exact h.next
  · exact h.setCore.next

theorem State.Canonical.execOpfree (h : s.Canonical) {c : Nat} : Keeps (execOpfree c s) := by
  unfold Machine.execOpfree
  exact h.arrayRow (fun h => h.setCore)

theorem State.Canonical.execHalfReleaseEnd (h : s.Canonical) {c half : Nat} : Keeps (execHalfReleaseEnd c half s) := by
  unfold Machine.execHalfReleaseEnd
  exact .onUnit (.onUnit (.ite h.setCore.next h.next))

theorem State.Canonical.arraySource (h : s.Canonical) {n : Nat} {d : Dec} {len : Nat} {f : State → Nat → State} (hf : ∀ {t : State} {a1 :
    Nat}, t.Canonical → (f t a1).Canonical) :
    (s.arraySource n d len f).Canonical := by
  unfold State.arraySource
  exact .ite h.readMem.coreFault (hf h.readMem)

theorem State.Canonical.arrayDone (h : s.Canonical) {n : Nat} {f : CoreSt → CoreSt} : (s.arrayDone n f).Canonical := by
  unfold State.arrayDone
  exact h.setCore

theorem State.Canonical.execPdset (h : s.Canonical) {c : Nat} : Keeps (execPdset c s) := by
  unfold Machine.execPdset
  refine (h.arrayRow (fun h => ?_))
  extract_lets i
  refine .ite h ?_
  refine (h.arraySource (fun h => ?_))
  extract_lets r
  split
  · exact h.coreFault
  · exact h.arrayDone

theorem State.Canonical.execMskset (h : s.Canonical) {c : Nat} : Keeps (execMskset c s) := by
  unfold Machine.execMskset
  exact h.arrayRow (fun h => .ite h (h.arraySource (fun h => h.arrayDone)))

theorem State.Canonical.execWtset (h : s.Canonical) {c : Nat} : Keeps (execWtset c s) := by
  unfold Machine.execWtset
  exact h.arrayRow (fun h => .ite h (h.arraySource (fun h => .ite h.coreFault h.arrayDone)))

theorem State.Canonical.execAccClaim (h : s.Canonical) {c : Nat} : Keeps (execAccClaim c s) := by
  unfold Machine.execAccClaim
  refine .onUnit ?_
  extract_lets t
  have ht : t.Canonical := h.forArray
  split
  · exact ht.next
  · exact ht.setCore.next

theorem State.Canonical.readElems (h : s.Canonical) {n base size : Nat} {off : Nat → Nat} {l : List Nat} :
    (s.readElems n base size off l).1.state.Canonical := by
  unfold State.readElems
  extract_lets r
  have hr : r.1.1.Canonical := .foldl_of (fun a : (State × _) × _ => a.1.1) h fun h => .ite_of (fun a : (State × _) × _ => a.1.1) h
    (.ite_of (fun a : (State × _) × _ => a.1.1) h h.decodeUnits.drew)
  exact hr

theorem State.Canonical.writeElems (h : s.Canonical) {n base size : Nat} {off : Nat → Nat} {l : List (Nat × Nat)} :
    (s.writeElems n base size off l).1.Canonical := by
  unfold State.writeElems
  exact .foldl_of Prod.fst h fun h => .ite_of Prod.fst h (.ite_of Prod.fst h h.openUnits.storeBytes)

theorem State.Canonical.execFillComplete (h : s.Canonical) {c u : Nat} : Keeps (execFillComplete c u s) := by
  unfold Machine.execFillComplete
  exact .onUnit (.onUnit (.ite h.next (.ite h.next (.ite h.readMem.coreFault.next (.ite h.readMem.setCore.setNsw.next (.ite
    h.readMem.readElems.coreFault.next h.readMem.readElems.setCore.setNswIf.next))))))

theorem State.Canonical.fetchEpi {n k : Nat} : ∀ {s : State} {pc : Nat} {l : List Nat}, s.Canonical →
    (s.fetchEpi n k pc l).1.state.Canonical := by
  induction k with
  | zero => exact fun h => h
  | succ k ih =>
    intro s pc l h
    unfold State.fetchEpi
    extract_lets r w
    have hr : r.state.Canonical := h.readMem
    clear_value w
    refine .ite_of (fun a : Rd × _ => a.1.state) h (.ite_of (fun a : Rd × _ => a.1.state) hr ?_)
    split
    · exact hr
    · exact .ite_of (fun a : Rd × _ => a.1.state) hr (ih hr)

theorem State.Canonical.loadEpi (h : s.Canonical) {n pc seq : Nat} : (s.loadEpi n pc seq).Canonical := by
  unfold State.loadEpi
  exact .ite h (.ite h.fetchEpi.coreFault h.fetchEpi.setCore)

theorem State.Canonical.execFeedEnd (h : s.Canonical) {c u : Nat} : Keeps (execFeedEnd c u s) := by
  unfold Machine.execFeedEnd
  exact .onUnit (.onUnit (.ite h.setCore.next (.ite (.ite (State.Canonical.ite h.setCore.loadEpi h.setCore).next h.setCore.next) h.next)))

theorem State.Canonical.execParcelFinal (h : s.Canonical) {c u : Nat} : Keeps (execParcelFinal c u s) := by
  unfold Machine.execParcelFinal
  exact .onUnit (.onUnit (.ite h.setCore.next h.next))

theorem State.Canonical.spill (h : s.Canonical) {n u : Nat} {x : AccSet} {sp : Bool} : (s.spill n u x sp).Canonical := by
  unfold State.spill
  extract_lets +onlyGivenNames c seq base ledger passes adds products rows cols fold covers flags finish
  refine .ite h.coreFault ?_
  refine .ite ?_ ?_
  · exact .ite h.writeElems.coreFault (.ite h.writeElems.writeMem.coreFault h.writeElems.writeMem.setCore)
  · extract_lets +onlyGivenNames old
    have hold : old.1.state.Canonical := .ite_of (fun a : Rd × _ => a.1.state) h.readElems h
    refine .ite hold.coreFault ?_
    extract_lets entries ovf ev w w2 hd
    have hw : w.1.Canonical := hold.writeElems
    have hw2 : w2.1.Canonical := .ite_of Prod.fst hw hw.writeElems
    exact (State.Canonical.ite hw2.coreFault (.ite hw2.writeMem.coreFault hw2.writeMem.setCore)).setNswIf.numEvents

theorem State.Canonical.execSpillDrainComplete (h : s.Canonical) {c u : Nat} : Keeps (execSpillDrainComplete c u s) := by
  unfold Machine.execSpillDrainComplete
  exact .onUnit (.onUnit (.ite (.ite h.next h.spill.next) h.next))

theorem State.Canonical.drainTake (h : s.Canonical) {n u start count : Nat} : (s.drainTake n u start count).1.state.Canonical := by
  unfold State.drainTake
  extract_lets x els ledger led vals
  have hled : led.1.state.Canonical := by
    unfold led
    split
    · exact h.readElems
    · exact h
  split
  · exact hled
  · exact hled

theorem State.Canonical.endDrain (h : s.Canonical) {n u seq : Nat} : (s.endDrain n u seq).Canonical := by
  unfold State.endDrain
  exact .ite h (.ite h.coreFault (.ite (.ite h.writeMem.coreFault h.writeMem.setCore) h.setCore))

theorem State.Canonical.execResidencyDeadlock (h : s.Canonical) {c : Nat} : Keeps (execResidencyDeadlock c s) := by
  unfold Machine.execResidencyDeadlock
  refine .onUnit ?_
  extract_lets t k quiet headWaits loaderWaits
  have ht : t.Canonical := h.decodeAll
  split
  · exact ht.next
  · exact .ite ht.coreFault.next ht.next

/-! ### Vector -/

theorem State.Canonical.vecOk (h : s.Canonical) : (vecOk s).state.Canonical := by
  unfold Machine.vecOk
  exact h

theorem State.Canonical.vecMend (h : s.Canonical) {n w : Nat} : (s.vecMend n w).Canonical := by
  unfold State.vecMend
  exact .foldl h fun h => h.setFlips.noteCe

theorem State.Canonical.vecDone {o : VecOut} (h : o.state.Canonical) {n : Nat} {d : Dec} {next : CoreSt → CoreSt} :
    (s.vecDone n d o next).Canonical := by
  unfold State.vecDone
  exact .ite h.recordEvents.coreFault h.setCore.numEvents

theorem State.Canonical.vecRun (h : s.Canonical) {n : Nat} {d : Dec} {f : State → Nat → Dec → VecOut} (hf : ∀ {t : State} {a1 : Nat} {a2
    : Dec}, t.Canonical → (f t a1 a2).state.Canonical) :
    (s.vecRun n d f).state.Canonical := by
  unfold State.vecRun
  split
  · exact h.vecMend.noteUe
  · exact hf h.vecMend

theorem State.Canonical.vecMain (h : s.Canonical) {n : Nat} {p : Nat → Bool} {f : State → Nat → Dec → VecOut}
    (hf : ∀ {t : State} {a1 : Nat} {a2 : Dec}, t.Canonical → (f t a1 a2).state.Canonical) : Keeps (s.vecMain n p f) := by
  unfold State.vecMain
  refine .onUnit ?_
  extract_lets t
  have ht : t.Canonical := h.forVector
  split
  · exact ht.next
  · refine .ite ht.next (.ite ht.next ?_)
    exact (State.Canonical.vecRun ht.charge.count hf).vecDone.next

theorem State.Canonical.vecEpi (h : s.Canonical) {n : Nat} {p : Nat → Bool} {f : State → Nat → Dec → VecOut}
    (hf : ∀ {t : State} {a1 : Nat} {a2 : Dec}, t.Canonical → (f t a1 a2).state.Canonical) : Keeps (s.vecEpi n p f) := by
  unfold State.vecEpi
  refine .onUnit ?_
  extract_lets c
  split
  · exact h.next
  · split
    · exact h.next
    · exact .ite h.next (State.Canonical.vecRun h.count hf).vecDone.next

theorem State.Canonical.vecRow (h : s.Canonical) {n : Nat} {epi : Bool} {p : Nat → Bool} {f : State → Nat → Dec → VecOut} (hf : ∀ {t :
    State} {a1 : Nat} {a2 : Dec}, t.Canonical → (f t a1 a2).state.Canonical) :
    Keeps (s.vecRow n epi p f) := by
  unfold State.vecRow
  exact .ite (h.vecEpi hf) (h.vecMain hf)

theorem State.Canonical.laneMap (h : s.Canonical) {n : Nat} {d : Dec} {dt : Nat} {f : Nat → Nat → Nat → LaneOut} :
    (s.laneMap n d dt f).state.Canonical := by
  unfold State.laneMap
  exact .ite h.setCore.put h.setCore

theorem State.Canonical.execValuAdd (h : s.Canonical) {c : Nat} {epi : Bool} : Keeps (execValuAdd c epi s) := by
  unfold Machine.execValuAdd
  exact h.vecRow (fun h => h.laneMap)

theorem State.Canonical.execValuSub (h : s.Canonical) {c : Nat} {epi : Bool} : Keeps (execValuSub c epi s) := by
  unfold Machine.execValuSub
  exact h.vecRow (fun h => h.laneMap)

theorem State.Canonical.execValuMul (h : s.Canonical) {c : Nat} {epi : Bool} : Keeps (execValuMul c epi s) := by
  unfold Machine.execValuMul
  exact h.vecRow (fun h => h.laneMap)

theorem State.Canonical.execValuFma (h : s.Canonical) {c : Nat} {epi : Bool} : Keeps (execValuFma c epi s) := by
  unfold Machine.execValuFma
  exact h.vecRow (fun h => h.laneMap)

theorem State.Canonical.execValuFnma (h : s.Canonical) {c : Nat} {epi : Bool} : Keeps (execValuFnma c epi s) := by
  unfold Machine.execValuFnma
  exact h.vecRow (fun h => h.laneMap)

theorem State.Canonical.execValuMax (h : s.Canonical) {c : Nat} {epi : Bool} : Keeps (execValuMax c epi s) := by
  unfold Machine.execValuMax
  exact h.vecRow (fun h => h.laneMap)

theorem State.Canonical.execValuMin (h : s.Canonical) {c : Nat} {epi : Bool} : Keeps (execValuMin c epi s) := by
  unfold Machine.execValuMin
  exact h.vecRow (fun h => h.laneMap)

theorem State.Canonical.execValuAbs (h : s.Canonical) {c : Nat} {epi : Bool} : Keeps (execValuAbs c epi s) := by
  unfold Machine.execValuAbs
  exact h.vecRow (fun h => h.laneMap)

theorem State.Canonical.execValuNeg (h : s.Canonical) {c : Nat} {epi : Bool} : Keeps (execValuNeg c epi s) := by
  unfold Machine.execValuNeg
  exact h.vecRow (fun h => h.laneMap)

theorem State.Canonical.execValuMov (h : s.Canonical) {c : Nat} {epi : Bool} : Keeps (execValuMov c epi s) := by
  unfold Machine.execValuMov
  exact h.vecRow (fun h => h.laneMap)

theorem State.Canonical.execValuSel (h : s.Canonical) {c : Nat} {epi : Bool} : Keeps (execValuSel c epi s) := by
  unfold Machine.execValuSel
  exact h.vecRow (fun h => h.setCore.vecOk)

theorem State.Canonical.execValuI2f (h : s.Canonical) {c : Nat} {epi : Bool} : Keeps (execValuI2f c epi s) := by
  unfold Machine.execValuI2f
  exact h.vecRow (fun h => h.laneMap)

theorem State.Canonical.execValuF2i (h : s.Canonical) {c : Nat} {epi : Bool} : Keeps (execValuF2i c epi s) := by
  unfold Machine.execValuF2i
  exact h.vecRow (fun h => h.laneMap)

theorem State.Canonical.execValuWiden (h : s.Canonical) {c : Nat} {epi : Bool} : Keeps (execValuWiden c epi s) := by
  unfold Machine.execValuWiden
  exact h.vecRow (fun h => h.laneMap)

theorem State.Canonical.execValuNarrow (h : s.Canonical) {c : Nat} {epi : Bool} : Keeps (execValuNarrow c epi s) := by
  unfold Machine.execValuNarrow
  exact h.vecRow (fun h => h.laneMap)

theorem State.Canonical.execValuAnd (h : s.Canonical) {c : Nat} {epi : Bool} : Keeps (execValuAnd c epi s) := by
  unfold Machine.execValuAnd
  exact h.vecRow (fun h => h.laneMap)

theorem State.Canonical.execValuOr (h : s.Canonical) {c : Nat} {epi : Bool} : Keeps (execValuOr c epi s) := by
  unfold Machine.execValuOr
  exact h.vecRow (fun h => h.laneMap)

theorem State.Canonical.execValuXor (h : s.Canonical) {c : Nat} {epi : Bool} : Keeps (execValuXor c epi s) := by
  unfold Machine.execValuXor
  exact h.vecRow (fun h => h.laneMap)

theorem State.Canonical.execValuNot (h : s.Canonical) {c : Nat} {epi : Bool} : Keeps (execValuNot c epi s) := by
  unfold Machine.execValuNot
  exact h.vecRow (fun h => h.laneMap)

theorem State.Canonical.execValuShl (h : s.Canonical) {c : Nat} {epi : Bool} : Keeps (execValuShl c epi s) := by
  unfold Machine.execValuShl
  exact h.vecRow (fun h => h.laneMap)

theorem State.Canonical.execValuShr (h : s.Canonical) {c : Nat} {epi : Bool} : Keeps (execValuShr c epi s) := by
  unfold Machine.execValuShr
  exact h.vecRow (fun h => h.laneMap)

theorem State.Canonical.execValuSar (h : s.Canonical) {c : Nat} {epi : Bool} : Keeps (execValuSar c epi s) := by
  unfold Machine.execValuSar
  exact h.vecRow (fun h => h.laneMap)

theorem State.Canonical.execValuSplit (h : s.Canonical) {c : Nat} {epi : Bool} : Keeps (execValuSplit c epi s) := by
  unfold Machine.execValuSplit
  exact h.vecRow (fun h => h.setCore.vecOk)

theorem State.Canonical.sfuRow (h : s.Canonical) {n : Nat} {epi : Bool} {f : Nat} : Keeps (s.sfuRow n epi f) := by
  unfold State.sfuRow
  exact h.vecRow (fun h => h.laneMap)

theorem State.Canonical.execVsfuRcp (h : s.Canonical) {c : Nat} {epi : Bool} : Keeps (execVsfuRcp c epi s) := by
  unfold Machine.execVsfuRcp
  exact h.sfuRow

theorem State.Canonical.execVsfuRsq (h : s.Canonical) {c : Nat} {epi : Bool} : Keeps (execVsfuRsq c epi s) := by
  unfold Machine.execVsfuRsq
  exact h.sfuRow

theorem State.Canonical.execVsfuSqrt (h : s.Canonical) {c : Nat} {epi : Bool} : Keeps (execVsfuSqrt c epi s) := by
  unfold Machine.execVsfuSqrt
  exact h.sfuRow

theorem State.Canonical.execVsfuDiv (h : s.Canonical) {c : Nat} {epi : Bool} : Keeps (execVsfuDiv c epi s) := by
  unfold Machine.execVsfuDiv
  exact h.sfuRow

theorem State.Canonical.execVsfuExp2 (h : s.Canonical) {c : Nat} {epi : Bool} : Keeps (execVsfuExp2 c epi s) := by
  unfold Machine.execVsfuExp2
  exact h.sfuRow

theorem State.Canonical.execVsfuLog2 (h : s.Canonical) {c : Nat} {epi : Bool} : Keeps (execVsfuLog2 c epi s) := by
  unfold Machine.execVsfuLog2
  exact h.sfuRow

theorem State.Canonical.execVsfuExp (h : s.Canonical) {c : Nat} {epi : Bool} : Keeps (execVsfuExp c epi s) := by
  unfold Machine.execVsfuExp
  exact h.sfuRow

theorem State.Canonical.execVsfuLog (h : s.Canonical) {c : Nat} {epi : Bool} : Keeps (execVsfuLog c epi s) := by
  unfold Machine.execVsfuLog
  exact h.sfuRow

theorem State.Canonical.execVsfuTanh (h : s.Canonical) {c : Nat} {epi : Bool} : Keeps (execVsfuTanh c epi s) := by
  unfold Machine.execVsfuTanh
  exact h.sfuRow

theorem State.Canonical.execVsfuSigmoid (h : s.Canonical) {c : Nat} {epi : Bool} : Keeps (execVsfuSigmoid c epi s) := by
  unfold Machine.execVsfuSigmoid
  exact h.sfuRow

theorem State.Canonical.execVsfuSilu (h : s.Canonical) {c : Nat} {epi : Bool} : Keeps (execVsfuSilu c epi s) := by
  unfold Machine.execVsfuSilu
  exact h.sfuRow

theorem State.Canonical.execVsfuGelu (h : s.Canonical) {c : Nat} {epi : Bool} : Keeps (execVsfuGelu c epi s) := by
  unfold Machine.execVsfuGelu
  exact h.sfuRow

theorem State.Canonical.execVsfuErf (h : s.Canonical) {c : Nat} {epi : Bool} : Keeps (execVsfuErf c epi s) := by
  unfold Machine.execVsfuErf
  exact h.sfuRow

theorem State.Canonical.execVsfuSin (h : s.Canonical) {c : Nat} {epi : Bool} : Keeps (execVsfuSin c epi s) := by
  unfold Machine.execVsfuSin
  exact h.sfuRow

theorem State.Canonical.execVsfuCos (h : s.Canonical) {c : Nat} {epi : Bool} : Keeps (execVsfuCos c epi s) := by
  unfold Machine.execVsfuCos
  exact h.sfuRow

theorem State.Canonical.cmpRow (h : s.Canonical) {n : Nat} {epi : Bool} {mi : Nat} {f : Val → Val → Bool} :
    Keeps (s.cmpRow n epi mi f) := by
  unfold State.cmpRow
  exact h.vecRow (fun h => h.setCore.vecOk)

theorem State.Canonical.execVcmpEq (h : s.Canonical) {c : Nat} {epi : Bool} : Keeps (execVcmpEq c epi s) := by
  unfold Machine.execVcmpEq
  exact h.cmpRow

theorem State.Canonical.execVcmpNe (h : s.Canonical) {c : Nat} {epi : Bool} : Keeps (execVcmpNe c epi s) := by
  unfold Machine.execVcmpNe
  exact h.cmpRow

theorem State.Canonical.execVcmpLt (h : s.Canonical) {c : Nat} {epi : Bool} : Keeps (execVcmpLt c epi s) := by
  unfold Machine.execVcmpLt
  exact h.cmpRow

theorem State.Canonical.execVcmpLe (h : s.Canonical) {c : Nat} {epi : Bool} : Keeps (execVcmpLe c epi s) := by
  unfold Machine.execVcmpLe
  exact h.cmpRow

theorem State.Canonical.execVcmpGt (h : s.Canonical) {c : Nat} {epi : Bool} : Keeps (execVcmpGt c epi s) := by
  unfold Machine.execVcmpGt
  exact h.cmpRow

theorem State.Canonical.execVcmpGe (h : s.Canonical) {c : Nat} {epi : Bool} : Keeps (execVcmpGe c epi s) := by
  unfold Machine.execVcmpGe
  exact h.cmpRow

theorem State.Canonical.execVcmpUnordered (h : s.Canonical) {c : Nat} {epi : Bool} : Keeps (execVcmpUnordered c epi s) := by
  unfold Machine.execVcmpUnordered
  exact h.cmpRow

theorem State.Canonical.reduced (h : s.Canonical) {n : Nat} {d : Dec} {et raw : Nat} : (s.reduced n d et raw).Canonical := by
  unfold State.reduced
  exact h.setCore

theorem State.Canonical.execVredSum (h : s.Canonical) {c : Nat} {epi : Bool} : Keeps (execVredSum c epi s) := by
  unfold Machine.execVredSum
  exact h.vecRow (fun h => .ite_of VecOut.state h.reduced.vecOk h.reduced.setNswIf)

theorem State.Canonical.redMinMax (h : s.Canonical) {n : Nat} {epi : Bool} {mi : Nat} {f : Val → Val → Val} {neg : Bool} :
    Keeps (s.redMinMax n epi mi f neg) := by
  unfold State.redMinMax
  exact h.vecRow (fun h => .ite_of VecOut.state h.reduced.vecOk h.reduced.vecOk)

theorem State.Canonical.execVredMax (h : s.Canonical) {c : Nat} {epi : Bool} : Keeps (execVredMax c epi s) := by
  unfold Machine.execVredMax
  exact h.redMinMax

theorem State.Canonical.execVredMin (h : s.Canonical) {c : Nat} {epi : Bool} : Keeps (execVredMin c epi s) := by
  unfold Machine.execVredMin
  exact h.redMinMax

theorem State.Canonical.redBits (h : s.Canonical) {n : Nat} {epi : Bool} {mi z : Nat} {f : Nat → Nat → Nat} :
    Keeps (s.redBits n epi mi z f) := by
  unfold State.redBits
  exact h.vecRow (fun h => h.reduced.vecOk)

theorem State.Canonical.execVredAnd (h : s.Canonical) {c : Nat} {epi : Bool} : Keeps (execVredAnd c epi s) := by
  unfold Machine.execVredAnd
  exact h.redBits

theorem State.Canonical.execVredOr (h : s.Canonical) {c : Nat} {epi : Bool} : Keeps (execVredOr c epi s) := by
  unfold Machine.execVredOr
  exact h.redBits

theorem State.Canonical.execVredXor (h : s.Canonical) {c : Nat} {epi : Bool} : Keeps (execVredXor c epi s) := by
  unfold Machine.execVredXor
  exact h.redBits

theorem State.Canonical.execVredPopc (h : s.Canonical) {c : Nat} {epi : Bool} : Keeps (execVredPopc c epi s) := by
  unfold Machine.execVredPopc
  exact h.redBits

theorem State.Canonical.redPred (h : s.Canonical) {n : Nat} {epi : Bool} {mi : Nat} {f : Nat → Nat → Nat} :
    Keeps (s.redPred n epi mi f) := by
  unfold State.redPred
  exact h.vecRow (fun h => h.reduced.vecOk)

theorem State.Canonical.execVredPall (h : s.Canonical) {c : Nat} {epi : Bool} : Keeps (execVredPall c epi s) := by
  unfold Machine.execVredPall
  exact h.redPred

theorem State.Canonical.execVredPany (h : s.Canonical) {c : Nat} {epi : Bool} : Keeps (execVredPany c epi s) := by
  unfold Machine.execVredPany
  exact h.redPred

theorem State.Canonical.execVredPpar (h : s.Canonical) {c : Nat} {epi : Bool} : Keeps (execVredPpar c epi s) := by
  unfold Machine.execVredPpar
  exact h.redPred

theorem State.Canonical.execVredPcnt (h : s.Canonical) {c : Nat} {epi : Bool} : Keeps (execVredPcnt c epi s) := by
  unfold Machine.execVredPcnt
  exact h.redPred

theorem State.Canonical.execVperm (h : s.Canonical) {c : Nat} {epi : Bool} : Keeps (execVperm c epi s) := by
  unfold Machine.execVperm
  exact h.vecRow (fun h => .ite_of VecOut.state h (State.Canonical.ite (State.Canonical.ite h.setCore.put h.setCore).put h.setCore).vecOk)

theorem State.Canonical.loadLine {o : VecOut} (h : o.state.Canonical) {n : Nat} {d : Dec} {els : List (Nat × Nat)} :
    (s.loadLine n d o els).state.Canonical := by
  unfold State.loadLine
  exact .ite_of VecOut.state h.decodeUnits (.foldl_of VecOut.state h.decodeUnits.drew fun h => h.setCore)

theorem State.Canonical.vldRow (h : s.Canonical) {n : Nat} {epi : Bool} {mi : Nat} : Keeps (s.vldRow n epi mi) := by
  unfold State.vldRow
  exact h.vecRow (fun h => .ite_of VecOut.state (.foldl_of VecOut.state h.setCore.vecOk fun h => .ite_of VecOut.state h h.loadLine)
    (.foldl_of VecOut.state h.setCore.vecOk fun h => .ite_of VecOut.state h h.loadLine))

theorem State.Canonical.execVldUnitStride (h : s.Canonical) {c : Nat} {epi : Bool} : Keeps (execVldUnitStride c epi s) := by
  unfold Machine.execVldUnitStride
  exact h.vldRow

theorem State.Canonical.execVldStrided (h : s.Canonical) {c : Nat} {epi : Bool} : Keeps (execVldStrided c epi s) := by
  unfold Machine.execVldStrided
  exact h.vldRow

theorem State.Canonical.execVldGather (h : s.Canonical) {c : Nat} {epi : Bool} : Keeps (execVldGather c epi s) := by
  unfold Machine.execVldGather
  exact h.vldRow

theorem State.Canonical.execVldRepeat (h : s.Canonical) {c : Nat} {epi : Bool} : Keeps (execVldRepeat c epi s) := by
  unfold Machine.execVldRepeat
  exact h.vldRow

theorem State.Canonical.execVldBroadcast (h : s.Canonical) {c : Nat} {epi : Bool} : Keeps (execVldBroadcast c epi s) := by
  unfold Machine.execVldBroadcast
  exact h.vldRow

theorem State.Canonical.vstRow (h : s.Canonical) {n : Nat} {epi : Bool} {mi : Nat} : Keeps (s.vstRow n epi mi) := by
  unfold State.vstRow
  exact h.vecRow (fun h => h.putElems)

theorem State.Canonical.execVstUnitStride (h : s.Canonical) {c : Nat} {epi : Bool} : Keeps (execVstUnitStride c epi s) := by
  unfold Machine.execVstUnitStride
  exact h.vstRow

theorem State.Canonical.execVstStrided (h : s.Canonical) {c : Nat} {epi : Bool} : Keeps (execVstStrided c epi s) := by
  unfold Machine.execVstStrided
  exact h.vstRow

theorem State.Canonical.execVstScatter (h : s.Canonical) {c : Nat} {epi : Bool} : Keeps (execVstScatter c epi s) := by
  unfold Machine.execVstScatter
  exact h.vstRow

theorem State.Canonical.convertSeg (h : s.Canonical) {n target slot : Nat} {pair : Bool} {base : Nat} {lanes : List Lane} :
    (s.convertSeg n target slot pair base lanes).1.Canonical := by
  unfold State.convertSeg
  exact h.convert.cvFlags

theorem State.Canonical.convertStore (h : s.Canonical) {n target slot : Nat} {pair : Bool} {segs : List (Nat × List Lane)} :
    (s.convertStore n target slot pair segs).1.Canonical := by
  unfold State.convertStore
  extract_lets r
  have hr : r.1.Canonical := .foldl_of Prod.fst h fun {_ g} h => h.convertSeg (base := g.1)
  exact hr.putElems

theorem State.Canonical.execVcstDirect (h : s.Canonical) {c : Nat} {epi : Bool} : Keeps (execVcstDirect c epi s) := by
  unfold Machine.execVcstDirect
  exact h.vecRow (fun h => h.convertStore)

theorem State.Canonical.storeRows (h : s.Canonical) {n : Nat} {e : Epi} {els : List (Nat × Option Val)} :
    (s.storeRows n e els).1.Canonical := by
  unfold State.storeRows
  exact h.convertStore

theorem State.Canonical.drainShort (h : s.Canonical) {n : Nat} {b : Bool} : (s.drainShort n b).Canonical := by
  unfold State.drainShort
  exact .ite h.put h

theorem State.Canonical.epiTaken (h : s.Canonical) {n taken : Nat} : (s.epiTaken n taken).Canonical := by
  unfold State.epiTaken
  extract_lets c
  split
  · exact h
  · exact h.setCore

theorem State.Canonical.afterTake (h : s.Canonical) {n : Nat} {e : Epi} {taken total : Nat} :
    (s.afterTake n e taken total).Canonical := by
  unfold State.afterTake
  exact .ite h.epiTaken.endDrain h.epiTaken

theorem State.Canonical.execVcstOutput (h : s.Canonical) {c : Nat} : Keeps (execVcstOutput c s) := by
  unfold Machine.execVcstOutput
  refine h.vecEpi fun h => ?_
  extract_lets +onlyGivenNames w c0
  split
  · exact h.vecOk
  · next e _ _ =>
    extract_lets +onlyGivenNames order total cols drain start cnt
    split
    · exact h
    · extract_lets els s1 t vals r vals2 r2
      have hs1 : s1.Canonical := h.drainShort
      have ht : t.1.state.Canonical := hs1.drainTake
      have hr : r.1.Canonical := ht.storeRows
      have hr2 : r2.1.Canonical := h.storeRows
      clear_value r r2 t
      refine .ite_of VecOut.state (.ite_of VecOut.state hs1.vecOk (.ite_of VecOut.state ht ?_)) hr2
      exact .ite hr.afterTake hr

theorem State.Canonical.execVdrn (h : s.Canonical) {c : Nat} : Keeps (execVdrn c s) := by
  unfold Machine.execVdrn
  refine (h.vecEpi (fun h => ?_))
  extract_lets w c0
  split
  · exact h.vecOk
  · extract_lets +onlyGivenNames total cnt s1
    have hs1 : s1.Canonical := h.drainShort
    exact .ite_of VecOut.state hs1.vecOk (.ite_of VecOut.state hs1.drainTake hs1.drainTake.setCore.setNswIf.afterTake)

theorem State.Canonical.execEpilogueStart (h : s.Canonical) {c : Nat} : Keeps (execEpilogueStart c s) := by
  unfold Machine.execEpilogueStart
  refine .onUnit ?_
  extract_lets k
  split
  · exact h.next
  · refine .ite ?_ h.next
    extract_lets t k2
    have ht : t.Canonical := h.loadEpi
    split
    · exact ht.next
    · exact ht.setCore.next

theorem State.Canonical.execVeend (h : s.Canonical) {c : Nat} : Keeps (execVeend c s) := by
  unfold Machine.execVeend
  refine (h.vecEpi (fun h => ?_))
  split
  · exact h.vecOk
  · exact (State.Canonical.ite h.put h).endDrain.count.setCore.vecOk

theorem State.Canonical.execVseti (h : s.Canonical) {c : Nat} {epi : Bool} : Keeps (execVseti c epi s) := by
  unfold Machine.execVseti
  exact h.vecRow (fun h => h.put.vecOk)

theorem State.Canonical.execVcaps (h : s.Canonical) {c : Nat} {epi : Bool} : Keeps (execVcaps c epi s) := by
  unfold Machine.execVcaps
  exact h.vecRow (fun h => h.setCore.vecOk)

theorem State.Canonical.execVpop (h : s.Canonical) {c : Nat} {epi : Bool} : Keeps (execVpop c epi s) := by
  unfold Machine.execVpop
  exact h.vecRow (fun h => h.setCore.vecOk)

theorem State.Canonical.execVpfirst (h : s.Canonical) {c : Nat} {epi : Bool} : Keeps (execVpfirst c epi s) := by
  unfold Machine.execVpfirst
  exact h.vecRow (fun h => h.setCore.vecOk)

/-! ### ControlActs -/

theorem State.Canonical.bootControl (h : s.Canonical) {a : Acc} {v : Nat} : (s.bootControl a v).Canonical := by
  unfold State.bootControl
  extract_lets +onlyGivenNames failed ok
  refine .ite h.refuse ?_
  extract_lets old s1 err t old2 old3 s2
  have hs1 : s1.Canonical := .ite h.same h
  have hs2 : s2.Canonical := .ite hs1.toPhase.put.dropField.same hs1
  exact (State.Canonical.ite hs2.commandReset hs2).done

theorem State.Canonical.newListClear (h : s.Canonical) {v : Nat} : (s.newListClear v).Canonical := by
  unfold State.newListClear
  exact (State.Canonical.ite (.foldl h.put fun h => h.put) h).done

theorem State.Canonical.doorbellWrite (h : s.Canonical) {v : Nat} : (s.doorbellWrite v).Canonical := by
  unfold State.doorbellWrite
  exact .ite h.ring.refuse h.ring.done

theorem State.Canonical.scrubControl (h : s.Canonical) {a : Acc} {v : Nat} : (s.scrubControl a v).Canonical := by
  unfold State.scrubControl
  exact .ite h.refuse (State.Canonical.ite h.put (.foldl h.put fun h => .foldl h fun h => h.setGran)).done

theorem State.Canonical.slotClear (h : s.Canonical) {slot v : Nat} : (s.slotClear slot v).Canonical := by
  unfold State.slotClear
  exact (State.Canonical.ite h.clearSlot h).done

theorem State.Canonical.testControl (h : s.Canonical) {a : Acc} {page v : Nat} : (s.testControl a page v).Canonical := by
  unfold State.testControl
  extract_lets +onlyGivenNames n
  refine .ite h.refuse ?_
  exact (State.Canonical.ite h.put (.ite h.put.testEnter (.ite h.put.testLeave (.ite h.put.testStart h.put)))).done

theorem State.Canonical.nonceBusy (h : s.Canonical) (e : s.nonceBusy = some t) : t.Canonical := by
  unfold State.nonceBusy at e
  split at e
  · cases e; exact h.event.done
  · cases e

/-- One register of a page that has an effect of its own, before the others. -/
theorem State.Canonical.act {c : Prop} [Decidable c] {o : Option State} (hs : s.Canonical) (ho : o = some t → t.Canonical)
    (e : (if c then some s else o) = some t) : t.Canonical := by
  split at e
  · cases e
    exact hs
  · exact ho e

theorem State.Canonical.pageAct (h : s.Canonical) {a : Acc} {page off v : Nat} : s.pageAct a page off v = some t → t.Canonical := by
  unfold State.pageAct
  refine .act h.bootControl (.act h.newListClear (.act h.readNotes.done (.act h.quoteControl (.act h.measControl ?_))))
  intro e
  split at e
  · exact h.nonceBusy e
  · revert e
    refine .act h.kick (.act h.doorbellWrite (.act h.domCommand.done (.act h.scrubControl (.act h.dbgControl nofun))))

theorem State.Canonical.windowAct (h : s.Canonical) {a : Acc} {page i off v : Nat} : s.windowAct a page i off v = some t → t.Canonical :=
    by
  unfold State.windowAct
  exact .act h.mbControl (.act h.mbFill (.act h.mbReplyWord (.act h.qControl.done (.act h.setChead.done (.act h.slotClear
    (.act h.setWord.done (.act h.modControl.done nofun)))))))

theorem ctlAct_keeps : RegAct.Keeps ctlAct := by
  intro s t a page inst off v h
  unfold ctlAct
  split
  · exact h.windowAct
  · split
    · exact .act h.retireCommand.done nofun
    · split
      · exact .act h.testControl (.act h.refuse nofun)
      · exact h.pageAct

/-! ### Commit -/

theorem State.Canonical.applyWord (h : s.Canonical) {early : Bool} {k : Nat} {x : Staged} : (s.applyWord early k x).Canonical := by
  unfold State.applyWord
  exact .ite h.setWord h.setWord.raise

theorem State.Canonical.clipCheck (h : s.Canonical) : s.clipCheck.Canonical := by
  unfold State.clipCheck
  exact .ite h.event h

theorem State.Canonical.dieFix (h : s.Canonical) {keys : List Nat} : (s.dieFix keys).Canonical := by
  unfold State.dieFix
  extract_lets mode key step r s1 caps low s2 s3 s4 s5 s6
  have hr : r.1.Canonical := .foldl_of Prod.fst h fun h => h.setWord
  have hs1 : s1.Canonical := hr
  have hs2 : s2.Canonical := hs1.put.put
  have hs3 : s3.Canonical := hs2.put
  have hs4 : s4.Canonical := hs3.put
  have hs5 : s5.Canonical := .ite hs4.event hs4
  have hs6 : s6.Canonical := .ite hs5.event hs5
  exact hs6.clipCheck

theorem State.Canonical.fixWord (h : s.Canonical) {k : Nat} {f : Nat → Nat} : (s.fixWord k f).1.Canonical := by
  unfold State.fixWord
  exact h.setWord

theorem State.Canonical.lnkFix (h : s.Canonical) {inst : Nat} {keys : List Nat} : (s.lnkFix inst keys).Canonical := by
  unfold State.lnkFix
  refine .ite ?_ ?_
  · exact .ite (.foldl (.ite (State.Canonical.ite h.put h).put (.ite h.put h)) fun h => h.setMod) (.ite h.put h)
  · extract_lets m cfg reserved c t s1
    have hc : c.1.Canonical := h.fixWord
    have ht : t.1.Canonical := hc.fixWord
    have hs1 : s1.Canonical := .ite ht.lnkEvent ht
    exact .ite hs1.enterRetrain hs1

theorem State.Canonical.rteFix (h : s.Canonical) {inst : Nat} {early : Bool} : (s.rteFix inst early).Canonical := by
  unfold State.rteFix
  exact .ite h (State.Canonical.ite h.put.put h.put.put.put.event).routesChanged

theorem State.Canonical.splitFix (h : s.Canonical) {n : Nat} : (s.splitFix n).Canonical := by
  unfold State.splitFix
  exact .ite h (.ite h.dropSplit.event h)

theorem State.Canonical.clusterFix (h : s.Canonical) {cl : Nat} : (s.clusterFix cl).Canonical := by
  unfold State.clusterFix
  refine .ite h ?_
  exact .foldl h fun h => .ite (h.retireTrigger (fun h => h) (fun h => h)) (.ite (h.retireTrigger (fun h => h) (fun h => h)) h)

theorem State.Canonical.powerFix (h : s.Canonical) {inst : Nat} {keys : List Nat} : (s.powerFix inst keys).Canonical := by
  unfold State.powerFix
  extract_lets step r
  have hr : r.1.Canonical := .foldl_of Prod.fst h fun h => h.fixWord
  exact .ite hr.event hr

theorem State.Canonical.fieldFix (h : s.Canonical) : s.fieldFix.Canonical := by
  unfold State.fieldFix
  exact .foldl h fun h => .ite h.event h

theorem State.Canonical.xltFix (h : s.Canonical) {keys : List Nat} : (s.xltFix keys).Canonical := by
  unfold State.xltFix
  exact .ite (State.Canonical.ite h.clipCheck h).event (.ite h.clipCheck h)

theorem State.Canonical.chainFix (h : s.Canonical) {ch : Nat} {changed : Bool} : (s.chainFix ch changed).Canonical := by
  unfold State.chainFix
  extract_lets t s1
  have ht : t.Canonical := h.put.put.setChain
  have hs1 : s1.Canonical := by
    unfold s1
    refine .ite ?_ h
    split
    · exact ht
    · exact ht.joinRound
  exact .ite hs1.put.event hs1

theorem State.Canonical.scaleFix (h : s.Canonical) {slot : Nat} : (s.scaleFix slot).Canonical := by
  unfold State.scaleFix
  exact .ite h.fixWord.put.event h.fixWord

theorem State.Canonical.applied (h : s.Canonical) {page inst : Nat} {keys : List Nat} {early changed : Bool} :
    (s.applied page inst keys early changed).Canonical := by
  unfold State.applied
  refine .ite h.clusterFix ?_
  refine .ite h.splitFix ?_
  split
  · exact .ite h.dieFix h
  · exact h.powerFix
  · exact .ite h.xltFix h
  · exact h.fieldFix
  · exact .ite h (.ite h.sqApply h.chainFix)
  · exact .ite h h.scaleFix
  · exact h.lnkFix
  · exact h.rteFix
  · exact h

theorem State.Canonical.patrolRestart (h : s.Canonical) {old : Nat} : (s.patrolRestart old).Canonical := by
  unfold State.patrolRestart
  exact .ite h h.same

theorem State.Canonical.applyInstance (h : s.Canonical) {page inst : Nat} : (s.applyInstance page inst).Canonical := by
  unfold State.applyInstance
  extract_lets mine early keys t changed t2
  have ht : t.Canonical := .foldl h.same fun h => h.applyWord
  have ht2 : t2.Canonical := .ite ht ht.clearStage.raise
  exact ht2.applied.patrolRestart

theorem State.Canonical.execInstanceApply (h : s.Canonical) {page inst : Nat} : Keeps (execInstanceApply page inst s) := by
  unfold Machine.execInstanceApply
  exact .ite h.next h.applyInstance.loadEnd.next

theorem State.Canonical.powerApply (h : s.Canonical) : s.powerApply.Canonical := by
  unfold State.powerApply
  exact .ite (.foldl h fun h => .ite h h.applyInstance.loadEnd) h

theorem State.Canonical.execControlPeriod (h : s.Canonical) {p : PowerEstimate} : Keeps (execControlPeriod p s) := by
  unfold Machine.execControlPeriod
  exact (State.Canonical.ite h.powerApply.controlPeriod h.powerApply.powerStep).next

/-! ### ControlRows -/

theorem State.Canonical.ctlWrite (h : s.Canonical) {a : Acc} {addr size v : Nat} : (s.ctlWrite a addr size v).Canonical := by
  unfold State.ctlWrite
  exact h.ctlWriteBy ctlAct_keeps

theorem State.Canonical.pageWord (h : s.Canonical) {a : Acc} {page off v : Nat} : (s.pageWord a page off v).Canonical := by
  unfold State.pageWord
  exact h.ctlWrite

theorem State.Canonical.ctlRead (h : s.Canonical) {a : Acc} {addr size : Nat} : (s.ctlRead a addr size).Canonical := by
  unfold State.ctlRead
  exact .ite h.ctlReadBy.same h.ctlReadBy

theorem State.Canonical.execRegisterWrite (h : s.Canonical) {a : Acc} {addr size value : Nat} :
    Keeps (execRegisterWrite a addr size value s) := by
  unfold Machine.execRegisterWrite
  exact h.ctlWrite.next

theorem State.Canonical.execRcRead (h : s.Canonical) {a : Acc} {addr size : Nat} : Keeps (execRcRead a addr size s) := by
  unfold Machine.execRcRead
  exact h.ctlRead.next

theorem State.Canonical.execStagedWrite (h : s.Canonical) {a : Acc} {addr size value : Nat} :
    Keeps (execStagedWrite a addr size value s) := by
  unfold Machine.execStagedWrite
  exact h.ctlWrite.next

theorem State.Canonical.execCommit (h : s.Canonical) {a : Acc} {page : Nat} : Keeps (execCommit a page s) := by
  unfold Machine.execCommit
  exact .onUnit h.pageWord.next

theorem State.Canonical.execDiscard (h : s.Canonical) {a : Acc} {page : Nat} : Keeps (execDiscard a page s) := by
  unfold Machine.execDiscard
  exact .onUnit h.pageWord.next

theorem State.Canonical.execRelease (h : s.Canonical) {a : Acc} : Keeps (execRelease a s) := by
  unfold Machine.execRelease
  exact h.pageWord.next

theorem State.Canonical.execRefetch (h : s.Canonical) {a : Acc} : Keeps (execRefetch a s) := by
  unfold Machine.execRefetch
  exact h.pageWord.next

theorem State.Canonical.execWarmReset (h : s.Canonical) {a : Acc} : Keeps (execWarmReset a s) := by
  unfold Machine.execWarmReset
  exact h.pageWord.next

theorem State.Canonical.execNewClear (h : s.Canonical) {a : Acc} : Keeps (execNewClear a s) := by
  unfold Machine.execNewClear
  exact h.pageWord.next

theorem State.Canonical.execClRetire (h : s.Canonical) {a : Acc} {cl phys : Nat} {force : Bool} :
    Keeps (execClRetire a cl phys force s) := by
  unfold Machine.execClRetire
  exact .onUnit h.pageWord.next

theorem State.Canonical.testCommand (h : s.Canonical) {a : Acc} {c bit : Nat} : Keeps (s.testCommand a c bit) := by
  unfold State.testCommand
  exact .onUnit h.pageWord.next

theorem State.Canonical.execCoreTestEnter (h : s.Canonical) {a : Acc} {c : Nat} : Keeps (execCoreTestEnter a c s) := by
  unfold Machine.execCoreTestEnter
  exact h.testCommand

theorem State.Canonical.execCoreTestStart (h : s.Canonical) {a : Acc} {c : Nat} : Keeps (execCoreTestStart a c s) := by
  unfold Machine.execCoreTestStart
  exact h.testCommand

theorem State.Canonical.execCoreTestLeave (h : s.Canonical) {a : Acc} {c : Nat} : Keeps (execCoreTestLeave a c s) := by
  unfold Machine.execCoreTestLeave
  exact h.testCommand

theorem State.Canonical.execScrubHoldWrite (h : s.Canonical) {a : Acc} {hold : Bool} : Keeps (execScrubHoldWrite a hold s) := by
  unfold Machine.execScrubHoldWrite
  exact h.pageWord.next

theorem State.Canonical.execClear (h : s.Canonical) {a : Acc} {slot : Nat} : Keeps (execClear a slot s) := by
  unfold Machine.execClear
  exact .onUnit (h.ctlWindowBy ctlAct_keeps).next

theorem State.Canonical.execScaleEntryWrite (h : s.Canonical) {a : Acc} {slot entry value : Nat} :
    Keeps (execScaleEntryWrite a slot entry value s) := by
  unfold Machine.execScaleEntryWrite
  exact .onUnit (.onUnit (h.ctlWindowBy ctlAct_keeps).next)

theorem State.Canonical.execDoorbell (h : s.Canonical) {a : Acc} {q tail : Nat} : Keeps (execDoorbell a q tail s) := by
  unfold Machine.execDoorbell
  exact .onUnit h.pageWord.next

theorem State.Canonical.queueCommand (h : s.Canonical) {a : Acc} {q bit : Nat} : Keeps (s.queueCommand a q bit) := by
  unfold State.queueCommand
  exact .onUnit (h.ctlWindowBy ctlAct_keeps).next

theorem State.Canonical.execQEnable (h : s.Canonical) {a : Acc} {q : Nat} : Keeps (execQEnable a q s) := by
  unfold Machine.execQEnable
  exact h.queueCommand

theorem State.Canonical.execQDisable (h : s.Canonical) {a : Acc} {q : Nat} : Keeps (execQDisable a q s) := by
  unfold Machine.execQDisable
  exact h.queueCommand

theorem State.Canonical.execQResume (h : s.Canonical) {a : Acc} {q : Nat} : Keeps (execQResume a q s) := by
  unfold Machine.execQResume
  exact h.queueCommand

theorem State.Canonical.execQFlush (h : s.Canonical) {a : Acc} {q : Nat} : Keeps (execQFlush a q s) := by
  unfold Machine.execQFlush
  exact h.queueCommand

theorem State.Canonical.execCheadWrite (h : s.Canonical) {a : Acc} {q value : Nat} : Keeps (execCheadWrite a q value s) := by
  unfold Machine.execCheadWrite
  exact .onUnit (h.ctlWindowBy ctlAct_keeps).next

theorem State.Canonical.execDomActivate (h : s.Canonical) {a : Acc} {dom kind : Nat} : Keeps (execDomActivate a dom kind s) := by
  unfold Machine.execDomActivate
  exact .onUnit h.pageWord.next

theorem State.Canonical.execDomTearDown (h : s.Canonical) {a : Acc} {dom : Nat} : Keeps (execDomTearDown a dom s) := by
  unfold Machine.execDomTearDown
  exact .onUnit h.pageWord.next

theorem State.Canonical.moduleCommand (h : s.Canonical) {a : Acc} {m bit : Nat} : Keeps (s.moduleCommand a m bit) := by
  unfold State.moduleCommand
  exact .onUnit (h.ctlWindowBy ctlAct_keeps).next

theorem State.Canonical.execRetrain (h : s.Canonical) {a : Acc} {m : Nat} : Keeps (execRetrain a m s) := by
  unfold Machine.execRetrain
  exact h.moduleCommand

theorem State.Canonical.execUnquarantine (h : s.Canonical) {a : Acc} {m : Nat} : Keeps (execUnquarantine a m s) := by
  unfold Machine.execUnquarantine
  exact h.moduleCommand

theorem State.Canonical.execTakeDown (h : s.Canonical) {a : Acc} {m : Nat} : Keeps (execTakeDown a m s) := by
  unfold Machine.execTakeDown
  exact h.moduleCommand

theorem State.Canonical.execEventMessageSend (h : s.Canonical) : Keeps (execEventMessageSend s) := by
  unfold Machine.execEventMessageSend
  split
  · exact h.next
  · exact h.same.send.next

theorem State.Canonical.execFnRptrWrite (h : s.Canonical) {a : Acc} {value : Nat} : Keeps (execFnRptrWrite a value s) := by
  unfold Machine.execFnRptrWrite
  exact h.pageWord.next

theorem State.Canonical.execMbReqWrite (h : s.Canonical) {a : Acc} {mb off value : Nat} : Keeps (execMbReqWrite a mb off value s) := by
  unfold Machine.execMbReqWrite
  exact .onUnit (.onUnit (h.ctlWindowBy ctlAct_keeps).next)

theorem State.Canonical.mailboxCommand (h : s.Canonical) {a : Acc} {mb v : Nat} : Keeps (s.mailboxCommand a mb v) := by
  unfold State.mailboxCommand
  exact .onUnit (h.ctlWindowBy ctlAct_keeps).next

theorem State.Canonical.execPost (h : s.Canonical) {a : Acc} {mb len : Nat} : Keeps (execPost a mb len s) := by
  unfold Machine.execPost
  exact h.mailboxCommand

theorem State.Canonical.execMbRelease (h : s.Canonical) {a : Acc} {mb : Nat} : Keeps (execMbRelease a mb s) := by
  unfold Machine.execMbRelease
  exact h.mailboxCommand

theorem State.Canonical.execTake (h : s.Canonical) {a : Acc} {mb : Nat} : Keeps (execTake a mb s) := by
  unfold Machine.execTake
  exact h.mailboxCommand

theorem State.Canonical.execReply (h : s.Canonical) {a : Acc} {mb len : Nat} : Keeps (execReply a mb len s) := by
  unfold Machine.execReply
  exact h.mailboxCommand

theorem State.Canonical.execWdtKick (h : s.Canonical) {a : Acc} {value : Nat} : Keeps (execWdtKick a value s) := by
  unfold Machine.execWdtKick
  exact h.pageWord.next

theorem State.Canonical.execExtend (h : s.Canonical) {a : Acc} {index : Nat} : Keeps (execExtend a index s) := by
  unfold Machine.execExtend
  exact h.pageWord.next

theorem State.Canonical.execQuoteReq (h : s.Canonical) {a : Acc} : Keeps (execQuoteReq a s) := by
  unfold Machine.execQuoteReq
  exact h.pageWord.next

theorem State.Canonical.execSubmit (h : s.Canonical) {a : Acc} : Keeps (execSubmit a s) := by
  unfold Machine.execSubmit
  exact h.pageWord.next

theorem State.Canonical.execMaRead (h : s.Canonical) {a : Acc} : Keeps (execMaRead a s) := by
  unfold Machine.execMaRead
  exact h.pageWord.next

theorem State.Canonical.execMaWrite (h : s.Canonical) {a : Acc} : Keeps (execMaWrite a s) := by
  unfold Machine.execMaWrite
  exact h.pageWord.next

/-! ### Loader -/

theorem State.Canonical.loaderWrite (h : s.Canonical) {page off v : Nat} : (s.loaderWrite page off v).Canonical := by
  unfold State.loaderWrite
  exact .ite (h.ctlWriteBy ctlAct_keeps) (h.ctlWriteBy ctlAct_keeps).bump.event

theorem State.Canonical.applyRecord (h : s.Canonical) {r : Bytes} : (s.applyRecord r).Canonical := by
  unfold State.applyRecord
  exact .ite h.fail (.ite h.loaderWrite.same (.ite h.loaderWrite h.loaderWrite.loaderWrite))

theorem State.Canonical.endSection (h : s.Canonical) : s.endSection.Canonical := by
  unfold State.endSection
  exact (State.Canonical.foldl h fun h => h.loaderWrite).same

theorem State.Canonical.execWriteRecord (h : s.Canonical) : Keeps (execWriteRecord s) := by
  unfold Machine.execWriteRecord
  refine .ite h.next ?_
  split
  · exact h.next
  · exact h.loadEnd.next
  · extract_lets old t t2
    have ht : t.Canonical := h.same
    have ht2 : t2.Canonical := .ite ht ht.applyRecord
    exact .ite ht2.next (State.Canonical.ite ht2.endSection.loadEnd ht2).next

/-! ### Packets -/

theorem State.Canonical.dropPacket (h : s.Canonical) {m : Nat} : (s.dropPacket m).Canonical := by
  unfold State.dropPacket
  exact h.bump

theorem State.Canonical.answer (h : s.Canonical) {p r : Packet} : (s.answer p r).Canonical := by
  unfold State.answer
  exact h.send

theorem State.Canonical.answerOn (h : s.Canonical) {m : Nat} {p r : Packet} : (s.answerOn m p r).Canonical := by
  unfold State.answerOn
  exact .ite h.sendVia h.answer

theorem State.Canonical.turnDown (h : s.Canonical) {m : Nat} {p : Packet} {status crsp : Nat} :
    (s.turnDown m p status crsp).Canonical := by
  unfold State.turnDown
  exact .ite h.answerOn (.ite h.answerOn h)

theorem State.Canonical.protect (h : s.Canonical) {m : Nat} {p : Packet} : (s.protect m p).Canonical := by
  unfold State.protect
  exact .ite h.answerOn (State.Canonical.ite h.apertureRefused h).turnDown

theorem State.Canonical.serveMemory (h : s.Canonical) {m : Nat} {p : Packet} : (s.serveMemory m p).Canonical := by
  unfold State.serveMemory
  refine .ite h.countViolation.answer ?_
  refine .ite h.apertureRefused.answer ?_
  exact .ite (.ite h.readMem.answer h.readMem.answer) (.ite h.writeMem.answer h.writeMem.answer)

theorem State.Canonical.takeReply (h : s.Canonical) {m : Nat} {p : Packet} : (s.takeReply m p).Canonical := by
  unfold State.takeReply
  split
  · exact .ite h.same.bump h.countViolation.dropPacket
  · extract_lets code bad s1 code2 s2 u s3
    have hs1 : s1.Canonical := .ite h.countViolation h
    have hs2 : s2.Canonical := .ite hs1.bump hs1
    have hs3 : s3.Canonical := .ite hs2.note hs2
    exact hs3.endRequest

theorem State.Canonical.serveControl (h : s.Canonical) {m : Nat} {p : Packet} : (s.serveControl m p).Canonical := by
  unfold State.serveControl
  extract_lets write size
  refine .ite h.countViolation.protect ?_
  split
  · exact h.protect
  · exact .ite h.answerOn (State.Canonical.ite h.ctlWrite h.ctlRead).answerOn

theorem State.Canonical.serveMessage (h : s.Canonical) {m : Nat} {p : Packet} : (s.serveMessage m p).Canonical := by
  unfold State.serveMessage
  exact h.mbMessage.answerOn

theorem State.Canonical.serveEasement (h : s.Canonical) {m : Nat} {p : Packet} : (s.serveEasement m p).Canonical := by
  unfold State.serveEasement
  exact .ite h.bump.dropPacket.lnkEvent (.ite h.serveControl (.ite h.answerOn (.ite h.gotImage h.serveMessage)))

theorem State.Canonical.endpoint (h : s.Canonical) {m : Nat} {p : Packet} : (s.endpoint m p).Canonical := by
  unfold State.endpoint
  split
  · exact h.serveMemory
  · exact h.serveMemory
  · exact h.serveMemory
  · exact h.takeReply
  · exact h.takeReply
  · exact h.takeReply
  · exact h.gotSeg
  · exact h.gotPerm
  · exact h.gotGrant
  · exact h.gotCack
  · exact h.gotAbort
  · exact h.gotCrefuse
  · exact h.gotSdata
  · exact h.gotSack
  · exact h.gotSopen
  · exact h.gotScredit
  · exact h.gotSerr
  · exact h.serveEasement
  · exact h.takeReply
  · exact h.serveEasement
  · exact h.takeReply
  · exact h.serveEasement
  · exact h.serveEasement
  · exact h.bump
  · exact h.takeReply
  · exact h

theorem State.Canonical.forward (h : s.Canonical) {m : Nat} {p : Packet} : (s.forward m p).Canonical := by
  unfold State.forward
  exact .ite (.ite h.put.event.answer h.put.event.dropPacket) (.ite h.sendOn h.noPath)

theorem State.Canonical.acceptIn (h : s.Canonical) {m : Nat} {p : Packet} : (s.acceptIn m p).Canonical := by
  unfold State.acceptIn
  refine .ite (.ite h.countViolation.turnDown h.countViolation.dropPacket) ?_
  refine .ite (.ite h.countViolation.protect h.countViolation.dropPacket) ?_
  refine .ite h.turnDown ?_
  refine .ite (State.Canonical.ite h.countViolation h).protect ?_
  exact .ite h.endpoint (.ite (.ite h (.ite h.protect h.turnDown)) h.forward)

theorem State.Canonical.identify (h : s.Canonical) {m : Nat} {p : Packet} : (s.identify m p).1.Canonical := by
  unfold State.identify
  exact .ite_of Prod.fst (.ite h h.countViolation) h

theorem State.Canonical.receiveAll (h : s.Canonical) {m : Nat} {ps : List Packet} : (s.receiveAll m ps).Canonical := by
  unfold State.receiveAll
  exact .foldl (.ite h h.receive) fun h => h.countViolation

theorem State.Canonical.packetTake (h : s.Canonical) {m : Nat} {p : Packet} : (s.packetTake m p).Canonical := by
  unfold State.packetTake
  refine .ite h ?_
  refine .ite h.countViolation ?_
  refine .ite h.countViolation ?_
  extract_lets +onlyGivenNames s1 p2 k x held
  have hs1 : s1.Canonical := .ite h h.countViolation
  exact .ite hs1.countViolation.dropPacket (State.Canonical.ite hs1.setMod.countViolation hs1.setMod).identify.acceptIn

theorem State.Canonical.handleAll (h : s.Canonical) {m : Nat} {ps : List Packet} : (s.handleAll m ps).Canonical := by
  unfold State.handleAll
  exact .ite h (.foldl h.receiveAll fun h => h.packetTake)

theorem State.Canonical.packetsIn (h : s.Canonical) {m : Nat} {ps : List Packet} : (s.packetsIn m ps).Canonical := by
  unfold State.packetsIn
  exact h.handleAll.quarSince

theorem State.Canonical.packetRow (h : s.Canonical) {m : Nat} {p : Packet} {t : Nat} : Keeps (s.packetRow m p t) := by
  unfold State.packetRow
  exact .onUnit (.ite h.packetsIn.next h.next)

theorem State.Canonical.execRd (h : s.Canonical) {m : Nat} {p : Packet} : Keeps (execRd m p s) := by
  unfold Machine.execRd
  exact h.packetRow

theorem State.Canonical.execWr (h : s.Canonical) {m : Nat} {p : Packet} : Keeps (execWr m p s) := by
  unfold Machine.execWr
  exact h.packetRow

theorem State.Canonical.execBwr (h : s.Canonical) {m : Nat} {p : Packet} : Keeps (execBwr m p s) := by
  unfold Machine.execBwr
  exact h.packetRow

theorem State.Canonical.execRdata (h : s.Canonical) {m : Nat} {p : Packet} : Keeps (execRdata m p s) := by
  unfold Machine.execRdata
  exact h.packetRow

theorem State.Canonical.execWack (h : s.Canonical) {m : Nat} {p : Packet} : Keeps (execWack m p s) := by
  unfold Machine.execWack
  exact h.packetRow

theorem State.Canonical.execErsp (h : s.Canonical) {m : Nat} {p : Packet} : Keeps (execErsp m p s) := by
  unfold Machine.execErsp
  exact h.packetRow

theorem State.Canonical.execSeg (h : s.Canonical) {m : Nat} {p : Packet} : Keeps (execSeg m p s) := by
  unfold Machine.execSeg
  exact h.packetRow

theorem State.Canonical.execPerm (h : s.Canonical) {m : Nat} {p : Packet} : Keeps (execPerm m p s) := by
  unfold Machine.execPerm
  exact h.packetRow

theorem State.Canonical.execGrant (h : s.Canonical) {m : Nat} {p : Packet} : Keeps (execGrant m p s) := by
  unfold Machine.execGrant
  exact h.packetRow

theorem State.Canonical.execCack (h : s.Canonical) {m : Nat} {p : Packet} : Keeps (execCack m p s) := by
  unfold Machine.execCack
  exact h.packetRow

theorem State.Canonical.execAbort (h : s.Canonical) {m : Nat} {p : Packet} : Keeps (execAbort m p s) := by
  unfold Machine.execAbort
  exact h.packetRow

theorem State.Canonical.execCrefuse (h : s.Canonical) {m : Nat} {p : Packet} : Keeps (execCrefuse m p s) := by
  unfold Machine.execCrefuse
  exact h.packetRow

theorem State.Canonical.execSdata (h : s.Canonical) {m : Nat} {p : Packet} : Keeps (execSdata m p s) := by
  unfold Machine.execSdata
  exact h.packetRow

theorem State.Canonical.execSack (h : s.Canonical) {m : Nat} {p : Packet} : Keeps (execSack m p s) := by
  unfold Machine.execSack
  exact h.packetRow

theorem State.Canonical.execSopen (h : s.Canonical) {m : Nat} {p : Packet} : Keeps (execSopen m p s) := by
  unfold Machine.execSopen
  exact h.packetRow

theorem State.Canonical.execScredit (h : s.Canonical) {m : Nat} {p : Packet} : Keeps (execScredit m p s) := by
  unfold Machine.execScredit
  exact h.packetRow

theorem State.Canonical.execSerr (h : s.Canonical) {m : Nat} {p : Packet} : Keeps (execSerr m p s) := by
  unfold Machine.execSerr
  exact h.packetRow

theorem State.Canonical.execCreq (h : s.Canonical) {m : Nat} {p : Packet} : Keeps (execCreq m p s) := by
  unfold Machine.execCreq
  exact h.packetRow

theorem State.Canonical.execCrsp (h : s.Canonical) {m : Nat} {p : Packet} : Keeps (execCrsp m p s) := by
  unfold Machine.execCrsp
  exact h.packetRow

theorem State.Canonical.execEvent (h : s.Canonical) {m : Nat} {p : Packet} : Keeps (execEvent m p s) := by
  unfold Machine.execEvent
  exact h.packetRow

theorem State.Canonical.execFrameCode (h : s.Canonical) {m : Nat} {p : Packet} : Keeps (execFrameCode m p s) := by
  unfold Machine.execFrameCode
  exact h.packetRow

theorem State.Canonical.execFcack (h : s.Canonical) {m : Nat} {p : Packet} : Keeps (execFcack m p s) := by
  unfold Machine.execFcack
  exact h.packetRow

theorem State.Canonical.execMsg (h : s.Canonical) {m : Nat} {p : Packet} : Keeps (execMsg m p s) := by
  unfold Machine.execMsg
  exact h.packetRow

theorem State.Canonical.execImage (h : s.Canonical) {m : Nat} {p : Packet} : Keeps (execImage m p s) := by
  unfold Machine.execImage
  exact h.packetRow

theorem State.Canonical.execEnote (h : s.Canonical) {m : Nat} {p : Packet} : Keeps (execEnote m p s) := by
  unfold Machine.execEnote
  exact h.packetRow

theorem State.Canonical.execMack (h : s.Canonical) {m : Nat} {p : Packet} : Keeps (execMack m p s) := by
  unfold Machine.execMack
  exact h.packetRow

theorem State.Canonical.execFlit (h : s.Canonical) {m : Nat} {bits : BitVec 2048} : Keeps (execFlit m bits s) := by
  unfold Machine.execFlit
  exact .onUnit (.ite h.next h.flitIn.handleAll.quarSince.relayDone.next)

/-! ### Pins -/

theorem State.Canonical.tapRow (h : s.Canonical) {f : Tap → Tap} : Keeps (s.tapRow f) := by
  unfold State.tapRow
  exact .ite h.same.next h.same.next

theorem State.Canonical.execTestLogicReset (h : s.Canonical) : Keeps (execTestLogicReset s) := by
  unfold Machine.execTestLogicReset
  exact h.same.next

theorem State.Canonical.execExtest (h : s.Canonical) : Keeps (execExtest s) := by
  unfold Machine.execExtest
  exact h.tapRow

theorem State.Canonical.execIdcode (h : s.Canonical) : Keeps (execIdcode s) := by
  unfold Machine.execIdcode
  exact h.tapRow

theorem State.Canonical.execSamplePreload (h : s.Canonical) {pins : BitVec 40} : Keeps (execSamplePreload pins s) := by
  unfold Machine.execSamplePreload
  exact h.tapRow

theorem State.Canonical.execClamp (h : s.Canonical) : Keeps (execClamp s) := by
  unfold Machine.execClamp
  exact h.tapRow

theorem State.Canonical.execHighz (h : s.Canonical) : Keeps (execHighz s) := by
  unfold Machine.execHighz
  exact h.tapRow

theorem State.Canonical.execIjtag (h : s.Canonical) {open_ : Nat} : Keeps (execIjtag open_ s) := by
  unfold Machine.execIjtag
  exact h.tapRow

theorem State.Canonical.execBypass (h : s.Canonical) {code : Nat} : Keeps (execBypass code s) := by
  unfold Machine.execBypass
  exact .ite h.next h.tapRow

theorem State.Canonical.execMrSync (h : s.Canonical) : Keeps (execMrSync s) := by
  unfold Machine.execMrSync
  exact h.same.next

theorem State.Canonical.execPresInChange (h : s.Canonical) {level : Bool} : Keeps (execPresInChange level s) := by
  unfold Machine.execPresInChange
  exact h.same.next

theorem State.Canonical.chainTick (h : s.Canonical) : s.chainTick.Canonical := by
  unfold State.chainTick
  exact h.same

/-! ### Tick -/

theorem State.Canonical.period (h : s.Canonical) : s.period.Canonical := by
  unfold State.period
  exact .foldl h.count fun h => h.count

theorem State.Canonical.clockTick (h : s.Canonical) : s.clockTick.Canonical := by
  unfold State.clockTick
  exact .ite h.same h.same.period

theorem State.Canonical.regain (h : s.Canonical) : s.regain.Canonical := by
  unfold State.regain
  exact h.same

theorem State.Canonical.countIf (h : s.Canonical) {b : Bool} {f : Fld} {i e : Nat} : (s.countIf b f i e).Canonical := by
  unfold State.countIf
  exact .ite h.count h

theorem State.Canonical.coreWaits (h : s.Canonical) {n : Nat} : (s.coreWaits n).Canonical := by
  unfold State.coreWaits
  exact h.countIf.countIf.countIf.countIf

theorem State.Canonical.creditWaits (h : s.Canonical) : s.creditWaits.Canonical := by
  unfold State.creditWaits
  exact .foldl h fun h => h.count

theorem State.Canonical.chainWaits (h : s.Canonical) {ch : Nat} : (s.chainWaits ch).Canonical := by
  unfold State.chainWaits
  split
  · exact h
  · exact .ite h.count h.countIf.countIf

theorem State.Canonical.stageWaits (h : s.Canonical) : s.stageWaits.Canonical := by
  unfold State.stageWaits
  split
  · exact h
  · exact .foldl h fun h => h.countIf

theorem State.Canonical.waits (h : s.Canonical) : s.waits.Canonical := by
  unfold State.waits
  extract_lets t t2
  have ht : t.Canonical := (State.Canonical.foldl h fun h => h.coreWaits).creditWaits
  have ht2 : t2.Canonical := .foldl ht fun h => h.chainWaits
  exact ht2.stageWaits

theorem State.Canonical.modTick (h : s.Canonical) {m : Nat} : (s.modTick m).1.Canonical := by
  unfold State.modTick
  exact .ite_of Prod.fst h.setModState (.ite_of Prod.fst h.countIf.sendFlit h)

theorem State.Canonical.modTicks (h : s.Canonical) : s.modTicks.Canonical := by
  unfold State.modTicks
  extract_lets r
  have hr : r.1.Canonical := .foldl_of Prod.fst h fun h => h.modTick
  exact .foldl hr.flushWaiting fun h => h.limitHit

theorem State.Canonical.tick (h : s.Canonical) : s.tick.Canonical := by
  unfold State.tick
  exact (State.Canonical.ite h h.clockTick.waits.regain.modTicks).chainTick

/-! ### The dispatch and the step -/

/-- Every command that answers a next state answers one in canonical form. -/
theorem State.Canonical.exec (h : s.Canonical) : ∀ c : Instr, Keeps (exec c s)
  | .coldPowerUp => h.execColdPowerUp
  | .warmResetByPin _ => h.execWarmResetByPin
  | .rstNDeassert _ _ _ => h.execRstNDeassert
  | .vaonLoss => h.execVaonLoss
  | .vsramBelowVcore => h.execVsramBelowVcore
  | .referenceGlitch => h.execReferenceGlitch
  | .referenceLost => h.execReferenceLost
  | .referenceReturn => h.execReferenceReturn
  | .pllLost _ => h.execPllLost
  | .secondReferenceSeen => h.execSecondReferenceSeen
  | .thermalTrip _ => h.execThermalTrip
  | .aonPhase => h.execAonPhase
  | .fusePhase => h.execFusePhase
  | .bist _ _ _ => h.execBist
  | .reconcile => h.execReconcile
  | .sideband => h.execSideband
  | .fetchQspi _ => h.execFetchQspi
  | .fetchBootLink => h.execFetchBootLink
  | .verify => h.execVerify
  | .commitPhase => h.execCommitPhase
  | .writeRecord => h.execWriteRecord
  | .relayHoldExpiry => h.execRelayHoldExpiry
  | .releaseCompute => h.execReleaseCompute
  | .cadastreWritten => h.execCadastreWritten
  | .release _ => h.execRelease
  | .refetch _ => h.execRefetch
  | .warmReset _ => h.execWarmReset
  | .registerWrite _ _ _ _ => h.execRegisterWrite
  | .rcRead _ _ _ => h.execRcRead
  | .stagedWrite _ _ _ _ => h.execStagedWrite
  | .commit _ _ => h.execCommit
  | .discard _ _ => h.execDiscard
  | .instanceApply _ _ => h.execInstanceApply
  | .eventMessageSend => h.execEventMessageSend
  | .eventRecordPost => h.execEventRecordPost
  | .nop _ => h.execNop
  | .endInstr _ => h.execEndInstr
  | .kernelCompletion _ => h.execKernelCompletion
  | .loop _ => h.execLoop
  | .jump _ => h.execJump
  | .fence _ => h.execFence
  | .mmaMultiplyAdd _ => h.execMmaMultiplyAdd
  | .mmaL1Distance _ => h.execMmaL1Distance
  | .mmaSquaredDifference _ => h.execMmaSquaredDifference
  | .mmaMaxPlus _ => h.execMmaMaxPlus
  | .mmaMinPlus _ => h.execMmaMinPlus
  | .mmaMaxTimes _ => h.execMmaMaxTimes
  | .mmaEqualityCount _ => h.execMmaEqualityCount
  | .residencyDeadlock _ => by rw [exec_residencyDeadlock]; exact h.execResidencyDeadlock
  | .opld _ => h.execOpld
  | .loadComplete _ => h.execLoadComplete
  | .opfree _ => h.execOpfree
  | .halfReleaseEnd _ _ => h.execHalfReleaseEnd
  | .pdset _ => h.execPdset
  | .mskset _ => h.execMskset
  | .wtset _ => h.execWtset
  | .accClaim _ => h.execAccClaim
  | .fillComplete _ _ => h.execFillComplete
  | .feedEnd _ _ => h.execFeedEnd
  | .parcelFinal _ _ => h.execParcelFinal
  | .spillDrainComplete _ _ => h.execSpillDrainComplete
  | .coreTestEnter _ _ => h.execCoreTestEnter
  | .coreTestStart _ _ => h.execCoreTestStart
  | .coreTestLeave _ _ => h.execCoreTestLeave
  | .valuAdd _ _ => h.execValuAdd
  | .valuSub _ _ => h.execValuSub
  | .valuMul _ _ => h.execValuMul
  | .valuFma _ _ => h.execValuFma
  | .valuFnma _ _ => h.execValuFnma
  | .valuMax _ _ => h.execValuMax
  | .valuMin _ _ => h.execValuMin
  | .valuAbs _ _ => h.execValuAbs
  | .valuNeg _ _ => h.execValuNeg
  | .valuMov _ _ => h.execValuMov
  | .valuSel _ _ => h.execValuSel
  | .valuI2f _ _ => h.execValuI2f
  | .valuF2i _ _ => h.execValuF2i
  | .valuWiden _ _ => h.execValuWiden
  | .valuNarrow _ _ => h.execValuNarrow
  | .valuAnd _ _ => h.execValuAnd
  | .valuOr _ _ => h.execValuOr
  | .valuXor _ _ => h.execValuXor
  | .valuNot _ _ => h.execValuNot
  | .valuShl _ _ => h.execValuShl
  | .valuShr _ _ => h.execValuShr
  | .valuSar _ _ => h.execValuSar
  | .valuSplit _ _ => h.execValuSplit
  | .vsfuRcp _ _ => h.execVsfuRcp
  | .vsfuRsq _ _ => h.execVsfuRsq
  | .vsfuSqrt _ _ => h.execVsfuSqrt
  | .vsfuDiv _ _ => h.execVsfuDiv
  | .vsfuExp2 _ _ => h.execVsfuExp2
  | .vsfuLog2 _ _ => h.execVsfuLog2
  | .vsfuExp _ _ => h.execVsfuExp
  | .vsfuLog _ _ => h.execVsfuLog
  | .vsfuTanh _ _ => h.execVsfuTanh
  | .vsfuSigmoid _ _ => h.execVsfuSigmoid
  | .vsfuSilu _ _ => h.execVsfuSilu
  | .vsfuGelu _ _ => h.execVsfuGelu
  | .vsfuErf _ _ => h.execVsfuErf
  | .vsfuSin _ _ => h.execVsfuSin
  | .vsfuCos _ _ => h.execVsfuCos
  | .vcmpEq _ _ => h.execVcmpEq
  | .vcmpNe _ _ => h.execVcmpNe
  | .vcmpLt _ _ => h.execVcmpLt
  | .vcmpLe _ _ => h.execVcmpLe
  | .vcmpGt _ _ => h.execVcmpGt
  | .vcmpGe _ _ => h.execVcmpGe
  | .vcmpUnordered _ _ => h.execVcmpUnordered
  | .vredSum _ _ => h.execVredSum
  | .vredMax _ _ => h.execVredMax
  | .vredMin _ _ => h.execVredMin
  | .vredAnd _ _ => h.execVredAnd
  | .vredOr _ _ => h.execVredOr
  | .vredXor _ _ => h.execVredXor
  | .vredPopc _ _ => h.execVredPopc
  | .vredPall _ _ => h.execVredPall
  | .vredPany _ _ => h.execVredPany
  | .vredPpar _ _ => h.execVredPpar
  | .vredPcnt _ _ => h.execVredPcnt
  | .vperm _ _ => h.execVperm
  | .vldUnitStride _ _ => h.execVldUnitStride
  | .vldStrided _ _ => h.execVldStrided
  | .vldGather _ _ => h.execVldGather
  | .vldRepeat _ _ => h.execVldRepeat
  | .vldBroadcast _ _ => h.execVldBroadcast
  | .vstUnitStride _ _ => h.execVstUnitStride
  | .vstStrided _ _ => h.execVstStrided
  | .vstScatter _ _ => h.execVstScatter
  | .vdrn _ => h.execVdrn
  | .vcstDirect _ _ => h.execVcstDirect
  | .vcstOutput _ => h.execVcstOutput
  | .veend _ => h.execVeend
  | .vseti _ _ => h.execVseti
  | .vcaps _ _ => h.execVcaps
  | .vpop _ _ => h.execVpop
  | .vpfirst _ _ => h.execVpfirst
  | .epilogueStart _ => h.execEpilogueStart
  | .regionCloseEnd _ _ => h.execRegionCloseEnd
  | .scrubComplete _ _ => h.execScrubComplete
  | .correctedWriteback _ => h.execCorrectedWriteback
  | .patrolPeriod => h.execPatrolPeriod
  | .scrubHoldWrite _ _ => h.execScrubHoldWrite
  | .move _ => h.execMove
  | .mwait _ => h.execMwait
  | .moveNop _ => h.execMoveNop
  | .moveCopy _ => h.execMoveCopy
  | .moveFill _ => h.execMoveFill
  | .moveMap _ => h.execMoveMap
  | .moveUnmap _ => h.execMoveUnmap
  | .unmapComplete _ => h.execUnmapComplete
  | .moveTouch _ => h.execMoveTouch
  | .moveComplete _ => h.execMoveComplete
  | .walkComplete _ _ _ => h.execWalkComplete
  | .pendingZeroWriteDone _ _ => h.execPendingZeroWriteDone
  | .frameScrub _ => h.execFrameScrub
  | .doorbell _ _ _ => h.execDoorbell
  | .itemNop _ => h.execItemNop
  | .itemKernel _ => h.execItemKernel
  | .itemMove _ => h.execItemMove
  | .itemRalloc _ => h.execItemRalloc
  | .itemRfree _ => h.execItemRfree
  | .rgbegin _ => h.execRgbegin
  | .rgend _ => h.execRgend
  | .placementRetry _ => h.execPlacementRetry
  | .placeLimitExpiry _ => h.execPlaceLimitExpiry
  | .kernelTimeout _ => h.execKernelTimeout
  | .barrierBroken _ => h.execBarrierBroken
  | .kernelEnd _ => h.execKernelEnd
  | .qEnable _ _ => h.execQEnable
  | .qDisable _ _ => h.execQDisable
  | .qResume _ _ => h.execQResume
  | .qFlush _ _ => h.execQFlush
  | .cheadWrite _ _ _ => h.execCheadWrite
  | .domActivate _ _ _ => h.execDomActivate
  | .domTearDown _ _ => h.execDomTearDown
  | .teardownComplete _ => h.execTeardownComplete
  | .ginfo _ => h.execGinfo
  | .gbar _ => h.execGbar
  | .signal _ => h.execSignal
  | .swait _ => h.execSwait
  | .qpost _ => h.execQpost
  | .trav _ => h.execTrav
  | .twait _ => h.execTwait
  | .spush _ => h.execSpush
  | .spop _ => h.execSpop
  | .allreduce _ => h.execAllreduce
  | .redscat _ => h.execRedscat
  | .allgather _ => h.execAllgather
  | .permute _ => h.execPermute
  | .rpass _ => h.execRpass
  | .hmerge _ => h.execHmerge
  | .roundComplete _ => h.execRoundComplete
  | .roundTimeout _ => h.execRoundTimeout
  | .sbinitRetry _ => h.execSbinitRetry
  | .sbinitDone _ => h.execSbinitDone
  | .featureRecord _ _ => h.execFeatureRecord
  | .exchangeTimeout _ => h.execExchangeTimeout
  | .rateAttempt _ _ _ => h.execRateAttempt
  | .closureRecord _ _ _ _ _ _ _ => h.execClosureRecord
  | .partnerRetrainRequest _ => h.execPartnerRetrainRequest
  | .retrainTimeout _ => h.execRetrainTimeout
  | .sidebandLoss _ => h.execSidebandLoss
  | .retrain _ _ => h.execRetrain
  | .unquarantine _ _ => h.execUnquarantine
  | .takeDown _ _ => h.execTakeDown
  | .flit _ _ => h.execFlit
  | .ackDue _ => h.execAckDue
  | .rd _ _ => h.execRd
  | .wr _ _ => h.execWr
  | .bwr _ _ => h.execBwr
  | .rdata _ _ => h.execRdata
  | .wack _ _ => h.execWack
  | .ersp _ _ => h.execErsp
  | .seg _ _ => h.execSeg
  | .perm _ _ => h.execPerm
  | .grant _ _ => h.execGrant
  | .cack _ _ => h.execCack
  | .abort _ _ => h.execAbort
  | .crefuse _ _ => h.execCrefuse
  | .sdata _ _ => h.execSdata
  | .sack _ _ => h.execSack
  | .sopen _ _ => h.execSopen
  | .scredit _ _ => h.execScredit
  | .serr _ _ => h.execSerr
  | .creq _ _ => h.execCreq
  | .crsp _ _ => h.execCrsp
  | .event _ _ => h.execEvent
  | .frameCode _ _ => h.execFrameCode
  | .fcack _ _ => h.execFcack
  | .msg _ _ => h.execMsg
  | .image _ _ => h.execImage
  | .enote _ _ => h.execEnote
  | .mack _ _ => h.execMack
  | .requestTimeout _ => h.execRequestTimeout
  | .routeHoldEnd _ => h.execRouteHoldEnd
  | .issueFractionUpdate _ => h.execIssueFractionUpdate
  | .railSample _ _ _ => h.execRailSample
  | .controlPeriod _ => h.execControlPeriod
  | .vcoreReached => h.execVcoreReached
  | .vcoreReadyTimeout _ => h.execVcoreReadyTimeout
  | .temperatureScan _ => h.execTemperatureScan
  | .energyUpdate _ => h.execEnergyUpdate
  | .fnRptrWrite _ _ => h.execFnRptrWrite
  | .dieFatal _ => h.execDieFatal
  | .mbReqWrite _ _ _ _ => h.execMbReqWrite
  | .post _ _ _ => h.execPost
  | .mbRelease _ _ => h.execMbRelease
  | .take _ _ => h.execTake
  | .reply _ _ _ => h.execReply
  | .loadWindow _ => h.execLoadWindow
  | .mirrorSnapshot => h.execMirrorSnapshot
  | .wdtKick _ _ => h.execWdtKick
  | .watchdogExpiry => h.execWatchdogExpiry
  | .surveyorMemoryError _ => h.execSurveyorMemoryError
  | .surveyorRestartEnd => h.execSurveyorRestartEnd
  | .extend _ _ => h.execExtend
  | .quoteReq _ => h.execQuoteReq
  | .quoteDone => h.execQuoteDone
  | .submit _ => h.execSubmit
  | .maRead _ => h.execMaRead
  | .maWrite _ => h.execMaWrite
  | .maComplete => h.execMaComplete
  | .clRetire _ _ _ _ => h.execClRetire
  | .quiescePoint _ => h.execQuiescePoint
  | .recoveryTestEnd _ _ => h.execRecoveryTestEnd
  | .newClear _ => h.execNewClear
  | .clear _ _ => h.execClear
  | .scaleEntryWrite _ _ _ _ => h.execScaleEntryWrite
  | .testLogicReset => h.execTestLogicReset
  | .extest => h.execExtest
  | .idcode => h.execIdcode
  | .samplePreload _ => h.execSamplePreload
  | .clamp => h.execClamp
  | .highz => h.execHighz
  | .ijtag _ => h.execIjtag
  | .bypass _ => h.execBypass
  | .mrSync => h.execMrSync
  | .presInChange _ => h.execPresInChange
  | .partnerSidebandRestart _ => h.execPartnerSidebandRestart
  | .railsValid => h.execRailsValid

/-- So does every step: the state that a command runs on differs in the queue alone, and an idle cycle is a tick. -/
theorem State.Canonical.step (h : s.Canonical) : Keeps (step s) := by
  unfold Machine.step
  split
  · exact h.tick.next
  · exact h.same.exec _

/-- Settles O59: every operation of the model keeps memory and the registers in canonical form, so every step does. -/
theorem everyStepKeepsTheTablesCanonical : Obligations.EveryStepKeepsTheTablesCanonical :=
  fun _ _ h e => h.step _ e

end Sys2Proof.Machine
end

section
/-! SUPPORT. An idle cycle (O2): what the counters, the modules and the chains of the test port take from a cycle, and that nothing else
does. -/

namespace Sys2Proof.Machine

/-- Between `s` and `t` only registers and the links' side of the die changed: the fields below, and no other. -/
def WorkStands (s t : State) : Prop :=
  t = { s with ckFrac := t.ckFrac, regs := t.regs, station := t.station, irq := t.irq, evq := t.evq, hostMsgs := t.hostMsgs
               mods := t.mods, reqs := t.reqs, waiting := t.waiting, pathDrops := t.pathDrops }

variable {s t u : State}

theorem WorkStands.refl (s : State) : WorkStands s s := rfl

theorem WorkStands.trans (a : WorkStands s t) (b : WorkStands t u) : WorkStands s u := by
  unfold WorkStands at a b ⊢
  rw [a] at b
  exact b

theorem Reports.workStands (r : Reports s t) : WorkStands s t := by
  unfold WorkStands
  rw [r.rest]

theorem WorkStands.put (h : WorkStands s t) {f : Fld} {v i e : Nat} : WorkStands s (t.put f v i e) :=
  h.trans (by unfold WorkStands; rw [State.put_frame])

theorem WorkStands.setMod (h : WorkStands s t) {m : Nat} {x : ModSt} : WorkStands s (t.setMod m x) :=
  h.trans (State.setMod_reports t m x).workStands

theorem WorkStands.count (h : WorkStands s t) {f : Fld} {n i e : Nat} : WorkStands s (t.count f n i e) := h.put

theorem WorkStands.bump (h : WorkStands s t) {f : Fld} {n i e : Nat} : WorkStands s (t.bump f n i e) := h.put

theorem WorkStands.event (h : WorkStands s t) {f : Fld} {v inst : Nat} : WorkStands s (t.event f v inst) :=
  h.trans (State.event_reports t f v inst).workStands

theorem WorkStands.flushWaiting (h : WorkStands s t) : WorkStands s t.flushWaiting := h.trans (State.flushWaiting_reports t).workStands

theorem WorkStands.foldl {α : Type} {f : State → α → State} {l : List α} (h : WorkStands s t) (hf : ∀ {t x}, WorkStands s t → WorkStands s (f t x)) :
    WorkStands s (l.foldl f t) := by
  induction l generalizing t with
  | nil => exact h
  | cons x l ih => exact ih (hf h)

/-! ### The clock and the counters of waits -/

theorem WorkStands.clockTick (h : WorkStands s t) : WorkStands s t.clockTick := by
  refine h.trans ?_
  unfold State.clockTick
  extract_lets mhz
  split
  · exact rfl
  · exact WorkStands.trans (t := { t with ckFrac := 0 }) rfl (.foldl (.count (.refl _)) fun h => h.count)

theorem WorkStands.countIf (h : WorkStands s t) {b : Bool} {f : Fld} {i e : Nat} : WorkStands s (t.countIf b f i e) := by
  unfold State.countIf
  split
  · exact h.count
  · exact h

theorem WorkStands.coreWaits (h : WorkStands s t) {n : Nat} : WorkStands s (t.coreWaits n) := h.countIf.countIf.countIf.countIf

theorem WorkStands.chainWaits (h : WorkStands s t) {ch : Nat} : WorkStands s (t.chainWaits ch) := by
  unfold State.chainWaits
  split
  · exact h
  · split
    · exact h.count
    · exact h.countIf.countIf

theorem WorkStands.stageWaits (h : WorkStands s t) : WorkStands s t.stageWaits := by
  unfold State.stageWaits
  split
  · exact h
  · exact h.foldl fun h => h.countIf

theorem WorkStands.waits (h : WorkStands s t) : WorkStands s t.waits := by
  have hcores : WorkStands s ((t.cores.map (·.1)).foldl State.coreWaits t).creditWaits := (h.foldl fun h => h.coreWaits).foldl fun h => h.count
  exact (hcores.foldl fun h => h.chainWaits).stageWaits

/-! ### The modules -/

theorem WorkStands.setModState (h : WorkStands s t) {m st : Nat} : WorkStands s (t.setModState m st) := h.put.put.setMod

/-- A flit takes a station number with it and starts the time of the requests in it. -/
theorem WorkStands.sent (h : WorkStands s t) {n : Nat} {l : List Packet} : WorkStands s (({ t with station := n } : State).markSent l) := by
  refine h.trans ?_
  rfl

/-- A branch whose answer carries a state and a flag. -/
theorem WorkStands.ite_fst {β : Type} {c : Prop} [Decidable c] {a b : State × β} (ha : WorkStands s a.1) (hb : WorkStands s b.1) :
    WorkStands s (if c then a else b).1 := by
  split
  · exact ha
  · exact hb

theorem WorkStands.ite_pair {β : Type} {c : Prop} [Decidable c] {t u : State} {x y : β} (ht : WorkStands s t) (hu : WorkStands s u) :
    WorkStands s (if c then (t, x) else (u, y)).1 := .ite_fst ht hu

theorem WorkStands.sendFlit (h : WorkStands s t) {m : Nat} : WorkStands s (t.sendFlit m).1 := by
  unfold State.sendFlit
  extract_lets bulk old x done c again
  clear_value again
  split
  · exact .ite_fst h.setMod (.ite_pair h.setMod.bump h.setMod.count)
  · exact .ite_pair h.setMod (WorkStands.sent h).setMod.count

theorem WorkStands.modTick (h : WorkStands s t) {m : Nat} : WorkStands s (t.modTick m).1 :=
  .ite_fst h.setModState (.ite_fst h.countIf.sendFlit h)

theorem WorkStands.limitHit (h : WorkStands s t) {m : Nat} : WorkStands s (t.limitHit m) := by
  unfold State.limitHit State.enterRetrain State.lnkEvent
  split
  · exact h.put.event
  · exact h.put.event.setModState.setMod.bump.put.event

theorem WorkStands.modTicks (h : WorkStands s t) : WorkStands s t.modTicks := by
  have hsends : ∀ (l : List Nat) (a : State × List Nat), WorkStands s a.1 → WorkStands s (l.foldl (fun (a : State × List Nat) m =>
      let t := a.1.modTick m
      (t.1, if t.2 then a.2 ++ [m] else a.2)) a).1 := by
    intro l
    induction l with
    | nil => exact fun _ h => h
    | cons m l ih => exact fun a h => ih _ h.modTick
  exact (hsends _ (t, []) h).flushWaiting.foldl fun h => h.limitHit

/-! ### The issue accounts -/

/-- A table that lists keys from `lo` on reads below it as the default. -/
theorem tget_below (d : Nat → Nat) {k : Nat} : ∀ {l : Tbl Nat} {lo : Nat}, twfFrom d lo l = true → k < lo → tget d k l = d k
  | [], _, _, _ => rfl
  | (j, v) :: l, lo, w, hk => by
    simp only [twfFrom, Bool.and_eq_true, decide_eq_true_eq] at w
    obtain ⟨⟨hlo, -⟩, hl⟩ := w
    rw [tget_cons, if_neg (by omega)]
    exact tget_below d hl (by omega)

/-- In a canonical table, an amount taken off every entry listed is taken off every value read: an entry that is then 0 leaves the
table, and no second entry of its key stands behind it. -/
theorem tget_regained (phi a : Nat) : ∀ {l : Tbl Nat} {lo : Nat}, twfFrom (fun _ => 0) lo l = true →
    tget (fun _ => 0) a ((l.map (fun e => (e.1, e.2 - phi))).filter (fun e => e.2 != 0)) = tget (fun _ => 0) a l - phi
  | [], _, _ => by simp [tget]
  | (j, v) :: l, lo, w => by
    simp only [twfFrom, Bool.and_eq_true] at w
    obtain ⟨-, hl⟩ := w
    have ih := tget_regained phi a hl
    by_cases hv : v - phi = 0
    · simp only [List.map_cons, List.filter_cons, hv, bne_self_eq_false, Bool.false_eq_true, if_false, ih, tget_cons]
      by_cases hj : j = a
      · rw [tget_below _ hl (by omega), if_pos hj, hv, Nat.zero_sub]
      · rw [if_neg hj]
    · simp only [List.map_cons, List.filter_cons, bne_iff_ne, ne_eq, hv, not_false_eq_true, if_true, tget_cons, ih]
      by_cases hj : j = a
      · rw [if_pos hj, if_pos hj]
      · rw [if_neg hj, if_neg hj]

/-! ### The chains -/

theorem State.scanEdge_ring (s : State) : s.scanEdge.ring = s.tap.ring := by
  unfold State.scanEdge State.updateDr
  split
  · rfl
  · dsimp only
    split
    · split
      · rfl
      · split <;> rfl
    · rfl

/-- An edge of `TCK` on a die in bypass moves the scan and the bypass bit. -/
theorem State.scanEdge_bypassed {s : State} (h : s.bypassed = true) :
    s.scanEdge = { s.tap with bit := s.scanEdge.bit, scan := s.scanEdge.scan } := by
  unfold State.scanEdge
  rw [if_pos h]

/-- The chains take one ck: the ring stands or shifts by a bit. -/
theorem State.chainTick_ring (s : State) :
    s.chainTick.tap.ring = s.tap.ring ∨ ∃ b, s.chainTick.tap.ring = shiftIn s.ringLength s.tap.ring b := by
  have hscan : (if s.edge .tck then s.scanEdge else s.tap).ring = s.tap.ring := by
    split
    · exact s.scanEdge_ring
    · rfl
  unfold State.chainTick
  dsimp only
  split
  · exact .inr ⟨_, by rw [hscan]⟩
  · exact .inl hscan

theorem State.ringLength_of_bypassed {s : State} (h : s.bypassed = true) : s.ringLength = 1 := if_pos h

theorem State.ringLength_cases (s : State) : s.ringLength = 1 ∨ s.ringLength = 32 := by
  unfold State.ringLength
  split
  · exact .inl rfl
  · exact .inr rfl

theorem State.bypassed_of_held {s : State} (h : s.aon.held = true) : s.bypassed = true := by simp [State.bypassed, h]

/-- The chains take one ck of a die in bypass, and touch the two registers that it has and the place of its scan. -/
theorem State.chainTick_bypassed {s : State} (h : s.bypassed = true) :
    s.chainTick = { s with free := s.free + 1, tap := { s.tap with bit := s.chainTick.tap.bit, scan := s.chainTick.tap.scan, ring := s.chainTick.tap.ring } } := by
  have hscan : (if s.edge .tck then s.scanEdge else s.tap) =
      { s.tap with bit := (if s.edge .tck then s.scanEdge else s.tap).bit, scan := (if s.edge .tck then s.scanEdge else s.tap).scan } := by
    split
    · exact State.scanEdge_bypassed h
    · rfl
  unfold State.chainTick
  dsimp only
  rw [hscan]

/-! ### The step -/

theorem step_idle {s : State} (h : s.pending = []) : step s = .next s.tick := by simp [step, h]

theorem State.tick_held {s : State} (h : s.aon.held = true) : s.tick = s.chainTick := by simp [State.tick, h]

theorem State.tick_running {s : State} (h : s.aon.held = false) : s.tick = s.clockTick.waits.regain.modTicks.chainTick := by simp [State.tick, h]

/-- A held die's chains move, and nothing else does. -/
theorem idle_held {s : State} (hq : s.pending = []) (h : s.aon.held = true) : Answers (step s) fun t =>
    t = { s with free := s.free + 1, tap := { s.tap with bit := t.tap.bit, scan := t.tap.scan, ring := t.tap.ring } } ∧
    (t.tap.ring = s.tap.ring ∨ ∃ b, t.tap.ring = b2n b) := by
  have hb := State.bypassed_of_held h
  refine ⟨s.chainTick, by rw [step_idle hq, State.tick_held h], State.chainTick_bypassed hb, ?_⟩
  obtain hring | ⟨b, hring⟩ := s.chainTick_ring
  · exact .inl hring
  · refine .inr ⟨b, ?_⟩
    rw [hring, State.ringLength_of_bypassed hb, shiftIn, pow_one, Nat.div_eq_of_lt (Nat.mod_lt _ (by decide)), Nat.sub_self, pow_zero, Nat.zero_add, Nat.mul_one]

/-- A running die's work stands before and after the issue accounts regain, and its ring shifts by at most a bit. -/
theorem idle_running {s : State} (hq : s.pending = []) (h : s.aon.held = false) (w : twf (fun _ => 0) s.accounts = true) :
    Answers (step s) fun t =>
      t.pending = [] ∧ (∀ a, tget (fun _ => 0) a t.accounts = tget (fun _ => 0) a s.accounts - s.phi) ∧
      t.mem = s.mem ∧ t.cores = s.cores ∧ t.queues = s.queues ∧ t.chains = s.chains ∧ t.stages = s.stages ∧ t.moves = s.moves ∧
      t.gangs = s.gangs ∧ t.items = s.items ∧ t.frames = s.frames ∧
      (t.tap.ring = s.tap.ring ∨ ∃ n b, (n = 1 ∨ n = 32) ∧ t.tap.ring = s.tap.ring % 2 ^ n / 2 + b2n b * 2 ^ (n - 1)) := by
  have hwaits : WorkStands s s.clockTick.waits := (WorkStands.refl s).clockTick.waits
  have hmods : WorkStands s.clockTick.waits.regain s.clockTick.waits.regain.modTicks := (WorkStands.refl _).modTicks
  obtain ⟨v, hv⟩ : ∃ v, v = s.clockTick.waits := ⟨_, rfl⟩
  rw [← hv] at hwaits hmods
  have stands {β : Type} (π : State → β) (hπ : ∀ {x y : State}, WorkStands x y → π y = π x) (hr : π v.regain = π v) :
      π v.regain.modTicks = π s := ((hπ hmods).trans hr).trans (hπ hwaits)
  have haccounts : v.regain.modTicks.accounts = s.regain.accounts := by
    rw [congrArg State.accounts hmods, State.regain, congrArg State.accounts hwaits, congrArg State.phi hwaits, State.regain]
  refine ⟨v.regain.modTicks.chainTick, by rw [step_idle hq, State.tick_running h, ← hv],
    (stands State.pending (congrArg _) rfl).trans hq, fun a => ?_, stands State.mem (congrArg _) rfl, stands State.cores (congrArg _) rfl,
    stands State.queues (congrArg _) rfl, stands State.chains (congrArg _) rfl, stands State.stages (congrArg _) rfl,
    stands State.moves (congrArg _) rfl, stands State.gangs (congrArg _) rfl, stands State.items (congrArg _) rfl,
    stands State.frames (congrArg _) rfl, ?_⟩
  · exact (congrArg (tget (fun _ => 0) a) haccounts).trans (tget_regained s.phi a w)
  · have htap : v.regain.modTicks.tap.ring = s.tap.ring := congrArg Tap.ring (stands State.tap (congrArg _) rfl)
    obtain hring | ⟨b, hring⟩ := v.regain.modTicks.chainTick_ring
    · exact .inl (hring.trans htap)
    · exact .inr ⟨_, b, v.regain.modTicks.ringLength_cases, by rw [hring, htap, shiftIn]⟩

/-- Settles O2: before and after the accounts regain, a cycle changes registers and the links' side alone (`WorkStands`), and the chains
of the test port and of the ring shift by a bit at most. -/
theorem idleCycleLeavesTheWorkAlone : Obligations.IdleCycleLeavesTheWorkAlone :=
  fun _ hq => ⟨idle_held hq, idle_running hq⟩

end Sys2Proof.Machine
end

section
/-! SUPPORT. The resets (O4, O6): what a warm reset keeps of the registers, and what latching the straps writes. -/

namespace Sys2Proof.Machine

variable {s t u : State}

/-! ### Fields apart -/

/-- The one-word fields `f` of unit `i`, element `e` and `g` of unit `j`, element `k` share no bit. -/
abbrev Fld.Apart (f : Fld) (i e : Nat) (g : Fld) (j k : Nat) : Prop :=
  f.one ∧ g.one ∧ (g.key j k ≠ f.key i e ∨ g.lo + g.len ≤ f.lo ∨ f.lo + f.len ≤ g.lo)

theorem State.get_put_apart {f g : Fld} {i e j k : Nat} (h : f.Apart i e g j k) (s : State) (v : Nat) : (s.put f v i e).get g j k = s.get g j k := by
  obtain ⟨hf, hg, hkey | hbits⟩ := h
  · exact State.get_put_key hf hg s v i e j k hkey
  · exact State.get_put_bits hf hg s v i e j k hbits

theorem State.get_lt {f : Fld} (h : f.one) (s : State) (i e : Nat) : s.get f i e < 2 ^ f.len := by
  rw [State.get_one h]
  exact bitsAt_lt _ _ _

/-- A field that is kept reads as it read. -/
theorem State.get_keep {f : Fld} (h : f.one) (s old : State) (e : Nat) : (s.keep old f e).get f 0 e = old.get f 0 e := by
  rw [State.keep, State.get_put_one h, Nat.mod_eq_of_lt (State.get_lt h _ _ _)]

/-! ### Writes of registers alone -/

/-- Between `s` and `t` registers changed, and nothing else. -/
def OnlyRegs (s t : State) : Prop := t = { s with regs := t.regs }

theorem OnlyRegs.refl (s : State) : OnlyRegs s s := rfl

theorem OnlyRegs.put (h : OnlyRegs s t) {f : Fld} {v i e : Nat} : OnlyRegs s (t.put f v i e) := by
  unfold OnlyRegs at h ⊢
  rw [State.put_frame, h]

theorem OnlyRegs.foldl {α : Type} {f : State → α → State} {l : List α} (h : OnlyRegs s t) (hf : ∀ {t x}, OnlyRegs s t → OnlyRegs s (f t x)) :
    OnlyRegs s (l.foldl f t) := by
  induction l generalizing t with
  | nil => exact h
  | cons x l ih => exact ih (hf h)

theorem State.get_setAon (t : State) (a : Aon) (f : Fld) (i e : Nat) : ({ t with aon := a } : State).get f i e = t.get f i e := State.get_congr rfl f i e

/-! ### The warm reset -/

/-- What a warm reset starts from: the reset state with what R383 keeps outside the registers. -/
def State.warmFloor (s : State) : State :=
  { State.reset with
    pending := s.pending, free := s.free, station := s.station, bootNonce := s.bootNonce, fuses := s.fuses, poolKept := s.poolKept
    frames := s.frames.filterMap (fun e => if e.2.code = 1 ∨ e.2.code = 2 then none else some (e.1, { e.2 with mapped := false }))
    aon := { s.aon with latched := false }, tap := s.tap, regs := [] }

/-- The four fields that R383 keeps beside the retained plat. -/
def State.warmKeep (s : State) : State :=
  (((s.warmFloor.keep s Fld.CLK_CLK_AON_REF_LOST).keep s Fld.CLK_CLK_AON_PLL_LOST).keep s Fld.PWR_PWR_STATUS_TRIP_SEEN).keep s
    Fld.PLAT_PLAT_COUNTS_RETAINED

/-- The first `n` entries of the retained plat. -/
def State.keepPlat (t s : State) (n : Nat) : State := (List.range n).foldl (fun t i => t.keep s Fld.PLAT_PLAT_RET_ENTRY i) t

/-- The writes that end a warm reset: the count of resets, the phase and the cause, the crystal and the challenge. -/
def State.warmEnd (t : State) (resets cause : Nat) : State :=
  (((t.put Fld.BOOT_BOOT_RESETS_RESET_COUNT resets).put Fld.BOOT_BOOT_STATE_PHASE 1).put Fld.BOOT_BOOT_STATE_RESET_CAUSE cause).crystal.freshChallenge

theorem State.warmReset_eq (s : State) (cause count : Nat) :
    s.warmReset cause count = (s.warmKeep.keepPlat s 64).warmEnd (s.get Fld.BOOT_BOOT_RESETS_RESET_COUNT + count) cause := rfl

theorem State.keepPlat_succ (t s : State) (n : Nat) : t.keepPlat s (n + 1) = (t.keepPlat s n).keep s Fld.PLAT_PLAT_RET_ENTRY n := by
  rw [State.keepPlat, List.range_succ, List.foldl_append]
  rfl

theorem retEntry_apart {i j : Nat} (h : i ≠ j) : Fld.PLAT_PLAT_RET_ENTRY.Apart 0 j Fld.PLAT_PLAT_RET_ENTRY 0 i := by
  refine ⟨by decide, by decide, .inl ?_⟩
  simp only [Fld.key, Fld.PLAT_PLAT_RET_ENTRY, regKey]
  omega

theorem State.get_keepPlat_entry (t s : State) {i : Nat} : ∀ {n : Nat}, i < n →
    (t.keepPlat s n).get Fld.PLAT_PLAT_RET_ENTRY 0 i = s.get Fld.PLAT_PLAT_RET_ENTRY 0 i
  | n + 1, h => by
    rw [State.keepPlat_succ]
    by_cases hi : i = n
    · rw [hi, State.get_keep (by decide)]
    · rw [State.keep, State.get_put_apart (retEntry_apart hi), State.get_keepPlat_entry t s (by omega)]

theorem State.get_keepPlat_apart (t s : State) {g : Fld} {j k : Nat} : ∀ {n : Nat},
    (∀ e < n, Fld.PLAT_PLAT_RET_ENTRY.Apart 0 e g j k) → (t.keepPlat s n).get g j k = t.get g j k
  | 0, _ => rfl
  | n + 1, h => by
    rw [State.keepPlat_succ, State.keep, State.get_put_apart (h n (by omega)), State.get_keepPlat_apart t s fun e he => h e (by omega)]

theorem State.get_freshChallenge (t : State) (f : Fld) (i e : Nat) : t.freshChallenge.get f i e = t.get f i e := State.get_congr rfl f i e

theorem State.get_crystal_apart {g : Fld} {j k : Nat} (hsource : Fld.CLK_CLK_STATUS_SOURCE.Apart 0 0 g j k)
    (hxtal : Fld.CLK_CLK_STATUS_XTAL_OK.Apart 0 0 g j k) (t : State) : t.crystal.get g j k = t.get g j k := by
  rw [State.crystal, State.get_put_apart hxtal, State.get_put_apart hsource]

theorem State.crystal_ok (t : State) : t.crystal.get Fld.CLK_CLK_STATUS_XTAL_OK = b2n t.aon.datumEn := by
  have hbit : b2n t.aon.datumEn < 2 ^ Fld.CLK_CLK_STATUS_XTAL_OK.len := by cases t.aon.datumEn <;> decide
  rw [State.crystal, State.get_put_one (by decide), Nat.mod_eq_of_lt hbit]

/-- The fields that `warmEnd` writes. -/
def warmFields : List Fld :=
  [Fld.BOOT_BOOT_RESETS_RESET_COUNT, Fld.BOOT_BOOT_STATE_PHASE, Fld.BOOT_BOOT_STATE_RESET_CAUSE, Fld.CLK_CLK_STATUS_SOURCE,
    Fld.CLK_CLK_STATUS_XTAL_OK]

theorem State.get_warmEnd_apart {g : Fld} {j k : Nat} (h : ∀ f ∈ warmFields, f.Apart 0 0 g j k) (t : State) (resets cause : Nat) :
    (t.warmEnd resets cause).get g j k = t.get g j k := by
  simp only [warmFields, List.forall_mem_cons, List.not_mem_nil, false_implies, implies_true, and_true] at h
  obtain ⟨hcount, hphase, hcause, hsource, hxtal⟩ := h
  rw [State.warmEnd, State.get_freshChallenge, State.get_crystal_apart hsource hxtal, State.get_put_apart hcause, State.get_put_apart hphase,
    State.get_put_apart hcount]

theorem State.warmEnd_frame (t : State) (resets cause : Nat) :
    t.warmEnd resets cause = { t with regs := (t.warmEnd resets cause).regs, chal := drawChallenge t.free, free := t.free + 6 } := by
  have h : OnlyRegs t (((t.put Fld.BOOT_BOOT_RESETS_RESET_COUNT resets).put Fld.BOOT_BOOT_STATE_PHASE 1).put
    Fld.BOOT_BOOT_STATE_RESET_CAUSE cause).crystal := (OnlyRegs.refl t).put.put.put.put.put
  unfold OnlyRegs at h
  unfold State.warmEnd State.freshChallenge
  generalize State.crystal _ = x at h ⊢
  rw [h]

theorem State.warmEnd_phase (t : State) (resets cause : Nat) : (t.warmEnd resets cause).get Fld.BOOT_BOOT_STATE_PHASE = 1 := by
  rw [State.warmEnd, State.get_freshChallenge, State.get_crystal_apart (by decide) (by decide), State.get_put_apart (by decide),
    State.get_put_one (by decide)]
  rfl

theorem State.warmEnd_cause (t : State) (resets : Nat) {cause : Nat} (h : cause < 4) :
    (t.warmEnd resets cause).get Fld.BOOT_BOOT_STATE_RESET_CAUSE = cause := by
  rw [State.warmEnd, State.get_freshChallenge, State.get_crystal_apart (by decide) (by decide), State.get_put_one (by decide)]
  exact Nat.mod_eq_of_lt h

theorem State.warmEnd_resets (t : State) (resets cause : Nat) :
    (t.warmEnd resets cause).get Fld.BOOT_BOOT_RESETS_RESET_COUNT = resets % 2 ^ 16 := by
  rw [State.warmEnd, State.get_freshChallenge, State.get_crystal_apart (by decide) (by decide), State.get_put_apart (by decide),
    State.get_put_apart (by decide), State.get_put_one (by decide)]
  rfl

theorem State.warmEnd_crystal (t : State) (resets cause : Nat) :
    (t.warmEnd resets cause).get Fld.CLK_CLK_STATUS_XTAL_OK = b2n t.aon.datumEn := by
  rw [State.warmEnd, State.get_freshChallenge, State.crystal_ok, State.put_aon, State.put_aon, State.put_aon]

/-- What a warm reset keeps of the registers, and nothing more: the other fields stand at their reset values. -/
theorem State.get_warmReset {g : Fld} {j k : Nat} (h : ∀ f ∈ warmFields, f.Apart 0 0 g j k)
    (hplat : ∀ e < 64, Fld.PLAT_PLAT_RET_ENTRY.Apart 0 e g j k) (s : State) (cause count : Nat) :
    (s.warmReset cause count).get g j k = s.warmKeep.get g j k := by
  rw [State.warmReset_eq, State.get_warmEnd_apart h, State.get_keepPlat_apart _ _ hplat]

theorem State.get_warmReset_entry (s : State) (cause count : Nat) {i : Nat} (h : i < 64) :
    (s.warmReset cause count).get Fld.PLAT_PLAT_RET_ENTRY 0 i = s.get Fld.PLAT_PLAT_RET_ENTRY 0 i := by
  have hapart : ∀ i < 64, ∀ f ∈ warmFields, f.Apart 0 0 Fld.PLAT_PLAT_RET_ENTRY 0 i := by decide
  rw [State.warmReset_eq, State.get_warmEnd_apart (hapart i h), State.get_keepPlat_entry _ _ h]

theorem State.get_warmKeep_apart {g : Fld} {j k : Nat}
    (h : ∀ f ∈ [Fld.CLK_CLK_AON_REF_LOST, Fld.CLK_CLK_AON_PLL_LOST, Fld.PWR_PWR_STATUS_TRIP_SEEN, Fld.PLAT_PLAT_COUNTS_RETAINED], f.Apart 0 0 g j k)
    (s : State) : s.warmKeep.get g j k = s.warmFloor.get g j k := by
  simp only [List.forall_mem_cons, List.not_mem_nil, false_implies, implies_true, and_true] at h
  obtain ⟨href, hpll, htrip, hplat⟩ := h
  simp only [State.warmKeep, State.keep, State.get_put_apart href, State.get_put_apart hpll, State.get_put_apart htrip, State.get_put_apart hplat]

theorem State.warmKeep_refLost (s : State) : s.warmKeep.get Fld.CLK_CLK_AON_REF_LOST = s.get Fld.CLK_CLK_AON_REF_LOST := by
  rw [State.warmKeep, State.keep, State.get_put_apart (by decide), State.keep, State.get_put_apart (by decide), State.keep,
    State.get_put_apart (by decide), State.get_keep (by decide)]

theorem State.warmKeep_pllLost (s : State) : s.warmKeep.get Fld.CLK_CLK_AON_PLL_LOST = s.get Fld.CLK_CLK_AON_PLL_LOST := by
  rw [State.warmKeep, State.keep, State.get_put_apart (by decide), State.keep, State.get_put_apart (by decide), State.get_keep (by decide)]

theorem State.warmKeep_retained (s : State) : s.warmKeep.get Fld.PLAT_PLAT_COUNTS_RETAINED = s.get Fld.PLAT_PLAT_COUNTS_RETAINED := by
  rw [State.warmKeep, State.get_keep (by decide)]

theorem State.keepPlat_frame (s : State) : OnlyRegs s.warmFloor (s.warmKeep.keepPlat s 64) := by
  refine .foldl ?_ fun h => h.put
  unfold State.warmKeep State.keep
  exact (OnlyRegs.refl _).put.put.put.put

/-- Register writes under a frame. -/
theorem OnlyRegs.around {b x y : State} (hx : OnlyRegs b x)
    (hy : y = { x with regs := y.regs, chal := drawChallenge x.free, free := x.free + 6 }) :
    y = { b with regs := y.regs, chal := drawChallenge b.free, free := b.free + 6 } := by
  unfold OnlyRegs at hx
  rw [hx] at hy
  exact hy

theorem State.warmReset_frame (s : State) (cause count : Nat) :
    s.warmReset cause count =
      { s.warmFloor with regs := (s.warmReset cause count).regs, chal := drawChallenge s.warmFloor.free, free := s.warmFloor.free + 6 } := by
  rw [State.warmReset_eq]
  exact s.keepPlat_frame.around (State.warmEnd_frame _ _ _)

theorem State.warmReset_aon (s : State) (cause count : Nat) : (s.warmReset cause count).aon = { s.aon with latched := false } := by
  rw [State.warmReset_frame]
  rfl

theorem State.warmReset_leaves (s : State) {cause : Nat} (h : cause < 4) (count : Nat) : WarmLeaves s (s.warmReset cause count) cause count where
  phase := by rw [State.warmReset_eq, State.warmEnd_phase]
  cause := by rw [State.warmReset_eq, State.warmEnd_cause _ _ h]
  resets := by rw [State.warmReset_eq, State.warmEnd_resets]
  station := by rw [State.warmReset_frame]; rfl
  nonce := by rw [State.warmReset_frame]; rfl
  retained := by
    refine ⟨?_, fun i hi => State.get_warmReset_entry s cause count hi⟩
    rw [State.get_warmReset (by decide) (by decide), State.warmKeep_retained]
  work := by
    rw [State.warmReset_frame]
    exact ⟨rfl, rfl, rfl, rfl, rfl, rfl, rfl, rfl, rfl, rfl, rfl, rfl, rfl, rfl⟩
  links := by
    have hwrites : ∀ m < 40, ∀ f ∈ warmFields, f.Apart 0 0 Fld.LNK_MOD_STATE_STATE m 0 := by decide
    have hplat : ∀ m < 40, ∀ e < 64, Fld.PLAT_PLAT_RET_ENTRY.Apart 0 e Fld.LNK_MOD_STATE_STATE m 0 := by decide +kernel
    have hkeeps : ∀ m < 40, ∀ f ∈ [Fld.CLK_CLK_AON_REF_LOST, Fld.CLK_CLK_AON_PLL_LOST, Fld.PWR_PWR_STATUS_TRIP_SEEN, Fld.PLAT_PLAT_COUNTS_RETAINED],
      f.Apart 0 0 Fld.LNK_MOD_STATE_STATE m 0 := by decide
    have hreset : ∀ m < 40, ({ State.reset with regs := [] } : State).get Fld.LNK_MOD_STATE_STATE m = 1 := by decide +kernel
    intro m hm
    rw [State.get_warmReset (hwrites m hm) (hplat m hm), State.get_warmKeep_apart (hkeeps m hm)]
    exact (State.get_congr rfl _ _ _).trans (hreset m hm)
  scrub := by
    rw [State.get_warmReset (by decide) (by decide), State.get_warmKeep_apart (by decide)]
    have hreset : ({ State.reset with regs := [] } : State).get Fld.FLD_FLD_DBGCTL_SCRUB_HOLD = 0 := by decide +kernel
    exact (State.get_congr rfl _ _ _).trans hreset
  challenge := by rw [State.warmReset_frame]; exact ⟨rfl, rfl⟩
  crystal := by
    have hframe : (s.warmKeep.keepPlat s 64).aon = { s.aon with latched := false } := congrArg State.aon s.keepPlat_frame
    rw [State.warmReset_eq, State.warmEnd_crystal, hframe]

/-- The always-on island's own state is no part of what a warm reset leaves. -/
theorem WarmLeaves.setAon {cause count : Nat} (h : WarmLeaves s t cause count) (a : Aon) :
    WarmLeaves s { t with aon := a } cause count :=
  ⟨h.phase, h.cause, h.resets, h.station, h.nonce, h.retained, h.work, h.links, h.scrub, h.challenge, h.crystal⟩

/-- A register write before the reset that R383 does not keep is gone. -/
theorem WarmLeaves.beforePut {f : Fld} {v cause count : Nat} (h : WarmLeaves (s.put f v) t cause count)
    (hcount : f.Apart 0 0 Fld.BOOT_BOOT_RESETS_RESET_COUNT 0 0) (hretained : f.Apart 0 0 Fld.PLAT_PLAT_COUNTS_RETAINED 0 0)
    (hentry : ∀ i < 64, f.Apart 0 0 Fld.PLAT_PLAT_RET_ENTRY 0 i) : WarmLeaves s t cause count where
  phase := h.phase
  cause := h.cause
  resets := by rw [h.resets, State.get_put_apart hcount]
  station := by rw [h.station, State.put_station]
  nonce := by rw [h.nonce, State.put_bootNonce]
  retained := by
    obtain ⟨hcounts, hentries⟩ := h.retained
    refine ⟨by rw [hcounts, State.get_put_apart hretained], fun i hi => ?_⟩
    rw [hentries i hi, State.get_put_apart (hentry i hi)]
  work := h.work
  links := h.links
  scrub := h.scrub
  challenge := by
    have hfree := h.challenge
    rw [State.put_free] at hfree
    exact hfree
  crystal := by rw [h.crystal, State.put_aon]

/-- `TRIP_SEEN` is no part of what a warm reset leaves. -/
theorem WarmLeaves.putTripSeen {v cause count : Nat} (h : WarmLeaves s t cause count) :
    WarmLeaves s (t.put Fld.PWR_PWR_STATUS_TRIP_SEEN v) cause count where
  phase := by rw [State.get_put_apart (by decide), h.phase]
  cause := by rw [State.get_put_apart (by decide), h.cause]
  resets := by rw [State.get_put_apart (by decide), h.resets]
  station := by rw [State.put_station, h.station]
  nonce := by rw [State.put_bootNonce, h.nonce]
  retained := by
    have hentry : ∀ i < 64, Fld.PWR_PWR_STATUS_TRIP_SEEN.Apart 0 0 Fld.PLAT_PLAT_RET_ENTRY 0 i := by decide
    obtain ⟨hcounts, hentries⟩ := h.retained
    refine ⟨by rw [State.get_put_apart (by decide), hcounts], fun i hi => ?_⟩
    rw [State.get_put_apart (hentry i hi), hentries i hi]
  work := by
    rw [State.put_frame]
    exact h.work
  links := by
    have hlink : ∀ m < 40, Fld.PWR_PWR_STATUS_TRIP_SEEN.Apart 0 0 Fld.LNK_MOD_STATE_STATE m 0 := by decide
    intro m hm
    rw [State.get_put_apart (hlink m hm), h.links m hm]
  scrub := by rw [State.get_put_apart (by decide), h.scrub]
  challenge := by rw [State.put_chal, State.put_free]; exact h.challenge
  crystal := by rw [State.get_put_apart (by decide), h.crystal]

/-! ### The resets by pin, by a rail, and for a lost clock -/

theorem State.inAon_iff (s : State) : s.inAon = true ↔ s.get Fld.BOOT_BOOT_STATE_PHASE = 0 := by simp [State.inAon]

theorem State.pinReset_running (h : s.get Fld.BOOT_BOOT_STATE_PHASE ≠ 0) : s.pinReset = s.warmReset 1
    (if s.get Fld.BOOT_BOOT_STATE_PHASE = 1 ∧ s.get Fld.BOOT_BOOT_STATE_RESET_CAUSE = 2 ∧ s.now = 0 then 0 else 1) := by
  simp [State.pinReset, State.inAon, h, and_assoc]

theorem State.pinReset_aonPhase (h : s.get Fld.BOOT_BOOT_STATE_PHASE = 0) : s.pinReset = s := by simp [State.pinReset, State.inAon, h]

/-- A rail below its threshold resets the die and holds it. -/
theorem State.railLost_leaves (h : s.get Fld.BOOT_BOOT_STATE_PHASE ≠ 0) {count : Nat}
    (hcount : count = if s.get Fld.BOOT_BOOT_STATE_PHASE = 1 ∧ s.get Fld.BOOT_BOOT_STATE_RESET_CAUSE = 2 ∧ s.now = 0 then 0 else 1) :
    WarmLeaves s s.railLost 1 count ∧ s.railLost.aon = { s.aon with latched := false, railOut := true } := by
  rw [State.railLost, State.pinReset_running h, ← hcount]
  refine ⟨(s.warmReset_leaves (by decide) count).setAon _, ?_⟩
  dsimp only
  rw [State.warmReset_aon]

theorem State.railLost_aonPhase (h : s.get Fld.BOOT_BOOT_STATE_PHASE = 0) : s.railLost = { s with aon := { s.aon with railOut := true } } := by
  rw [State.railLost, State.pinReset_aonPhase h]

/-- A lost reference or clock, marked by a bit that the reset keeps, resets the die and holds it. -/
theorem State.refReset_leaves {f : Fld} (hf : f = Fld.CLK_CLK_AON_REF_LOST ∨ f = Fld.CLK_CLK_AON_PLL_LOST) (h : s.get Fld.BOOT_BOOT_STATE_PHASE ≠ 0)
    (hpin : s.aon.pinLow = false) :
    WarmLeaves s (s.put f 1).refReset 3 1 ∧ (s.put f 1).refReset.aon = { s.aon with latched := false, refOut := true } ∧ (s.put f 1).refReset.get f = 1 := by
  have hphase : (s.put f 1).get Fld.BOOT_BOOT_STATE_PHASE = s.get Fld.BOOT_BOOT_STATE_PHASE := by
    rcases hf with rfl | rfl <;> exact State.get_put_apart (by decide) s 1
  have hreset : (s.put f 1).refReset = { (s.put f 1).warmReset 3 1 with aon := { ((s.put f 1).warmReset 3 1).aon with refOut := true } } := by
    unfold State.refReset
    rw [State.put_aon, if_neg]
    rw [State.inAon_iff, hphase, hpin]
    simp [h]
  have hleaves := State.warmReset_leaves (s.put f 1) (cause := 3) (by decide) 1
  rw [hreset]
  refine ⟨?_, by dsimp only; rw [State.warmReset_aon, State.put_aon], ?_⟩
  · rcases hf with rfl | rfl <;> exact (hleaves.beforePut (by decide) (by decide) (by decide)).setAon _
  · rcases hf with rfl | rfl
    · rw [State.get_setAon, State.get_warmReset (by decide) (by decide), State.warmKeep_refLost, State.get_put_one (by decide)]
      rfl
    · rw [State.get_setAon, State.get_warmReset (by decide) (by decide), State.warmKeep_pllLost, State.get_put_one (by decide)]
      rfl

/-- While `RST_N` is low, or in the AON phase, a lost reference only holds the die. -/
theorem State.refReset_held (h : s.get Fld.BOOT_BOOT_STATE_PHASE = 0 ∨ s.aon.pinLow = true) :
    (s.put Fld.CLK_CLK_AON_REF_LOST 1).refReset = { s.put Fld.CLK_CLK_AON_REF_LOST 1 with aon := { s.aon with refOut := true } } := by
  unfold State.refReset
  rw [if_pos]
  · dsimp only
    rw [State.put_aon]
  · rw [State.put_aon, State.inAon_iff, State.get_put_apart (by decide)]
    exact h.symm

/-! ### The thermal trip -/

theorem State.thermTripLow_of_tripped (h : s.aon.tripped = true) (hvaon : s.aon.noVaon = false) : s.thermTripLow = true := by
  have hby : s.bypassed = true := State.bypassed_of_held (by simp [Aon.held, h])
  simp [State.thermTripLow, State.pad, State.drives, hby, h, hvaon]

theorem thermalTrip_leaves (s : State) {n : Nat} (hn : n < 96) : Answers (exec (.thermalTrip n) s) fun t =>
    WarmLeaves s t (s.get Fld.BOOT_BOOT_STATE_RESET_CAUSE) 0 ∧ t.get Fld.PWR_PWR_STATUS_TRIP_SEEN = 1 ∧ t.aon.held = true ∧
    (s.aon.noVaon = false → t.thermTripLow = true) := by
  refine ⟨_, by rw [exec_thermalTrip, execThermalTrip, onUnit, if_pos hn], ?_, ?_, ?_, ?_⟩
  · exact (WarmLeaves.putTripSeen (s.warmReset_leaves (State.get_lt (by decide) _ _ _) 0)).setAon _
  · rw [State.get_setAon, State.get_put_one (by decide)]
    rfl
  · simp [Aon.held]
  · intro hvaon
    refine State.thermTripLow_of_tripped rfl ?_
    dsimp only
    rw [State.put_aon, State.warmReset_aon, hvaon]

/-- Settles O4: each of these resets is `warmReset` (`warmReset_leaves`), after the bit that says why and before the hold that follows. -/
theorem warmResetsKeepTheIsland : Obligations.WarmResetsKeepTheIsland := by
  intro s
  refine ⟨fun hphase => ⟨?_, fun hpin => ⟨?_, fun i hi => ?_⟩⟩, fun hphase => ⟨?_, fun r hr => ?_⟩, fun h => ?_, fun n hn => thermalTrip_leaves s hn⟩
  · intro count hcount
    refine ⟨?_, fun r hr => ?_, ⟨_, rfl, State.railLost_leaves hphase hcount⟩⟩
    · refine ⟨_, rfl, ?_⟩
      rw [State.pinReset_running hphase, ← hcount]
      refine ⟨(s.warmReset_leaves (by decide) count).setAon _, ?_⟩
      dsimp only
      rw [State.warmReset_aon]
    · exact ⟨_, by rw [exec_warmResetByPin, execWarmResetByPin, onUnit, if_pos hr], State.railLost_leaves hphase hcount⟩
  · exact ⟨_, rfl, State.refReset_leaves (.inl rfl) hphase hpin⟩
  · exact ⟨_, by rw [exec_pllLost, execPllLost, onUnit, if_pos hi], State.refReset_leaves (.inr rfl) hphase hpin⟩
  · rw [exec_warmResetByPin, execWarmResetByPin, State.pinReset_aonPhase hphase]
  · rw [exec_warmResetByPin, execWarmResetByPin, onUnit, if_pos hr, State.railLost_aonPhase hphase]
  · exact ⟨_, rfl, State.refReset_held h⟩

end Sys2Proof.Machine
end

section
/-! SUPPORT. The end of a reset and the reference (O6): what latching the straps writes, and when a die that is held is freed. -/

namespace Sys2Proof.Machine

variable {s t : State}

theorem State.latch_aon (s : State) : s.latch.aon = { s.aon with latched := true } := by
  unfold State.latch State.crystal
  simp only [State.put_aon]

theorem State.latch_mem (s : State) : s.latch.mem = s.mem := by
  unfold State.latch State.crystal
  simp only [State.put_mem]

theorem State.latch_station (s : State) : s.latch.station = s.station := by
  unfold State.latch State.crystal
  simp only [State.put_station]

/-- Latching the straps writes them, their crystal and their place in the package. -/
theorem State.latch_latched (s : State) : StrapsLatched s.latch where
  datum := by
    have hbit : b2n s.aon.datumEn < 2 ^ Fld.CLK_CLK_AON_DATUM_EN.len := by cases s.aon.datumEn <;> decide
    rw [State.latch_aon, State.latch, State.get_put_apart (by decide), State.get_crystal_apart (by decide) (by decide),
      State.get_put_apart (by decide), State.get_put_apart (by decide), State.get_put_one (by decide), Nat.mod_eq_of_lt hbit]
  master := by
    have hbit : b2n s.aon.cfgMaster < 2 ^ Fld.CLK_CLK_AON_CFG_MASTER.len := by cases s.aon.cfgMaster <;> decide
    rw [State.latch_aon, State.latch, State.get_put_apart (by decide), State.get_crystal_apart (by decide) (by decide),
      State.get_put_apart (by decide), State.get_put_one (by decide), Nat.mod_eq_of_lt hbit]
  diepos := by
    rw [State.latch_aon, State.latch, State.get_put_apart (by decide), State.get_crystal_apart (by decide) (by decide),
      State.get_put_one (by decide)]
    rfl
  latched := by rw [State.latch_aon]
  crystal := by
    rw [State.latch_aon, State.latch, State.get_put_apart (by decide), State.crystal_ok]
    simp only [State.put_aon]
  sysId := by
    have hlatch : ∃ x : State, s.latch = x.crystal.put Fld.DIE_DIE_ID_SYS_ID (x.get Fld.DIE_DIE_CFG_PKG * 16 + s.aon.diepos) := ⟨_, rfl⟩
    obtain ⟨x, hx⟩ := hlatch
    rw [State.latch_aon, hx, State.get_put_one (by decide), State.get_put_apart (by decide), State.get_crystal_apart (by decide) (by decide)]
    rfl

/-- A change of what holds a running die's island: the straps latch once nothing holds it any more. -/
theorem State.holdChanged_freed {a : Aon} (h : s.get Fld.BOOT_BOOT_STATE_PHASE ≠ 0) (hs : s.aon.held = true) (ha : a.held = false) :
    ({ s with aon := a } : State).holdChanged s = ({ s with aon := a } : State).latch := by
  unfold State.holdChanged State.inAon
  rw [State.get_setAon]
  simp [h, hs, ha]

theorem State.holdChanged_held {a : Aon} (ha : a.held = true) : ({ s with aon := a } : State).holdChanged s = { s with aon := a } := by
  simp [State.holdChanged, ha]

theorem State.holdChanged_free {a : Aon} (hs : s.aon.held = false) : ({ s with aon := a } : State).holdChanged s = { s with aon := a } := by
  simp [State.holdChanged, hs]

/-- What a freed die has: its straps, its memory and its station number. -/
theorem State.latch_frees {a : Aon} (ha : a.held = false) :
    StrapsLatched ({ s with aon := a } : State).latch ∧ ({ s with aon := a } : State).latch.aon.held = false ∧
      ({ s with aon := a } : State).latch.mem = s.mem ∧ ({ s with aon := a } : State).latch.station = s.station :=
  ⟨State.latch_latched _, by rw [State.latch_aon]; exact ha, State.latch_mem _, State.latch_station _⟩

/-- What the island sees as `RST_N` rises, with the levels at the strap pins. -/
def Aon.raised (a : Aon) (d m : Bool) (p : Nat) : Aon :=
  { a with
    pinLow := false, datumEn := d, cfgMaster := m, diepos := p % 16
    tripPending := a.tripPending || (a.tripped && decide (a.tj < 400)), tripped := a.tripped && !(a.pinLow && decide (a.tj < 400)) }

theorem exec_rstNDeassert_eq (s : State) (d m : Bool) (p : Nat) :
    exec (.rstNDeassert d m p) s = .next (({ s with aon := s.aon.raised d m p } : State).holdChanged s) := rfl

/-- `RST_N` rises on a die that it holds. -/
theorem rstNDeassert_held (h : s.get Fld.BOOT_BOOT_STATE_PHASE ≠ 0) (hpin : s.aon.pinLow = true) (d m : Bool) (p : Nat) :
    Answers (exec (.rstNDeassert d m p) s) fun t =>
      t.aon.pinLow = false ∧ t.aon.datumEn = d ∧ t.aon.cfgMaster = m ∧ t.aon.diepos = p % 16 ∧
      t.aon.tripped = (s.aon.tripped && !decide (s.aon.tj < 400)) ∧ t.mem = s.mem ∧ t.station = s.station ∧
      (t.aon.held = false → StrapsLatched t) ∧ (t.aon.held = true → t = { s with aon := t.aon } ∧ t.aon.latched = s.aon.latched) := by
  have hs : s.aon.held = true := by simp [Aon.held, hpin]
  have htrip : (s.aon.raised d m p).tripped = (s.aon.tripped && !decide (s.aon.tj < 400)) := by simp [Aon.raised, hpin]
  refine ⟨_, exec_rstNDeassert_eq s d m p, ?_⟩
  cases hheld : (s.aon.raised d m p).held with
  | true =>
    rw [State.holdChanged_held hheld]
    refine ⟨rfl, rfl, rfl, rfl, htrip, rfl, rfl, fun hfree => ?_, fun _ => ⟨rfl, rfl⟩⟩
    exact absurd (hheld.symm.trans hfree) (by decide)
  | false =>
    obtain ⟨hl, hfree, hmem, hstation⟩ := State.latch_frees (s := s) hheld
    rw [State.holdChanged_freed h hs hheld]
    refine ⟨by rw [State.latch_aon]; rfl, by rw [State.latch_aon]; rfl, by rw [State.latch_aon]; rfl, by rw [State.latch_aon]; rfl,
      by rw [State.latch_aon]; exact htrip, hmem, hstation, fun _ => hl, fun hkept => ?_⟩
    exact absurd (hfree.symm.trans hkept) (by decide)

/-- A level at a strap pin of a running die is seen, and no more. -/
theorem rstNDeassert_running (hs : s.aon.held = false) (d m : Bool) (p : Nat) : Answers (exec (.rstNDeassert d m p) s) fun t =>
    t = { s with aon := { s.aon with datumEn := d, cfgMaster := m, diepos := p % 16 } } := by
  have hpin : s.aon.pinLow = false ∧ s.aon.tripped = false := by
    simp only [Aon.held, Bool.or_eq_false_iff] at hs
    obtain ⟨⟨⟨⟨hlow, -⟩, -⟩, htrip⟩, -⟩ := hs
    exact ⟨hlow, htrip⟩
  obtain ⟨hlow, htrip⟩ := hpin
  refine ⟨_, exec_rstNDeassert_eq s d m p, ?_⟩
  rw [State.holdChanged_free hs]
  simp only [Aon.raised, hlow, htrip, Bool.false_and, Bool.or_false]

theorem leavingResetLatchesTheStraps : LeavingResetLatchesTheStraps := by
  intro s hphase
  refine ⟨fun hpin => rstNDeassert_held hphase hpin, fun hs => rstNDeassert_running hs, fun h => ?_, fun h => ?_⟩
  · have hs : s.aon.held = true := by rw [h]; rfl
    have ha : ({ s.aon with railOut := false } : Aon).held = false := by rw [h]; rfl
    exact ⟨_, congrArg Host.Outcome.next (State.holdChanged_freed hphase hs ha), State.latch_frees ha⟩
  · have hs : s.aon.held = true := by rw [h]; rfl
    have ha : ({ s.aon with refOut := false } : Aon).held = false := by rw [h]; rfl
    exact ⟨_, congrArg Host.Outcome.next (State.holdChanged_freed hphase hs ha), State.latch_frees ha⟩

/-! ### The reference -/

/-- A one-bit page event that was raised reads 1. -/
theorem State.get_event {f : Fld} (hlen : f.len = 1) (hlo : f.lo < 32) (hkey : pageEvent (f.key 0 0 / 2 ^ 32) = f.key 0 0) (s : State) (inst : Nat) :
    (s.event f 0 inst).get f = 1 := by
  have hset := s.event_sets f 0 inst hlo
  rw [hkey, BitVec.getLsbD, Nat.testBit_eq_decide_div_mod_eq, decide_eq_true_eq] at hset
  rw [State.get_one (by unfold Fld.one; omega), hlen, bitsAt, pow_one, hset]

theorem referenceGlitch_reported (s : State) : Answers (exec .referenceGlitch s) fun t =>
    t.get Fld.CLK_CLK_GLITCHES_COUNT = satAdd Fld.CLK_CLK_GLITCHES_COUNT.len (s.get Fld.CLK_CLK_GLITCHES_COUNT) 1 ∧
    t.get Fld.CLK_PAGE_EVENT_REF_GLITCH = 1 ∧ Reports (s.put Fld.CLK_CLK_GLITCHES_COUNT (t.get Fld.CLK_CLK_GLITCHES_COUNT)) t := by
  have hreports := State.event_reports (s.bump Fld.CLK_CLK_GLITCHES_COUNT) Fld.CLK_PAGE_EVENT_REF_GLITCH 0 0
  have hcount : ((s.bump Fld.CLK_CLK_GLITCHES_COUNT).event Fld.CLK_PAGE_EVENT_REF_GLITCH).get Fld.CLK_CLK_GLITCHES_COUNT =
      satAdd Fld.CLK_CLK_GLITCHES_COUNT.len (s.get Fld.CLK_CLK_GLITCHES_COUNT) 1 := by
    rw [hreports.get (by decide) 0 0 (by decide), State.get_bump (by decide)]
  refine ⟨_, rfl, hcount, State.get_event rfl (by decide) (by decide) _ _, ?_⟩
  rw [hcount]
  exact hreports

theorem secondReference_reported {s : State} (hdatum : s.get Fld.CLK_CLK_AON_DATUM_EN = 1) (hseen : s.get Fld.CLK_CLK_STATUS_SECOND_REF_SEEN = 0) :
    Answers (exec .secondReferenceSeen s) fun t =>
      t.get Fld.CLK_CLK_STATUS_SECOND_REF_SEEN = 1 ∧ t.get Fld.CLK_PAGE_EVENT_SECOND_REF = 1 ∧
      Reports (s.put Fld.CLK_CLK_STATUS_SECOND_REF_SEEN 1) t := by
  have hreports := State.event_reports (s.put Fld.CLK_CLK_STATUS_SECOND_REF_SEEN 1) Fld.CLK_PAGE_EVENT_SECOND_REF 0 0
  refine ⟨_, by simp only [exec_secondReferenceSeen, execSecondReferenceSeen, hdatum, hseen, Nat.one_ne_zero, Nat.zero_ne_one, or_self, if_false],
    ?_, State.get_event rfl (by decide) (by decide) _ _, hreports⟩
  rw [hreports.get (by decide) 0 0 (by decide), State.get_put_one (by decide)]
  rfl

theorem referenceDisturbancesAreReported : ReferenceDisturbancesAreReported :=
  fun s => ⟨referenceGlitch_reported s, secondReference_reported, fun hdatum => by
    simp only [exec_secondReferenceSeen, execSecondReferenceSeen, hdatum, true_or, if_true]⟩

/-- Settles O6: a die that is freed latches its straps (`latch_latched`), and a disturbed reference counts and is reported. -/
theorem resetEndsAndReferenceIsWatched : Obligations.ResetEndsAndReferenceIsWatched :=
  ⟨leavingResetLatchesTheStraps, referenceDisturbancesAreReported⟩

end Sys2Proof.Machine
end

section
/-! SUPPORT. Waiting reports (O16): sending a packet, and the event record that joins its queue's records. -/

namespace Sys2Proof.Machine

variable {s t u : State}

/-- Between `s` and `t` the modules and the packets that wait for one changed, and nothing else. -/
def OnlyQueues (s t : State) : Prop := t = { s with mods := t.mods, waiting := t.waiting }

theorem OnlyQueues.setMod (h : OnlyQueues s t) {m : Nat} {x : ModSt} : OnlyQueues s (t.setMod m x) := by
  unfold OnlyQueues at h ⊢
  rw [State.setMod_eq, h]

theorem OnlyQueues.setWaiting (h : OnlyQueues s t) {l : List Waiting} : OnlyQueues s { t with waiting := l } := by
  unfold OnlyQueues at h ⊢
  rw [h]

/-- A waiting packet that may go joins a module's queue, and another goes on waiting: what both of these keep, `flushWaiting` keeps. -/
theorem State.flushWaiting_induct {P : State → Prop} (hwait : ∀ {t : State} (l : List Waiting), P t → P { t with waiting := l })
    (hjoin : ∀ {t : State} (m : Nat) (q : List Queued), P t → P (t.setMod m { t.mod m with queue := q })) (h : P s) : P s.flushWaiting := by
  unfold State.flushWaiting
  extract_lets step r
  have hstep : ∀ (l : List Waiting) (a : State × List Waiting), P a.1 → P (l.foldl step a).1 := by
    intro l
    induction l with
    | nil => exact fun _ h => h
    | cons w l ih =>
      intro a h
      refine ih _ ?_
      unfold step
      split
      · exact h
      · split
        · exact h
        · exact hjoin _ _ h
  exact hwait _ (hstep s.waiting ({ s with waiting := [] }, []) (hwait _ h))

theorem State.flushWaiting_frame (s : State) : OnlyQueues s s.flushWaiting :=
  State.flushWaiting_induct (fun _ h => h.setWaiting) (fun _ _ h => h.setMod) rfl

theorem State.flushWaiting_hostMsgs (s : State) : s.flushWaiting.hostMsgs = s.hostMsgs :=
  (congrArg State.hostMsgs s.flushWaiting_frame :)

theorem State.sendOn_reachable {p : Packet} (h : s.reachable p.dest p.dkind (pktKey p) = true) : s.sendOn p =
    ({ s with waiting := s.waiting ++ [{ entry := s.routeEntry p.dest p.dkind, key := pktKey p, pkt := p }] } : State).flushWaiting := if_pos h

/-- An easement packet that finds no path is dropped and counted (R29). -/
theorem State.sendOn_dropped {p : Packet} (h : s.reachable p.dest p.dkind (pktKey p) = false) (hvc : p.vc = 5) :
    s.sendOn p = { s with pathDrops := s.pathDrops + 1 } := by
  rw [State.sendOn, if_neg (by simp [h]), if_pos hvc]

/-! ### The two commands -/

theorem exec_eventMessageSend_cons {h : HostMsg} {rest : List HostMsg} (hm : s.hostMsgs = h :: rest) :
    exec .eventMessageSend s = .next (({ s with hostMsgs := rest } : State).sendOn (eventPacket s h)) := by
  rw [exec_eventMessageSend, execEventMessageSend, hm]
  rfl

theorem exec_eventRecordPost_some {r : EvRec} (hr : s.evq.find? (fun r => s.takesEvents r.queue) = some r) :
    exec .eventRecordPost s = .next (({ s with evq := s.evq.erase r, records := s.records ++ [RecJob.mk r.queue none r.bytes 0 0] } :
      State).pumpRecords r.queue).settle := by
  rw [exec_eventRecordPost, execEventRecordPost, hr]

theorem EvRec.length_bytes (r : EvRec) : r.bytes.length = 32 := by simp [EvRec.bytes]

theorem State.qState_of_takesEvents {q : Nat} (h : s.takesEvents q = true) : s.qState q = 1 := by
  simp only [State.takesEvents, Bool.and_eq_true, beq_iff_eq] at h
  exact h.1

/-- Settles O16: the packet that carries the message is sent on its route (`sendOn_reachable`, `sendOn_dropped`), and the record that is
found leaves the waiting ones. -/
theorem waitingReportsLeave : Obligations.WaitingReportsLeave := by
  intro s
  refine ⟨fun h rest hm => ⟨_, exec_eventMessageSend_cons hm, fun hpath => ?_, fun hpath => ?_⟩, fun hm => ?_, fun r hr => ?_, fun hnone => ?_⟩
  · rw [State.sendOn_reachable (s := { s with hostMsgs := rest }) (p := eventPacket s h) hpath]
    exact ⟨rfl, State.flushWaiting_hostMsgs _⟩
  · exact State.sendOn_dropped (s := { s with hostMsgs := rest }) (p := eventPacket s h) hpath rfl
  · rw [exec_eventMessageSend, execEventMessageSend, hm]
  · have hmem : r ∈ s.evq := List.mem_of_find?_eq_some hr
    have htakes := List.find?_some hr
    have hlen : (s.evq.erase r).length + 1 = s.evq.length := by
      have hpos := List.length_pos_of_mem hmem
      rw [List.length_erase_of_mem hmem]
      omega
    refine ⟨{ s with evq := s.evq.erase r, records := s.records ++ [RecJob.mk r.queue none r.bytes 0 0] }, exec_eventRecordPost_some hr, ?_⟩
    exact ⟨rfl, hlen, State.qState_of_takesEvents htakes, r.length_bytes⟩
  · have hfind : s.evq.find? (fun r => s.takesEvents r.queue) = none := by
      rw [List.find?_eq_none]
      intro r hr
      simp [hnone r hr]
    rw [exec_eventRecordPost, execEventRecordPost, hfind]

end Sys2Proof.Machine
end

section
/-! SUPPORT. The CRSP that answers a FRAME_CODE with code 0 (O56). `takeReply` gives the requester the status of `crspStatus`, which is
"protection" for that code too, where the statement has the request end with status 0. -/

namespace Sys2Proof.Machine

/-- Module 0 is ACTIVE, and the MAP in move slot 0 waits for the answer to the one FRAME_CODE that it has sent (R270). -/
def codeAsked : State :=
  { State.reset.put Fld.LNK_MOD_STATE_STATE 6 0 with
    reqs := [{ tag := 7, pkt := { pktOf 0x53 with tag := 7 }, owner := .frameCode 0, due := none }]
    moves := [(0, { MoveJob.none with wait := .codes 1 0 })] }

/-- A CRSP of die 1 with code 0 that answers it. -/
def codeReply : Packet := { pktOf 0x51 with src := 1, tag := 7 }

/-- The status of the MAP after a command. -/
def mapStatus (r : Res) : Option Nat :=
  match r with
  | .next t => (t.move 0).status
  | _ => none

theorem codeReply_fits : PacketFits codeReply where
  typ := by decide
  header := by decide
  addr := by decide
  station := by decide
  chain := by decide
  stage := by decide

theorem codeReply_accepted : Accepted codeAsked 0 0x51 codeReply where
  module := by decide +kernel
  fits := codeReply_fits
  typ := by decide
  credits := by decide +kernel
  here := by decide +kernel
  station := by decide +kernel
  alive := by decide +kernel

/-- The model ends the MAP with "protection". -/
theorem codeReply_taken : mapStatus (exec (.crsp 0 codeReply) codeAsked) = some stProtection := by decide +kernel

/-- The statement has it end with status 0. -/
theorem codeReply_claimed : mapStatus (.next ((arrived codeAsked 0 codeReply).endRequest 7 0 [])) = some 0 := by decide +kernel

/-- Refutes O56: a CRSP with code 0 that answers a FRAME_CODE ends its request with status 0x04 (`crspStatus`), and the MAP that asked
with it, not with status 0 as the fourth clause on replies says. -/
theorem not_acceptedPacketsAreHandled : ¬ Obligations.AcceptedPacketsAreHandled := by
  rintro ⟨-, hmemory, -⟩
  obtain ⟨-, -, -, hreplies⟩ := hmemory codeAsked 0 codeReply
  obtain ⟨-, -, -, hcrsp, -⟩ := hreplies { tag := 7, pkt := { pktOf 0x53 with tag := 7 }, owner := .frameCode 0, due := none } (by decide)
  have hclaim := congrArg mapStatus (hcrsp codeReply_accepted (by decide))
  rw [codeReply_taken] at hclaim
  exact absurd (hclaim.trans codeReply_claimed) (by decide)

end Sys2Proof.Machine
end

section
/-! SUPPORT. What a round reads of the die to send (O49): its chain's tables and windows, the route to its neighbour and the state of the
modules on it. Reading memory, and reporting what it finds, leaves all of that alone. -/

namespace Sys2Proof.Machine

variable {s t u : State}

/-! ### The words that a path is read from -/

/-- How much of a register word the way to a neighbour is read from, as the modulus of the low bits: the chain's shape and epoch, the
identity, the route table with the low bits of its control words, and the modules' states. -/
def pathBits (k : Nat) : Nat :=
  let page := k / 2 ^ 32
  let off := k % 2 ^ 14
  if (page = 0xB ∧ (off = 0 ∨ off = 4 ∨ off = 8 ∨ off = 0x18)) ∨ (page = 0x100 ∧ off = 8) ∨ (page = 0 ∧ off = 0x100) ∨
      (page = 0x102 ∧ (off = 0 ∨ off = 4 ∨ off = 8 ∨ off = 0xC ∨ off = 0x100)) then 2 ^ 32
  else if page = 0x102 ∧ off = 0x10 then 2 ^ 3
  else 1

theorem pathBits_of_page {k : Nat} (h : k / 2 ^ 32 ≠ 0 ∧ k / 2 ^ 32 ≠ 0xB ∧ k / 2 ^ 32 ≠ 0x100 ∧ k / 2 ^ 32 ≠ 0x102) : pathBits k = 1 := by
  obtain ⟨h0, hB, h100, h102⟩ := h
  simp only [pathBits, h0, hB, h100, h102, false_and, or_self, if_false]

theorem pathBits_of_off {k : Nat} (h : k % 2 ^ 14 ∉ [0, 4, 8, 0xC, 0x10, 0x18, 0x100]) : pathBits k = 1 := by
  simp only [List.mem_cons, List.not_mem_nil, or_false, not_or] at h
  obtain ⟨h0, h4, h8, hC, h10, h18, h100⟩ := h
  simp only [pathBits, h0, h4, h8, hC, h10, h18, h100, and_false, or_self, if_false]

/-- No word that reporting may change is one of them. -/
theorem pathBits_of_reportKey {k : Nat} (h : reportKey k = true) : pathBits k = 1 := by
  simp only [reportKey, Bool.or_eq_true, Bool.and_eq_true, beq_iff_eq, decide_eq_true_eq] at h
  rcases h with (h | ⟨h, -⟩) | h
  · refine pathBits_of_off ?_
    have hoff : k % 2 ^ 14 = 0x14 := by omega
    rw [hoff]
    decide
  · refine pathBits_of_page ?_
    rw [h]
    decide
  · rw [h]
    decide

theorem pathBits_core {f : Fld} {i e : Nat} (hp : f.page = 0x40) (hw : f.win = false) (ho : f.off + e * f.stride < 2 ^ 14) (hi : i < 64) :
    pathBits (f.key i e) = 1 := by
  refine pathBits_of_page ?_
  simp only [Fld.key, regKey, hp, hw]
  norm_num
  omega

theorem pathBits_cluster {f : Fld} {i e : Nat} (hp : f.page = 0x10) (ho : f.off + e * f.stride < 2 ^ 14) (hi : i < 90) :
    pathBits (f.key i e) = 1 := by
  refine pathBits_of_page ?_
  cases hw : f.win
  · simp only [Fld.key, regKey, hp, hw]
    norm_num
    omega
  · simp only [Fld.key, regKey, hp, hw]
    norm_num
    omega

theorem pathBits_plain {f : Fld} {i e : Nat} (hp : f.page ∈ [2, 5, 0xA]) (ho : f.off + e * f.stride < 2 ^ 14) (hi : i < 64) :
    pathBits (f.key i e) = 1 := by
  refine pathBits_of_page ?_
  simp only [List.mem_cons, List.not_mem_nil, or_false] at hp
  rcases hp with hp | hp | hp
  all_goals
    cases hw : f.win <;> simp only [Fld.key, regKey, hp, hw] <;> norm_num <;> omega

/-! ### What stands -/

/-- Between `s` and `t` the words of paths, the modules held and the windows of the chains stood. -/
structure PathStands (s t : State) : Prop where
  words : ∀ k, (t.word k).toNat % pathBits k = (s.word k).toNat % pathBits k
  held : ∀ m, (t.mod m).held = (s.mod m).held
  windows : ∀ ch, (t.chain ch).grants = (s.chain ch).grants ∧ (t.chain ch).steps = (s.chain ch).steps

theorem PathStands.refl (s : State) : PathStands s s := ⟨fun _ => rfl, fun _ => rfl, fun _ => ⟨rfl, rfl⟩⟩

theorem PathStands.trans (a : PathStands s t) (b : PathStands t u) : PathStands s u where
  words k := (b.words k).trans (a.words k)
  held m := (b.held m).trans (a.held m)
  windows ch := by
    obtain ⟨hgrants, hsteps⟩ := a.windows ch
    obtain ⟨hgrants', hsteps'⟩ := b.windows ch
    exact ⟨hgrants'.trans hgrants, hsteps'.trans hsteps⟩

/-- A change of fields that no path is read from. -/
theorem PathStands.same (h : PathStands s t)
    {pending staged ctl free ckFrac station bootNonce fuses irq evq hostMsgs reqs nextTag waiting pathDrops ecc fixups lastCe
     patrolFrom cores held touched gangs nextGang frames pages tables tlbs walkCache walks zeroing condemned moves nextMove
     moveLast stages queues items records classLast cadastre domWait laneBad modBad roled lateTags holds routeUp phi allowance
     shareW tight boostRun coolRun opMaxRun powers rails opTarget episodes epiUnread accounts memBudget linkBudget vcoreSet
     vsramSet vsramDue avs qspi svyMem svyCode svyTimes svyCause kickedAt chal refusals quoteDraft maAccess poolKept keySlot aon
     boot trims tap mem : _} :
    PathStands s { t with
      pending, staged, ctl, free, ckFrac, station, bootNonce, fuses, irq, evq, hostMsgs, reqs, nextTag, waiting, pathDrops, ecc,
      fixups, lastCe, patrolFrom, cores, held, touched, gangs, nextGang, frames, pages, tables, tlbs, walkCache, walks, zeroing,
      condemned, moves, nextMove, moveLast, stages, queues, items, records, classLast, cadastre, domWait, laneBad, modBad, roled,
      lateTags, holds, routeUp, phi, allowance, shareW, tight, boostRun, coolRun, opMaxRun, powers, rails, opTarget, episodes,
      epiUnread, accounts, memBudget, linkBudget, vcoreSet, vsramSet, vsramDue, avs, qspi, svyMem, svyCode, svyTimes, svyCause,
      kickedAt, chal, refusals, quoteDraft, maAccess, poolKept, keySlot, aon, boot, trims, tap, mem } :=
  ⟨h.words, h.held, h.windows⟩

theorem PathStands.ite {c : Prop} [Decidable c] (ht : PathStands s t) (hu : PathStands s u) : PathStands s (if c then t else u) := by
  split
  · exact ht
  · exact hu

/-- A branch whose answer carries a state in its part `π`. -/
theorem PathStands.ite_of {σ : Type} (π : σ → State) {c : Prop} [Decidable c] {a b : σ} (ha : PathStands s (π a)) (hb : PathStands s (π b)) :
    PathStands s (π (if c then a else b)) := by
  split
  · exact ha
  · exact hb

theorem PathStands.foldl_of {σ α : Type} (π : σ → State) {f : σ → α → σ} {l : List α} {a : σ} (ha : PathStands s (π a))
    (hf : ∀ {a x}, PathStands s (π a) → PathStands s (π (f a x))) : PathStands s (π (l.foldl f a)) := by
  induction l generalizing a with
  | nil => exact ha
  | cons x l ih => exact ih (hf ha)

theorem PathStands.foldl {α : Type} {f : State → α → State} {l : List α} (h : PathStands s t)
    (hf : ∀ {t x}, PathStands s t → PathStands s (f t x)) : PathStands s (l.foldl f t) := .foldl_of id h hf

/-! ### Register writes -/

theorem PathStands.setWord (h : PathStands s t) {k : Nat} {v : BitVec 32} (hv : v.toNat % pathBits k = (t.word k).toNat % pathBits k) :
    PathStands s (t.setWord k v) := by
  refine h.trans ⟨fun j => ?_, fun m => ?_, fun ch => ?_⟩
  · rw [State.word_setWord]
    split
    · next hj => rw [hj, hv]
    · rfl
  · unfold State.mod
    rw [State.setWord_mods]
  · unfold State.chain
    rw [State.setWord_chains]
    exact ⟨rfl, rfl⟩

theorem PathStands.setOff (h : PathStands s t) {k : Nat} {v : BitVec 32} (hk : pathBits k = 1) : PathStands s (t.setWord k v) :=
  h.setWord (by rw [hk, Nat.mod_one, Nat.mod_one])

/-- A field write changes no bit below the field. -/
theorem PathStands.put (h : PathStands s t) {f : Fld} {v i e : Nat} (hf : f.one) (hk : pathBits (f.key i e) ∣ 2 ^ f.lo) :
    PathStands s (t.put f v i e) := by
  rw [State.put_one hf]
  refine h.setWord ?_
  have hlow (w : Nat) : bitsPut w f.lo f.len v % 2 ^ f.lo = w % 2 ^ f.lo := by
    simpa [bitsAt] using bitsAt_bitsPut_low w f.lo f.len v 0 f.lo (by omega)
  have hword : (2 : Nat) ^ f.lo ∣ 2 ^ 32 := Nat.pow_dvd_pow 2 (by omega)
  rw [BitVec.toNat_ofNat, ← Nat.mod_mod_of_dvd _ hk, Nat.mod_mod_of_dvd _ hword, hlow, Nat.mod_mod_of_dvd _ hk]

theorem PathStands.putOff (h : PathStands s t) {f : Fld} {v i e : Nat} (hk : pathBits (f.key i e) = 1 := by decide)
    (hf : f.one := by decide) : PathStands s (t.put f v i e) :=
  h.put hf (by rw [hk]; exact one_dvd _)

theorem PathStands.bumpOff (h : PathStands s t) {f : Fld} {n i e : Nat} (hk : pathBits (f.key i e) = 1 := by decide)
    (hf : f.one := by decide) : PathStands s (t.bump f n i e) := h.putOff hk hf

/-- A counter of two words. -/
theorem PathStands.countWide (h : PathStands s t) {f : Fld} {n i e : Nat} (hf : ¬ f.one) (hk : pathBits (f.key i e) = 1)
    (hk4 : pathBits (f.key i e + 4) = 1) : PathStands s (t.count f n i e) := by
  unfold State.count State.put
  rw [if_neg hf]
  exact (h.setOff hk).setOff hk4

end Sys2Proof.Machine
end

section
/-! SUPPORT. Reports and reads of memory leave the way to a neighbour alone (O49). -/

namespace Sys2Proof.Machine

variable {s t u : State}

/-! ### Reports -/

/-- Between `s` and `t` no module was held or let go. -/
def HeldStands (s t : State) : Prop := ∀ m, (t.mod m).held = (s.mod m).held

theorem HeldStands.refl (s : State) : HeldStands s s := fun _ => rfl

theorem HeldStands.same (h : HeldStands s t) (hmods : u.mods = t.mods := by rfl) : HeldStands s u := by
  intro m
  rw [← h m]
  unfold State.mod
  rw [hmods]

theorem HeldStands.ite {c : Prop} [Decidable c] (ht : HeldStands s t) (hu : HeldStands s u) : HeldStands s (if c then t else u) := by
  split
  · exact ht
  · exact hu

theorem HeldStands.put (h : HeldStands s t) {f : Fld} {v i e : Nat} : HeldStands s (t.put f v i e) := h.same (State.put_mods _ _ _ _ _)

theorem HeldStands.bump (h : HeldStands s t) {f : Fld} {n i e : Nat} : HeldStands s (t.bump f n i e) := h.put

theorem HeldStands.count (h : HeldStands s t) {f : Fld} {n i e : Nat} : HeldStands s (t.count f n i e) := h.put

/-- A module's other fields. -/
theorem HeldStands.setMod (h : HeldStands s t) {m : Nat} {x : ModSt} (hx : x.held = (t.mod m).held) : HeldStands s (t.setMod m x) := by
  intro j
  rw [← h j, State.mod, State.setMod, tget_tset]
  split
  · next hj => rw [hx, hj]
  · rfl

theorem HeldStands.flushWaiting (h : HeldStands s t) : HeldStands s t.flushWaiting :=
  State.flushWaiting_induct (fun _ h => h.same) (fun _ _ h => h.setMod rfl) h

theorem HeldStands.sendOn (h : HeldStands s t) {p : Packet} : HeldStands s (t.sendOn p) :=
  .ite h.same.flushWaiting (.ite h.same h)

theorem HeldStands.send (h : HeldStands s t) {p : Packet} : HeldStands s (t.send p) := h.sendOn

theorem HeldStands.putBytes (h : HeldStands s t) {f : Fld} {i e : Nat} {b : Bytes} : HeldStands s (t.putBytes f i e b) := by
  unfold State.putBytes
  generalize List.range (b.length / 4) = l
  induction l generalizing t with
  | nil => exact h
  | cons j l ih => exact ih h.put

theorem HeldStands.putNote (h : HeldStands s t) {n : Note} : HeldStands s (t.putNote n).1 := by
  unfold State.putNote
  extract_lets s1 raw wp full s2 s3 s4 s5
  have hs1 : HeldStands s s1 := h.same
  have hs2 : HeldStands s s2 := .ite hs1.count.bump hs1
  have hs3 : HeldStands s s3 := hs2.putBytes
  have hs4 : HeldStands s s4 := hs3.count
  have hs5 : HeldStands s s5 := .ite hs4.send hs4
  exact hs5

theorem HeldStands.orEvent (h : HeldStands s t) {page bits : Nat} : HeldStands s (t.orEvent page bits).1 := by
  unfold State.orEvent
  exact h.same (State.setWord_mods _ _ _)

theorem HeldStands.noteOnly (h : HeldStands s t) {n : Note} : HeldStands s (t.noteOnly n) := .ite h.putNote.orEvent h.putNote

theorem HeldStands.waitEvent (h : HeldStands s t) {r : EvRec} : HeldStands s (t.waitEvent r) := .ite h.same h.bump

theorem HeldStands.raiseIrq (h : HeldStands s t) {page : Nat} : HeldStands s (t.raiseIrq page) := .ite h h.same

theorem HeldStands.signalPlain (h : HeldStands s t) {page inst dest : Nat} : HeldStands s (t.signalPlain page inst dest) := by
  unfold State.signalPlain
  extract_lets s1 s2
  have hs1 : HeldStands s s1 := .ite h.waitEvent h
  have hs2 : HeldStands s s2 := .ite hs1.raiseIrq hs1
  exact .ite hs2.same hs2

theorem HeldStands.noteLost (h : HeldStands s t) : HeldStands s t.noteLost :=
  .ite (.ite h.orEvent.signalPlain.noteOnly h.orEvent.signalPlain) h.orEvent

theorem HeldStands.note (h : HeldStands s t) {n : Note} : HeldStands s (t.note n) := .ite h.putNote.noteLost h.putNote

theorem HeldStands.signal (h : HeldStands s t) {page inst dest : Nat} : HeldStands s (t.signal page inst dest) :=
  .ite h.signalPlain.note h.signalPlain

theorem HeldStands.raise (h : HeldStands s t) {page bits inst : Nat} : HeldStands s (t.raise page bits inst) :=
  .ite (HeldStands.ite h.orEvent.signal h.orEvent).signal (.ite h.orEvent.signal h.orEvent)

/-- What only reports, and holds no module, leaves every path alone. -/
theorem PathStands.reports (h : PathStands s t) (r : Reports t u) (hheld : HeldStands t u) : PathStands s u := by
  refine h.trans ⟨fun k => ?_, hheld, fun ch => ?_⟩
  · cases hk : reportKey k with
    | true => rw [pathBits_of_reportKey hk, Nat.mod_one, Nat.mod_one]
    | false => rw [r.words k hk]
  · have hchains : u.chains = t.chains := by rw [r.rest]
    unfold State.chain
    rw [hchains]
    exact ⟨rfl, rfl⟩

theorem PathStands.note (h : PathStands s t) {n : Note} : PathStands s (t.note n) := h.reports (State.note_reports t n) (HeldStands.refl t).note

theorem PathStands.raise (h : PathStands s t) {page bits inst : Nat} : PathStands s (t.raise page bits inst) :=
  h.reports (State.raise_reports t page bits inst) (HeldStands.refl t).raise

theorem PathStands.event (h : PathStands s t) {f : Fld} {v inst : Nat} : PathStands s (t.event f v inst) := h.raise

theorem PathStands.send (h : PathStands s t) {p : Packet} : PathStands s (t.send p) := h.reports (State.send_reports t p) (HeldStands.refl t).send

/-! ### Errors of memory -/

theorem PathStands.noteUe (h : PathStands s t) {w : Who} {unit cls loc off : Nat} : PathStands s (t.noteUe w unit cls loc off) := h.event.note

theorem PathStands.noteCe (h : PathStands s t) {w : Who} {unit cls loc off : Nat} : PathStands s (t.noteCe w unit cls loc off) := by
  unfold State.noteCe
  extract_lets fresh
  split
  · exact h.note.same
  · next l _ =>
    have hrecord : pathBits (Fld.ERR_FN.key 0 (l.recNo % 128 * 16 + 5)) = 1 := pathBits_of_reportKey (fn_key _ (by omega)).1
    exact .ite (h.bumpOff hrecord) h.note.same

theorem PathStands.platAdd (h : PathStands s t) {e : Nat} : PathStands s (t.platAdd e) := by
  unfold State.platAdd
  extract_lets n r s1 s2
  split
  · next hroom =>
    obtain ⟨hn, hr⟩ := hroom
    have hnew : pathBits (Fld.PLAT_PLAT_NEW_ENTRY.key 0 n) = 1 := pathBits_plain (by decide) (by simp only [Fld.PLAT_PLAT_NEW_ENTRY]; omega) (by omega)
    have hret : pathBits (Fld.PLAT_PLAT_RET_ENTRY.key 0 r) = 1 := pathBits_plain (by decide) (by simp only [Fld.PLAT_PLAT_RET_ENTRY]; omega) (by omega)
    have hs1 : PathStands s s1 := (h.putOff hnew).putOff
    have hs2 : PathStands s s2 := (hs1.putOff hret).putOff
    exact hs2.event
  · exact h.event

theorem PathStands.retiring (h : PathStands s t) {n phys trig : Nat} : PathStands s (t.retiring n phys trig) := h.same

theorem PathStands.makeHole (h : PathStands s t) {n phys trig : Nat} {rec : State → State} (hn : n < 64)
    (hrec : ∀ {t : State}, PathStands s t → PathStands s (rec t)) : PathStands s (t.makeHole n phys trig rec) := by
  have hgran (g : Nat) (hg : g < 64) : pathBits (granKey n g) = 1 := by
    rw [granKey, if_pos hn]
    exact pathBits_core rfl rfl (by simp only [Fld.CORE_CM_GRAN_STATE]; omega) hn
  have hfold : ∀ (l : List Nat) {t : State}, (∀ g ∈ l, g < 64) → PathStands s t → PathStands s (l.foldl (fun t g => t.setGran n g 5) t) := by
    intro l
    induction l with
    | nil => exact fun _ h => h
    | cons g l ih => exact fun hl h => ih (fun x hx => hl x (by simp [hx])) (h.setOff (hgran g (hl g (by simp))))
  have hholes : pathBits (Fld.CL_CL_STATUS_HOLES.key (n / 8) 0) = 1 := pathBits_cluster rfl (by decide) (by omega)
  have hstate : pathBits (Fld.CORE_CORE_STATE_STATE.key n 0) = 1 := pathBits_core rfl rfl (by decide) hn
  have hscrub : PathStands s (t.scrubCore n) := h.same
  unfold State.makeHole
  exact (hrec ((hfold _ (fun _ => List.mem_range.mp) (hscrub.putOff hholes)).putOff hstate).event).note

theorem PathStands.recoveryFailed (h : PathStands s t) {cl phys : Nat} {seen rec : State → State} (hcl : cl < 8) (hphys : phys < 9)
    (hseen : ∀ {t : State}, PathStands s t → PathStands s (seen t)) (hrec : ∀ {t : State}, PathStands s t → PathStands s (rec t)) :
    PathStands s (t.recoveryFailed cl phys seen rec) := by
  have hstate : pathBits (Fld.CL_PC_STATE_STATE.key (cl * 9 + phys) 0) = 1 := pathBits_cluster rfl (by decide) (by omega)
  have hlogical : t.get Fld.CL_PC_STATE_LOGICAL (cl * 9 + phys) < 8 := State.get_lt (by decide) _ _ _
  unfold State.recoveryFailed
  exact (hseen (h.putOff hstate).platAdd).same.makeHole (by omega) hrec

theorem PathStands.retireTrigger (h : PathStands s t) {cl phys trig : Nat} {seen rec : State → State} (hcl : cl < 8) (hphys : phys < 9)
    (hseen : ∀ {t : State}, PathStands s t → PathStands s (seen t)) (hrec : ∀ {t : State}, PathStands s t → PathStands s (rec t)) :
    PathStands s (t.retireTrigger cl phys trig seen rec) := by
  have hstate : pathBits (Fld.CL_PC_STATE_STATE.key (cl * 9 + phys) 0) = 1 := pathBits_cluster rfl (by decide) (by omega)
  have hlogical : t.get Fld.CL_PC_STATE_LOGICAL (cl * 9 + phys) < 8 := State.get_lt (by decide) _ _ _
  have hcore : pathBits (Fld.CORE_CORE_STATE_STATE.key (cl * 8 + t.get Fld.CL_PC_STATE_LOGICAL (cl * 9 + phys)) 0) = 1 :=
    pathBits_core rfl rfl (by decide) (by omega)
  have hspare : pathBits (Fld.CL_CL_STATUS_SPARE_AVAIL.key cl 0) = 1 := pathBits_cluster rfl (by decide) (by omega)
  have hphysical : pathBits (Fld.CL_CL_STATUS_SPARE_PHYS.key cl 0) = 1 := pathBits_cluster rfl (by decide) (by omega)
  unfold State.retireTrigger
  extract_lets i
  split
  · exact (hrec (hseen ((h.putOff hstate).putOff hcore).retiring.platAdd).event).note
  · exact (hrec (hseen (((h.putOff hstate).putOff hspare).putOff hphysical).platAdd).event).note
  · exact h.recoveryFailed hcl hphys hseen hrec
  · exact hrec (hseen h)

theorem PathStands.countCore (h : PathStands s t) {n : Nat} {ue : Bool} {seen rec : State → State} (hn : n < 64)
    (hseen : ∀ {t : State}, PathStands s t → PathStands s (seen t)) (hrec : ∀ {t : State}, PathStands s t → PathStands s (rec t)) :
    PathStands s (t.countCore n ue seen rec) := by
  have hphys : t.get Fld.CORE_CORE_STATE_PHYS n < 16 := State.get_lt (by decide) _ _ _
  have hidx : t.physIdx n < 90 := by unfold State.physIdx; omega
  have hue : pathBits (Fld.CL_PC_ERRS_PC_UE.key (t.physIdx n) 0) = 1 := pathBits_cluster rfl (by decide) hidx
  have hce : pathBits (Fld.CL_PC_ERRS_PC_CE.key (t.physIdx n) 0) = 1 := pathBits_cluster rfl (by decide) hidx
  have hcounted := PathStands.ite (c := ue = true) (h.bumpOff (n := 1) hue) (h.bumpOff (n := 1) hce)
  exact .ite (hcounted.retireTrigger (by omega) (by omega) hseen hrec) (hrec (hseen hcounted))

theorem PathStands.coreError (h : PathStands s t) {w : Who} {n off cls : Nat} {opbuf ue : Bool} (hn : n < 64) :
    PathStands s (t.coreError w n off cls opbuf ue) := by
  have hcount : pathBits (Fld.CORE_CM_UE_COUNT_COUNT.key n 0) = 1 := pathBits_core rfl rfl (by decide) hn
  have haddr : pathBits (Fld.CORE_CM_ERR_ADDR_OFFSET.key n 0) = 1 := pathBits_core rfl rfl (by decide) hn
  have hvalid : pathBits (Fld.CORE_CM_ERR_ADDR_VALID.key n 0) = 1 := pathBits_core rfl rfl (by decide) hn
  have hopbuf : pathBits (Fld.CORE_CM_ERR_ADDR_OPBUF.key n 0) = 1 := pathBits_core rfl rfl (by decide) hn
  have hce : pathBits (Fld.CORE_CM_CE_COUNT_COUNT.key n 0) = 1 := pathBits_core rfl rfl (by decide) hn
  unfold State.coreError
  extract_lets +onlyGivenNames unit
  refine .ite ?_ ((h.bumpOff hce).countCore hn (fun h => h) (fun h => h.noteCe))
  have hcounted := h.bumpOff (n := 1) hcount
  exact (PathStands.ite hcounted (((hcounted.putOff haddr).putOff hvalid).putOff hopbuf)).countCore hn (fun h => h.event) (fun h => h.note)

theorem PathStands.sliceError (h : PathStands s t) {w : Who} {sl off cls : Nat} {ue : Bool} (hsl : sl < 8) :
    PathStands s (t.sliceError w sl off cls ue) := by
  have hcount : pathBits (Fld.FLD_SL_UE_COUNT_COUNT.key sl 0) = 1 := pathBits_plain (by decide) (by decide) (by omega)
  have haddr : pathBits (Fld.FLD_SL_ERR_ADDR_OFFSET.key sl 0) = 1 := pathBits_plain (by decide) (by decide) (by omega)
  have hvalid : pathBits (Fld.FLD_SL_ERR_ADDR_VALID.key sl 0) = 1 := pathBits_plain (by decide) (by decide) (by omega)
  have hcls : pathBits (Fld.FLD_SL_ERR_ADDR_CLASS.key sl 0) = 1 := pathBits_plain (by decide) (by decide) (by omega)
  have hce : pathBits (Fld.FLD_SL_CE_COUNT_COUNT.key sl 0) = 1 := pathBits_plain (by decide) (by decide) (by omega)
  have hcounted := h.bumpOff (n := 1) hcount
  have hcorrected := h.bumpOff (n := 1) hce
  unfold State.sliceError
  refine .ite ?_ (PathStands.ite hcorrected.event hcorrected).noteCe
  exact (PathStands.ite hcounted (((hcounted.putOff haddr).putOff hvalid).putOff hcls)).event.event.note

theorem memUnit_lt {addr u : Nat} (h : memUnit addr = some u) : u < 72 := by
  unfold memUnit at h
  split at h
  · simp only [Option.some.injEq] at h
    omega
  · split at h
    · simp only [Option.some.injEq] at h
      omega
    · exact absurd h (by simp)

theorem PathStands.memError (h : PathStands s t) {w : Who} {addr : Nat} {ue : Bool} : PathStands s (t.memError w addr ue) := by
  unfold State.memError
  split
  · exact h
  · next v hv =>
    have hlt := memUnit_lt hv
    extract_lets cls
    split
    · next hcore => exact h.coreError hcore
    · exact h.sliceError (by omega)

/-! ### Reads of memory -/

theorem PathStands.readUnit (h : PathStands s t) {w : Who} {word : Nat} : PathStands s (t.readUnit w word).state := by
  unfold State.readUnit
  extract_lets +onlyGivenNames u n fix addr ce
  refine .ite_of UnitRead.state h ?_
  refine .ite_of UnitRead.state h.memError.same ?_
  refine .ite_of UnitRead.state h.memError ?_
  have hdrawn : PathStands s { t with free := t.free + 1 } := h.same
  exact .ite_of UnitRead.state hdrawn.memError.same (.ite_of UnitRead.state hdrawn hdrawn.memError)

theorem PathStands.decodeUnits (h : PathStands s t) {w : Who} {words : List Nat} : PathStands s (t.decodeUnits w words).1 := by
  unfold State.decodeUnits State.unitStep
  exact .foldl_of Prod.fst h fun h => .ite_of Prod.fst h h.readUnit

theorem PathStands.drew (h : PathStands s t) {bad : List Nat} : PathStands s (t.drew bad) := by
  unfold State.drew
  exact .ite h h.same

theorem PathStands.decodeLine (h : PathStands s t) {w : Who} {addr n : Nat} : PathStands s (t.decodeLine w addr n).state := by
  unfold State.decodeLine
  exact .ite_of Rd.state h.decodeUnits h.decodeUnits.drew

theorem PathStands.aperture (h : PathStands s t) {addr : Nat} : PathStands s (t.aperture addr).1 := by
  unfold State.aperture State.apertureRefused
  exact .ite_of Prod.fst (.ite h.raise h) (h.bumpOff (f := Fld.ERR_ERR_UNPOP_COUNT))

/-- A read that ends here. -/
theorem PathStands.rd (h : PathStands s t) {st : Nat} {b : Bytes} : PathStands s (Rd.mk t st b).state := h

theorem PathStands.readLine (h : PathStands s t) {w : Who} {addr n : Nat} : PathStands s (t.readLine w addr n).state := by
  unfold State.readLine
  exact .ite_of Rd.state h.aperture.rd (.ite_of Rd.state h.rd h.decodeLine)

theorem PathStands.readMem (h : PathStands s t) {w : Who} {addr n : Nat} : PathStands s (t.readMem w addr n).state := by
  unfold State.readMem
  exact .foldl_of Rd.state h fun h => .ite_of Rd.state h h.readLine

end Sys2Proof.Machine
end

section
/-! SUPPORT. What stands where a path stands (O49): the shape and the windows of a chain, and the route to a die. Combining a segment
keeps them. -/

namespace Sys2Proof.Machine

variable {s t u : State}

/-! ### Combining -/

theorem PathStands.setFlips (h : PathStands s t) {k n : Nat} : PathStands s (t.setFlips k n) := h.same

theorem PathStands.setNsw (h : PathStands s t) {n bit : Nat} : PathStands s (t.setNsw n bit) := h.same

theorem PathStands.rndNsw (h : PathStands s t) {r : Round} {bit : Nat} : PathStands s (t.rndNsw r bit) := .foldl h fun h => .ite h.setNsw h

theorem pathBits_entry_valid (slot e : Nat) : pathBits (Fld.SCL_ENTRY_VALID.key slot (e % 16)) ∣ 2 ^ 31 := by
  have hkey : Fld.SCL_ENTRY_VALID.key slot (e % 16) = 0xC * 2 ^ 32 + (slot + 1) * 2 ^ 14 + (0x10 + e % 16 * 8) := rfl
  unfold pathBits
  extract_lets page off
  have hpage : page ≠ 0xB ∧ page ≠ 0 := by omega
  have hoff : off = 0x10 + e % 16 * 8 := by omega
  split
  · omega
  · split
    · decide
    · exact one_dvd _

theorem PathStands.checkEntry (h : PathStands s t) {w : Who} {slot e : Nat} : PathStands s (t.checkEntry w slot (e % 16)) := by
  unfold State.checkEntry
  exact .ite h (.ite h.setFlips.noteCe (h.setFlips.put (by decide) (pathBits_entry_valid slot e)).noteUe)

theorem PathStands.rndRead (h : PathStands s t) {ch a n : Nat} : PathStands s (t.rndRead ch a n).state := by
  unfold State.rndRead
  exact h.readMem

theorem PathStands.rndInput (h : PathStands s t) {ch : Nat} {r : Round} {x : Contrib} {k off n : Nat} :
    PathStands s (t.rndInput ch r x k off n).1 := by
  unfold State.rndInput
  exact .ite_of Prod.fst (.foldl_of Prod.fst h fun h => h.checkEntry) h.rndRead

/-- The key of a window's word: a page of its own and the offset in it. -/
theorem pathBits_key {f : Fld} {i : Nat} (hp : f.page ≠ 0x10 ∧ f.page ≠ 0x40) (ho : f.off < 2 ^ 14) (hi : i < 256) :
    pathBits (f.key i 0) = pathBits (f.page * 2 ^ 32 + f.off) := by
  have hkey : f.key i 0 / 2 ^ 32 = f.page ∧ f.key i 0 % 2 ^ 14 = f.off := by
    simp only [Fld.key, regKey, if_neg hp.1, if_neg hp.2]
    split <;> omega
  have hplain : (f.page * 2 ^ 32 + f.off) / 2 ^ 32 = f.page ∧ (f.page * 2 ^ 32 + f.off) % 2 ^ 14 = f.off := by omega
  unfold pathBits
  rw [hkey.1, hkey.2, hplain.1, hplain.2]

theorem PathStands.rndCombine (h : PathStands s t) {ch : Nat} {r : Round} {k off : Nat} {acc : List Nat} (hch : ch < 256) :
    PathStands s (t.rndCombine ch r k off acc).1 := by
  have hmade : pathBits (Fld.TRV_CH_STATUS_NAN_MADE.key ch 0) = 1 := (pathBits_key (by decide) (by decide) hch).trans (by decide)
  unfold State.rndCombine
  extract_lets w step
  refine .foldl_of Prod.fst h fun {a x} h => .ite_of Prod.fst h ?_
  have hread : PathStands s (a.1.rndInput ch r x k off acc.length).1 := h.rndInput
  generalize a.1.rndInput ch r x k off acc.length = i at hread ⊢
  refine .ite_of Prod.fst hread ?_
  have hflag := PathStands.ite (c := ((a.2.2.zip i.2.2).map (fun e => redCombine (tdRop w) (tdDt w) e.1 e.2)).any (·.2.1) = true)
    (hread.putOff (v := 1) hmade) hread
  exact (PathStands.ite hflag.rndNsw hflag).countWide (f := Fld.TRV_TRV_ELEMS_COUNT) (by decide) (by decide) (by decide)

theorem PathStands.setRound (h : PathStands s t) {ch : Nat} {r : Round} : PathStands s (t.setRound ch r) := by
  refine h.trans ⟨fun _ => rfl, fun _ => rfl, fun i => ?_⟩
  unfold State.setRound State.setChain State.chain
  rw [tget_tset]
  split
  · next hi => rw [hi]; exact ⟨rfl, rfl⟩
  · exact ⟨rfl, rfl⟩

theorem PathStands.sendSeg (h : PathStands s t) {ch : Nat} {r : Round} {phase k off : Nat} {data : Bytes} {step : Nat} :
    PathStands s (t.sendSeg ch r phase k off data step) := h.send

/-! ### What is read -/

/-- A field within the bits of a word that stand. -/
theorem PathStands.get_eq (h : PathStands s t) {f : Fld} {i e : Nat} (n : Nat) (hk : pathBits (f.key i e) = 2 ^ n) (hn : f.lo + f.len ≤ n)
    (hf : f.one := by decide) : t.get f i e = s.get f i e := by
  have hword := h.words (f.key i e)
  rw [hk] at hword
  rw [State.get_one hf, State.get_one hf, ← bitsAt_mod _ n _ _ hn, hword, bitsAt_mod _ n _ _ hn]

/-- A field of a page or window whose whole word stands. -/
theorem PathStands.get_whole (h : PathStands s t) {f : Fld} {i : Nat} (hi : i < 256)
    (hshape : (f.page ≠ 0x10 ∧ f.page ≠ 0x40) ∧ f.off < 2 ^ 14 ∧ pathBits (f.page * 2 ^ 32 + f.off) = 2 ^ 32 ∧ f.one := by decide) :
    t.get f i = s.get f i := by
  obtain ⟨hpage, hoff, hbits, hone⟩ := hshape
  exact h.get_eq 32 ((pathBits_key hpage hoff hi).trans hbits) hone hone

/-- A mask of two words that stand. -/
theorem PathStands.get_mask (h : PathStands s t) {f : Fld} {i : Nat} (hk : pathBits (f.key i 0) = 2 ^ 32) (hk4 : pathBits (f.key i 0 + 4) = 2 ^ 32) :
    t.get f i = s.get f i := by
  have hlow := h.words (f.key i 0)
  have hhigh := h.words (f.key i 0 + 4)
  rw [hk, Nat.mod_eq_of_lt (t.word _).isLt, Nat.mod_eq_of_lt (s.word _).isLt] at hlow
  rw [hk4, Nat.mod_eq_of_lt (t.word _).isLt, Nat.mod_eq_of_lt (s.word _).isLt] at hhigh
  unfold State.get
  dsimp only
  rw [hlow, hhigh]

section
variable {ch : Nat} (h : PathStands s t) (hch : ch < 256)
include h hch

theorem PathStands.chN : t.chN ch = s.chN ch := congrArg (· + 1) (h.get_whole hch)
theorem PathStands.chP : t.chP ch = s.chP ch := h.get_whole hch
theorem PathStands.chNext : t.chNext ch = s.chNext ch := h.get_whole hch
theorem PathStands.chPrev : t.chPrev ch = s.chPrev ch := h.get_whole hch
theorem PathStands.chEpoch : t.chEpoch ch = s.chEpoch ch := h.get_whole hch

theorem PathStands.granted {die : Nat} : t.granted ch die = s.granted ch die := by
  unfold State.granted
  rw [(h.windows ch).1, h.chEpoch hch]

theorem PathStands.permNext {r : Round} : t.permNext ch r = s.permNext ch r := by
  unfold State.permNext
  simp only [h.chN hch, h.chP hch, h.granted hch]

end

theorem PathStands.usable (h : PathStands s t) {m : Nat} (hm : m < 40) : t.usable m = s.usable m := by
  have hstate : t.get Fld.LNK_MOD_STATE_STATE m = s.get Fld.LNK_MOD_STATE_STATE m := h.get_whole (by omega)
  unfold State.usable State.modState
  rw [hstate, h.held m]

theorem lt_of_mem_maskIdx {n mask m : Nat} (h : m ∈ maskIdx n mask) : m < n := List.mem_range.mp (List.mem_of_mem_filter h)

theorem PathStands.anyUsable (h : PathStands s t) {mask : Nat} : t.anyUsable mask = s.anyUsable mask := by
  unfold State.anyUsable
  rw [Bool.eq_iff_iff, List.any_eq_true, List.any_eq_true]
  exact exists_congr fun m => and_congr_right fun hm => by rw [h.usable (lt_of_mem_maskIdx hm)]

theorem PathStands.pickModule (h : PathStands s t) {mask key : Nat} : t.pickModule mask key = s.pickModule mask key := by
  unfold State.pickModule
  refine List.find?_congr fun m hm => h.usable (lt_of_mem_maskIdx (mask := mask) ?_)
  rcases List.mem_append.mp hm with hm | hm
  · exact List.mem_of_mem_drop hm
  · exact List.mem_of_mem_take hm

theorem State.routeEntry_die_lt (s : State) (dest : Nat) : s.routeEntry dest 0 < 64 := by
  have hhub : s.get Fld.RTE_RTE_OFFPKG_HUB < 8 := State.get_lt (by decide) _ _ _
  unfold State.routeEntry
  rw [if_pos rfl]
  split <;> omega

theorem PathStands.routeEntry (h : PathStands s t) {dest dkind : Nat} : t.routeEntry dest dkind = s.routeEntry dest dkind := by
  have hid : t.sysId = s.sysId := h.get_whole (by omega)
  have hhub : t.get Fld.RTE_RTE_OFFPKG_HUB = s.get Fld.RTE_RTE_OFFPKG_HUB := h.get_whole (by omega)
  unfold State.routeEntry
  rw [hid, hhub]

/-- The control bits of a route entry. -/
theorem PathStands.route_control (h : PathStands s t) {entry : Nat} (he : entry < 64) :
    t.get Fld.RTE_RT_CTL_VALID entry = s.get Fld.RTE_RT_CTL_VALID entry ∧
      t.get Fld.RTE_RT_CTL_HOLDING entry = s.get Fld.RTE_RT_CTL_HOLDING entry := by
  have hbits : pathBits (Fld.RTE_RT_CTL_VALID.key entry 0) = 2 ^ 3 := (pathBits_key (by decide) (by decide) (by omega)).trans (by decide)
  exact ⟨h.get_eq 3 hbits (by decide), h.get_eq 3 hbits (by decide)⟩

/-- The modules of a route entry. -/
theorem PathStands.route_masks (h : PathStands s t) {entry : Nat} (he : entry < 64) :
    t.get Fld.RTE_RT_PRI_MASK entry = s.get Fld.RTE_RT_PRI_MASK entry ∧ t.get Fld.RTE_RT_ALT_MASK entry = s.get Fld.RTE_RT_ALT_MASK entry := by
  have hword {k off : Nat} (hk : k = 0x102 * 2 ^ 32 + (entry + 1) * 2 ^ 14 + off) (ho : off ∈ [0, 4, 8, 0xC]) : pathBits k = 2 ^ 32 := by
    simp only [List.mem_cons, List.not_mem_nil, or_false] at ho
    have hpage : k / 2 ^ 32 = 0x102 := by omega
    have hoff : k % 2 ^ 14 = off := by omega
    unfold pathBits
    rw [hpage, hoff, if_pos (by omega)]
  have hpri : Fld.RTE_RT_PRI_MASK.key entry 0 = 0x102 * 2 ^ 32 + (entry + 1) * 2 ^ 14 + 0 := rfl
  have halt : Fld.RTE_RT_ALT_MASK.key entry 0 = 0x102 * 2 ^ 32 + (entry + 1) * 2 ^ 14 + 8 := rfl
  exact ⟨h.get_mask (hword hpri (by decide)) (hword (off := 4) (by omega) (by decide)),
    h.get_mask (hword halt (by decide)) (hword (off := 0xC) (by omega) (by decide))⟩

/-- A die is reached by the same route. -/
theorem PathStands.reachable (h : PathStands s t) {dest key : Nat} : t.reachable dest 0 key = s.reachable dest 0 key := by
  have he := s.routeEntry_die_lt dest
  obtain ⟨hvalid, hholding⟩ := h.route_control he
  obtain ⟨hpri, halt⟩ := h.route_masks he
  unfold State.reachable State.routeModule
  dsimp only
  rw [h.routeEntry, hvalid, hholding, hpri, halt]
  simp only [h.anyUsable, h.pickModule]

end Sys2Proof.Machine
end

section
/-! SUPPORT. The engine of a chain (O49): what one try of it does, and when a try does nothing. -/

namespace Sys2Proof.Machine

variable {s t u : State} {ch : Nat} {r : Round}

/-! ### One try after another -/

/-- What a started round can do, in the order in which the engine tries it. -/
def roundTries : List (State → Nat → Round → Tried) :=
  [State.tryLocal, State.tryReduce, State.tryGather, State.tryPermute, State.tryRingGrant, State.tryRingEmpty, State.tryRingSend]

/-- One thing is tried unless something before it moved on or the round is over. -/
def attempt (ch : Nat) (r : Round) (a : Tried) (f : State → Nat → Round → Tried) : Tried :=
  match (a.1.chain ch).round with
  | none => a
  | some _ => if a.2 then a else f a.1 ch r

theorem State.chainTry_started (hr : (s.chain ch).round = some r) (hs : r.started = true) :
    s.chainTry ch = roundTries.foldl (attempt ch r) (s, false) := by
  unfold State.chainTry
  rw [hr]
  dsimp only
  rw [if_neg (by simp [hs])]
  rfl

theorem attempt_next {q : Round} {f : State → Nat → Round → Tried} (hr : (s.chain ch).round = some q) : attempt ch r (s, false) f = f s ch r := by
  unfold attempt
  rw [hr]
  rfl

theorem attempt_done {f : State → Nat → Round → Tried} {b : Bool} (h : b = true ∨ (t.chain ch).round = none) : attempt ch r (t, b) f = (t, b) := by
  unfold attempt
  rcases h with rfl | h
  · split <;> rfl
  · rw [h]

theorem foldl_attempt_idle {l : List (State → Nat → Round → Tried)} (hr : (s.chain ch).round = some r) (hidle : ∀ f ∈ l, f s ch r = (s, false)) :
    l.foldl (attempt ch r) (s, false) = (s, false) := by
  induction l with
  | nil => rfl
  | cons f l ih => rw [List.foldl_cons, attempt_next hr, hidle f (by simp), ih fun g hg => hidle g (by simp [hg])]

theorem foldl_attempt_done {l : List (State → Nat → Round → Tried)} {b : Bool} (h : b = true ∨ (t.chain ch).round = none) :
    l.foldl (attempt ch r) (t, b) = (t, b) := by
  induction l with
  | nil => rfl
  | cons f l ih => rw [List.foldl_cons, attempt_done h, ih]

theorem State.chainTry_idle (hr : (s.chain ch).round = some r) (hs : r.started = true) (hidle : ∀ f ∈ roundTries, f s ch r = (s, false)) :
    s.chainTry ch = (s, false) := by
  rw [State.chainTry_started hr hs, foldl_attempt_idle hr hidle]

/-- The first thing that moves the round on, or ends it, is what the engine does. -/
theorem State.chainTry_first {before after : List (State → Nat → Round → Tried)} {f : State → Nat → Round → Tried} {b : Bool}
    (hr : (s.chain ch).round = some r) (hs : r.started = true) (hl : roundTries = before ++ f :: after)
    (hidle : ∀ g ∈ before, g s ch r = (s, false)) (hf : f s ch r = (t, b)) (hend : b = true ∨ (t.chain ch).round = none) :
    s.chainTry ch = (t, b) := by
  rw [State.chainTry_started hr hs, hl, List.foldl_append, foldl_attempt_idle hr hidle, List.foldl_cons, attempt_next hr, hf,
    foldl_attempt_done hend]

theorem State.chainLoop_moved {n : Nat} (h : s.chainTry ch = (t, true)) : State.chainLoop ch (n + 1) s = State.chainLoop ch n t := by
  rw [State.chainLoop, h]
  rfl

theorem State.chainLoop_stops {n : Nat} (h : s.chainTry ch = (t, false)) : State.chainLoop ch (n + 1) s = t := by
  rw [State.chainLoop, h]
  rfl

/-! ### The row of a round -/

theorem exec_roundCommand {op : Nat} (hop : 1 ≤ op ∧ op ≤ 6) : exec (roundCommand ch op) s = s.chainRow ch op := by
  obtain ⟨hlow, hhigh⟩ := hop
  interval_cases op <;> rfl

/-- The row lets the round go on for at least three turns. -/
theorem RoundRuns.exec_command {op : Nat} (h : RoundRuns s ch op r) (hop : 1 ≤ op ∧ op ≤ 6) :
    ∃ n, exec (roundCommand ch op) s = .next (State.chainLoop ch (n + 3) s) := by
  obtain ⟨hch, hr, hs, ho⟩ := h
  refine ⟨tdCount r.desc * 4 + (s.chN ch + 2) * 8 + tdSteps r.desc * 4 - 3, ?_⟩
  rw [exec_roundCommand hop, State.chainRow, onUnit, if_pos hch, hr]
  dsimp only
  rw [if_pos (by simp [hs, ho]), State.chainRun, hr]
  dsimp only
  congr 2
  omega

theorem State.round_setRound (s : State) (ch : Nat) (r : Round) : ((s.setRound ch r).chain ch).round = some r := by
  unfold State.setRound State.setChain State.chain
  rw [tget_tset_self]

/-! ### Tries that do nothing -/

theorem State.tryLocal_idle (h : s.chN ch ≠ 1 ∨ opReduces (tdOp r.desc) = false) : s.tryLocal ch r = (s, false) := by
  unfold State.tryLocal
  refine if_neg ?_
  rintro ⟨hone, hred, -⟩
  rcases h with h | h
  · exact h hone
  · rw [h] at hred
    exact absurd hred (by decide)

theorem sendsReduce_eq_nil {w n p : Nat} {l : List Nat} (h : opReduces (tdOp w) = false) : sendsReduce w n p l = [] := by
  rw [sendsReduce, h]
  rfl

theorem sendsGather_eq_nil {w n p : Nat} {l : List Nat} (h : opGathers (tdOp w) = false) : sendsGather w n p l = [] := by
  rw [sendsGather, h]
  rfl

theorem State.tryReduce_sent (h : (sendsReduce r.desc (s.chN ch) (s.chP ch) r.shards).drop r.sentR = []) : s.tryReduce ch r = (s, false) := by
  unfold State.tryReduce
  dsimp only
  rw [h]

theorem State.tryReduce_none (h : opReduces (tdOp r.desc) = false) : s.tryReduce ch r = (s, false) :=
  State.tryReduce_sent (by rw [sendsReduce_eq_nil h, List.drop_nil])

theorem State.tryReduce_waits (h : s.granted ch (s.chNext ch) ≤ r.sent) : s.tryReduce ch r = (s, false) := by
  unfold State.tryReduce
  dsimp only
  split
  · rfl
  · rw [if_pos h]

theorem State.tryGather_sent (h : (sendsGather r.desc (s.chN ch) (s.chP ch) r.shards).drop r.sentG = []) : s.tryGather ch r = (s, false) := by
  unfold State.tryGather
  dsimp only
  rw [h]

theorem State.tryGather_none (h : opGathers (tdOp r.desc) = false) : s.tryGather ch r = (s, false) :=
  State.tryGather_sent (by rw [sendsGather_eq_nil h, List.drop_nil])

theorem State.tryGather_waits (h : s.granted ch (s.chNext ch) ≤ r.sent) : s.tryGather ch r = (s, false) := by
  unfold State.tryGather
  dsimp only
  split
  · rfl
  · rw [if_pos h]

/-- A segment of the own shard of a reduction waits for its results. -/
theorem State.tryGather_lacks {off : Nat} {rest : List (Nat × Nat)} (hop : opReduces (tdOp r.desc) = true)
    (hlist : (sendsGather r.desc (s.chN ch) (s.chP ch) r.shards).drop r.sentG = (s.chP ch, off) :: rest) (hreach : s.reachable (s.chNext ch) 0 ch = true)
    (hlack : r.results.length < off + min (segGather r.desc) (shardLen r.shards (s.chP ch) - off)) : s.tryGather ch r = (s, false) := by
  have hpath : ¬(!s.reachable (s.chNext ch) 0 ch) = true := by simp [hreach]
  unfold State.tryGather
  dsimp only
  rw [hlist]
  dsimp only
  rw [if_pos rfl, if_pos hop, if_pos hlack, if_neg hpath, ite_self]

theorem State.tryPermute_none (h : tdOp r.desc ≠ 4 ∨ s.permNext ch r = none) : s.tryPermute ch r = (s, false) := by
  unfold State.tryPermute
  dsimp only
  rcases h with h | h
  · rw [if_pos h]
  · rw [h, ite_self]

theorem State.tryRing_none (h : tdOp r.desc ≠ 5) :
    ∀ f ∈ [State.tryRingGrant, State.tryRingEmpty, State.tryRingSend], f s ch r = (s, false) := by
  simp only [List.forall_mem_cons]
  refine ⟨?_, ?_, ?_, nofun⟩
  · unfold State.tryRingGrant
    exact if_pos (.inl h)
  · unfold State.tryRingEmpty
    exact if_neg fun hring => h hring.1
  · unfold State.tryRingSend
    exact if_pos (.inl h)

theorem tries_idle (hlocal : s.tryLocal ch r = (s, false)) (hreduce : s.tryReduce ch r = (s, false)) (hgather : s.tryGather ch r = (s, false))
    (hpermute : s.tryPermute ch r = (s, false)) (hring : tdOp r.desc ≠ 5) : ∀ f ∈ roundTries, f s ch r = (s, false) :=
  List.forall_mem_append (l₁ := [State.tryLocal, State.tryReduce, State.tryGather, State.tryPermute]).mpr
    ⟨by simp only [List.forall_mem_cons]; exact ⟨hlocal, hreduce, hgather, hpermute, nofun⟩, State.tryRing_none hring⟩

/-! ### Packets that leave -/

theorem State.send_frame (s : State) (p : Packet) : (s.send p).mem = s.mem ∧ (s.send p).cores = s.cores ∧ (s.send p).chains = s.chains := by
  rw [(State.send_reports s p).rest]
  exact ⟨rfl, rfl, rfl⟩

theorem State.send_station (s : State) (p : Packet) : (s.send p).station = s.station := by
  unfold State.send State.sendOn
  split
  · exact (congrArg State.station (State.flushWaiting_frame _) :)
  · split <;> rfl

end Sys2Proof.Machine
end

section
/-! SUPPORT. What a round sends (O49): one segment, one run or one grant of each kind, and a segment without a path. -/

namespace Sys2Proof.Machine

variable {s t u : State} {ch : Nat} {r : Round}

/-! ### A segment, a run and a grant -/

/-- The first segment of a reduction goes out with this die's contributions. -/
theorem State.tryReduce_sends {k off : Nat} {rest : List (Nat × Nat)} {codes : List Nat}
    (hlist : (sendsReduce r.desc (s.chN ch) (s.chP ch) r.shards).drop r.sentR = (k, off) :: rest) (hwin : r.sent < s.granted ch (s.chNext ch))
    (hreach : s.reachable (s.chNext ch) 0 ch = true) (hk : k = (s.chP ch + s.chN ch - 1) % s.chN ch)
    (hacc : s.rndCombine ch r k off (List.replicate (min (segReduce r.desc) (shardLen r.shards k - off)) (redIdentity (tdRop r.desc) (tdDt r.desc))) =
      (u, 0, codes)) :
    s.tryReduce ch r = ((u.sendSeg ch r 0 k off (codesBytes (wireSize (tdRop r.desc) (tdDt r.desc)) codes) 0).setRound ch
      { r with sentR := r.sentR + 1, sent := r.sent + 1 }, true) := by
  have hpath : ¬(!s.reachable (s.chNext ch) 0 ch) = true := by simp [hreach]
  unfold State.tryReduce
  dsimp only
  rw [hlist]
  dsimp only
  rw [if_neg (by omega), if_neg hpath, if_pos hk, hacc]
  rfl

/-- A segment of the own shard of a gathering goes out as it stands in memory. -/
theorem State.tryGather_sends {off : Nat} {rest : List (Nat × Nat)} {b : Bytes} (hop : opReduces (tdOp r.desc) = false)
    (hlist : (sendsGather r.desc (s.chN ch) (s.chP ch) r.shards).drop r.sentG = (s.chP ch, off) :: rest)
    (hwin : r.sent < s.granted ch (s.chNext ch)) (hreach : s.reachable (s.chNext ch) 0 ch = true)
    (hread : s.rndRead ch (tdSrc r.desc + off * dtSize (tdDt r.desc))
      (min (segGather r.desc) (shardLen r.shards (s.chP ch) - off) * dtSize (tdDt r.desc)) = ⟨s, 0, b⟩) :
    s.tryGather ch r = ((s.sendSeg ch r 1 (s.chP ch) off b 0).setRound ch { r with sentG := r.sentG + 1, sent := r.sent + 1 }, true) := by
  have hpath : ¬(!s.reachable (s.chNext ch) 0 ch) = true := by simp [hreach]
  unfold State.tryGather
  dsimp only
  rw [hlist]
  dsimp only
  rw [if_neg (by omega), if_neg hpath, if_pos rfl, if_neg (by simp [hop]), hread]
  rfl

/-- A segment without a path fails the round. -/
theorem State.tryGather_fails {k off : Nat} {rest : List (Nat × Nat)}
    (hlist : (sendsGather r.desc (s.chN ch) (s.chP ch) r.shards).drop r.sentG = (k, off) :: rest) (hwin : r.sent < s.granted ch (s.chNext ch))
    (hreach : s.reachable (s.chNext ch) 0 ch = false) : s.tryGather ch r = (s.failRound ch 5, false) := by
  unfold State.tryGather
  dsimp only
  rw [hlist]
  dsimp only
  rw [if_neg (by omega), if_pos (by simp [hreach])]

/-- The packet of run `i` for position `k`, of which element `g` is the first. -/
def permPacket (s : State) (ch : Nat) (r : Round) (k g : Nat) (data : Bytes) : Packet :=
  { s.chPacket ch 0x31 (r.posmap.getD k 0) (r.sent % 65536) r.desc with
    phase := 1, shard := k, shardLen := shardLen r.shards k, elemOff := g, data := data }

/-- A run of a PERMUTE goes out as it stands in memory. -/
theorem State.tryPermute_sends {k i g : Nat} {d : Rd} (hop : tdOp r.desc = 4) (hk : s.permNext ch r = some k)
    (hi : i = tget (fun _ => 0) k r.sentTo) (hg : g = (permRun r.olds r.shards (s.chP ch) k).1 + i * segGather r.desc)
    (hread : s.rndRead ch (tdSrc r.desc + (g - shardOff r.olds (s.chP ch)) * dtSize (tdDt r.desc))
      (min (segGather r.desc) ((permRun r.olds r.shards (s.chP ch) k).2 - g) * dtSize (tdDt r.desc)) = d)
    (hstatus : d.status = 0) (hstate : d.state = s) (hreach : s.reachable (r.posmap.getD k 0) 0 ch = true) :
    s.tryPermute ch r = ((s.send (permPacket s ch r k g d.bytes)).setRound ch
      { r with sent := r.sent + 1, sentTo := tset (fun _ => 0) k (i + 1) r.sentTo }, true) := by
  have hpath : ¬(!s.reachable (r.posmap.getD k 0) 0 ch) = true := by
    rw [hreach]
    decide
  subst hi hg
  unfold State.tryPermute
  dsimp only
  rw [if_neg (by simp [hop]), hk]
  dsimp only
  rw [hread, if_neg (by simp [hstatus]), hstate]
  exact if_neg hpath

/-- One of the first two steps of a ring pass is granted. -/
theorem State.tryRingGrant_grants (hop : tdOp r.desc = 5) (hstep : r.gStep + 1 ≤ tdSteps r.desc) (hearly : r.gStep + 1 ≤ 2)
    (hreach : s.reachable (s.chPrev ch) 0 ch = true) :
    s.tryRingGrant ch r = ((s.send (s.chPacket ch 0x32 (s.chPrev ch) ((r.gStep + 1) * 65536) r.desc)).setRound ch
      { r with gStep := r.gStep + 1 }, true) := by
  have hpath : ¬(!s.reachable (s.chPrev ch) 0 ch) = true := by simp [hreach]
  unfold State.tryRingGrant
  dsimp only
  rw [if_neg (by omega), if_pos ⟨.inl hearly, .inl hearly⟩, if_neg hpath]

/-- The step after the second waits for the step before it to be sent. -/
theorem State.tryRingGrant_waits (h : tdSteps r.desc < r.gStep + 1 ∨ (r.gStep = 2 ∧ r.sStep ≤ 2)) : s.tryRingGrant ch r = (s, false) := by
  unfold State.tryRingGrant
  dsimp only
  split
  · rfl
  · rw [if_neg (by omega)]

theorem State.tryRingEmpty_idle (h : shardLen r.shards (rpShard (s.chN ch) (s.chP ch) r.rStep) ≠ 0) : s.tryRingEmpty ch r = (s, false) := by
  unfold State.tryRingEmpty
  refine if_neg ?_
  rintro ⟨-, -, -, hempty⟩
  exact h hempty

/-- No step of the successor is granted: the block waits. -/
theorem State.tryRingSend_waits (hlen : r.sOff < shardLen r.shards (rpShard (s.chN ch) (s.chP ch) (r.sStep - 1))) (hsteps : (s.chain ch).steps = []) :
    s.tryRingSend ch r = (s, false) := by
  unfold State.tryRingSend
  dsimp only
  rw [if_neg (Nat.not_le.mpr hlen), hsteps]
  split
  · rfl
  · rfl

end Sys2Proof.Machine
end

section
/-! SUPPORT. The turns of a round, operation by operation (O49). -/

namespace Sys2Proof.Machine

variable {s t u : State} {ch : Nat} {r : Round}

/-! ### Waiting -/

/-- The operations other than PERMUTE and RPASS. -/
theorem tries_idle_of_op (hop : tdOp r.desc ≠ 4 ∧ tdOp r.desc ≠ 5) (hn : 2 ≤ s.chN ch) (hreduce : s.tryReduce ch r = (s, false))
    (hgather : s.tryGather ch r = (s, false)) : ∀ f ∈ roundTries, f s ch r = (s, false) :=
  tries_idle (State.tryLocal_idle (.inl (by omega))) hreduce hgather (State.tryPermute_none (.inl hop.1)) hop.2

/-- Without a window a round waits unchanged. -/
theorem RoundRuns.waits {op : Nat} (h : RoundRuns s ch op r) (hop : op = 1 ∨ op = 2 ∨ op = 3 ∨ op = 6) (hn : 2 ≤ s.chN ch)
    (hwin : s.granted ch (s.chNext ch) ≤ r.sent) : exec (roundCommand ch op) s = .next s := by
  obtain ⟨n, hexec⟩ := h.exec_command (by omega)
  obtain ⟨-, hr, hs, ho⟩ := h
  rw [hexec, State.chainLoop_stops (State.chainTry_idle hr hs
    (tries_idle_of_op (by omega) hn (State.tryReduce_waits hwin) (State.tryGather_waits hwin)))]

/-! ### Reductions -/

theorem segGather_pos (w : Nat) : 0 < segGather w := by
  unfold segGather dtSize
  split
  · decide
  · split <;> decide

/-- What is left of a segment list once its last segment has gone. -/
theorem drop_succ_of_drop_singleton {α : Type} {l : List α} {n : Nat} {x : α} (h : l.drop n = [x]) : l.drop (n + 1) = [] := by
  rw [← List.drop_drop, h]
  rfl

/-- The last reduce segment goes out, combined with the own contributions. -/
theorem RoundRuns.sends_reduce {op k off : Nat} {codes : List Nat} (h : RoundRuns s ch op r) (hop : op = 1 ∨ op = 2 ∨ op = 6) (hn : 2 ≤ s.chN ch)
    (hk : k = (s.chP ch + s.chN ch - 1) % s.chN ch)
    (hlist : (sendsReduce r.desc (s.chN ch) (s.chP ch) r.shards).drop r.sentR = [(k, off)])
    (hgather : ∀ g ∈ sendsGather r.desc (s.chN ch) (s.chP ch) r.shards, g.1 = s.chP ch ∧ r.sentG = 0 ∧ r.results = [] ∧
      0 < shardLen r.shards (s.chP ch))
    (hwin : r.sent < s.granted ch (s.chNext ch)) (hreach : s.reachable (s.chNext ch) 0 ch = true)
    (hacc : s.rndCombine ch r k off (List.replicate (min (segReduce r.desc) (shardLen r.shards k - off)) (redIdentity (tdRop r.desc) (tdDt r.desc))) =
      (u, 0, codes)) :
    Answers (exec (roundCommand ch op) s) fun t =>
      (t.chain ch).round = some { r with sentR := r.sentR + 1, sent := r.sent + 1 } ∧ t.mem = u.mem := by
  obtain ⟨n, hexec⟩ := h.exec_command (by omega)
  obtain ⟨hch, hr, hs, ho⟩ := h
  have hu : PathStands s u := by
    have hcombine := (PathStands.refl s).rndCombine (r := r) (k := k) (off := off) (acc := List.replicate
      (min (segReduce r.desc) (shardLen r.shards k - off)) (redIdentity (tdRop r.desc) (tdDt r.desc))) hch
    rw [hacc] at hcombine
    exact hcombine
  generalize hq : ({ r with sentR := r.sentR + 1, sent := r.sent + 1 } : Round) = q
  generalize ht : (u.sendSeg ch r 0 k off (codesBytes (wireSize (tdRop r.desc) (tdDt r.desc)) codes) 0).setRound ch q = t
  have hdesc : q.desc = r.desc := hq ▸ rfl
  have hfirst : s.chainTry ch = (t, true) := by
    refine State.chainTry_first (before := [State.tryLocal]) hr hs rfl ?_ ?_ (.inl rfl)
    · exact List.forall_mem_singleton.mpr (State.tryLocal_idle (.inl (by omega)))
    · rw [State.tryReduce_sends hlist hwin hreach hk hacc, hq, ht]
  have hpath : PathStands s t := ht ▸ hu.sendSeg.setRound
  have hround : (t.chain ch).round = some q := ht ▸ State.round_setRound _ _ _
  have hidle : t.chainTry ch = (t, false) := by
    have hop' : tdOp q.desc ≠ 4 ∧ tdOp q.desc ≠ 5 := by
      rw [hdesc]
      omega
    refine State.chainTry_idle hround (by subst hq; exact hs) (tries_idle_of_op hop' (by rw [hpath.chN hch]; exact hn) ?_ ?_)
    · refine State.tryReduce_sent ?_
      rw [hpath.chN hch, hpath.chP hch]
      subst hq
      exact drop_succ_of_drop_singleton hlist
    · cases hg : (sendsGather q.desc (t.chN ch) (t.chP ch) q.shards).drop q.sentG with
      | nil => exact State.tryGather_sent hg
      | cons g rest =>
        obtain ⟨j, o⟩ := g
        have hmem := List.mem_of_mem_drop (hg ▸ List.mem_cons_self)
        rw [hpath.chN hch, hpath.chP hch] at hmem
        have hshards : q.shards = r.shards := hq ▸ rfl
        have hsame : q.results = r.results := hq ▸ rfl
        rw [hdesc, hshards] at hmem
        obtain ⟨hj, -, hresults, hlen⟩ := hgather _ hmem
        have hown : j = t.chP ch := by rw [hpath.chP hch]; exact hj
        have hred : opReduces (tdOp q.desc) = true := by
          rw [hdesc, ho]
          rcases hop with rfl | rfl | rfl <;> decide
        refine State.tryGather_lacks (off := o) (rest := rest) hred (by rw [hg, hown]) (by rw [hpath.chNext hch, hpath.reachable]; exact hreach) ?_
        have hseg := segGather_pos r.desc
        rw [hdesc, hshards, hsame, hresults, hpath.chP hch, List.length_nil]
        omega
  refine ⟨t, by rw [hexec, State.chainLoop_moved hfirst, State.chainLoop_stops hidle], hround, ?_⟩
  exact ht ▸ (State.send_frame u _).1

/-! ### Gatherings -/

/-- The last own segment goes out as it stands in memory. -/
theorem RoundRuns.sends_gather {off : Nat} {b : Bytes} (h : RoundRuns s ch 3 r) (hn : 2 ≤ s.chN ch)
    (hlist : (sendsGather r.desc (s.chN ch) (s.chP ch) r.shards).drop r.sentG = [(s.chP ch, off)])
    (hwin : r.sent < s.granted ch (s.chNext ch)) (hreach : s.reachable (s.chNext ch) 0 ch = true)
    (hread : s.rndRead ch (tdSrc r.desc + off * dtSize (tdDt r.desc))
      (min (segGather r.desc) (shardLen r.shards (s.chP ch) - off) * dtSize (tdDt r.desc)) = ⟨s, 0, b⟩) :
    Answers (exec (roundCommand ch 3) s) fun t =>
      (t.chain ch).round = some { r with sentG := r.sentG + 1, sent := r.sent + 1 } ∧ t.mem = s.mem ∧ t.cores = s.cores ∧
        t.station = s.station := by
  obtain ⟨n, hexec⟩ := h.exec_command (by omega)
  obtain ⟨hch, hr, hs, ho⟩ := h
  have hred : opReduces (tdOp r.desc) = false := by rw [ho]; decide
  generalize hq : ({ r with sentG := r.sentG + 1, sent := r.sent + 1 } : Round) = q
  generalize ht : (s.sendSeg ch r 1 (s.chP ch) off b 0).setRound ch q = t
  have hfirst : s.chainTry ch = (t, true) := by
    refine State.chainTry_first (before := [State.tryLocal, State.tryReduce]) hr hs rfl ?_ ?_ (.inl rfl)
    · simp only [List.forall_mem_cons]
      exact ⟨State.tryLocal_idle (.inr hred), State.tryReduce_none hred, nofun⟩
    · rw [State.tryGather_sends hred hlist hwin hreach hread, hq, ht]
  have hpath : PathStands s t := ht ▸ (PathStands.refl s).sendSeg.setRound
  have hround : (t.chain ch).round = some q := ht ▸ State.round_setRound _ _ _
  have hidle : t.chainTry ch = (t, false) := by
    have hop' : tdOp q.desc = 3 := by subst hq; exact ho
    refine State.chainTry_idle hround (by subst hq; exact hs) (tries_idle_of_op (by omega) (by rw [hpath.chN hch]; exact hn)
      (State.tryReduce_none (by rw [hop']; decide)) (State.tryGather_sent ?_))
    rw [hpath.chN hch, hpath.chP hch]
    subst hq
    exact drop_succ_of_drop_singleton hlist
  obtain ⟨hmem, hcores, -⟩ := State.send_frame s { s.chPacket ch 0x30 (s.chNext ch) (r.sent % 65536 + 0 * 65536) r.desc with
    phase := 1, shard := s.chP ch, shardLen := shardLen r.shards (s.chP ch), elemOff := off, data := b }
  refine ⟨t, by rw [hexec, State.chainLoop_moved hfirst, State.chainLoop_stops hidle], hround, ?_⟩
  subst ht
  exact ⟨hmem, hcores, State.send_station s _⟩

/-! ### PERMUTE -/

/-- The last run that a window is granted for goes out. -/
theorem RoundRuns.sends_run {k i g : Nat} {d : Rd} {q : Round} (h : RoundRuns s ch 4 r) (hk : s.permNext ch r = some k)
    (hi : i = tget (fun _ => 0) k r.sentTo) (hg : g = (permRun r.olds r.shards (s.chP ch) k).1 + i * segGather r.desc)
    (hq : q = { r with sent := r.sent + 1, sentTo := tset (fun _ => 0) k (i + 1) r.sentTo }) (hlast : s.permNext ch q = none)
    (hread : s.rndRead ch (tdSrc r.desc + (g - shardOff r.olds (s.chP ch)) * dtSize (tdDt r.desc))
      (min (segGather r.desc) ((permRun r.olds r.shards (s.chP ch) k).2 - g) * dtSize (tdDt r.desc)) = d)
    (hstatus : d.status = 0) (hstate : d.state = s) (hreach : s.reachable (r.posmap.getD k 0) 0 ch = true) :
    Answers (exec (roundCommand ch 4) s) fun t => (t.chain ch).round = some q ∧ t.mem = s.mem ∧ t.station = s.station := by
  obtain ⟨n, hexec⟩ := h.exec_command (by omega)
  obtain ⟨hch, hr, hs, ho⟩ := h
  have hred : opReduces (tdOp r.desc) = false := by rw [ho]; decide
  have hgat : opGathers (tdOp r.desc) = false := by rw [ho]; decide
  generalize ht : (s.send (permPacket s ch r k g d.bytes)).setRound ch q = t
  have hfirst : s.chainTry ch = (t, true) := by
    refine State.chainTry_first (before := [State.tryLocal, State.tryReduce, State.tryGather]) hr hs rfl ?_ ?_ (.inl rfl)
    · simp only [List.forall_mem_cons]
      exact ⟨State.tryLocal_idle (.inr hred), State.tryReduce_none hred, State.tryGather_none hgat, nofun⟩
    · rw [State.tryPermute_sends ho hk hi hg hread hstatus hstate hreach, ← hq, ht]
  have hpath : PathStands s t := ht ▸ (PathStands.refl s).send.setRound
  have hround : (t.chain ch).round = some q := ht ▸ State.round_setRound _ _ _
  have hdesc : q.desc = r.desc := hq ▸ rfl
  have hstarted : q.started = true := by rw [hq]; exact hs
  have hidle : t.chainTry ch = (t, false) := by
    refine State.chainTry_idle hround hstarted (tries_idle (State.tryLocal_idle (.inr (by rw [hdesc, hred]))) (State.tryReduce_none (by rw [hdesc, hred]))
      (State.tryGather_none (by rw [hdesc, hgat])) (State.tryPermute_none (.inr ?_)) (by rw [hdesc]; omega))
    rw [hpath.permNext hch, hlast]
  refine ⟨t, by rw [hexec, State.chainLoop_moved hfirst, State.chainLoop_stops hidle], hround, ?_⟩
  subst ht
  exact ⟨(State.send_frame s _).1, State.send_station s _⟩

/-! ### RPASS -/

/-- The grant of step `g` of a ring pass, with the round that has granted it. -/
def ringGranted (s : State) (ch : Nat) (r : Round) (g : Nat) : State :=
  (s.send (s.chPacket ch 0x32 (s.chPrev ch) (g * 65536) r.desc)).setRound ch { r with gStep := g }

/-- A ring pass that has nothing to send and no empty block does nothing but grant. -/
structure RingWaits (s : State) (ch : Nat) (r : Round) : Prop where
  round : (s.chain ch).round = some r
  started : r.started = true
  op : tdOp r.desc = 5
  first : r.sStep = 1 ∧ r.sOff = 0 ∧ r.rStep = 1
  ungranted : (s.chain ch).steps = []
  blocks : ∀ k < s.chN ch, 0 < shardLen r.shards k
  place : s.chP ch < s.chN ch
  path : s.reachable (s.chPrev ch) 0 ch = true

/-- Nothing comes before a grant. -/
theorem RingWaits.before (h : RingWaits s ch r) :
    ∀ f ∈ [State.tryLocal, State.tryReduce, State.tryGather, State.tryPermute], f s ch r = (s, false) := by
  simp only [List.forall_mem_cons]
  exact ⟨State.tryLocal_idle (.inr (by rw [h.op]; decide)), State.tryReduce_none (by rw [h.op]; decide), State.tryGather_none (by rw [h.op]; decide),
    State.tryPermute_none (.inl (by rw [h.op]; decide)), nofun⟩

theorem RingWaits.grants (h : RingWaits s ch r) (hstep : r.gStep + 1 ≤ tdSteps r.desc) (hearly : r.gStep + 1 ≤ 2) :
    s.chainTry ch = (ringGranted s ch r (r.gStep + 1), true) :=
  State.chainTry_first (before := [State.tryLocal, State.tryReduce, State.tryGather, State.tryPermute]) h.round h.started rfl h.before
    (State.tryRingGrant_grants h.op hstep hearly h.path) (.inl rfl)

/-- Once two steps, or all of them, are granted the ring pass waits. -/
theorem RingWaits.stops (h : RingWaits s ch r) (hend : tdSteps r.desc < r.gStep + 1 ∨ r.gStep = 2) : s.chainTry ch = (s, false) := by
  obtain ⟨hsend, hoff, hgot⟩ := h.first
  have hblock (t : Nat) : 0 < shardLen r.shards (rpShard (s.chN ch) (s.chP ch) t) := h.blocks _ (Nat.mod_lt _ (by have := h.place; omega))
  refine State.chainTry_idle h.round h.started (List.forall_mem_append
    (l₁ := [State.tryLocal, State.tryReduce, State.tryGather, State.tryPermute]).mpr ⟨h.before, ?_⟩)
  simp only [List.forall_mem_cons]
  exact ⟨State.tryRingGrant_waits (by omega), State.tryRingEmpty_idle (by have := hblock r.rStep; omega),
    State.tryRingSend_waits (by rw [hoff]; exact hblock _) h.ungranted, nofun⟩

theorem RingWaits.granted {g : Nat} (h : RingWaits s ch r) (hch : ch < 256) : RingWaits (ringGranted s ch r g) ch { r with gStep := g } := by
  have hpath : PathStands s (ringGranted s ch r g) := (PathStands.refl s).send.setRound
  refine ⟨State.round_setRound _ _ _, h.started, h.op, h.first, ?_, ?_, ?_, ?_⟩
  · rw [(hpath.windows ch).2, h.ungranted]
  · rw [hpath.chN hch]
    exact h.blocks
  · rw [hpath.chN hch, hpath.chP hch]
    exact h.place
  · rw [hpath.chPrev hch, hpath.reachable]
    exact h.path

theorem ringGranted_frame (s : State) (ch : Nat) (r : Round) (g : Nat) :
    (ringGranted s ch r g).mem = s.mem ∧ (ringGranted s ch r g).cores = s.cores := by
  obtain ⟨hmem, hcores, -⟩ := State.send_frame s (s.chPacket ch 0x32 (s.chPrev ch) (g * 65536) r.desc)
  exact ⟨hmem, hcores⟩

/-- The first two steps are granted, and then the ring pass waits. -/
theorem RoundRuns.grants_steps (h : RoundRuns s ch 5 r) (hw : RingWaits s ch r) (hg : r.gStep = 0) (hsteps : 1 ≤ tdSteps r.desc) :
    Answers (exec (roundCommand ch 5) s) fun t =>
      (t.chain ch).round = some { r with gStep := min 2 (tdSteps r.desc) } ∧ t.mem = s.mem ∧ t.cores = s.cores := by
  obtain ⟨n, hexec⟩ := h.exec_command (by omega)
  have hch := h.1
  have hone := hw.grants (by omega) (by omega)
  rw [hg] at hone
  have hw1 := hw.granted (g := 1) hch
  obtain ⟨hmem1, hcores1⟩ := ringGranted_frame s ch r 1
  by_cases hlast : tdSteps r.desc = 1
  · have hstop := hw1.stops (.inl (show tdSteps r.desc < 1 + 1 by omega))
    refine ⟨_, by rw [hexec, State.chainLoop_moved hone, State.chainLoop_stops hstop], ?_, hmem1, hcores1⟩
    rw [hw1.round, hlast]
    rfl
  · have htwo := hw1.grants (show 1 + 1 ≤ tdSteps r.desc by omega) (show 1 + 1 ≤ 2 by omega)
    have hw2 := hw1.granted (g := 2) hch
    obtain ⟨hmem2, hcores2⟩ := ringGranted_frame (ringGranted s ch r 1) ch { r with gStep := 1 } 2
    have hstop := hw2.stops (.inr rfl)
    refine ⟨_, by rw [hexec, State.chainLoop_moved hone, State.chainLoop_moved htwo, State.chainLoop_stops hstop], ?_, hmem2.trans hmem1,
      hcores2.trans hcores1⟩
    rw [hw2.round, Nat.min_eq_left (by omega)]

end Sys2Proof.Machine
end

section
/-! SUPPORT. A round that fails (O49): what follows its end leaves memory, the chain's idle round and its last status. -/

namespace Sys2Proof.Machine

variable {s t u : State} {ch st : Nat} {r : Round} {m : List Host.Cell}

/-- The last status of a chain is in the low bits of this word. -/
def statusKey (ch : Nat) : Nat := Fld.TRV_CH_STATUS_LAST_STATUS.key ch 0

theorem statusKey_eq (ch : Nat) : statusKey ch = 0xB * 2 ^ 32 + (ch + 1) * 2 ^ 14 + 0x14 := rfl

/-- The round of chain `ch` ended with status `st`, and memory is `m`. -/
structure RoundEnded (m : List Host.Cell) (ch st : Nat) (t : State) : Prop where
  mem : t.mem = m
  round : (t.chain ch).round = none
  status : (t.word (statusKey ch)).toNat % 2 ^ 8 = st

theorem RoundEnded.same (h : RoundEnded m ch st t) {cores gangs held touched : _} :
    RoundEnded m ch st { t with cores, gangs, held, touched } := ⟨h.mem, h.round, h.status⟩

theorem RoundEnded.ite {c : Prop} [Decidable c] (ht : RoundEnded m ch st t) (hu : RoundEnded m ch st u) :
    RoundEnded m ch st (if c then t else u) := by
  split
  · exact ht
  · exact hu

theorem RoundEnded.foldl {α : Type} {f : State → α → State} {l : List α} (h : RoundEnded m ch st t)
    (hf : ∀ {t x}, RoundEnded m ch st t → RoundEnded m ch st (f t x)) : RoundEnded m ch st (l.foldl f t) := by
  induction l generalizing t with
  | nil => exact h
  | cons x l ih => exact ih (hf h)

theorem RoundEnded.reports (h : RoundEnded m ch st t) (r : Reports t u) (hch : ch < 256) : RoundEnded m ch st u where
  mem := by
    rw [r.rest]
    exact h.mem
  round := by
    have hchains : u.chains = t.chains := by rw [r.rest]
    rw [State.chain, hchains]
    exact h.round
  status := by
    have hkey : reportKey (statusKey ch) = false := by
      have hpage : statusKey ch / 2 ^ 32 = 0xB := by rw [statusKey_eq]; omega
      have hoff : statusKey ch % 2 ^ 32 ≠ 0x14 := by rw [statusKey_eq]; omega
      have hlost : statusKey ch ≠ Fld.DSP_EVQ_LOST_COUNT.key 0 0 := by
        intro hlost
        rw [hlost] at hpage
        exact absurd hpage (by decide)
      unfold reportKey
      rw [hpage, beq_eq_false_iff_ne.mpr hoff, beq_eq_false_iff_ne.mpr hlost]
      rfl
    rw [r.words _ hkey]
    exact h.status

theorem RoundEnded.setWord (h : RoundEnded m ch st t) {k : Nat} {v : BitVec 32} (hk : k ≠ statusKey ch) : RoundEnded m ch st (t.setWord k v) where
  mem := by
    rw [State.setWord_mem]
    exact h.mem
  round := by
    unfold State.chain
    rw [State.setWord_chains]
    exact h.round
  status := by
    rw [State.word_setWord_ne t hk.symm]
    exact h.status

/-- A field of another word. -/
theorem RoundEnded.put (h : RoundEnded m ch st t) {f : Fld} {v i e : Nat} (hk : f.key i e ≠ statusKey ch) (hf : f.one := by decide) :
    RoundEnded m ch st (t.put f v i e) := by
  rw [State.put_one hf]
  exact h.setWord hk

/-- A field of the status word above the last status. -/
theorem RoundEnded.putAbove (h : RoundEnded m ch st t) {f : Fld} {v i e : Nat} (hlo : 8 ≤ f.lo := by decide) (hf : f.one := by decide) :
    RoundEnded m ch st (t.put f v i e) := by
  by_cases hk : f.key i e = statusKey ch
  · refine ⟨(State.put_mem _ _ _ _ _).trans h.mem, ?_, ?_⟩
    · rw [State.chain, State.put_chains]
      exact h.round
    · have hlow : ∀ w, bitsPut w f.lo f.len v % 2 ^ 8 = w % 2 ^ 8 := fun w => by
        simpa [bitsAt] using bitsAt_bitsPut_low w f.lo f.len v 0 8 hlo
      have hword : (2 : Nat) ^ 8 ∣ 2 ^ 32 := by decide
      rw [State.put_one hf, hk, State.word_setWord_self, BitVec.toNat_ofNat, Nat.mod_mod_of_dvd _ hword, hlow]
      exact h.status
  · exact h.put hk hf

theorem RoundEnded.event (h : RoundEnded m ch st t) (hch : ch < 256) {f : Fld} {v inst : Nat} : RoundEnded m ch st (t.event f v inst) :=
  h.reports (State.event_reports t f v inst) hch

theorem RoundEnded.note (h : RoundEnded m ch st t) (hch : ch < 256) {n : Note} : RoundEnded m ch st (t.note n) :=
  h.reports (State.note_reports t n) hch

theorem RoundEnded.send (h : RoundEnded m ch st t) (hch : ch < 256) {p : Packet} : RoundEnded m ch st (t.send p) :=
  h.reports (State.send_reports t p) hch

/-! ### What follows the end of a round -/

theorem RoundEnded.setCore (h : RoundEnded m ch st t) {n : Nat} {c : CoreSt} : RoundEnded m ch st (t.setCore n c) := h.same

theorem RoundEnded.haltCore (h : RoundEnded m ch st t) {n run : Nat} : RoundEnded m ch st (t.haltCore n run) := h.setCore

/-- A core's page is no chain's window. -/
theorem coreKey_ne_statusKey {f : Fld} {i : Nat} (hch : ch < 256) (hp : f.page = 0x40) (hw : f.win = false) :
    f.key i 0 ≠ statusKey ch := by
  rw [statusKey_eq]
  simp only [Fld.key, regKey, hp, hw]
  norm_num
  omega

theorem RoundEnded.stopOnFault (h : RoundEnded m ch st t) (hch : ch < 256) {n code seq : Nat} : RoundEnded m ch st (t.stopOnFault n code seq) := by
  unfold State.stopOnFault
  exact ((h.put (coreKey_ne_statusKey hch rfl rfl)).put (coreKey_ne_statusKey hch rfl rfl)).haltCore

theorem RoundEnded.setGang (h : RoundEnded m ch st t) {g : Gang} : RoundEnded m ch st (t.setGang g) := h.same

theorem RoundEnded.stopGang (h : RoundEnded m ch st t) {gid : Nat} {why : Stop} : RoundEnded m ch st (t.stopGang gid why) := by
  unfold State.stopGang
  split
  · exact h
  · exact .ite h (.foldl h.setGang fun h => .ite h.haltCore h)

theorem RoundEnded.sendAborts (h : RoundEnded m ch st t) (hch : ch < 256) {i x : Nat} : RoundEnded m ch st (t.sendAborts i x) := by
  unfold State.sendAborts
  split
  · exact h
  · exact .ite h ((h.send hch).send hch)

/-- The words of another chain's window are not this one's, and neither is another word of the window. -/
theorem chainKey_ne_statusKey {f : Fld} {i : Nat} (hp : f.page = 0xB ∧ f.win = true ∧ f.off < 2 ^ 14) (h : i ≠ ch ∨ f.off ≠ 0x14) :
    f.key i 0 ≠ statusKey ch := by
  obtain ⟨hpage, hwin, hoff⟩ := hp
  rw [statusKey_eq]
  simp only [Fld.key, regKey, hpage, hwin]
  norm_num
  omega

theorem RoundEnded.setChain (h : RoundEnded m ch st t) {i : Nat} {c : Chain} (hc : c.round = none) : RoundEnded m ch st (t.setChain i c) where
  mem := h.mem
  status := h.status
  round := by
    unfold State.setChain State.chain
    rw [tget_tset]
    split
    · exact hc
    · exact h.round

/-- The counter of rounds is two words of the window. -/
theorem RoundEnded.countRounds (h : RoundEnded m ch st t) {n i : Nat} : RoundEnded m ch st (t.count Fld.TRV_CH_ROUNDS_COUNT n i) := by
  have hkey : Fld.TRV_CH_ROUNDS_COUNT.key i 0 = 0xB * 2 ^ 32 + (i + 1) * 2 ^ 14 + 0x38 := rfl
  unfold State.count State.put
  rw [if_neg (by decide)]
  exact (h.setWord (by rw [hkey, statusKey_eq]; omega)).setWord (by rw [hkey, statusKey_eq]; omega)

/-- What closing a round does after its last status is set. -/
theorem RoundEnded.closing (h : RoundEnded m ch st t) (hch : ch < 256) {i x ab : Nat} :
    let u := ((t.put Fld.TRV_CH_STATUS_ACTIVE 0 i).put Fld.TRV_CH_STATUS_ABORT_PENDING ab i).count Fld.TRV_CH_ROUNDS_COUNT 1 i
    RoundEnded m ch st (if x = 0 then u else (u.put Fld.TRV_TRV_LAST_CHAIN i).event Fld.TRV_PAGE_EVENT_ROUND_FAIL 0 i) := by
  have hcount := (h.putAbove (f := Fld.TRV_CH_STATUS_ACTIVE) (v := 0) (i := i) (e := 0)).putAbove (f := Fld.TRV_CH_STATUS_ABORT_PENDING) (v := ab)
    (i := i) (e := 0) |>.countRounds (n := 1) (i := i)
  have hlast : Fld.TRV_TRV_LAST_CHAIN.key 0 0 ≠ statusKey ch := by
    have hkey : Fld.TRV_TRV_LAST_CHAIN.key 0 0 = 0xB * 2 ^ 32 + 0x104 := rfl
    rw [hkey, statusKey_eq]
    omega
  exact .ite hcount ((hcount.put hlast).event hch)

/-- Another chain's round closes. -/
theorem RoundEnded.closeRound (h : RoundEnded m ch st t) (hch : ch < 256) {i x : Nat} (hi : i ≠ ch) : RoundEnded m ch st (t.closeRound i x) := by
  unfold State.closeRound
  exact (((h.setChain rfl).put (chainKey_ne_statusKey (by decide) (.inl hi))).put (chainKey_ne_statusKey (by decide) (.inl hi))).closing hch

theorem RoundEnded.forgetKernel (h : RoundEnded m ch st t) (hch : ch < 256) {gang : Nat} : RoundEnded m ch st (t.forgetKernel gang) := by
  unfold State.forgetKernel
  extract_lets s1
  have hs1 : RoundEnded m ch st s1 := h.same
  refine .foldl hs1 fun {t i} h => ?_
  split
  · next r hr =>
    have hi : i ≠ ch := by
      rintro rfl
      rw [h.round] at hr
      exact absurd hr (by simp)
    exact .ite ((h.sendAborts hch).closeRound hch hi) h
  · exact h

theorem RoundEnded.faultHeard (h : RoundEnded m ch st t) (hch : ch < 256) {n : Nat} {c : CoreSt} {code seq : Nat} :
    RoundEnded m ch st (t.faultHeard n c code seq) := .ite ((h.forgetKernel hch).event hch) h.stopGang

theorem RoundEnded.coreFaults (h : RoundEnded m ch st t) (hch : ch < 256) {code : Nat} {l : List (Nat × Nat × Nat)} :
    RoundEnded m ch st (t.coreFaults code l) := by
  unfold State.coreFaults
  exact .foldl (.foldl (.foldl h fun h => (h.stopOnFault hch).event hch) fun h => h.note hch) fun h => h.faultHeard hch

theorem RoundEnded.travsDone (h : RoundEnded m ch st t) (hch : ch < 256) {l : List (Nat × Nat × Nat × Nat)} {x : Nat} :
    RoundEnded m ch st (t.travsDone l x) := by
  unfold State.travsDone
  extract_lets t1
  have ht1 : RoundEnded m ch st t1 := .foldl h fun h => .ite h h.setCore
  exact .ite ht1 (ht1.coreFaults hch)

/-! ### The failing round -/

theorem State.get_lastStatus (s : State) (ch : Nat) : s.get Fld.TRV_CH_STATUS_LAST_STATUS ch = (s.word (statusKey ch)).toNat % 2 ^ 8 := by
  rw [State.get_one (by decide)]
  simp [bitsAt, statusKey, Fld.TRV_CH_STATUS_LAST_STATUS]

theorem State.status_put (s : State) (hst : st < 256) :
    ((s.put Fld.TRV_CH_STATUS_LAST_STATUS st ch).word (statusKey ch)).toNat % 2 ^ 8 = st := by
  rw [← State.get_lastStatus, State.get_put_one (by decide)]
  exact Nat.mod_eq_of_lt hst

/-- The round that closes leaves its status. -/
theorem State.closeRound_ends (s : State) (hch : ch < 256) (hst : st < 256) : RoundEnded s.mem ch st (s.closeRound ch st) := by
  unfold State.closeRound
  refine RoundEnded.closing ⟨?_, ?_, ?_⟩ hch
  · rw [State.put_mem, State.put_mem]
    rfl
  · unfold State.chain
    rw [State.put_chains, State.put_chains, State.setChain, tget_tset_self]
  · exact State.status_put _ hst

theorem State.sendAborts_frame (s : State) (ch st : Nat) : (s.sendAborts ch st).mem = s.mem ∧ (s.sendAborts ch st).chains = s.chains := by
  unfold State.sendAborts
  split
  · exact ⟨rfl, rfl⟩
  · split
    · exact ⟨rfl, rfl⟩
    · obtain ⟨hmem, -, hchains⟩ := State.send_frame s (s.chPacket ch 0x34 (s.chNext ch) st _)
      obtain ⟨hmem', -, hchains'⟩ := State.send_frame (s.send (s.chPacket ch 0x34 (s.chNext ch) st _)) (s.chPacket ch 0x34 (s.chPrev ch) st _)
      exact ⟨hmem'.trans hmem, hchains'.trans hchains⟩

theorem State.failRound_ends (hr : (s.chain ch).round = some r) (hch : ch < 256) (hst : st < 256) : RoundEnded s.mem ch st (s.failRound ch st) := by
  obtain ⟨hmem, hchains⟩ := State.sendAborts_frame s ch st
  have hround : ((s.sendAborts ch st).chain ch).round = some r := by
    rw [State.chain, hchains]
    exact hr
  unfold State.failRound State.endRound
  rw [hround, ← hmem]
  exact (State.closeRound_ends _ hch hst).travsDone hch

theorem RoundEnded.get (h : RoundEnded m ch st t) : t.get Fld.TRV_CH_STATUS_LAST_STATUS ch = st :=
  (State.get_lastStatus t ch).trans h.status

/-- A gather segment without a path fails its round with status 5. -/
theorem RoundRuns.fails {k off : Nat} (h : RoundRuns s ch 3 r)
    (hlist : (sendsGather r.desc (s.chN ch) (s.chP ch) r.shards).drop r.sentG = [(k, off)]) (hwin : r.sent < s.granted ch (s.chNext ch))
    (hreach : s.reachable (s.chNext ch) 0 ch = false) :
    Answers (exec (roundCommand ch 3) s) fun t =>
      (t.chain ch).round = none ∧ t.get Fld.TRV_CH_STATUS_LAST_STATUS ch = 5 ∧ t.mem = s.mem := by
  obtain ⟨n, hexec⟩ := h.exec_command (by omega)
  obtain ⟨hch, hr, hs, ho⟩ := h
  have hred : opReduces (tdOp r.desc) = false := by rw [ho]; decide
  have hend := State.failRound_ends (st := 5) hr hch (by decide)
  have hfirst : s.chainTry ch = (s.failRound ch 5, false) := by
    refine State.chainTry_first (before := [State.tryLocal, State.tryReduce]) hr hs rfl ?_ (State.tryGather_fails hlist hwin hreach) (.inr hend.round)
    simp only [List.forall_mem_cons]
    exact ⟨State.tryLocal_idle (.inr hred), State.tryReduce_none hred, nofun⟩
  exact ⟨_, by rw [hexec, State.chainLoop_stops hfirst], hend.round, hend.get, hend.mem⟩

/-- Settles O49: each operation's turn sends or grants what its window allows, and the next turn of the engine finds nothing more to do; a
turn without a window does nothing, and one without a path ends the round. -/
theorem roundsSendWithinTheirWindows : Obligations.RoundsSendWithinTheirWindows := by
  intro s ch r
  refine ⟨?_, ?_, ?_, ?_, ?_, ?_⟩
  · intro op k off codes u hop h hn _ hk hlist hgather hwin hreach hacc
    exact h.sends_reduce hop hn hk hlist hgather hwin hreach hacc
  · intro off b h hn hlist hwin hreach hread
    exact h.sends_gather hn hlist hwin hreach hread
  · intro k h hk i r' z run g hlast hreach hstatus hstate
    exact h.sends_run hk rfl rfl rfl hlast rfl hstatus hstate hreach
  · intro h hg hsend hoff hgot hungranted hsteps hblocks hplace hpath
    have ⟨_, hr, hs, ho⟩ := h
    exact h.grants_steps ⟨hr, hs, ho, ⟨hsend, hoff, hgot⟩, hungranted, hblocks, hplace, hpath⟩ hg hsteps
  · intro op hop h hn hwin
    exact h.waits hop hn hwin
  · intro k off h _ hlist hwin hreach
    exact h.fails hlist hwin hreach

end Sys2Proof.Machine
end

section
/-! SUPPORT. Control accesses to the registers of a page (O9, O13, O14, O15): the page and offset an address names, the accessors that
a page's registers are open to, and one lemma per kind of word for what the access does. -/

namespace Sys2Proof.Machine

variable {s t : State} {a : Acc} {page off v : Nat} {w : RegW}

/-! ### A completion -/

/-- A completion changes no register. -/
@[simp] theorem State.word_done (s : State) (code data k : Nat) : (s.done code data).word k = s.word k := by
  unfold State.done State.word
  exact Eq.refl _

/-! ### The page and the offset of an address -/

theorem populated_lt (h : populated page = true) : page < 0x400 := by
  simp only [populated, Bool.or_eq_true, Bool.and_eq_true, decide_eq_true_eq] at h
  omega

theorem pageAddr_page (hoff : off < 0x10000) : (pageAddr page off - 0x40000000) / 0x10000 = page := by
  unfold pageAddr
  omega

theorem pageAddr_off (hoff : off < 0x10000) : pageAddr page off % 0x10000 = off := by
  unfold pageAddr
  omega

theorem pageAddr_inside (hpage : page < 0x400) (hoff : off < 0x10000) :
    ¬(pageAddr page off < 0x40000000 ∨ 0x44000000 ≤ pageAddr page off) := by
  unfold pageAddr
  omega

/-- A write to the address of a page offset is the write of that page offset (R41). -/
theorem State.ctlWrite_pageAddr (s : State) (a : Acc) (hpage : page < 0x400) (hoff : off < 0x10000) (size v : Nat) :
    s.ctlWrite a (pageAddr page off) size v = s.pageOffWrite ctlAct a page off size v := by
  unfold State.ctlWrite State.ctlWriteBy
  rw [if_neg (pageAddr_inside hpage hoff), pageAddr_page hoff, pageAddr_off hoff]

/-- A read of the address of a page offset is the read of that page offset (R41). -/
theorem State.ctlReadBy_pageAddr (s : State) (a : Acc) (hpage : page < 0x400) (hoff : off < 0x10000) (size : Nat) :
    s.ctlReadBy ctlView a (pageAddr page off) size = s.pageOffRead ctlView a page off size := by
  unfold State.ctlReadBy
  rw [if_neg (pageAddr_inside hpage hoff), pageAddr_page hoff, pageAddr_off hoff]

/-! ### The accessors that configure the die -/

/-- MP, and the configuration loader until the release, may write every page but the DBG page (R53, R54). -/
def Configures (s : State) (a : Acc) : Prop := a.cls = .mp ∨ (a.cls = .ldr ∧ s.released = false)

theorem Configures.port (h : Configures s a) : s.portOpen a = true := by
  obtain h | ⟨h, -⟩ := h <;> simp [State.portOpen, h]

theorem Configures.class (h : Configures s a) (page off : Nat) (write : Bool) : s.classOk a page off write = true := by
  obtain h | ⟨h, released⟩ := h
  · simp [State.classOk, h]
  · simp [State.classOk, h, released]

theorem Configures.mask (h : Configures s a) (page : Nat) (sp : Spot) : s.maskOk a page sp = true := by
  obtain h | ⟨h, -⟩ := h <;> simp [State.maskOk, h]

theorem Configures.onPage (h : Configures s a) (hpage : page ≠ 0xD) (off : Nat) : s.pageWrite a page off = true := by
  obtain h | ⟨h, -⟩ := h <;> simp [State.pageWrite, h, hpage]

theorem Configures.host (h : Configures s a) (page inst off v : Nat) : s.hostWrite a page inst off v = true := by
  obtain h | ⟨h, -⟩ := h <;> simp [State.hostWrite, h]

/-! ### The checks and the spot -/

theorem sizeOk_word (hoff : off % 4 = 0) : sizeOk page off 4 = true := by
  simp [sizeOk, hoff]

/-- The offset of a page's block or of its header, as long as it is no window's. -/
theorem State.spot_live (s : State) (c : Cls) (page : Nat) (hoff : 0x100 ≤ off) (hlt : off < 0x4000) : s.spot c page off = .reg 0 off false := by
  simp [State.spot, hlt, show ¬off < 0x30 by omega, show ¬off < 0x100 by omega]

theorem State.spot_header (s : State) (c : Cls) (page : Nat) (hoff : off < 0x30) : s.spot c page off = .reg 0 off false := by
  simp [State.spot, hoff]

theorem chselOk_block (a : Acc) (hoff : 0x100 ≤ off) : chselOk a 0 off = true := by
  simp [chselOk, show ¬off < 48 by omega]

theorem LiveReg.block (h : LiveReg s page off) : 0x100 ≤ off ∧ off < 0x4000 :=
  ⟨h.2.2.1, h.2.2.2.1⟩

/-- An access of an open class to a live register passes every check. -/
theorem LiveReg.entryCheck (h : LiveReg s page off) (write : Bool) (port : s.portOpen a = true)
    (class_ : s.classOk a page off write = true) (mask : s.maskOk a page (.reg 0 off false) = true) :
    s.entryCheck a page off 4 write = none := by
  obtain ⟨pop, kept, hlow, hhigh, hword⟩ := h
  unfold State.entryCheck
  simp [port, pop, sizeOk_word hword, class_, s.spot_live a.cls page hlow hhigh, mask, kept]

/-! ### Writes -/

/-- A write by one of the accessors that configure the die reaches the register. -/
theorem Configures.write_live (h : Configures s a) (live : LiveReg s page off) (hpage : page ≠ 0xD) (v : Nat) :
    s.ctlWrite a (pageAddr page off) 4 v = s.putSpot ctlAct a page 0 off (v % 2 ^ 32) := by
  obtain ⟨hlow, hhigh⟩ := live.block
  rw [State.ctlWrite_pageAddr s a (populated_lt live.1) (by omega)]
  unfold State.pageOffWrite
  rw [live.entryCheck true h.port (h.class _ _ _) (h.mask _ _), s.spot_live a.cls page hlow hhigh]
  simp [State.writeReg, h.onPage hpage, h.host, chselOk_block a hlow]

/-- A register without an effect of its own takes the word as its access codes say. -/
theorem State.putSpot_block {inst : Nat} (hspot : inst ≠ 0 ∨ 0x30 ≤ off) (plain : ctlAct s a page inst off v = none) :
    s.putSpot ctlAct a page inst off v = s.wordWrite a page inst off v := by
  unfold State.putSpot
  rw [if_neg (by omega), plain]

/-- The RW and W1C bits of a word take the value written (R51). -/
theorem State.plainWrite_eq (s : State) (k v : Nat) (w : RegW) :
    s.plainWrite k v w = s.setWord k (plainValue (s.word k) (BitVec.ofNat 32 v) w) := rfl

/-- A word without staged bits is written in place. -/
theorem State.wordWrite_plain (s : State) (a : Acc) {inst : Nat} (hw : regWord (blkOf page) (inst != 0) off = some w) (hws : w.ws = 0)
    (v : Nat) : s.wordWrite a page inst off v =
      (s.setWord (regKey page inst off) (plainValue (s.word (regKey page inst off)) (BitVec.ofNat 32 v) w)).done 0 0 := by
  unfold State.wordWrite
  rw [hw]
  simp only [hws, if_true, State.plainWrite_eq]

/-- A word with staged bits that the staging copy takes keeps them there. -/
theorem State.wordWrite_staged (s : State) {inst : Nat} (hw : regWord (blkOf page) (inst != 0) off = some w) (hws : w.ws ≠ 0)
    (test : s.stageTest a page = 0) (v : Nat) : s.wordWrite a page inst off v =
      ((s.plainWrite (regKey page inst off) v w).stage a page (regKey page inst off) w.ws v).done 0 0 := by
  unfold State.wordWrite
  rw [hw]
  simp only [hws, if_false, test]

/-- A plain register that MP or the loader writes. -/
theorem Configures.write_plain (h : Configures s a) (live : LiveReg s page off) (hpage : page ≠ 0xD) (hv : v < 2 ^ 32)
    (hw : regWord (blkOf page) false off = some w) (hws : w.ws = 0) (plain : ctlAct s a page 0 off v = none) :
    s.ctlWrite a (pageAddr page off) 4 v =
      (s.setWord (regKey page 0 off) (plainValue (s.word (regKey page 0 off)) (BitVec.ofNat 32 v) w)).done 0 0 := by
  rw [h.write_live live hpage, Nat.mod_eq_of_lt hv, State.putSpot_block (.inr (by have := live.block.1; omega)) plain]
  exact s.wordWrite_plain a hw hws v

/-! ### Reads -/

/-- What reading a live register of no other state's making does. -/
theorem State.ctlRead_live (s : State) (a : Acc) (live : LiveReg s page off) (port : s.portOpen a = true)
    (class_ : s.classOk a page off false = true) (mask : s.maskOk a page (.reg 0 off false) = true) (view : ctlView s page 0 off = none) :
    s.ctlReadBy ctlView a (pageAddr page off) 4 = (s.wordRead a page 0 off false).1.done 0 (s.wordRead a page 0 off false).2 := by
  obtain ⟨hlow, hhigh⟩ := live.block
  rw [State.ctlReadBy_pageAddr s a (populated_lt live.1) (by omega)]
  unfold State.pageOffRead
  rw [live.entryCheck false port class_ mask, s.spot_live a.cls page hlow hhigh]
  simp [State.readOk, State.getSpot, show ¬off < 48 by omega, view]

/-- An episode record that is read leaves the list of unread ones, and nothing else changes (R428). -/
theorem State.ctlRead_eq (s : State) (a : Acc) (addr size : Nat) :
    s.ctlRead a addr size = { s.ctlReadBy ctlView a addr size with epiUnread := (s.ctlRead a addr size).epiUnread } := by
  unfold State.ctlRead
  dsimp only
  split <;> rfl

/-- A read of a live word. -/
theorem State.wordRead_live (s : State) (a : Acc) (hw : regWord (blkOf page) false off = some w) :
    s.wordRead a page 0 off false =
      (if w.rc ≠ 0 ∧ a.cls ≠ .dbg then s.setWord (regKey page 0 off) (s.word (regKey page 0 off) &&& ~~~BitVec.ofNat 32 w.rc) else s,
        (s.word (regKey page 0 off) &&& BitVec.ofNat 32 w.readMask).toNat) := by
  unfold State.wordRead
  simp [hw]

end Sys2Proof.Machine
end

section
/-! SUPPORT. Reads (O13), and writes to plain registers and of the DBG class on a locked die (O14). -/

namespace Sys2Proof.Machine

/-- MP, and DBG on an unlocked die, may read every page. -/
theorem State.reads_all {s : State} {a : Acc} (h : a.cls = .mp ∨ (a.cls = .dbg ∧ s.portOpen a = true ∧ s.unlocked = true)) (page off : Nat)
    (sp : Spot) : s.portOpen a = true ∧ s.classOk a page off false = true ∧ s.maskOk a page sp = true := by
  obtain h | ⟨h, port, unlocked⟩ := h
  · simp [State.portOpen, State.classOk, State.maskOk, h]
  · simp [port, State.classOk, State.maskOk, h, unlocked]

/-- What a read leaves of the word and of the other words. -/
theorem State.wordRead_words {s : State} {a : Acc} {page off : Nat} {w : RegW} (hw : regWord (blkOf page) false off = some w) :
    (s.wordRead a page 0 off false).1 = { s with regs := (s.wordRead a page 0 off false).1.regs } ∧
    (s.wordRead a page 0 off false).1.word (regKey page 0 off) =
      (if a.cls = .dbg then s.word (regKey page 0 off) else s.word (regKey page 0 off) &&& ~~~BitVec.ofNat 32 w.rc) ∧
    ∀ k, k ≠ regKey page 0 off → (s.wordRead a page 0 off false).1.word k = s.word k := by
  rw [State.wordRead_live s a hw]
  by_cases clears : w.rc ≠ 0 ∧ a.cls ≠ .dbg
  · rw [if_pos clears, if_neg clears.2]
    exact ⟨by rw [State.setWord_eq], s.word_setWord_self _ _, fun k hk => s.word_setWord_ne hk _⟩
  · rw [if_neg clears]
    refine ⟨rfl, ?_, fun _ _ => rfl⟩
    split
    · rfl
    · next hcls =>
      have rc : w.rc = 0 := by_contra fun h => clears ⟨h, hcls⟩
      rw [rc, show ~~~BitVec.ofNat 32 0 = BitVec.allOnes 32 from rfl, BitVec.and_allOnes]

/-- Settles O13: the access passes every check, and the word is read in the live view. -/
theorem readReturnsTheWordAndClearsRc : Obligations.ReadReturnsTheWordAndClearsRc := by
  intro s a page off w reader live hw view
  obtain ⟨port, class_, mask⟩ := State.reads_all reader page off (.reg 0 off false)
  obtain ⟨frame, word, rest⟩ := State.wordRead_words (s := s) (a := a) hw
  have read := State.ctlRead_eq s a (pageAddr page off) 4
  rw [State.ctlRead_live s a live port class_ mask view] at read
  refine ⟨_, by rw [exec_rcRead]; rfl, ?_, ?_, ?_, ?_⟩
  · rw [read, frame]
    rfl
  · rw [read, State.wordRead_live s a hw]
    rfl
  · rw [← word, read]
    rfl
  · intro k hk
    rw [← rest k hk, read]
    rfl

/-- A write to a plain register, of a class that may make it. -/
theorem plainWriteStoresWritableBits : PlainWriteStoresWritableBits := by
  intro s a page off v w hcls live hpage hv hw hws plain
  have write := Configures.write_plain (.inl hcls) live hpage hv hw hws plain
  refine ⟨_, by rw [exec_registerWrite, execRegisterWrite, write], ?_, ?_, ?_⟩
  · simp [State.done, State.setWord_eq]
  · rw [State.word_done, State.word_setWord_self]
  · intro k hk
    rw [State.word_done, State.word_setWord_ne s hk]

/-! ### The DBG class on a locked die -/

/-- A refused access sets `ACCESS_REFUSED` of its page and answers "protection"; nothing else happens. -/
theorem State.refuse_reports (s : State) (page : Nat) :
    (s.refuse page).ctl = { code := 1, data := 0 } ∧ ((s.refuse page).word (pageEvent page)).getLsbD 30 = true ∧
      Reports s { s.refuse page with ctl := s.ctl } := by
  have raised := s.raise_reports page (2 ^ 30) 0
  refine ⟨rfl, ?_, ?_⟩
  · have set := (s.raise_after page (2 ^ 30) 0).events page 30 (s.orEvent_sets page (2 ^ 30) 30 (by decide))
    rw [State.word_congr (t := s.raise page (2 ^ 30)) (by unfold State.refuse State.done; exact Eq.refl _)]
    exact set
  · have ctl : (s.raise page (2 ^ 30) 0).ctl = s.ctl := by rw [raised.rest]
    have same : ({ s.refuse page with ctl := s.ctl } : State) = s.raise page (2 ^ 30) 0 := by
      unfold State.refuse State.done
      rw [← ctl]
    rw [same]
    exact raised

/-- The DBG class finds a locked die closed to its writes (R53, R54). -/
theorem State.locked_write {s : State} {a : Acc} {page off : Nat} (hcls : a.cls = .dbg) (hpage : populated page = true) (hoff : off < 0x10000)
    (hword : off % 4 = 0) (port : s.portOpen a = true) (locked : s.unlocked = false) (hreg : unlockReg page off = false) (v : Nat) :
    s.ctlWrite a (pageAddr page off) 4 v = s.refuse page := by
  have class_ : s.classOk a page off true = false := by simp [State.classOk, hcls, locked, hreg]
  have check : s.entryCheck a page off 4 true = some (s.refuse page) := by
    simp [State.entryCheck, port, hpage, sizeOk_word hword, class_]
  rw [State.ctlWrite_pageAddr s a (populated_lt hpage) hoff, State.pageOffWrite, check]

/-- A closed control segment of the test port answers zeros and does nothing (R476). -/
theorem State.entryCheck_closed {s : State} {a : Acc} (closed : s.portOpen a = false) (page off size : Nat) (write : Bool) :
    s.entryCheck a page off size write = some (s.done 0 0) := by
  simp [State.entryCheck, closed]

theorem State.ctlRead_dbg {s : State} {a : Acc} (hcls : a.cls = .dbg) (addr size : Nat) :
    s.ctlRead a addr size = s.ctlReadBy ctlView a addr size := by
  simp [State.ctlRead, hcls]

theorem lockedDebugWritesNothing : LockedDebugWritesNothing := by
  intro s a page off v hcls hpage hoff hword
  have inside := populated_lt hpage
  refine ⟨fun port locked hreg => ?_, fun shut => ?_⟩
  · exact ⟨_, by rw [exec_registerWrite, execRegisterWrite, State.locked_write hcls hpage hoff hword port locked hreg], s.refuse_reports page⟩
  · have closed : s.portOpen a = false := by
      obtain h | h := shut <;> simp [State.portOpen, hcls, h]
    constructor
    · rw [exec_registerWrite, execRegisterWrite, State.ctlWrite_pageAddr s a inside hoff, State.pageOffWrite, State.entryCheck_closed closed]
      rfl
    · rw [exec_rcRead, execRcRead, State.ctlRead_dbg hcls, State.ctlReadBy_pageAddr s a inside hoff, State.pageOffRead,
        State.entryCheck_closed closed]
      rfl

/-- Settles O14: a plain write passes the checks and stores its word; an access of the DBG class stops at the first check that it fails. -/
theorem registerWritesStoreOrAreRefused : Obligations.RegisterWritesStoreOrAreRefused :=
  ⟨plainWriteStoresWritableBits, lockedDebugWritesNothing⟩

end Sys2Proof.Machine
end

section
/-! SUPPORT. What the endpoint does with a request of another die (O57): a request of a die that no boot link brought is served and
answered on its route. -/

namespace Sys2Proof.Machine

variable {s : State} {m : Nat} {p : Packet}

/-! ### Answers and violations -/

theorem State.peerKind_die (hboot : (s.mod m).boot = false) (hkind : s.get Fld.LNK_MOD_CFG_PARTNER_KIND m = 0) : s.peerKind m = 0 := by
  simp [State.peerKind, hboot, hkind]

/-- The answer to a packet that came by no boot link goes by its route. -/
theorem State.answerOn_routed (hboot : (s.mod m).boot = false) (p r : Packet) : s.answerOn m p r = s.answer p r := by
  simp [State.answerOn, hboot]

theorem State.answer_mem (s : State) (p r : Packet) : (s.answer p r).mem = s.mem := (State.send_frame s _).1

theorem State.answerOn_mem (s : State) (m : Nat) (p r : Packet) : (s.answerOn m p r).mem = s.mem := by
  unfold State.answerOn
  split
  · exact State.setMod_mem s m _
  · exact s.answer_mem p r

theorem State.turnDown_mem (s : State) (m : Nat) (p : Packet) (status crsp : Nat) : (s.turnDown m p status crsp).mem = s.mem := by
  unfold State.turnDown
  split
  · exact s.answerOn_mem m p _
  · split
    · exact s.answerOn_mem m p _
    · rfl

theorem State.apertureRefused_mem (s : State) (addr : Nat) : (s.apertureRefused addr).mem = s.mem := by
  unfold State.apertureRefused
  split
  · rw [(s.raise_reports _ _ _).rest]
  · rfl

theorem State.protect_mem (s : State) (m : Nat) (p : Packet) : (s.protect m p).mem = s.mem := by
  unfold State.protect
  split
  · exact s.answerOn_mem m p _
  · rw [State.turnDown_mem]
    split
    · exact s.apertureRefused_mem _
    · rfl

/-- A violation counts on its module and leaves its code there (R375). -/
theorem State.countViolation_effect (s : State) (m code : Nat) (hcode : code < 16) :
    (s.countViolation m code).mem = s.mem ∧ (s.countViolation m code).get Fld.LNK_MOD_VIOL_LAST_CODE m = code ∧
      (s.countViolation m code).get Fld.LNK_MOD_VIOL_COUNT m = satAdd Fld.LNK_MOD_VIOL_COUNT.len (s.get Fld.LNK_MOD_VIOL_COUNT m) 1 := by
  have regs : (s.countViolation m code).regs = ((s.bump Fld.LNK_MOD_VIOL_COUNT 1 m).put Fld.LNK_MOD_VIOL_LAST_CODE code m).regs := by
    unfold State.countViolation
    exact State.setMod_regs _ _ _
  refine ⟨?_, ?_, ?_⟩
  · unfold State.countViolation
    rw [State.setMod_mem, State.put_mem, State.bump_mem]
  · rw [State.get_congr regs, State.get_put_one (by decide)]
    exact Nat.mod_eq_of_lt (lt_of_lt_of_le hcode (by decide))
  · rw [State.get_congr regs, State.get_put_bits (by decide) (by decide) _ _ _ _ _ _ (by decide), State.get_bump (by decide)]

/-! ### Memory requests -/

/-- A request for memory is served there. -/
theorem State.endpoint_memory (s : State) (m : Nat) (h : p.typ = 0x01 ∨ p.typ = 0x02 ∨ p.typ = 0x20) : s.endpoint m p = s.serveMemory m p := by
  obtain h | h | h := h <;> simp [State.endpoint, h]

/-- A read of a die gets the bytes, or its status. -/
theorem State.serveMemory_read (hkind : s.peerKind m = 0) (ht : p.typ = 0x01) (hin : outsideBlock p = false) :
    s.serveMemory m p =
      (let r := s.readMem { dom := p.dom, unit := 9, own := false, die := p.src, tag := p.tag, pass := false } p.addr (p.arg % 512)
       r.state.answer p (if r.status = 0 then { pktOf 0x10 with data := r.bytes } else { pktOf 0x12 with arg := r.status })) := by
  unfold State.serveMemory
  simp only [hin, hkind, ht, Bool.false_eq_true, if_false, if_true, show ¬(0 = 3 ∧ inAperture p.addr = true) by omega]
  split <;> rfl

/-- A write of a die is acknowledged, or gets its status. -/
theorem State.serveMemory_write (hkind : s.peerKind m = 0) (ht : p.typ ≠ 0x01) (hin : outsideBlock p = false) :
    s.serveMemory m p =
      (let r := s.writeMem { dom := p.dom, unit := 9, own := false, die := p.src, tag := p.tag, pass := false } p.addr p.data
       r.1.answer p (if r.2 = 0 then pktOf 0x11 else { pktOf 0x12 with arg := r.2 })) := by
  unfold State.serveMemory
  simp only [hin, hkind, ht, Bool.false_eq_true, if_false, show ¬(0 = 3 ∧ inAperture p.addr = true) by omega]
  split <;> rfl

/-- An access that leaves its block is a violation (R375). -/
theorem State.serveMemory_outside (s : State) (m : Nat) (hout : outsideBlock p = true) :
    s.serveMemory m p = (s.countViolation m 15).answer p { pktOf 0x12 with arg := 3 } := by
  unfold State.serveMemory
  rw [if_pos hout]
  rfl

/-! ### Control requests -/

theorem State.endpoint_control (s : State) (m : Nat) (h : p.typ = 0x50) (room : s.easementWaiting < 64) :
    s.endpoint m p = s.serveControl m p := by
  simp [State.endpoint, h, State.serveEasement, show ¬64 ≤ s.easementWaiting by omega]

/-- A write of MP by another die. -/
theorem State.serveControl_write (hkind : s.peerKind m = 0) (hcls : bitsAt p.arg 2 2 = 0) (hwrite : bitOf p.arg 0 = true)
    (hlen : p.data.length = if bitOf p.arg 1 then 8 else 4) :
    s.serveControl m p =
      (let t := s.ctlWrite { cls := .mp, dom := p.dom, loc := false } p.addr p.data.length (leVal p.data)
       t.answerOn m p { pktOf 0x51 with arg := t.ctl.code }) := by
  have class_ : s.creqClass m p = some .mp := by simp [State.creqClass, hkind, hcls]
  simp [State.serveControl, hcls, class_, hwrite, ← hlen, pktOf]

/-- A die has no access of the classes HOST and LDR (R53). -/
theorem State.serveControl_foreign (hkind : s.peerKind m = 0) (hcls : bitsAt p.arg 2 2 = 1 ∨ bitsAt p.arg 2 2 = 3) :
    s.serveControl m p = s.protect m p := by
  unfold State.serveControl
  obtain h | h := hcls <;> simp [h, State.creqClass, hkind]

theorem State.endpoint_frameCode (hboot : (s.mod m).boot = false) (h : p.typ = 0x53) (room : s.easementWaiting < 64) :
    s.endpoint m p = s.answer p { pktOf 0x54 with arg := 1 } := by
  simp [State.endpoint, h, State.serveEasement, show ¬64 ≤ s.easementWaiting by omega, State.answerOn_routed hboot]

theorem requestsAreAnswered : RequestsAreAnswered := by
  intro s m p hboot hkind w back
  have die := State.peerKind_die hboot hkind
  refine ⟨?_, ?_, ?_, ?_, ?_, ?_, ?_, ?_⟩
  · intro ht hin
    rw [s.endpoint_memory m (.inl ht), State.serveMemory_read die ht hin]
    rfl
  · intro ht hin
    rw [s.endpoint_memory m (.inr ht), State.serveMemory_write die (by omega) hin]
    rfl
  · intro ht hout _
    obtain ⟨mem, code, count⟩ := s.countViolation_effect m 15 (by decide)
    exact ⟨_, mem, code, count, by rw [s.endpoint_memory m ht, s.serveMemory_outside m hout]; rfl⟩
  · intro ht room hcls hwrite hlen
    rw [s.endpoint_control m ht room, State.serveControl_write die hcls hwrite hlen]
  · intro ht room hcls
    rw [s.endpoint_control m ht room, State.serveControl_foreign die hcls, s.protect_mem]
  · intro ht room
    rw [State.endpoint_frameCode hboot ht room]
    rfl
  · intro ht
    simp [State.endpoint, ht]
  · intro ht
    simp [State.endpoint, ht]

end Sys2Proof.Machine
end

section
/-! SUPPORT. How a request of this die ends (O57): by its reply, or by its timeout; and the hold of a route. -/

namespace Sys2Proof.Machine

variable {s : State} {m : Nat} {p : Packet}

/-! ### Replies -/

/-- The types that answer a request. -/
def isReply (t : Nat) : Prop := t ∈ [0x10, 0x11, 0x12, 0x51, 0x54, 0x58]

theorem State.endpoint_reply (s : State) (m : Nat) (h : isReply p.typ) : s.endpoint m p = s.takeReply m p := by
  simp only [isReply, List.mem_cons, List.not_mem_nil, or_false] at h
  obtain h | h | h | h | h | h := h <;> simp [State.endpoint, h]

/-- RDATA and WACK end their request with status 0. -/
theorem State.takeReply_good {r : Req} (hfind : s.reqs.find? (fun r => r.tag == p.tag && answers p.typ r.pkt.typ) = some r)
    (h : p.typ = 0x10 ∨ p.typ = 0x11) : s.takeReply m p = s.endRequest p.tag 0 p.data := by
  unfold State.takeReply
  rw [hfind]
  obtain h | h := h <;> simp [h]

/-- A reply to no request and to none that timed out is violation 6. -/
theorem State.takeReply_unknown (hreq : s.reqs.find? (fun r => r.tag == p.tag && answers p.typ r.pkt.typ) = none)
    (hlate : p.tag ∉ s.lateTags) : s.takeReply m p = (s.countViolation m 6).dropPacket m := by
  unfold State.takeReply
  rw [hreq]
  simp [hlate]

/-- A reply to a request that timed out is counted as late. -/
theorem State.takeReply_late (hreq : s.reqs.find? (fun r => r.tag == p.tag && answers p.typ r.pkt.typ) = none) (hlate : p.tag ∈ s.lateTags) :
    s.takeReply m p = ({ s with lateTags := s.lateTags.erase p.tag } : State).bump Fld.LNK_LNK_LATE_RSP_COUNT := by
  unfold State.takeReply
  rw [hreq]
  simp [hlate]

/-- The first request of a tag is the only one. -/
theorem Req.find_tag {l : List Req} {q : Req → Bool} {tag : Nat} {r : Req} (hfind : l.find? (fun r => r.tag == tag && q r) = some r)
    (only : ∀ x ∈ l, x.tag = tag → x = r) : l.find? (fun r => r.tag == tag) = some r := by
  have mem := List.mem_of_find?_eq_some hfind
  have tagged : r.tag = tag := by
    have held := List.find?_some hfind
    simp only [Bool.and_eq_true, beq_iff_eq] at held
    exact held.1
  obtain ⟨x, hx⟩ : ∃ x, l.find? (fun r => r.tag == tag) = some x := by
    rw [← Option.isSome_iff_exists, List.find?_isSome]
    exact ⟨r, mem, by simp [tagged]⟩
  have same : x = r := only x (List.mem_of_find?_eq_some hx) (by simpa using List.find?_some hx)
  rw [hx, same]

/-! ### Timeouts -/

/-- The request of a tag has timed out: a reply to it will be late. -/
def State.timedOut (s : State) (tag : Nat) : State :=
  { s with lateTags := s.lateTags ++ [tag], reqs := s.reqs.filter (fun x => x.tag != tag) }

section
variable {tag d : Nat} {r : Req} (hfind : s.reqs.find? (fun r => r.tag == tag) = some r) (hdue : r.due = some d) (late : d ≤ s.now)
include hfind hdue late

/-- A request that was sent `REQ_TIMEOUT` ago ends with "timeout" (R374). -/
theorem execRequestTimeout_due :
    execRequestTimeout tag s = .next (({ s with lateTags := s.lateTags ++ [tag] } : State).endRequest tag stTimeout []) := by
  unfold execRequestTimeout
  rw [hfind]
  simp [hdue, show ¬s.now < d by omega]

/-- The loader has nothing else to do. -/
theorem execRequestTimeout_image {m : Nat} (owner : r.owner = .image m) : execRequestTimeout tag s = .next (s.timedOut tag) := by
  rw [execRequestTimeout_due hfind hdue late]
  unfold State.endRequest State.timedOut
  simp only [hfind, owner]

/-- A descriptor gets the status as a reply. -/
theorem execRequestTimeout_move {k : Nat} (owner : r.owner = .move k) :
    execRequestTimeout tag s = .next ((s.timedOut tag).moveReply k tag stTimeout []).settle := by
  rw [execRequestTimeout_due hfind hdue late]
  unfold State.endRequest State.timedOut
  simp only [hfind, owner]

end

/-- Nothing ends before. -/
theorem execRequestTimeout_early {tag : Nat} {r : Req} (hfind : s.reqs.find? (fun r => r.tag == tag) = some r)
    (hdue : r.due = none ∨ ∃ d, r.due = some d ∧ s.now < d) : execRequestTimeout tag s = .next s := by
  unfold execRequestTimeout
  rw [hfind]
  obtain h | ⟨d, h, early⟩ := hdue
  · simp [h]
  · simp [h, early]

/-- A descriptor whose request fails ends with the status. -/
theorem State.moveReply_fails {k tag st : Nat} {data : Bytes} (hwait : (s.move k).wait = .reply tag) (hst : st ≠ 0)
    (hfirst : ∀ z ∈ s.zeroing, z.first ≠ some k) : s.moveReply k tag st data = s.endMove k st := by
  have first : s.firstDone k = s := by
    have mine : s.zeroing.filter (fun z => z.first == some k) = [] := by
      rw [List.filter_eq_nil_iff]
      simpa using hfirst
    simp [State.firstDone, mine]
  simp [State.moveReply, hwait, first, hst]

/-! ### The hold of a route -/

/-- No route entry is valid: nothing changes group. -/
theorem State.routesCheck_invalid (h : ∀ e < 64, s.get Fld.RTE_RT_CTL_VALID e = 0) : s.routesCheck = s := by
  unfold State.routesCheck
  have idle : ∀ l : List Nat, (∀ e ∈ l, e < 64) → l.foldl (fun t e => State.routeCheck t e) s = s := by
    intro l
    induction l with
    | nil => exact fun _ => rfl
    | cons e l ih =>
      intro hl
      have kept : s.routeCheck e = s := if_pos (h e (hl e (by simp)))
      rw [List.foldl_cons, kept, ih fun x hx => hl x (by simp [hx])]
  exact idle _ fun e he => List.mem_range.mp he

/-- No stage queue is open: none loses its path. -/
theorem State.sqPaths_closed (h : ∀ q < 64, s.sqState q = 0) : s.sqPaths = s := by
  unfold State.sqPaths
  have idle : ∀ l : List Nat, (∀ q ∈ l, q < 64) →
      l.foldl (fun s q => if State.sqState s q ≠ 0 ∧ !State.sqReach s q then State.sqError s q 5 else s) s = s := by
    intro l
    induction l with
    | nil => exact fun _ => rfl
    | cons q l ih =>
      intro hl
      rw [List.foldl_cons, if_neg (by simp [h q (hl q (by simp))]), ih fun x hx => hl x (by simp [hx])]
  exact idle _ fun q hq => List.mem_range.mp hq

/-- Without waiting packets, open stage queues and valid entries the routes are as they were. -/
theorem State.routesChanged_idle (hwait : s.waiting = []) (hvalid : ∀ e < 64, s.get Fld.RTE_RT_CTL_VALID e = 0)
    (hclosed : ∀ q < 64, s.sqState q = 0) : s.routesChanged = s := by
  have dropped : s.dropDead = s := by
    unfold State.dropDead
    simp only [hwait, List.filter_nil, List.foldl_nil]
    rw [← hwait]
  have flushed : s.flushWaiting = s := by
    unfold State.flushWaiting
    simp only [hwait, List.foldl_nil]
    rw [← hwait]
  unfold State.routesChanged State.routesSettle
  rw [State.routesCheck_invalid hvalid, dropped, flushed, State.sqPaths_closed hclosed]

/-- The state in which the hold of entry `e` has ended. -/
def State.unhold (s : State) (e : Nat) : State :=
  ({ s with holds := s.holds.filter (fun x => x.1 != e) } : State).put Fld.RTE_RT_CTL_HOLDING 0 e

theorem execRouteHoldEnd_due {e : Nat} {h : Nat × Nat} (he : e < 64) (hfind : s.holds.find? (fun h => h.1 == e) = some h)
    (due : h.2 + s.reqTimeout ≤ s.now) : execRouteHoldEnd e s = .next (s.unhold e).routesChanged := by
  unfold execRouteHoldEnd onUnit
  rw [if_pos he, hfind]
  simp only [show ¬s.now < h.2 + s.reqTimeout by omega, if_false]
  rfl

theorem State.unhold_valid (s : State) (e i : Nat) : (s.unhold e).get Fld.RTE_RT_CTL_VALID i = s.get Fld.RTE_RT_CTL_VALID i := by
  unfold State.unhold
  rw [State.get_put_bits (by decide) (by decide) _ _ _ _ _ _ (by decide)]
  exact State.get_congr rfl _ _ _

theorem State.unhold_sqState (s : State) (e : Nat) {q : Nat} (hq : q < 64) : (s.unhold e).sqState q = s.sqState q := by
  unfold State.unhold State.sqState
  rw [State.get_put_key (by decide) (by decide) _ _ _ _ _ _ (by simp [Fld.key, regKey, Fld.TRV_SQ_STATE_STATE, Fld.RTE_RT_CTL_HOLDING]; omega)]
  exact State.get_congr rfl _ _ _

theorem requestsEnd : RequestsEnd := by
  intro s
  refine ⟨?_, ?_, ?_, ?_, ?_, ?_, ?_⟩
  · intro m p r hfind ht only owner
    rw [s.endpoint_reply m (by simp only [isReply]; obtain h | h := ht <;> simp [h]), State.takeReply_good hfind ht]
    unfold State.endRequest
    simp only [Req.find_tag hfind only, owner]
  · intro m _ p hreqs hlate ht _
    rw [s.endpoint_reply m (by simpa [isReply] using ht), State.takeReply_unknown (by simp [hreqs]) (by simp [hlate])]
    obtain ⟨mem, code, -⟩ := s.countViolation_effect m 6 (by decide)
    constructor
    · rw [State.dropPacket, State.bump, State.get_put_key (by decide) (by decide), code]
      simp [Fld.key, regKey, Fld.LNK_MOD_VIOL_LAST_CODE, Fld.PTR_PT_DROPPED_COUNT]
      omega
    · rw [State.dropPacket, State.bump_mem, mem]
  · intro m p hreq hlate ht
    rw [s.endpoint_reply m ht, State.takeReply_late hreq hlate]
    exact ⟨by rw [State.bump, State.put_frame], State.get_bump (by decide) _ _ _ _⟩
  · intro tag r d m hfind hdue late owner
    rw [exec_requestTimeout, execRequestTimeout_image hfind hdue late owner]
    rfl
  · intro tag r hfind hdue
    rw [exec_requestTimeout, execRequestTimeout_early hfind hdue]
  · intro tag r d k hfind hdue late owner hwait hfirst
    have fails : (s.timedOut tag).moveReply k tag stTimeout [] = (s.timedOut tag).endMove k stTimeout :=
      State.moveReply_fails hwait (by decide) hfirst
    refine ⟨(s.timedOut tag).endMove k stTimeout, ?_, ?_, ?_, ?_, rfl⟩
    · rw [exec_requestTimeout, execRequestTimeout_move hfind hdue late owner, fails]
    · unfold State.endMove State.move State.setMove
      rw [tget_tset_self]
      rfl
    · intro x hx
      simpa using (List.mem_filter.mp hx).2
    · exact List.mem_append_right _ (by simp)
  · intro e he h hfind due hwait hvalid hclosed
    have idle : (s.unhold e).routesChanged = s.unhold e := by
      refine State.routesChanged_idle ?_ (fun i hi => ?_) (fun q hq => ?_)
      · rw [State.unhold, State.put_waiting, hwait]
      · rw [s.unhold_valid, hvalid i hi]
      · rw [s.unhold_sqState e hq, hclosed q hq]
    refine ⟨_, by rw [exec_routeHoldEnd, execRouteHoldEnd_due he hfind due, idle], ?_, ?_, ?_⟩
    · exact State.get_put_one (by decide) _ _ _ _
    · intro x hx
      rw [State.unhold, State.put_holds] at hx
      simpa using (List.mem_filter.mp hx).2
    · rw [State.unhold, State.put_mods]

/-- Settles O57: each request is served by its type and answered on its route, and a request of this die ends where its requester waits. -/
theorem requestsAreAnsweredOrEnd : Obligations.RequestsAreAnsweredOrEnd := ⟨requestsAreAnswered, requestsEnd⟩

end Sys2Proof.Machine
end

section
/-! SUPPORT. An application that leaves its page staging (O15): the last staged word of the RTE page applies, and what follows from the new
routes writes the page's status word again. A packet that waits for a route without a module ends its request with "path down"; the
access whose request it was had made the first write after the zero writes of a frame, so that the accesses behind it go on; and one
of these ends with a translation fault, which is kept as the first fault of its domain (R29, R60, R266, R271). The state gives that
access a domain number outside the 256 domains, whose fault register is the word of the RTE page's `PAGE_STATUS`. -/

namespace Sys2Proof.Tests
open Sys2Proof Sys2Proof.Machine

/-- The domain whose `DOM_FAULT` has the key of the RTE page's `PAGE_STATUS`. -/
def strayDom : Nat := 249 * 2 ^ 18 - 1

/-- A read of 512 bytes of stack memory by dispatch, which waits behind the zero writes of frame 0 with its walk done. -/
def strayRead : MoveJob :=
  { MoveJob.none with w := opRead + 2 ^ 32 * 512, dom := strayDom, owner := .dispatch (.post 0 0), started := true, wait := .zero 0 0
                      walked := some (0, 0) }

/-- A write whose request has tag 5: the first one after the zero writes of frame 0. -/
def firstWrite : MoveJob := { MoveJob.none with started := true, wait := .reply 5 }

/-- A die in bring-up whose loader commits one word of the RTE page, with that write's packet waiting for a route. -/
def routeCommit : State :=
  let s := ((atPhase 5).setWord (regKey 0x102 0 0xC) 7).setWord (regKey 0x102 0 0x10) 4
  { s with
    staged := [(regKey 0x102 1 0, { val := 0, mask := 0 })]
    waiting := [{ entry := 0, key := 0, pkt := { pktOf 0x02 with tag := 5, src := s.sysId } }]
    reqs := [{ tag := 5, pkt := pktOf 0x02, owner := .move 0, due := none }]
    moves := [(0, firstWrite), (2048, strayRead)]
    zeroing := [{ frame := 0, waiters := [2048], left := 0, status := 0, scrub := false, first := some 0 }] }

theorem routeCommit_applies : routeCommit.commitBusy 0x102 = true ∧ routeCommit.stagedOf 0x102 1 ≠ [] ∧ routeCommit.safePoint 0x102 1 = true ∧
    ∀ e ∈ routeCommit.staged, e.1 / 2 ^ 32 = 0x102 → e ∈ routeCommit.stagedOf 0x102 1 := by decide +kernel

theorem routeCommit_stays : (nextOf (exec (.instanceApply 0x102 1) routeCommit)).stagedPending 0x102 = true := by decide +kernel

end Sys2Proof.Tests

namespace Sys2Proof.Machine

open Sys2Proof.Tests in
/-- Refutes O15: the last application of a page under COMMIT can leave `STAGED_PENDING` set, in a state that holds an access of a domain
that no register names; the other parts of the statement are not at issue. -/
theorem not_stagedWritesWaitForTheirCommit : ¬ Obligations.StagedWritesWaitForTheirCommit := by
  intro h
  obtain ⟨-, application, -⟩ := h.2 routeCommit
  obtain ⟨busy, mine, safe, all⟩ := routeCommit_applies
  obtain ⟨t, next, -, last⟩ := application 0x102 1 busy mine safe
  have ended : t.stagedPending 0x102 = false := (last all).2.1
  have stays := routeCommit_stays
  rw [next] at stays
  exact absurd (stays.symm.trans ended) (by decide)

end Sys2Proof.Machine
end

section
/-! SUPPORT. What role outcomes keep of a bring-up (O9): the stream and its sections, the die's position, which modules are boot links, and
the numbering of the cores. A module that leaves for its role drops and ends what waited on its routes, and that reaches moves, rounds,
stage queues and dispatch; each lemma below says of one operation there that it keeps all this, in the shape of the operation itself. -/

namespace Sys2Proof.Machine

/-! ### What is kept -/

/-- The cores are numbered without holes (R395): logical core `n` is physical core `n % 8` of its cluster, the ninth core is an available
spare, and no other core of a cluster is a spare. -/
structure Numbered (t : State) : Prop where
  phys : ∀ n < 64, t.get Fld.CORE_CORE_STATE_PHYS n = n % 8
  spare : ∀ c < 8, t.get Fld.CL_CL_STATUS_SPARE_AVAIL c = 1
  ninth : ∀ c < 8, t.get Fld.CL_CL_STATUS_SPARE_PHYS c = 8
  serves : ∀ c < 8, ∀ p < 8, t.get Fld.CL_PC_STATE_STATE (c * 9 + p) ≠ 1

/-- What a state of the bring-up has: its `boot` but for the retirements, its position in the package, its boot links, and perhaps numbered
cores. -/
structure Kept where
  boot : BootSt
  pos : Nat
  links : Nat → Bool
  numbered : Bool

/-- The state has all that `K` names. -/
structure Kept.Holds (K : Kept) (t : State) : Prop where
  boot : t.boot = { K.boot with retiring := t.boot.retiring }
  pos : t.get Fld.CLK_CLK_AON_DIEPOS = K.pos
  links : ∀ m, (t.mod m).boot = K.links m
  cores : K.numbered = true → Numbered t

variable {K : Kept} {s t : State}

/-- What the state has depends on the registers, on `boot` and on the modules alone: the other fields may take any value. -/
theorem Kept.Holds.same (h : K.Holds s)
    {pending staged ctl free ckFrac station bootNonce fuses irq evq hostMsgs reqs nextTag waiting pathDrops mem ecc fixups lastCe
     patrolFrom cores held touched gangs nextGang frames pages tables tlbs walkCache walks zeroing condemned moves nextMove moveLast
     chains stages queues items records classLast cadastre domWait laneBad modBad roled lateTags holds routeUp phi allowance shareW
     tight boostRun coolRun opMaxRun powers rails opTarget episodes epiUnread accounts memBudget linkBudget vcoreSet vsramSet vsramDue
     avs qspi svyMem svyCode svyTimes svyCause kickedAt chal refusals quoteDraft maAccess poolKept keySlot aon trims tap : _} :
    K.Holds { s with
      pending, staged, ctl, free, ckFrac, station, bootNonce, fuses, irq, evq, hostMsgs, reqs, nextTag, waiting, pathDrops, mem, ecc,
      fixups, lastCe, patrolFrom, cores, held, touched, gangs, nextGang, frames, pages, tables, tlbs, walkCache, walks, zeroing,
      condemned, moves, nextMove, moveLast, chains, stages, queues, items, records, classLast, cadastre, domWait, laneBad, modBad,
      roled, lateTags, holds, routeUp, phi, allowance, shareW, tight, boostRun, coolRun, opMaxRun, powers, rails, opTarget, episodes,
      epiUnread, accounts, memBudget, linkBudget, vcoreSet, vsramSet, vsramDue, avs, qspi, svyMem, svyCode, svyTimes, svyCause,
      kickedAt, chal, refusals, quoteDraft, maAccess, poolKept, keySlot, aon, trims, tap } where
  boot := h.boot
  pos := h.pos
  links := h.links
  cores n := ⟨(h.cores n).phys, (h.cores n).spare, (h.cores n).ninth, (h.cores n).serves⟩

/-- The registers alone decide whether the cores are numbered. -/
theorem Numbered.congr (h : Numbered s) (hr : t.regs = s.regs) : Numbered t where
  phys n hn := (State.get_congr hr _ _ _).trans (h.phys n hn)
  spare c hc := (State.get_congr hr _ _ _).trans (h.spare c hc)
  ninth c hc := (State.get_congr hr _ _ _).trans (h.ninth c hc)
  serves c hc p hp := fun e => h.serves c hc p hp ((State.get_congr hr _ _ _).symm.trans e)

/-! ### Branches and folds -/

theorem Kept.Holds.ite {c : Prop} [Decidable c] (hs : K.Holds s) (ht : K.Holds t) : K.Holds (if c then s else t) := by
  split
  · exact hs
  · exact ht

/-- A branch whose answer carries a state in its part `π`. -/
theorem Kept.Holds.ite_of {σ : Type} (π : σ → State) {c : Prop} [Decidable c] {a b : σ} (ha : K.Holds (π a)) (hb : K.Holds (π b)) :
    K.Holds (π (if c then a else b)) := by
  split
  · exact ha
  · exact hb

/-- A fold whose accumulator carries a state in its part `π`. -/
theorem Kept.Holds.foldl_of {σ α : Type} (π : σ → State) {f : σ → α → σ} {l : List α} {a : σ} (ha : K.Holds (π a))
    (hf : ∀ {a x}, x ∈ l → K.Holds (π a) → K.Holds (π (f a x))) : K.Holds (π (l.foldl f a)) := by
  induction l generalizing a with
  | nil => exact ha
  | cons x l ih => exact ih (hf (by simp) ha) fun hx => hf (by simp [hx])

theorem Kept.Holds.foldl {α : Type} {f : State → α → State} {l : List α} (h : K.Holds s)
    (hf : ∀ {s x}, x ∈ l → K.Holds s → K.Holds (f s x)) : K.Holds (l.foldl f s) := .foldl_of id h hf

/-- The state that a case distinction names is the one that was computed. -/
theorem Kept.Holds.of_eq {β : Type} {p : State × β} {x : β} (h : K.Holds p.1) (e : p = (t, x)) : K.Holds t := by
  subst e
  exact h

/-! ### Register words -/

theorem posKey : Fld.CLK_CLK_AON_DIEPOS.key 0 0 = 3 * 2 ^ 32 + 0x104 := by decide

theorem physKey (n : Nat) : Fld.CORE_CORE_STATE_PHYS.key n 0 = (64 + n) * 2 ^ 32 + 0x100 := by
  simp [Fld.key, regKey, Fld.CORE_CORE_STATE_PHYS]

theorem coreStateKey (n : Nat) : Fld.CORE_CORE_STATE_STATE.key n 0 = (64 + n) * 2 ^ 32 + 0x100 := by
  simp [Fld.key, regKey, Fld.CORE_CORE_STATE_STATE]

theorem spareKey (c : Nat) : Fld.CL_CL_STATUS_SPARE_AVAIL.key c 0 = (16 + c) * 2 ^ 32 + 0x108 := by
  simp [Fld.key, regKey, Fld.CL_CL_STATUS_SPARE_AVAIL]

theorem ninthKey (c : Nat) : Fld.CL_CL_STATUS_SPARE_PHYS.key c 0 = (16 + c) * 2 ^ 32 + 0x108 := by
  simp [Fld.key, regKey, Fld.CL_CL_STATUS_SPARE_PHYS]

theorem holesKey (c : Nat) : Fld.CL_CL_STATUS_HOLES.key c 0 = (16 + c) * 2 ^ 32 + 0x108 := by
  simp [Fld.key, regKey, Fld.CL_CL_STATUS_HOLES]

theorem pcKey {c p : Nat} (hp : p < 9) : Fld.CL_PC_STATE_STATE.key (c * 9 + p) 0 = (16 + c) * 2 ^ 32 + (p + 1) * 2 ^ 14 := by
  have hdiv : (c * 9 + p) / 9 = c := by omega
  have hmod : (c * 9 + p) % 9 = p := by omega
  simp [Fld.key, regKey, Fld.CL_PC_STATE_STATE, hdiv, hmod]

/-- The words that show a core's physical core, a cluster's spare, a physical core's state, or the die's position stand at these offsets of
the pages 3, 0x10-0x17 and 0x40-0x7F, or at the start of their windows. -/
def shown (k : Nat) : Bool :=
  (k / 2 ^ 32 == 3 || (decide (0x10 ≤ k / 2 ^ 32) && decide (k / 2 ^ 32 < 0x80))) &&
    (k % 2 ^ 14 == 0 || k % 2 ^ 14 == 0x100 || k % 2 ^ 14 == 0x104 || k % 2 ^ 14 == 0x108)

theorem posKey_shown : shown (Fld.CLK_CLK_AON_DIEPOS.key 0 0) = true := by decide

theorem physKey_shown {n : Nat} (hn : n < 64) : shown (Fld.CORE_CORE_STATE_PHYS.key n 0) = true := by
  rw [physKey]
  simp [shown]
  omega

theorem spareKey_shown {c : Nat} (hc : c < 8) : shown (Fld.CL_CL_STATUS_SPARE_AVAIL.key c 0) = true := by
  rw [spareKey]
  simp [shown]
  omega

theorem pcKey_shown {c p : Nat} (hc : c < 8) (hp : p < 9) : shown (Fld.CL_PC_STATE_STATE.key (c * 9 + p) 0) = true := by
  rw [pcKey hp]
  simp [shown]
  omega

/-- A write of a word that shows none of this leaves the numbering alone. -/
theorem Numbered.setWord (h : Numbered s) {k : Nat} (hk : shown k = false) (v : BitVec 32) : Numbered (s.setWord k v) := by
  have ne {j : Nat} (hj : shown j = true) : j ≠ k := by
    rintro rfl
    simp [hj] at hk
  have get {f : Fld} (hf : f.one) (i e : Nat) (hj : shown (f.key i e) = true) : (s.setWord k v).get f i e = s.get f i e := by
    rw [State.get_one hf, State.get_one hf, State.word_setWord_ne s (ne hj)]
  constructor
  · intro n hn
    rw [get (by decide) _ _ (physKey_shown hn), h.phys n hn]
  · intro c hc
    rw [get (by decide) _ _ (spareKey_shown hc), h.spare c hc]
  · intro c hc
    have key : shown (Fld.CL_CL_STATUS_SPARE_PHYS.key c 0) = true := spareKey_shown hc
    rw [get (by decide) _ _ key, h.ninth c hc]
  · intro c hc p hp
    rw [get (by decide) _ _ (pcKey_shown hc (by omega))]
    exact h.serves c hc p hp

/-- A word write that leaves the position and the numbering alone keeps everything. -/
theorem Kept.Holds.write (h : K.Holds s) {k : Nat} {v : BitVec 32} (hpos : k ≠ Fld.CLK_CLK_AON_DIEPOS.key 0 0)
    (hcores : K.numbered = true → Numbered (s.setWord k v)) : K.Holds (s.setWord k v) where
  boot := by rw [State.setWord_boot]; exact h.boot
  pos := by
    rw [State.get_one (by decide), State.word_setWord_ne s (Ne.symm hpos), ← State.get_one (by decide)]
    exact h.pos
  links m := by
    unfold State.mod
    rw [State.setWord_mods]
    exact h.links m
  cores := hcores

theorem Kept.Holds.setWord (h : K.Holds s) {k : Nat} {v : BitVec 32} (hk : shown k = false) : K.Holds (s.setWord k v) := by
  refine h.write ?_ fun n => (h.cores n).setWord hk v
  rintro rfl
  rw [posKey_shown] at hk
  exact absurd hk (by decide)

/-- A write of the low bits of a word leaves the numbering alone: the words that show it have it in other bits, but for the state of a
physical core, which is written as no spare's. -/
theorem Numbered.setLow (h : Numbered s) {k len v : Nat} (hlow : 3 ≤ len) (hhigh : len ≤ 8) (hv : v % 8 ≠ 1 ∨ k % 2 ^ 14 ≠ 0) :
    Numbered (s.setWord k (BitVec.ofNat 32 (bitsPut (s.word k).toNat 0 len v))) := by
  have high {f : Fld} (hf : f.one) (hlo : 8 ≤ f.lo) (i e : Nat) :
      (s.setWord k (BitVec.ofNat 32 (bitsPut (s.word k).toNat 0 len v))).get f i e = s.get f i e := by
    rw [State.get_one hf, State.get_one hf, State.word_setWord]
    split
    · next hk => rw [BitVec.toNat_ofNat, bitsAt_mod _ _ _ _ hf, bitsAt_bitsPut_high _ _ _ _ _ _ (by omega), hk]
    · rfl
  constructor
  · intro n hn
    rw [high (by decide) (by decide), h.phys n hn]
  · intro c hc
    rw [high (by decide) (by decide), h.spare c hc]
  · intro c hc
    rw [high (by decide) (by decide), h.ninth c hc]
  · intro c hc p hp
    have serves := h.serves c hc p hp
    rw [State.get_one (by decide)] at serves ⊢
    rw [State.word_setWord]
    split
    · next hk =>
      have low : v % 8 ≠ 1 := hv.resolve_right fun hne => hne (by
        rw [← hk]
        simp [Fld.key, regKey, Fld.CL_PC_STATE_STATE]
        omega)
      rw [BitVec.toNat_ofNat, bitsAt_mod _ _ _ _ (by decide)]
      have three : bitsAt (bitsPut (s.word k).toNat 0 len v) 0 3 = v % 8 := by
        have whole := bitsAt_bitsPut_self (s.word k).toNat 0 len v
        have cut : bitsAt (bitsPut (s.word k).toNat 0 len v) 0 3 = bitsAt (bitsPut (s.word k).toNat 0 len v) 0 len % 2 ^ 3 := by
          simp only [bitsAt, pow_zero, Nat.div_one]
          rw [Nat.mod_mod_of_dvd _ (pow_dvd_pow 2 hlow)]
        exact cut.trans ((congrArg (· % 2 ^ 3) whole).trans (Nat.mod_mod_of_dvd v (pow_dvd_pow 2 hlow)))
      exact fun e => low (three.symm.trans e)
    · exact serves

theorem Kept.Holds.setLow (h : K.Holds s) {k len v : Nat} (hlow : 3 ≤ len) (hhigh : len ≤ 8) (hv : v % 8 ≠ 1 ∨ k % 2 ^ 14 ≠ 0)
    (hpos : k ≠ Fld.CLK_CLK_AON_DIEPOS.key 0 0) : K.Holds (s.setWord k (BitVec.ofNat 32 (bitsPut (s.word k).toNat 0 len v))) :=
  h.write hpos fun n => (h.cores n).setLow hlow hhigh hv

/-! ### Register fields -/

/-- The words of field `f` of unit `i` and element `e` show none of what is kept. -/
def Fld.Hidden (f : Fld) (i e : Nat) : Prop := shown (f.key i e) = false ∧ (f.one ∨ shown (f.key i e + 4) = false)

/-- The field's words show none of what is kept, whatever its unit: by their page, or by their place on it. -/
def Fld.hidden (f : Fld) : Bool :=
  let place (o : Nat) : Bool := !(o % 2 ^ 14 == 0 || o % 2 ^ 14 == 0x100 || o % 2 ^ 14 == 0x104 || o % 2 ^ 14 == 0x108)
  (place f.off && (decide f.one || place (f.off + 4))) ||
    (!f.win && f.page != 3 && (decide (f.page < 0x10) || decide (0x80 ≤ f.page)) && decide (f.off + 4 < 2 ^ 32))

theorem Fld.key_zero (f : Fld) (i : Nat) : ∃ page inst, f.key i 0 = page * 2 ^ 32 + inst * 2 ^ 14 + f.off ∧
    (f.win = false → f.page ≠ 0x10 → f.page ≠ 0x40 → page = f.page ∧ inst = 0) := by
  unfold Fld.key regKey
  rw [Nat.zero_mul, Nat.add_zero]
  refine ⟨_, _, Eq.refl _, ?_⟩
  intro hwin h10 h40
  simp [hwin, h10, h40]

theorem Fld.hidden_unit {f : Fld} (h : f.hidden = true) (i : Nat) : f.Hidden i 0 := by
  obtain ⟨page, inst, key, fixed⟩ := f.key_zero i
  unfold Fld.Hidden
  rw [key]
  simp only [Fld.hidden, Bool.or_eq_true, Bool.and_eq_true, Bool.not_eq_true', Bool.or_eq_false_iff, beq_eq_false_iff_ne, decide_eq_true_eq,
    bne_iff_ne] at h
  simp only [shown, Bool.and_eq_false_iff, Bool.or_eq_false_iff, beq_eq_false_iff_ne, decide_eq_false_iff_not]
  obtain ⟨place, next⟩ | ⟨⟨⟨hwin, h3⟩, hpage⟩, hoff⟩ := h
  · refine ⟨.inr (by omega), next.imp id fun n => .inr (by omega)⟩
  · obtain ⟨rfl, rfl⟩ := fixed (by simpa using hwin) (by omega) (by omega)
    exact ⟨.inl (by omega), .inr (.inl (by omega))⟩

theorem Kept.Holds.putAt (h : K.Holds s) {f : Fld} {v i e : Nat} (hf : f.Hidden i e) : K.Holds (s.put f v i e) := by
  obtain ⟨hkey, hnext⟩ := hf
  unfold State.put
  extract_lets k w
  split
  · exact h.setWord hkey
  · next two => exact (h.setWord hkey).setWord (hnext.resolve_left two)

/-- A field that shows nothing of what is kept, whatever its unit. -/
theorem Kept.Holds.put (h : K.Holds s) {f : Fld} {v i : Nat} (hf : f.hidden = true := by decide) : K.Holds (s.put f v i) :=
  h.putAt (Fld.hidden_unit hf i)

theorem Kept.Holds.bump (h : K.Holds s) {f : Fld} {n i : Nat} (hf : f.hidden = true := by decide) : K.Holds (s.bump f n i) := h.put hf

theorem Kept.Holds.count (h : K.Holds s) {f : Fld} {n i : Nat} (hf : f.hidden = true := by decide) : K.Holds (s.count f n i) := h.put hf

/-- The states of a core, which stand beside its physical core. -/
theorem Kept.Holds.putCoreState (h : K.Holds s) {v n : Nat} : K.Holds (s.put Fld.CORE_CORE_STATE_STATE v n) := by
  rw [State.put_one (by decide)]
  refine h.setLow (by decide) (by decide) (.inr ?_) ?_
  · rw [coreStateKey]; omega
  · rw [coreStateKey, posKey]; omega

/-- The holes of a cluster, which stand beside its spare. -/
theorem Kept.Holds.putHoles (h : K.Holds s) {v c : Nat} : K.Holds (s.put Fld.CL_CL_STATUS_HOLES v c) := by
  rw [State.put_one (by decide)]
  refine h.setLow (by decide) (by decide) (.inr ?_) ?_
  · rw [holesKey]; omega
  · rw [holesKey, posKey]; omega

/-- The state of a physical core that becomes no spare. -/
theorem Kept.Holds.putPcState (h : K.Holds s) {v i : Nat} (hv : v % 8 ≠ 1) : K.Holds (s.put Fld.CL_PC_STATE_STATE v i) := by
  have key : Fld.CL_PC_STATE_STATE.key i 0 = (16 + i / 9) * 4294967296 + (i % 9 + 1) * 16384 := by
    simp [Fld.key, regKey, Fld.CL_PC_STATE_STATE]
  rw [State.put_one (by decide)]
  refine h.setLow (by decide) (by decide) (.inl hv) ?_
  rw [key, show Fld.CLK_CLK_AON_DIEPOS.key 0 0 = 12884902148 by decide]; omega

/-- Before the cores are numbered any other field may change. -/
theorem Kept.Holds.putFree (h : K.Holds s) (hK : K.numbered = false) {f : Fld} {v i e : Nat} (hf : f.one)
    (hpos : f.key i e ≠ Fld.CLK_CLK_AON_DIEPOS.key 0 0) : K.Holds (s.put f v i e) := by
  rw [State.put_one hf]
  exact h.write hpos fun n => absurd (hK.symm.trans n) (by decide)

end Sys2Proof.Machine
end

section
/-! SUPPORT. Reports, accesses to memory and the errors that they find keep what a bring-up has (O9). -/

namespace Sys2Proof.Machine

variable {K : Kept} {s t : State}

/-! ### Packets that leave -/

theorem Kept.Holds.stamp (h : K.Holds s) : K.Holds s.stamp := by
  unfold State.stamp
  exact h.same

/-- A module that stays a boot link, or stays none. -/
theorem Kept.Holds.setMod (h : K.Holds s) {m : Nat} {x : ModSt} (hx : x.boot = K.links m) : K.Holds (s.setMod m x) where
  boot := h.boot
  pos := (State.get_congr (State.setMod_regs s m x) _ _ _).trans h.pos
  links j := by
    unfold State.mod
    rw [State.setMod_eq, tget_tset]
    split
    · next hj => rw [hx, hj]
    · exact h.links j
  cores n := (h.cores n).congr (State.setMod_regs s m x)

theorem Kept.Holds.flushWaiting (h : K.Holds s) : K.Holds s.flushWaiting :=
  State.flushWaiting_induct (fun _ h => h.same) (fun m _ h => h.setMod (h.links m)) h

theorem Kept.Holds.markSent (h : K.Holds s) {l : List Packet} : K.Holds (s.markSent l) := by
  unfold State.markSent
  exact h.same

theorem Kept.Holds.sendOn (h : K.Holds s) {p : Packet} : K.Holds (s.sendOn p) := by
  unfold State.sendOn
  exact .ite h.same.flushWaiting (.ite h.same h)

theorem Kept.Holds.send (h : K.Holds s) {p : Packet} : K.Holds (s.send p) := by
  unfold State.send
  exact h.sendOn

theorem Kept.Holds.request (h : K.Holds s) {p : Packet} {o : ReqOwner} : K.Holds (s.request p o) := by
  unfold State.request
  exact .ite h.same.sendOn h.same.sendOn.markSent

/-! ### Field notes and page events -/

/-- The words of the field notes ring. -/
theorem fn_hidden {e : Nat} (he : e < 2048) : Fld.ERR_FN.Hidden 0 e := by
  have key : Fld.ERR_FN.key 0 e = 5 * 4294967296 + (8192 + e * 4) := by simp [Fld.key, regKey, Fld.ERR_FN]
  refine ⟨?_, .inl (by decide)⟩
  rw [key]
  simp [shown]
  omega

theorem fit_length_le (b : Bytes) (n : Nat) : (fit b n).length ≤ n := by
  simp [fit]

theorem Kept.Holds.putNote (h : K.Holds s) {n : Note} : K.Holds (s.putNote n).1 := by
  unfold State.putNote
  extract_lets s1 raw wp full s2 s3 s4 s5
  have hraw : raw.length ≤ 64 := by
    have body := fit_length_le n.body 40
    have long := fit_length_le n.tail 16
    have short := fit_length_le n.tail 8
    show (_ ++ _ ++ _ : Bytes).length ≤ 64
    simp only [List.length_append, List.length_set, length_leBytes]
    split
    · omega
    · rw [List.length_append, length_leBytes]
      omega
  have hs2 : K.Holds s2 := .ite h.stamp.count.bump h.stamp
  have hs3 : K.Holds s3 := .foldl hs2 fun {_ j} hj h => h.putAt (fn_hidden (by have := List.mem_range.mp hj; omega))
  have hs4 : K.Holds s4 := hs3.count
  have hs5 : K.Holds s5 := .ite hs4.send hs4
  exact hs5

theorem Kept.Holds.waitEvent (h : K.Holds s) {r : EvRec} : K.Holds (s.waitEvent r) := by
  unfold State.waitEvent
  exact .ite h.same h.bump

theorem Kept.Holds.raiseIrq (h : K.Holds s) {page : Nat} : K.Holds (s.raiseIrq page) := by
  unfold State.raiseIrq
  exact .ite h h.same

theorem Kept.Holds.signalPlain (h : K.Holds s) {page inst dest : Nat} : K.Holds (s.signalPlain page inst dest) := by
  unfold State.signalPlain
  extract_lets s1 s2
  have hs1 : K.Holds s1 := .ite h.waitEvent h
  have hs2 : K.Holds s2 := .ite hs1.raiseIrq hs1
  exact .ite hs2.same hs2

theorem Kept.Holds.orEvent (h : K.Holds s) {page bits : Nat} : K.Holds (s.orEvent page bits).1 := by
  unfold State.orEvent
  refine h.setWord ?_
  simp [shown, pageEvent, regKey]
  omega

theorem Kept.Holds.noteOnly (h : K.Holds s) {n : Note} : K.Holds (s.noteOnly n) := by
  unfold State.noteOnly
  exact .ite h.putNote.orEvent h.putNote

theorem Kept.Holds.noteLost (h : K.Holds s) : K.Holds s.noteLost := by
  unfold State.noteLost
  exact .ite (.ite h.orEvent.signalPlain.noteOnly h.orEvent.signalPlain) h.orEvent

theorem Kept.Holds.note (h : K.Holds s) {n : Note} : K.Holds (s.note n) := by
  unfold State.note
  exact .ite h.putNote.noteLost h.putNote

theorem Kept.Holds.signal (h : K.Holds s) {page inst dest : Nat} : K.Holds (s.signal page inst dest) := by
  unfold State.signal
  exact .ite h.signalPlain.note h.signalPlain

theorem Kept.Holds.raise (h : K.Holds s) {page bits inst : Nat} : K.Holds (s.raise page bits inst) := by
  unfold State.raise
  exact .ite (Kept.Holds.ite h.orEvent.signal h.orEvent).signal (.ite h.orEvent.signal h.orEvent)

theorem Kept.Holds.event (h : K.Holds s) {f : Fld} {u inst : Nat} : K.Holds (s.event f u inst) := by
  unfold State.event
  exact h.raise

/-! ### Granules -/

theorem Kept.Holds.releaseRegion (h : K.Holds s) {u g : Nat} : K.Holds (s.releaseRegion u g) := by
  unfold State.releaseRegion
  refine .foldl h fun {t i} _ h => ?_
  unfold State.setGran State.gran
  refine h.setLow (by decide) (by decide) (.inl (by decide)) ?_
  rw [show Fld.CLK_CLK_AON_DIEPOS.key 0 0 = 12884902148 by decide]
  unfold granKey
  split
  · simp [Fld.key, regKey, Fld.CORE_CM_GRAN_STATE]; omega
  · simp [Fld.key, regKey, Fld.FLD_SL_GRAN_WORD]; omega

/-- A granule of core memory. -/
theorem Kept.Holds.setCoreGran (h : K.Holds s) {n g w : Nat} (hn : n < 64) (hg : g < 64) : K.Holds (s.setGran n g w) := by
  unfold State.setGran
  refine h.setWord ?_
  have key : granKey n g = (64 + n) * 4294967296 + (1024 + g * 4) := by simp [granKey, hn, Fld.key, regKey, Fld.CORE_CM_GRAN_STATE]
  rw [key]
  simp [shown]
  omega

/-! ### Errors in memory -/

theorem Kept.Holds.apertureRefused (h : K.Holds s) {addr : Nat} : K.Holds (s.apertureRefused addr) := by
  unfold State.apertureRefused
  exact .ite h.raise h

theorem Kept.Holds.aperture (h : K.Holds s) {addr : Nat} : K.Holds (s.aperture addr).1 := by
  unfold State.aperture
  exact .ite_of Prod.fst h.apertureRefused (h.bump (f := Fld.ERR_ERR_UNPOP_COUNT))

theorem Kept.Holds.setFlips (h : K.Holds s) {k n : Nat} : K.Holds (s.setFlips k n) := by
  unfold State.setFlips
  exact h.same

theorem Kept.Holds.noteCe (h : K.Holds s) {w : Who} {unit cls loc off : Nat} : K.Holds (s.noteCe w unit cls loc off) := by
  unfold State.noteCe
  extract_lets fresh
  split
  · exact h.note.same
  · exact .ite (h.putAt (fn_hidden (by omega))) h.note.same

/-- The words of the plat's lists. -/
theorem plat_hidden {f : Fld} (hf : f = Fld.PLAT_PLAT_NEW_ENTRY ∨ f = Fld.PLAT_PLAT_RET_ENTRY ∨ f = Fld.PLAT_PLAT_FIELD_ENTRY) {e : Nat}
    (he : e < 257) : f.Hidden 0 e := by
  obtain rfl | rfl | rfl := hf
  all_goals
    refine ⟨?_, .inl (by decide)⟩
    simp [shown, Fld.key, regKey, Fld.PLAT_PLAT_NEW_ENTRY, Fld.PLAT_PLAT_RET_ENTRY, Fld.PLAT_PLAT_FIELD_ENTRY]
    omega

theorem Kept.Holds.platAdd (h : K.Holds s) {e : Nat} : K.Holds (s.platAdd e) := by
  unfold State.platAdd
  extract_lets n r
  split
  · next room =>
    have new : Fld.PLAT_PLAT_NEW_ENTRY.Hidden 0 n := plat_hidden (.inl rfl) (by omega)
    have kept : Fld.PLAT_PLAT_RET_ENTRY.Hidden 0 r := plat_hidden (.inr (.inl rfl)) (by omega)
    exact ((h.putAt new).put.putAt kept).put.event
  · exact h.event

theorem Kept.Holds.retiring (h : K.Holds s) {n phys trig : Nat} : K.Holds (s.retiring n phys trig) where
  boot := by
    unfold State.retiring
    dsimp only
    rw [h.boot]
  pos := h.pos
  links := h.links
  cores n := (h.cores n).congr rfl

theorem Kept.Holds.retired (h : K.Holds s) {n : Nat} : K.Holds (s.retired n) where
  boot := by
    unfold State.retired
    dsimp only
    rw [h.boot]
  pos := h.pos
  links := h.links
  cores n := (h.cores n).congr rfl

theorem Kept.Holds.scrubCore (h : K.Holds s) {n : Nat} : K.Holds (s.scrubCore n) := by
  unfold State.scrubCore
  extract_lets out
  exact h.same

theorem Kept.Holds.makeHole (h : K.Holds s) {n phys trig : Nat} {rec : State → State} (hn : n < 64)
    (hrec : ∀ {t : State}, K.Holds t → K.Holds (rec t)) : K.Holds (s.makeHole n phys trig rec) := by
  unfold State.makeHole
  exact (hrec (Kept.Holds.foldl h.scrubCore.putHoles fun hg h => h.setCoreGran hn (List.mem_range.mp hg)).putCoreState.event).note

theorem Kept.Holds.recoveryFailed (h : K.Holds s) {cl phys : Nat} {seen rec : State → State} (hcl : cl < 8)
    (hseen : ∀ {t : State}, K.Holds t → K.Holds (seen t)) (hrec : ∀ {t : State}, K.Holds t → K.Holds (rec t)) :
    K.Holds (s.recoveryFailed cl phys seen rec) := by
  unfold State.recoveryFailed
  extract_lets i n
  have hn : n < 64 := by
    have logical : s.get Fld.CL_PC_STATE_LOGICAL i < 2 ^ 3 := State.get_lt (by decide) s i 0
    omega
  exact (hseen (h.putPcState (by decide)).platAdd).retired.makeHole hn hrec

/-- A trigger for a core that is no spare takes no spare away (R398). -/
theorem Kept.Holds.retireTrigger (h : K.Holds s) {cl phys trig : Nat} {seen rec : State → State} (hcl : cl < 8)
    (hphys : K.numbered = true → phys < 8) (hseen : ∀ {t : State}, K.Holds t → K.Holds (seen t))
    (hrec : ∀ {t : State}, K.Holds t → K.Holds (rec t)) : K.Holds (s.retireTrigger cl phys trig seen rec) := by
  unfold State.retireTrigger
  extract_lets i
  split
  · exact (hrec (hseen (h.putPcState (by decide)).putCoreState.retiring.platAdd).event).note
  · next spare =>
    have hK : K.numbered = false := by
      by_contra numbered
      rw [Bool.not_eq_false] at numbered
      exact (h.cores numbered).serves cl hcl phys (hphys numbered) spare
    have hs : K.Holds (((s.put Fld.CL_PC_STATE_STATE 5 i).put Fld.CL_CL_STATUS_SPARE_AVAIL 0 cl).put Fld.CL_CL_STATUS_SPARE_PHYS 0xF cl) :=
      ((h.putPcState (by decide)).putFree hK (by decide) (by simp [Fld.key, regKey, Fld.CL_CL_STATUS_SPARE_AVAIL, Fld.CLK_CLK_AON_DIEPOS]; omega)).putFree
        hK (by decide) (by simp [Fld.key, regKey, Fld.CL_CL_STATUS_SPARE_PHYS, Fld.CLK_CLK_AON_DIEPOS]; omega)
    exact (hrec (hseen hs.platAdd).event).note
  · exact h.recoveryFailed hcl hseen hrec
  · exact hrec (hseen h)

theorem Kept.Holds.countCore (h : K.Holds s) {n : Nat} {ue : Bool} {seen rec : State → State} (hn : n < 64)
    (hseen : ∀ {t : State}, K.Holds t → K.Holds (seen t)) (hrec : ∀ {t : State}, K.Holds t → K.Holds (rec t)) :
    K.Holds (s.countCore n ue seen rec) := by
  unfold State.countCore
  extract_lets i cl s1 limit have_
  have hs1 : K.Holds s1 := .ite h.bump h.bump
  refine .ite (hs1.retireTrigger (by omega) (fun numbered => ?_) hseen hrec) (hrec (hseen hs1))
  have phys := (h.cores numbered).phys n hn
  simp only [i, State.physIdx, phys]
  omega

theorem Kept.Holds.coreError (h : K.Holds s) {w : Who} {n off cls : Nat} {opbuf ue : Bool} (hn : n < 64) :
    K.Holds (s.coreError w n off cls opbuf ue) := by
  unfold State.coreError
  extract_lets +onlyGivenNames unit
  refine .ite ?_ (h.bump.countCore hn (fun h => h) (fun h => h.noteCe))
  exact (Kept.Holds.ite h.bump h.bump.put.put.put).countCore hn (fun h => h.event) (fun h => h.note)

theorem Kept.Holds.sliceError (h : K.Holds s) {w : Who} {sl off cls : Nat} {ue : Bool} : K.Holds (s.sliceError w sl off cls ue) := by
  unfold State.sliceError
  refine .ite ?_ (Kept.Holds.ite h.bump.event h.bump).noteCe
  exact (Kept.Holds.ite h.bump h.bump.put.put.put).event.event.note

theorem Kept.Holds.memError (h : K.Holds s) {w : Who} {addr : Nat} {ue : Bool} : K.Holds (s.memError w addr ue) := by
  unfold State.memError
  split
  · exact h
  · extract_lets cls
    split
    · next hu => exact h.coreError hu
    · exact h.sliceError

/-! ### Reads and writes -/

theorem Kept.Holds.readUnit (h : K.Holds s) {w : Who} {word : Nat} : K.Holds (s.readUnit w word).state := by
  unfold State.readUnit
  extract_lets +onlyGivenNames u n fix addr ce
  refine .ite_of UnitRead.state h ?_
  refine .ite_of UnitRead.state h.memError.same ?_
  refine .ite_of UnitRead.state h.memError ?_
  exact .ite_of UnitRead.state h.same.memError.same (.ite_of UnitRead.state h.same h.same.memError)

theorem Kept.Holds.storeBytes (h : K.Holds s) {addr : Nat} {b : Bytes} : K.Holds (s.storeBytes addr b) := by
  unfold State.storeBytes
  exact h.same

theorem Kept.Holds.spoilUnit (hs : K.Holds s) {h : Nat} : K.Holds (s.spoilUnit h) := by
  unfold State.spoilUnit
  exact hs.storeBytes.same

theorem Kept.Holds.unitStep {a : State × Nat × List Nat} (hs : K.Holds a.1) {w : Who} {skip : State → Nat → Bool} {h : Nat} :
    K.Holds (State.unitStep w skip a h).1 := by
  unfold State.unitStep
  exact .ite_of Prod.fst hs hs.readUnit

theorem Kept.Holds.decodeUnits (h : K.Holds s) {w : Who} {words : List Nat} : K.Holds (s.decodeUnits w words).1 := by
  unfold State.decodeUnits
  exact .foldl_of Prod.fst h fun _ h => h.unitStep

theorem Kept.Holds.drew (h : K.Holds s) {bad : List Nat} : K.Holds (s.drew bad) := by
  unfold State.drew
  exact .ite h h.same

theorem Kept.Holds.decodeLine (h : K.Holds s) {w : Who} {addr n : Nat} : K.Holds (s.decodeLine w addr n).state := by
  unfold State.decodeLine
  exact .ite_of Rd.state h.decodeUnits h.decodeUnits.drew

theorem Kept.Holds.rd (h : K.Holds s) {st : Nat} {b : Bytes} : K.Holds (Rd.mk s st b).state := h

theorem Kept.Holds.readLine (h : K.Holds s) {w : Who} {addr n : Nat} : K.Holds (s.readLine w addr n).state := by
  unfold State.readLine
  exact .ite_of Rd.state h.aperture.rd (.ite_of Rd.state h.rd h.decodeLine)

theorem Kept.Holds.readMem (h : K.Holds s) {w : Who} {addr n : Nat} : K.Holds (s.readMem w addr n).state := by
  unfold State.readMem
  exact .foldl_of Rd.state h fun _ h => .ite_of Rd.state h h.readLine

theorem Kept.Holds.openUnits (h : K.Holds s) {w : Who} {words : List Nat} {covers : Nat → Bool} :
    K.Holds (s.openUnits w words covers).1 := by
  unfold State.openUnits
  extract_lets +onlyGivenNames heads r
  have hr : K.Holds r.1 := .foldl_of Prod.fst h fun _ h => h.unitStep
  refine .ite_of Prod.fst hr ?_
  exact .foldl (.foldl hr fun _ h => (Kept.Holds.foldl h fun _ h => h.setFlips).same) fun _ h => h.spoilUnit

theorem Kept.Holds.writeLine (h : K.Holds s) {w : Who} {addr : Nat} {b : Bytes} : K.Holds (s.writeLine w addr b).1 := by
  unfold State.writeLine
  exact .ite_of Prod.fst h.aperture (.ite_of Prod.fst h (.ite_of Prod.fst h.openUnits h.openUnits.storeBytes))

theorem Kept.Holds.writeMem (h : K.Holds s) {w : Who} {addr : Nat} {b : Bytes} : K.Holds (s.writeMem w addr b).1 := by
  unfold State.writeMem
  exact .foldl_of Prod.fst h fun _ h => .ite_of Prod.fst h h.writeLine

end Sys2Proof.Machine
end

section
/-! SUPPORT. Kernels that stop, rounds that fail and stage queues that lose their path keep what a bring-up has (O9). -/

namespace Sys2Proof.Machine

variable {K : Kept} {s t : State}

theorem Kept.Holds.setChain (h : K.Holds s) {ch : Nat} {c : Chain} : K.Holds (s.setChain ch c) := by
  unfold State.setChain
  exact h.same

theorem Kept.Holds.closeRound (h : K.Holds s) {ch st : Nat} : K.Holds (s.closeRound ch st) := by
  unfold State.closeRound
  exact .ite h.setChain.put.put.put.put.count h.setChain.put.put.put.put.count.put.event

theorem Kept.Holds.sendAborts (h : K.Holds s) {ch st : Nat} : K.Holds (s.sendAborts ch st) := by
  unfold State.sendAborts
  split
  · exact h
  · exact .ite h h.send.send

theorem Kept.Holds.dropScales (h : K.Holds s) {gang : Nat} : K.Holds (s.dropScales gang) := by
  unfold State.dropScales
  exact h.same

theorem Kept.Holds.forgetKernel (h : K.Holds s) {gang : Nat} : K.Holds (s.forgetKernel gang) := by
  unfold State.forgetKernel
  extract_lets s1
  have hs1 : K.Holds s1 := h.dropScales
  refine .foldl hs1 fun _ h => ?_
  split
  · exact .ite h.sendAborts.closeRound h
  · exact h

theorem Kept.Holds.setCore (h : K.Holds s) {n : Nat} {c : CoreSt} : K.Holds (s.setCore n c) := by
  unfold State.setCore
  exact h.same

theorem Kept.Holds.haltCore (h : K.Holds s) {n run : Nat} : K.Holds (s.haltCore n run) := by
  unfold State.haltCore
  exact h.setCore

theorem Kept.Holds.setGang (h : K.Holds s) {g : Gang} : K.Holds (s.setGang g) := by
  unfold State.setGang
  exact h.same

theorem Kept.Holds.stopGang (h : K.Holds s) {gid : Nat} {why : Stop} : K.Holds (s.stopGang gid why) := by
  unfold State.stopGang
  split
  · exact h
  · exact .ite h (.foldl h.setGang fun _ h => .ite h.haltCore h)

theorem Kept.Holds.stopOnFault (h : K.Holds s) {n code seq : Nat} : K.Holds (s.stopOnFault n code seq) := by
  unfold State.stopOnFault
  exact h.put.put.haltCore

theorem Kept.Holds.latchFault (h : K.Holds s) {n code seq : Nat} : K.Holds (s.latchFault n code seq) := by
  unfold State.latchFault
  exact h.stopOnFault.event.note

theorem Kept.Holds.testOver (h : K.Holds s) {n gang : Nat} : K.Holds (s.testOver n gang) := by
  unfold State.testOver
  exact h.forgetKernel.event

theorem Kept.Holds.faultHeard (h : K.Holds s) {n : Nat} {c : CoreSt} {code seq : Nat} :
    K.Holds (s.faultHeard n c code seq) := by
  unfold State.faultHeard
  exact .ite h.testOver h.stopGang

theorem Kept.Holds.coreFault (h : K.Holds s) {n code seq : Nat} : K.Holds (s.coreFault n code seq) := by
  unfold State.coreFault
  exact .ite h h.latchFault.faultHeard

theorem Kept.Holds.coreFaults (h : K.Holds s) {code : Nat} {l : List (Nat × Nat × Nat)} : K.Holds (s.coreFaults code l) := by
  unfold State.coreFaults
  exact .foldl (.foldl (.foldl h fun _ h => h.stopOnFault.event) fun _ h => h.note) fun _ h => h.faultHeard

theorem Kept.Holds.travsDone (h : K.Holds s) {l : List (Nat × Nat × Nat × Nat)} {st : Nat} : K.Holds (s.travsDone l st) := by
  unfold State.travsDone
  exact .ite (.foldl h fun _ h => .ite h h.setCore) (Kept.Holds.foldl h fun _ h => .ite h h.setCore).coreFaults

theorem Kept.Holds.endRound (h : K.Holds s) {ch st : Nat} : K.Holds (s.endRound ch st) := by
  unfold State.endRound
  split
  · exact h
  · exact h.closeRound.travsDone

theorem Kept.Holds.failRound (h : K.Holds s) {ch st : Nat} : K.Holds (s.failRound ch st) := by
  unfold State.failRound
  exact h.sendAborts.endRound

theorem Kept.Holds.trvRefused (h : K.Holds s) : K.Holds s.trvRefused := by
  unfold State.trvRefused
  exact h.bump

theorem Kept.Holds.setStage (h : K.Holds s) {q : Nat} {x : Stage} : K.Holds (s.setStage q x) := by
  unfold State.setStage
  exact h.same

/-- The state word of a stage queue end, whatever its number. -/
theorem sqState_hidden {f : Fld} (hf : f = Fld.TRV_SQ_STATE_STATE ∨ f = Fld.TRV_SQ_STATE_CAUSE) (q : Nat) : f.Hidden 0 q := by
  have key : f.key 0 q = 11 * 4294967296 + (4112 + q * 64) := by
    obtain rfl | rfl := hf <;> simp [Fld.key, regKey, Fld.TRV_SQ_STATE_STATE, Fld.TRV_SQ_STATE_CAUSE]
  refine ⟨?_, .inl (by obtain rfl | rfl := hf <;> decide)⟩
  rw [key]
  simp [shown]
  omega

theorem Kept.Holds.sqError (h : K.Holds s) {q cause : Nat} : K.Holds (s.sqError q cause) := by
  unfold State.sqError
  extract_lets x s1 s2 s3
  have hs1 : K.Holds s1 := h.setStage.putAt (sqState_hidden (.inl rfl) q)
  have hs3 : K.Holds s3 := (hs1.same.putAt (sqState_hidden (.inr rfl) q)).put.event
  exact .ite h hs3.travsDone

theorem Kept.Holds.gotSerr (h : K.Holds s) {p : Packet} : K.Holds (s.gotSerr p) := by
  unfold State.gotSerr
  exact .ite h.sqError h.trvRefused

theorem Kept.Holds.sqSend (h : K.Holds s) {q : Nat} {p : Packet} {here : State → Packet → State} (hhere : ∀ {t : State} {a1 : Packet}, K.Holds t →
    K.Holds (here t a1)) :
    K.Holds (s.sqSend q p here) := by
  unfold State.sqSend
  exact .ite (hhere h) (.ite h.send h.sqError)

theorem Kept.Holds.sqFail (h : K.Holds s) {q cause : Nat} : K.Holds (s.sqFail q cause) := by
  unfold State.sqFail
  exact .ite h (h.sqError.sqSend (fun h => h.gotSerr))

theorem Kept.Holds.sqPaths (h : K.Holds s) : K.Holds s.sqPaths := by
  unfold State.sqPaths
  exact .foldl h fun _ h => .ite h.sqError h

end Sys2Proof.Machine
end

section
/-! SUPPORT. Frames, walks and the move engines keep what a bring-up has (O9). -/

namespace Sys2Proof.Machine

variable {K : Kept} {s t : State}

theorem Kept.Holds.setFrame (h : K.Holds s) {f code : Nat} {mapped : Bool} : K.Holds (s.setFrame f code mapped) := by
  unfold State.setFrame
  exact h.same

theorem Kept.Holds.giveFrames (h : K.Holds s) {fs : List Nat} : K.Holds (s.giveFrames fs) := by
  unfold State.giveFrames
  exact .foldl h fun _ h => h.setFrame

theorem Kept.Holds.tryRequest (h : K.Holds s) {p : Packet} {o : ReqOwner} : K.Holds (s.tryRequest p o).1 := by
  unfold State.tryRequest
  exact .ite_of Prod.fst h.request h

theorem Kept.Holds.startZero (h : K.Holds s) {f dom : Nat} {waiters : List Nat} {scrub : Bool} :
    K.Holds (s.startZero f dom waiters scrub) := by
  unfold State.startZero
  extract_lets step r __src
  have hr : K.Holds r.1 := .foldl_of Prod.fst h fun _ h => h.tryRequest
  have h__src : K.Holds __src := hr
  exact h__src.same

theorem Kept.Holds.zeroReply (h : K.Holds s) {f st : Nat} : K.Holds (s.zeroReply f st) := by
  unfold State.zeroReply
  split
  · exact h
  · exact .ite (.ite h.same.setFrame h.same) h.same

theorem Kept.Holds.fillTlb (h : K.Holds s) {i key : Nat} : K.Holds (s.fillTlb i key) := by
  unfold State.fillTlb
  exact h.same

theorem Kept.Holds.domFault (h : K.Holds s) {dom status va : Nat} : K.Holds (s.domFault dom status va) := by
  unfold State.domFault
  exact .ite h h.put.put.put

theorem Kept.Holds.landed (h : K.Holds s) {dom va : Nat} {r : Nat × Nat × Nat} : K.Holds (s.landed dom va r).1 := by
  unfold State.landed
  exact .ite_of Prod.fst h h.domFault

theorem Kept.Holds.landLate (h : K.Holds s) {dom va : Nat} {r : Nat × Nat × Nat} : K.Holds (s.landLate dom va r).1 := by
  unfold State.landLate
  exact h.landed

theorem Kept.Holds.dropErrors (h : K.Holds s) : K.Holds s.dropErrors := by
  unfold State.dropErrors
  exact .ite h h.same

theorem Kept.Holds.countWalk (h : K.Holds s) {dom : Nat} : K.Holds (s.countWalk dom) := by
  unfold State.countWalk
  exact h.count.count

theorem Kept.Holds.freeCondemned (h : K.Holds s) : K.Holds s.freeCondemned := by
  unfold State.freeCondemned
  exact h.giveFrames.same

theorem Kept.Holds.setWalk (h : K.Holds s) {x : Walk} : K.Holds (s.setWalk x) := by
  unfold State.setWalk
  exact h.same

theorem Kept.Holds.walkNext (h : K.Holds s) {w : Walk} : K.Holds (s.walkNext w) := by
  unfold State.walkNext
  split
  · exact h.setWalk
  · exact .ite h.setWalk.tryRequest h.setWalk

theorem Kept.Holds.walkReply (h : K.Holds s) {dom vpn tag st : Nat} : K.Holds (s.walkReply dom vpn tag st) := by
  unfold State.walkReply
  split
  · exact h
  · exact .ite h.setWalk h.walkNext

theorem Kept.Holds.setMove (h : K.Holds s) {k : Nat} {j : MoveJob} : K.Holds (s.setMove k j) := by
  unfold State.setMove
  exact h.same

theorem Kept.Holds.acceptMove (h : K.Holds s) {k w dom stream : Nat} {o : MoveOwner} :
    K.Holds (s.acceptMove k w dom stream o) := by
  unfold State.acceptMove
  exact h.setMove.same

theorem Kept.Holds.endMove (h : K.Holds s) {k st : Nat} : K.Holds (s.endMove k st) := by
  unfold State.endMove
  exact h.setMove

theorem Kept.Holds.waitMove (h : K.Holds s) {k : Nat} {w : MoveWait} : K.Holds (s.waitMove k w) := by
  unfold State.waitMove
  exact h.setMove

theorem Kept.Holds.askWalk (h : K.Holds s) {dom va cl : Nat} : K.Holds (s.askWalk dom va cl).1 := by
  unfold State.askWalk
  exact .ite_of Prod.fst h.count.same (.ite_of Prod.fst h.count.countWalk.same.walkNext h)

theorem Kept.Holds.moveXlate (h : K.Holds s) {k va : Nat} {write : Bool} : K.Holds (s.moveXlate k va write).1 := by
  unfold State.moveXlate
  extract_lets s1 j said fresh
  have hs1 : K.Holds s1 := h.dropErrors
  clear_value fresh
  split
  · exact hs1.setMove.landLate
  · exact hs1.setMove
  · split
    · exact (Kept.Holds.ite hs1.fillTlb hs1).setMove.landLate
    · exact hs1.setMove.askWalk.waitMove

theorem Kept.Holds.moveRequest (h : K.Holds s) {k : Nat} {p : Packet} : K.Holds (s.moveRequest k p).1 := by
  unfold State.moveRequest
  exact .ite_of Prod.fst h.waitMove.tryRequest h

theorem Kept.Holds.waitZero (h : K.Holds s) {k f off : Nat} : K.Holds (s.waitZero k f off) := by
  unfold State.waitZero
  exact h.waitMove.same

theorem Kept.Holds.moveFrameRead (h : K.Holds s) {k f off n : Nat} : K.Holds (s.moveFrameRead k f off n).1 := by
  unfold State.moveFrameRead
  exact .ite_of Prod.fst h.waitZero (.ite_of Prod.fst h h.moveRequest)

theorem Kept.Holds.moveFrameWrite (h : K.Holds s) {k f off : Nat} {b : Bytes} : K.Holds (s.moveFrameWrite k f off b).1 := by
  unfold State.moveFrameWrite
  exact .ite_of Prod.fst h.waitZero (.ite_of Prod.fst h.waitMove.startZero h.moveRequest)

theorem Kept.Holds.moveRead (h : K.Holds s) {k kind a n : Nat} {tr : Option (Nat × Nat)} :
    K.Holds (s.moveRead k kind a n tr).1 := by
  unfold State.moveRead
  split
  · exact h
  · exact h.readMem
  · exact h.moveRequest
  · split
    · exact h.moveFrameRead
    · split
      · next t e => exact h.moveXlate.of_eq e
      · next t e e => exact h.moveXlate.of_eq e
      · next t f off e => exact (h.moveXlate.of_eq e).moveFrameRead

theorem Kept.Holds.movePut (h : K.Holds s) {k kind a : Nat} {b : Bytes} {tr : Option (Nat × Nat)} :
    K.Holds (s.movePut k kind a b tr).1 := by
  unfold State.movePut
  split
  · exact h
  · refine .ite_of Prod.fst h ?_
    split
    · exact h.writeMem
    · exact h.moveRequest
    · split
      · exact h.moveFrameWrite
      · split
        · next t e => exact h.moveXlate.of_eq e
        · next t e e => exact h.moveXlate.of_eq e
        · next t f off e => exact (h.moveXlate.of_eq e).moveFrameWrite

theorem Kept.Holds.moveStep (h : K.Holds s) {k : Nat} {tr : Option (Nat × Nat)} : K.Holds (s.moveStep k tr).1 := by
  unfold State.moveStep
  extract_lets +onlyGivenNames j
  refine .ite_of Prod.fst h ?_
  refine .ite_of Prod.fst h.endMove ?_
  extract_lets +onlyGivenNames n dst
  refine .ite_of Prod.fst ?_ ?_
  · extract_lets src
    split
    · next t b e => exact (h.moveRead.of_eq e).setMove
    · next t st e => exact (h.moveRead.of_eq e).endMove
    · next t e => exact h.moveRead.of_eq e
  · split
    · next t b e => exact (h.movePut.of_eq e).setMove
    · next t st e => exact (h.movePut.of_eq e).endMove
    · next t e => exact h.movePut.of_eq e

theorem Kept.Holds.moveLoop {k : Nat} : ∀ {fuel : Nat} {s : State} {tr : Option (Nat × Nat)}, K.Holds s →
    K.Holds (State.moveLoop k fuel s tr)
  | 0, _, _, h => h
  | _ + 1, _, _, h => .ite (moveLoop h.moveStep) h.moveStep

theorem Kept.Holds.dispatchStep (h : K.Holds s) {k : Nat} {tr : Option (Nat × Nat)} : K.Holds (s.dispatchStep k tr).1 := by
  unfold State.dispatchStep
  extract_lets j r
  have hr : K.Holds r.1 := .ite_of Prod.fst h.moveRead h.movePut
  clear_value r
  refine .ite_of Prod.fst h (.ite_of Prod.fst h.endMove ?_)
  split
  · exact hr.setMove
  · exact hr.endMove
  · exact hr

theorem Kept.Holds.dispatchLoop {k : Nat} : ∀ {fuel : Nat} {s : State} {tr : Option (Nat × Nat)}, K.Holds s →
    K.Holds (State.dispatchLoop k fuel s tr)
  | 0, _, _, h => h
  | _ + 1, _, _, h => .ite (dispatchLoop h.dispatchStep) h.dispatchStep

theorem Kept.Holds.dispatchAccess (h : K.Holds s) {u : VUse} {dom va n : Nat} {data : Option Bytes} :
    K.Holds (s.dispatchAccess u dom va n data) := by
  unfold State.dispatchAccess
  exact h.same.setMove.dispatchLoop

theorem Kept.Holds.dropAccess (h : K.Holds s) {p : VUse → Bool} : K.Holds (s.dropAccess p) := by
  unfold State.dropAccess
  exact h.same

theorem Kept.Holds.touchLoop {k : Nat} : ∀ {fuel : Nat} {s : State}, K.Holds s → K.Holds (State.touchLoop k fuel s)
  | 0, _, h => h
  | _ + 1, _, h => .ite (.ite h.dropErrors.endMove h.dropErrors.waitMove)
      (.ite (touchLoop h.dropErrors.setMove) (.ite (touchLoop h.dropErrors.askWalk.setMove) h.dropErrors.askWalk.waitMove))

theorem Kept.Holds.resumeMove (h : K.Holds s) {k : Nat} {tr : Option (Nat × Nat)} : K.Holds (s.resumeMove k tr) := by
  unfold State.resumeMove
  exact .ite h (.ite h.setMove.dispatchLoop (.ite h.setMove.touchLoop (.ite h.setMove.moveLoop h.setMove)))

theorem Kept.Holds.zeroGo (h : K.Holds s) {l : List Nat} : K.Holds (s.zeroGo l) := by
  unfold State.zeroGo
  refine .foldl h fun _ h => ?_
  split
  · exact h.resumeMove
  · exact h

theorem Kept.Holds.firstDone (h : K.Holds s) {k : Nat} : K.Holds (s.firstDone k) := by
  unfold State.firstDone
  exact .ite h h.same.zeroGo

theorem Kept.Holds.moveReply (h : K.Holds s) {k tag st : Nat} {data : Bytes} : K.Holds (s.moveReply k tag st data) := by
  unfold State.moveReply
  extract_lets +onlyGivenNames s1 j write
  have hs1 : K.Holds s1 := .ite h.firstDone h
  exact .ite hs1 (.ite hs1.endMove (.ite hs1.endMove (.ite hs1.setMove.resumeMove hs1.setMove.resumeMove)))

theorem Kept.Holds.moveCode (h : K.Holds s) {k st : Nat} : K.Holds (s.moveCode k st) := by
  unfold State.moveCode
  extract_lets s1 j
  have hs1 : K.Holds s1 := .ite h.event h
  split
  · exact .ite hs1.waitMove (.ite hs1.endMove hs1.same.endMove)
  · exact hs1

end Sys2Proof.Machine
end

section
/-! SUPPORT. Dispatch, which takes up the accesses that have ended, keeps what a bring-up has (O9). -/

namespace Sys2Proof.Machine

variable {K : Kept} {s t : State}

theorem Kept.Holds.setQueue (h : K.Holds s) {q : Nat} {x : QueueSt} : K.Holds (s.setQueue q x) := by
  unfold State.setQueue
  exact h.same

theorem Kept.Holds.ring (h : K.Holds s) {q tail : Nat} : K.Holds (s.ring q tail).1 := by
  unfold State.ring
  extract_lets n head
  split
  · exact h
  · exact .ite_of Prod.fst h.event (h.put (f := Fld.DSP_Q_PTRS_TAIL))
  · exact .ite_of Prod.fst h.event (h.put (f := Fld.DSP_Q_PTRS_TAIL))
  · exact h.event

theorem Kept.Holds.releaseStaging (h : K.Holds s) {g : Machine.Group} : K.Holds (s.releaseStaging g) := by
  unfold State.releaseStaging
  exact .foldl h fun _ h => .ite h.releaseRegion h

theorem Kept.Holds.dropFetch (h : K.Holds s) {q : Nat} : K.Holds (s.dropFetch q) := by
  unfold State.dropFetch
  exact h.dropAccess.setQueue

theorem Kept.Holds.clearQueue (h : K.Holds s) {q : Nat} : K.Holds (s.clearQueue q) := by
  unfold State.clearQueue
  extract_lets s1
  have hs1 : K.Holds s1 := by
    unfold s1
    split
    · exact h.releaseStaging
    · exact h
  exact hs1.dropFetch.setQueue

theorem Kept.Holds.drained (h : K.Holds s) {q : Nat} : K.Holds (s.drained q) := by
  unfold State.drained
  exact .ite h.put.clearQueue h

theorem Kept.Holds.notify (h : K.Holds s) {q i : Nat} : K.Holds (s.notify q i) := by
  unfold State.notify
  exact .ite h.same h

theorem Kept.Holds.qError (h : K.Holds s) {q status detail : Nat} : K.Holds (s.qError q status detail) := by
  unfold State.qError
  exact .ite h.put.put.put.event h

/-- The words of the signal counters. -/
theorem sig_hidden {c : Nat} (hc : c < 1024) : Fld.DSP_SIG_VALUE.Hidden 0 c := by
  have key : Fld.DSP_SIG_VALUE.key 0 c = 8 * 4294967296 + (4096 + c * 4) := by simp [Fld.key, regKey, Fld.DSP_SIG_VALUE]
  refine ⟨?_, .inl (by decide)⟩
  rw [key]
  simp [shown]
  omega

theorem Kept.Holds.sigAdd (h : K.Holds s) {c n : Nat} (hc : c < 1024) : K.Holds (s.sigAdd c n) := by
  unfold State.sigAdd
  exact h.putAt (sig_hidden hc)

/-- The counter that an item's end advances is one of the die's (R283). -/
theorem Kept.Holds.itemSignal (h : K.Holds s) {it : Item} : K.Holds (s.itemSignal it) := by
  unfold State.itemSignal
  extract_lets c
  have hc : c < 2 ^ 10 := bitsAt_lt it.w 400 10
  clear_value c
  exact .ite (h.sigAdd hc) h

theorem Kept.Holds.pumpRecords (h : K.Holds s) {q : Nat} : K.Holds (s.pumpRecords q) := by
  unfold State.pumpRecords
  refine .ite h ?_
  split
  · exact h
  · exact h.dispatchAccess

theorem Kept.Holds.complete (h : K.Holds s) {it : Item} {r : Rec} : K.Holds (s.complete it r) := by
  unfold State.complete
  exact .ite h (.ite h.same (Kept.Holds.ite h h.qError).same.pumpRecords)

theorem Kept.Holds.recordDone (h : K.Holds s) {q st : Nat} : K.Holds (s.recordDone q st) := by
  unfold State.recordDone
  refine .ite h ?_
  split
  · exact h
  · next r _ =>
    extract_lets i s1 s2 s3 s4
    have hs1 : K.Holds s1 := h.same
    have hs2 : K.Holds s2 := .ite hs1.put.count hs1.qError
    have hs3 : K.Holds s3 := .ite hs2.notify hs2
    have hs4 : K.Holds s4 := by
      unfold s4
      split
      · exact .ite hs2 hs2.bump
      · exact hs3.same.itemSignal.drained
    exact hs4.pumpRecords

theorem Kept.Holds.takeUp (h : K.Holds s) {u : VUse} {st : Nat} {data : Bytes} : K.Holds (s.takeUp u st data) := by
  unfold State.takeUp
  split
  · exact h.setQueue
  · exact h.setQueue
  · exact h.recordDone
  · exact h

theorem Kept.Holds.setItem (h : K.Holds s) {it : Item} : K.Holds (s.setItem it) := by
  unfold State.setItem
  exact h.same

theorem Kept.Holds.endMoves (h : K.Holds s) {it : Item} : K.Holds (s.endMoves it) := by
  unfold State.endMoves
  extract_lets el
  refine .ite ?_ ?_
  · split
    · exact h.complete
    · exact h.releaseStaging.complete
  · split <;> exact h.complete

theorem Kept.Holds.fillMoves (h : K.Holds s) {it : Item} : K.Holds (s.fillMoves it) := by
  unfold State.fillMoves
  exact .ite (.ite h.setItem.endMoves h.setItem) (.ite h.setItem h.setItem.dispatchAccess)

theorem Kept.Holds.takeDescriptor (h : K.Holds s) {q serial pos st : Nat} {data : Bytes} :
    K.Holds (s.takeDescriptor q serial pos st data) := by
  unfold State.takeDescriptor
  split
  · exact .ite h (.ite h.fillMoves h.acceptMove.fillMoves)
  · exact h

theorem Kept.Holds.postDone (h : K.Holds s) {c seq st : Nat} : K.Holds (s.postDone c seq st) := by
  unfold State.postDone
  extract_lets k
  split
  · exact h
  · exact .ite h (.ite h.coreFault h.ring.setCore)

theorem Kept.Holds.settleLoop : ∀ {fuel : Nat} {s : State}, K.Holds s → K.Holds (State.settleLoop fuel s)
  | 0, _, h => h
  | fuel + 1, s, h => by
    unfold State.settleLoop
    extract_lets room
    split
    · exact h
    · refine settleLoop (.ite h.same ?_)
      split
      · exact h.same.takeDescriptor
      · exact h.same.postDone
      · exact h.same.takeUp

theorem Kept.Holds.settle (h : K.Holds s) : K.Holds s.settle := by
  unfold State.settle
  exact h.freeCondemned.settleLoop

end Sys2Proof.Machine
end

section
/-! SUPPORT. Routes, and modules that leave, keep what a bring-up has (O9). -/

namespace Sys2Proof.Machine

variable {K : Kept} {s t : State}

theorem Kept.Holds.pullEntry (h : K.Holds s) {e : Nat} : K.Holds (s.pullEntry e) := by
  unfold State.pullEntry
  extract_lets mine back t
  have ht : K.Holds t := .foldl h fun {t m} _ h => h.setMod (x := { t.mod m with queue := (t.mod m).queue.filter (fun q => !mine (t.mod m) q) }) (h.links m)
  exact ht.same

theorem Kept.Holds.routeCheck (h : K.Holds s) {e : Nat} : K.Holds (s.routeCheck e) := by
  unfold State.routeCheck
  refine .ite h ?_
  extract_lets +onlyGivenNames pri up was now s1
  have hs1 : K.Holds s1 := .ite h (.ite h.same h.same.put.event)
  exact .ite hs1 (.ite hs1.put.bump.put.same.pullEntry.put.event hs1.put.bump.put.same.pullEntry)

theorem Kept.Holds.endRequest (h : K.Holds s) {tag st : Nat} {data : Bytes} : K.Holds (s.endRequest tag st data) := by
  unfold State.endRequest
  split
  · exact h
  · extract_lets s1
    have hs1 : K.Holds s1 := h.same
    split
    · exact hs1.moveReply.settle
    · exact hs1.moveCode
    · exact hs1
    · exact hs1.sqFail
    · exact hs1.walkReply
    · exact hs1.zeroReply
    · exact hs1.same

theorem Kept.Holds.roundPath (h : K.Holds s) {p : Packet} : K.Holds (s.roundPath p) := by
  unfold State.roundPath
  split
  · exact .ite h.failRound h
  · exact h

theorem Kept.Holds.noPath (h : K.Holds s) {p : Packet} : K.Holds (s.noPath p) := by
  unfold State.noPath
  exact .ite h.markSent.same (.ite (.ite h.endRequest (.ite h.roundPath h)) h.send)

theorem Kept.Holds.dropDead (h : K.Holds s) : K.Holds s.dropDead := by
  unfold State.dropDead
  exact .foldl h.same fun _ h => h.noPath

theorem Kept.Holds.routesCheck (h : K.Holds s) : K.Holds s.routesCheck := by
  unfold State.routesCheck
  exact .foldl h fun _ h => h.routeCheck

theorem Kept.Holds.routesSettle (h : K.Holds s) : K.Holds s.routesSettle := by
  unfold State.routesSettle
  exact h.dropDead.flushWaiting.sqPaths

theorem Kept.Holds.lnkEvent (h : K.Holds s) {f : Fld} {m : Nat} : K.Holds (s.lnkEvent f m) := by
  unfold State.lnkEvent
  exact h.put.event

theorem Kept.Holds.setModState (h : K.Holds s) {m st : Nat} : K.Holds (s.setModState m st) := by
  unfold State.setModState
  extract_lets up s1 x
  have hs1 : K.Holds s1 := h.put
  exact hs1.put.setMod (hs1.links m)

theorem Kept.Holds.requeue (h : K.Holds s) {m : Nat} : K.Holds (s.requeue m) := by
  unfold State.requeue
  extract_lets x back t
  have ht : K.Holds t := h.setMod (x := { x with queue := [] }) (h.links m)
  exact ht.same

theorem ModSt.finishPacking_boot (fuel : Nat) (x : ModSt) : (ModSt.finishPacking fuel x).boot = x.boot := by
  induction fuel generalizing x with
  | zero => rfl
  | succ fuel ih =>
    unfold ModSt.finishPacking
    split
    · rfl
    · rw [ih]
      split <;> rfl

theorem Kept.Holds.dropFlits (h : K.Holds s) {m : Nat} : K.Holds (s.dropFlits m).1 := by
  have packed : (ModSt.finishPacking 20 (s.mod m)).boot = K.links m := (ModSt.finishPacking_boot 20 (s.mod m)).trans (h.links m)
  unfold State.dropFlits
  generalize ModSt.finishPacking 20 (s.mod m) = y at packed
  extract_lets x n chunk t
  have ht : K.Holds t := h.setMod packed
  exact .ite_of Prod.fst ht (ht.bump (f := Fld.PTR_PT_LOST_COUNT))

theorem Kept.Holds.flitsLost (h : K.Holds s) {m : Nat} : K.Holds (s.flitsLost m) := by
  unfold State.flitsLost
  exact h.put.event

theorem Kept.Holds.stepOut (h : K.Holds s) {m st : Nat} : K.Holds (s.stepOut m st) := by
  have hs : K.Holds (s.setModState m st) := h.setModState
  have packed : (ModSt.finishPacking 20 ((s.setModState m st).mod m)).boot = K.links m :=
    (ModSt.finishPacking_boot 20 _).trans (hs.links m)
  unfold State.stepOut
  generalize ModSt.finishPacking 20 ((s.setModState m st).mod m) = x at packed
  exact (hs.setMod (x := { x with held := false }) packed).requeue

theorem Kept.Holds.leaveAll (h : K.Holds s) {l : List (Nat × Nat)} {ev : State → State} (hev : ∀ {t : State}, K.Holds t → K.Holds (ev t)) :
    K.Holds (s.leaveAll l ev) := by
  unfold State.leaveAll
  extract_lets r
  have hr : K.Holds r.1 := .foldl_of Prod.fst h fun _ h => h.dropFlits.stepOut
  exact .foldl (hev hr).routesCheck fun _ h => h.flitsLost

theorem Kept.Holds.fallen (h : K.Holds s) {m cause : Nat} : K.Holds (s.fallen m cause) := by
  unfold State.fallen
  exact (Kept.Holds.ite h.put.lnkEvent h.put).lnkEvent

theorem Kept.Holds.roleEvents (h : K.Holds s) {m : Nat} {a : RoleOutcome} : K.Holds (s.roleEvents m a) := by
  unfold State.roleEvents
  split
  · exact h.fallen
  · exact h.put.setMod (h.links m)
  · exact h

theorem Kept.Holds.roleNote (h : K.Holds s) {m : Nat} {a : RoleOutcome} : K.Holds (s.roleNote m a) := by
  unfold State.roleNote
  split
  · exact h.note
  · exact h.note
  · exact h

end Sys2Proof.Machine
end

section
/-! SUPPORT. The end of the loader: role outcomes, which end boot links, and the COMMIT phase around the numbering (O9). -/

namespace Sys2Proof.Machine

variable {K : Kept} {s t : State}

/-! ### Role outcomes -/

/-- Module `m` is a boot link no more. -/
def Kept.unlink (K : Kept) (m : Nat) : Kept := { K with links := fun j => if j = m then false else K.links j }

theorem Kept.unlink_foldl (K : Kept) (l : List Nat) :
    l.foldl Kept.unlink K = { K with links := fun j => if j ∈ l then false else K.links j } := by
  induction l generalizing K with
  | nil => rfl
  | cons m l ih =>
    rw [List.foldl_cons, ih]
    simp only [Kept.unlink, Kept.mk.injEq, true_and, and_true]
    funext j
    by_cases hj : j = m <;> simp [hj]

theorem Kept.Holds.unlink (h : K.Holds s) {m : Nat} {x : ModSt} (hx : x.boot = false) : (K.unlink m).Holds (s.setMod m x) where
  boot := h.boot
  pos := (State.get_congr (State.setMod_regs s m x) _ _ _).trans h.pos
  links j := by
    show _ = if j = m then false else K.links j
    unfold State.mod
    rw [State.setMod_eq, tget_tset]
    split
    · exact hx
    · exact h.links j
  cores n := (h.cores n).congr (State.setMod_regs s m x)

theorem Kept.Holds.unlinkAll {f : ModSt → ModSt} (hf : ∀ x, (f x).boot = false) {l : List Nat} (h : K.Holds s) :
    (l.foldl Kept.unlink K).Holds (l.foldl (fun t m => t.setMod m (f (t.mod m))) s) := by
  induction l generalizing K s with
  | nil => exact h
  | cons m l ih => exact ih (h.unlink (hf _))

/-- A module that takes its outcome is a boot link no more. -/
theorem Kept.Holds.takeRoles (h : K.Holds s) {l : List Nat} : (l.foldl Kept.unlink K).Holds (s.takeRoles l) := by
  unfold State.takeRoles
  extract_lets o s1 t
  have hs1 : (l.foldl Kept.unlink K).Holds s1 :=
    Kept.Holds.unlinkAll (f := fun x => { x with boot := false, askedChunk := none, queue := x.queue.filter (fun q => q.pkt.typ != 0x56) })
      (fun _ => rfl) h
  have ht : (l.foldl Kept.unlink K).Holds t := hs1.leaveAll fun h => .foldl h fun _ h => h.roleEvents
  exact (Kept.Holds.foldl ht fun _ h => h.roleNote).routesSettle

theorem Kept.Holds.routesChanged (h : K.Holds s) : K.Holds s.routesChanged := by
  unfold State.routesChanged
  exact h.routesCheck.routesSettle

theorem Kept.Holds.leaveActive (h : K.Holds s) {m st : Nat} : K.Holds (s.leaveActive m st) := by
  unfold State.leaveActive
  exact h.stepOut.routesChanged

/-- The end of the relay hold: every boot link takes its outcome (R396). -/
theorem State.relayDone_links {s : State} (hphase : s.inPhase 7 = true) (hroled : s.roled = true) (hover : s.boot.relayOver = true) :
    s.relayDone.boot.relayOver = true ∧ ∀ m < 40, (s.relayDone.mod m).boot = false := by
  have links : (List.range 40).filter (fun m => (s.mod m).boot && (s.boot.relayOver || !s.serving m)) =
      (List.range 40).filter fun m => (s.mod m).boot := by simp [hover]
  unfold State.relayDone
  rw [links]
  extract_lets l
  split
  · let K : Kept := ⟨s.boot, s.get Fld.CLK_CLK_AON_DIEPOS, fun m => (s.mod m).boot, false⟩
    have hs : K.Holds s := ⟨rfl, rfl, fun _ => rfl, nofun⟩
    have ht := hs.takeRoles (l := l)
    rw [Kept.unlink_foldl] at ht
    refine ⟨by rw [ht.boot]; exact hover, fun m hm => ?_⟩
    rw [ht.links]
    by_cases hl : (s.mod m).boot = true
    · have : m ∈ l := List.mem_filter.mpr ⟨List.mem_range.mpr hm, hl⟩
      simp [this]
    · simp only [Bool.not_eq_true] at hl
      simp [K, hl]
  · next idle =>
    refine ⟨hover, fun m hm => ?_⟩
    by_contra hl
    exact idle ⟨hphase, hroled, List.ne_nil_of_mem (List.mem_filter.mpr ⟨List.mem_range.mpr hm, by simpa using hl⟩)⟩

/-! ### The plats -/

theorem Kept.Holds.newFindings (h : K.Holds s) : K.Holds s.newFindings := by
  unfold State.newFindings
  exact .foldl h fun _ h => h.platAdd

theorem Kept.Holds.mergeField (h : K.Holds s) : K.Holds s.mergeField.1 := by
  unfold State.mergeField
  split
  · exact h
  · refine .ite_of Prod.fst h.event ?_
    split
    · exact h.event
    · extract_lets l s1 s2
      have entries : l.length ≤ 256 := by
        simp only [l, fieldEntries, List.length_map, List.length_range]
        omega
      have hs2 : K.Holds s2 := .foldl h.put fun hi h => h.putAt (plat_hidden (.inr (.inr rfl)) (by have := List.mem_range.mp hi; omega))
      exact .ite hs2.event hs2

theorem Kept.Holds.markLinks (h : K.Holds s) {l : List Nat} : K.Holds (s.markLinks l) := by
  unfold State.markLinks
  refine .foldl h fun _ h => .ite h.same ?_
  extract_lets
  exact .ite h.same.put h

theorem fit_length (b : Bytes) (n : Nat) : (fit b n).length = n := by
  simp [fit, zeros]

/-- The words of the measurement registers 0 to 15. -/
theorem measKey {i j : Nat} : Fld.SEC_MEAS.key 0 (12 * i + j) = 6 * 4294967296 + (4096 + (12 * i + j) * 4) := by
  simp [Fld.key, regKey, Fld.SEC_MEAS]

theorem Kept.Holds.setMeas (h : K.Holds s) {i : Nat} {b : Bytes} (hi : i < 16) : K.Holds (s.setMeas i b) := by
  unfold State.setMeas State.putBytes
  rw [fit_length]
  refine .foldl h fun {_ j} hj h => h.putAt ⟨?_, .inl (by decide)⟩
  have := List.mem_range.mp hj
  rw [measKey]
  simp [shown]
  omega

end Sys2Proof.Machine
end

section
/-! SUPPORT. The numbering of the cores where no list names a unit, and the COMMIT phase around it (O9). -/

namespace Sys2Proof.Machine

variable {K : Kept} {s t : State}

/-! ### What the numbering writes -/

/-- What every step of a fold leaves alone, the fold leaves alone. -/
theorem State.word_foldl {α : Type} {f : State → α → State} {l : List α} {k : Nat} (hf : ∀ {t x}, x ∈ l → (f t x).word k = t.word k) :
    (l.foldl f s).word k = s.word k := by
  induction l generalizing s with
  | nil => rfl
  | cons x l ih => exact (ih fun hx => hf (by simp [hx])).trans (hf (by simp))

/-- What the step of an element establishes, and no other step undoes, holds of every element after the fold. -/
theorem foldl_establishes {α : Type} {P : α → State → Prop} {f : State → α → State} {l : List α}
    (hset : ∀ {t x}, x ∈ l → P x (f t x)) (hkeep : ∀ {t x y}, x ∈ l → y ∈ l → y ≠ x → P x t → P x (f t y)) :
    ∀ x ∈ l, P x (l.foldl f s) := by
  induction l using List.reverseRecOn with
  | nil => simp
  | append_singleton l y ih =>
    intro x hx
    rw [List.foldl_append, List.foldl_cons, List.foldl_nil]
    by_cases hxy : y = x
    · exact hxy ▸ hset (by simp)
    · have before : x ∈ l := by simpa [Ne.symm hxy] using hx
      exact hkeep hx (by simp) hxy
        (ih (fun h => hset (by simp [h])) (fun hx hy => hkeep (by simp [hx]) (by simp [hy])) x before)

theorem logicalKey (i : Nat) : Fld.CL_PC_STATE_LOGICAL.key i 0 = Fld.CL_PC_STATE_STATE.key i 0 := by
  unfold Fld.key Fld.CL_PC_STATE_LOGICAL Fld.CL_PC_STATE_STATE
  rfl

theorem bypassKey {c p : Nat} (hp : p < 9) : Fld.CL_PC_BYPASS_WORD.key (c * 9 + p) 0 = (16 + c) * 2 ^ 32 + ((p + 1) * 2 ^ 14 + 8) := by
  have hdiv : (c * 9 + p) / 9 = c := by omega
  have hmod : (c * 9 + p) % 9 = p := by omega
  simp [Fld.key, regKey, Fld.CL_PC_BYPASS_WORD, hdiv, hmod, Nat.add_assoc]

theorem spareMapKey (n : Nat) : Fld.CORE_SPARE_MAP_BYROW0.key n 0 = (64 + n) * 2 ^ 32 + 0x11C := by
  simp [Fld.key, regKey, Fld.CORE_SPARE_MAP_BYROW0]

theorem coreGranKey {n : Nat} (hn : n < 64) (g : Nat) : granKey n g = (64 + n) * 2 ^ 32 + (0x400 + g * 4) := by
  simp [granKey, hn, Fld.key, regKey, Fld.CORE_CM_GRAN_STATE]

theorem sliceGranKey {sl : Nat} (g : Nat) : granKey (64 + sl) g = 10 * 2 ^ 32 + ((sl + 1) * 2 ^ 14 + (0x10 + g * 4)) := by
  simp [granKey, Fld.key, regKey, Fld.FLD_SL_GRAN_WORD, Nat.add_assoc]

/-- Granules of one unit. -/
theorem State.word_grans {n k : Nat} {l : List Nat} {w : Nat → Nat} (hkey : ∀ g ∈ l, k ≠ granKey n g) :
    (l.foldl (fun t g => t.setGran n g (w g)) s).word k = s.word k :=
  State.word_foldl fun hg => State.word_setWord_ne _ (hkey _ hg) _

/-- A logical core's assignment writes its page, but not the bits of its physical core again, and the word of the physical core. -/
theorem State.assignCore_word {l : List Nat} {n p k : Nat} (hn : n < 64) (hpage : k / 2 ^ 32 ≠ 64 + n)
    (hpc : k ≠ Fld.CL_PC_STATE_STATE.key (n / 8 * 9 + p) 0) : (s.assignCore l n p).word k = s.word k := by
  unfold State.assignCore
  extract_lets cl s1 s2 off
  change k ≠ Fld.CL_PC_STATE_STATE.key (cl * 9 + p) 0 at hpc
  have hs1 : s1.word k = s.word k := by
    unfold s1
    rw [State.word_setWord_ne _ (by rw [spareMapKey]; omega), State.word_put_ne _ _ _ _ _ (by rw [physKey]; omega) (.inl (by decide))]
  have hs2 : s2.word k = s1.word k := by
    unfold s2
    rw [State.word_put_ne _ _ _ _ _ (logicalKey _ ▸ hpc) (.inl (by decide)), State.word_put_ne _ _ _ _ _ hpc (.inl (by decide))]
  refine (State.word_grans fun g hg => ?_).trans (hs2.trans hs1)
  have hg := List.mem_range.mp hg
  rw [coreGranKey hn]
  omega

/-- The core that is assigned has its physical core, which serves it. -/
theorem State.assignCore_serves {l : List Nat} {n p : Nat} (hn : n < 64) (hp : p < 9) :
    (s.assignCore l n p).get Fld.CORE_CORE_STATE_PHYS n = p ∧ (s.assignCore l n p).get Fld.CL_PC_STATE_STATE (n / 8 * 9 + p) = 0 := by
  unfold State.assignCore
  extract_lets cl s1 s2 off
  have grans {f : Fld} {i : Nat} (hf : f.one) (hkey : ∀ g ∈ List.range 64, f.key i 0 ≠ granKey n g) :
      ((List.range 64).foldl (fun t g => t.setGran n g (if off.contains g then 5 else 0)) s2).get f i = s2.get f i := by
    rw [State.get_one hf, State.get_one hf, State.word_grans (w := fun g => if off.contains g then 5 else 0) hkey]
  rw [grans (by decide) (fun g hg => by have := List.mem_range.mp hg; rw [physKey, coreGranKey hn]; omega),
    grans (by decide) (fun g hg => by have := List.mem_range.mp hg; rw [pcKey hp, coreGranKey hn]; omega)]
  constructor
  · unfold s2
    rw [State.get_put_key (by decide) (by decide) _ _ _ _ _ _ (by rw [physKey, logicalKey, pcKey hp]; omega),
      State.get_put_key (by decide) (by decide) _ _ _ _ _ _ (by rw [physKey, pcKey hp]; omega)]
    unfold s1
    rw [State.get_one (by decide), State.word_setWord_ne _ (by rw [physKey, spareMapKey]; omega), ← State.get_one (by decide),
      State.get_put_one (by decide)]
    exact Nat.mod_eq_of_lt (show p < 2 ^ 4 by omega)
  · unfold s2
    rw [State.get_put_bits (by decide) (by decide) _ _ _ _ _ _ (by decide), State.get_put_one (by decide)]
    rfl

/-! ### One cluster -/

/-- Cluster `c` is numbered without holes. -/
structure ClusterNumbered (c : Nat) (t : State) : Prop where
  phys : ∀ i < 8, t.get Fld.CORE_CORE_STATE_PHYS (8 * c + i) = i
  serves : ∀ i < 8, t.get Fld.CL_PC_STATE_STATE (c * 9 + i) = 0
  spare : t.get Fld.CL_CL_STATUS_SPARE_AVAIL c = 1
  ninth : t.get Fld.CL_CL_STATUS_SPARE_PHYS c = 8

theorem Numbered.of_clusters (h : ∀ c < 8, ClusterNumbered c t) : Numbered t where
  phys n hn := by
    have core := (h (n / 8) (by omega)).phys (n % 8) (Nat.mod_lt _ (by decide))
    rwa [Nat.div_add_mod] at core
  spare c hc := (h c hc).spare
  ninth c hc := (h c hc).ninth
  serves c hc p hp := by simp [(h c hc).serves p hp]

/-- The pages of a cluster and of its cores decide how it is numbered. -/
theorem ClusterNumbered.words {c : Nat} (h : ClusterNumbered c s)
    (hw : ∀ k, k / 2 ^ 32 = 16 + c ∨ k / 2 ^ 32 / 8 = 8 + c → t.word k = s.word k) : ClusterNumbered c t where
  phys i hi := by
    rw [State.get_one (by decide), hw _ (.inr (by rw [physKey]; omega)), ← State.get_one (by decide)]
    exact h.phys i hi
  serves i hi := by
    rw [State.get_one (by decide), hw _ (.inl (by rw [pcKey (by omega)]; omega)), ← State.get_one (by decide)]
    exact h.serves i hi
  spare := by
    rw [State.get_one (by decide), hw _ (.inl (by rw [spareKey]; omega)), ← State.get_one (by decide)]
    exact h.spare
  ninth := by
    rw [State.get_one (by decide), hw _ (.inl (by rw [ninthKey]; omega)), ← State.get_one (by decide)]
    exact h.ninth

theorem coreIsBad_nil (c p : Nat) : coreIsBad [] c p = false := by
  simp [coreIsBad, platLines, coreGrans, memRows]

/-- Without an entry in a list the eight first cores of a cluster serve, and the ninth is the spare (R395). -/
theorem State.numberCluster_nil (s : State) (fuse bist : List Nat) (c : Nat) : s.numberCluster fuse bist [] c =
    (((((List.range 8).foldl (fun t i => t.assignCore [] (8 * c + i) i)
      ((List.range 9).foldl (fun t p => t.setWord (Fld.CL_PC_BYPASS_WORD.key (c * 9 + p) 0) (BitVec.ofNat 32 (bypassWord [] c p)))
        ((s.put Fld.CL_CL_STATUS_HOLES 0 c).put Fld.CL_CL_STATUS_SPARE_AVAIL 0 c))).put Fld.CL_PC_STATE_STATE 1 (c * 9 + 8)).put
      Fld.CL_CL_STATUS_SPARE_AVAIL 1 c).put Fld.CL_CL_STATUS_SPARE_PHYS 8 c) := by
  unfold State.numberCluster
  simp only [coreIsBad_nil, Bool.not_false, List.filter_true, if_true]
  rfl

/-- The numbering of a cluster writes its page and its cores' pages. -/
theorem State.numberCluster_nil_word {fuse bist : List Nat} {c k : Nat} (hc : c < 8) (hcl : k / 2 ^ 32 ≠ 16 + c) (hcore : k / 2 ^ 32 / 8 ≠ 8 + c) :
    (s.numberCluster fuse bist [] c).word k = s.word k := by
  have page {f : Fld} {i r : Nat} (key : f.key i 0 = (16 + c) * 2 ^ 32 + r) (hr : r < 2 ^ 32) : k ≠ f.key i 0 := by rw [key]; omega
  rw [State.numberCluster_nil, State.word_put_ne _ _ _ _ _ (page (ninthKey c) (by decide)) (.inl (by decide)),
    State.word_put_ne _ _ _ _ _ (page (spareKey c) (by decide)) (.inl (by decide)),
    State.word_put_ne _ _ _ _ _ (page (pcKey (by decide)) (by decide)) (.inl (by decide))]
  refine (State.word_foldl fun {t i} hi => ?_).trans ((State.word_foldl fun {t p} hp => ?_).trans ?_)
  · have hi := List.mem_range.mp hi
    refine State.assignCore_word (by omega) (by omega) ?_
    rw [show (8 * c + i) / 8 = c by omega]
    exact page (pcKey (by omega)) (by omega)
  · have hp := List.mem_range.mp hp
    exact State.word_setWord_ne _ (page (bypassKey hp) (by omega)) _
  · rw [State.word_put_ne _ _ _ _ _ (page (spareKey c) (by decide)) (.inl (by decide)),
      State.word_put_ne _ _ _ _ _ (page (holesKey c) (by decide)) (.inl (by decide))]

theorem State.numberCluster_nil_numbers {fuse bist : List Nat} {c : Nat} (hc : c < 8) :
    ClusterNumbered c (s.numberCluster fuse bist [] c) := by
  rw [State.numberCluster_nil]
  generalize (List.range 9).foldl _ _ = u
  have cores := foldl_establishes (s := u) (l := List.range 8) (f := fun t i => t.assignCore [] (8 * c + i) i)
    (P := fun i t => t.get Fld.CORE_CORE_STATE_PHYS (8 * c + i) = i ∧ t.get Fld.CL_PC_STATE_STATE (c * 9 + i) = 0)
    (fun {t i} hi => by
      have hi := List.mem_range.mp hi
      have serves := State.assignCore_serves (s := t) (l := []) (n := 8 * c + i) (p := i) (by omega) (by omega)
      rwa [show (8 * c + i) / 8 = c by omega] at serves)
    (fun {t i j} hi hj ne kept => by
      have hi := List.mem_range.mp hi
      have hj := List.mem_range.mp hj
      have word {k : Nat} (hpage : k / 2 ^ 32 ≠ 64 + (8 * c + j)) (hpc : k ≠ Fld.CL_PC_STATE_STATE.key (c * 9 + j) 0) :
          (t.assignCore [] (8 * c + j) j).word k = t.word k :=
        State.assignCore_word (by omega) hpage (by rwa [show (8 * c + j) / 8 = c by omega])
      have phys := word (k := Fld.CORE_CORE_STATE_PHYS.key (8 * c + i) 0) (by rw [physKey]; omega) (by rw [physKey, pcKey (by omega)]; omega)
      have state := word (k := Fld.CL_PC_STATE_STATE.key (c * 9 + i) 0) (by rw [pcKey (by omega)]; omega)
        (by rw [pcKey (by omega), pcKey (by omega)]; omega)
      rw [State.get_one (by decide)] at kept ⊢
      rw [State.get_one (by decide)] at kept ⊢
      rw [phys, state]
      exact kept)
  generalize (List.range 8).foldl _ u = t at cores
  have cores (i : Nat) (hi : i < 8) := cores i (List.mem_range.mpr hi)
  constructor
  · intro i hi
    rw [State.get_put_key (by decide) (by decide) _ _ _ _ _ _ (by rw [physKey, ninthKey]; omega),
      State.get_put_key (by decide) (by decide) _ _ _ _ _ _ (by rw [physKey, spareKey]; omega),
      State.get_put_key (by decide) (by decide) _ _ _ _ _ _ (by rw [physKey, pcKey (by decide)]; omega)]
    exact (cores i hi).1
  · intro i hi
    rw [State.get_put_key (by decide) (by decide) _ _ _ _ _ _ (by rw [pcKey (by omega), ninthKey]; omega),
      State.get_put_key (by decide) (by decide) _ _ _ _ _ _ (by rw [pcKey (by omega), spareKey]; omega),
      State.get_put_key (by decide) (by decide) _ _ _ _ _ _ (by rw [pcKey (by omega), pcKey (by decide)]; omega)]
    exact (cores i hi).2
  · rw [State.get_put_bits (by decide) (by decide) _ _ _ _ _ _ (by decide), State.get_put_one (by decide)]
    rfl
  · rw [State.get_put_one (by decide)]
    rfl

/-- Without an entry in a list the cores are numbered without holes (R395). -/
theorem numbered_nil {fuse bist : List Nat} : Numbered ((List.range 8).foldl (fun t c => t.numberCluster fuse bist [] c) s) :=
  Numbered.of_clusters fun c hc => foldl_establishes (P := ClusterNumbered)
    (fun hc => State.numberCluster_nil_numbers (List.mem_range.mp hc))
    (fun {t c d} hc hd ne h => by
      have hc := List.mem_range.mp hc
      have hd := List.mem_range.mp hd
      exact h.words fun k hk => State.numberCluster_nil_word hd (by omega) (by omega))
    c (List.mem_range.mpr hc)

end Sys2Proof.Machine
end

section
/-! SUPPORT. The COMMIT phase and the relay hold (O9). -/

namespace Sys2Proof.Machine

variable {K : Kept} {s t : State}

/-! ### The numbering keeps the bring-up -/

/-- Before the cores are numbered a word of any page above the clock's may change. -/
theorem Kept.Holds.free (h : K.Holds s) (hK : K.numbered = false) {k : Nat} {v : BitVec 32} (hk : 4 * 2 ^ 32 ≤ k) : K.Holds (s.setWord k v) :=
  h.write (by rw [posKey]; omega) fun n => absurd (hK.symm.trans n) (by decide)

theorem Kept.Holds.freeField (h : K.Holds s) (hK : K.numbered = false) {f : Fld} {v i : Nat} (hf : f.one) (hk : 4 * 2 ^ 32 ≤ f.key i 0) :
    K.Holds (s.put f v i) := by
  rw [State.put_one hf]
  exact h.free hK hk

theorem le_pcKey (i : Nat) : 4 * 2 ^ 32 ≤ Fld.CL_PC_STATE_STATE.key i 0 := by
  simp [Fld.key, regKey, Fld.CL_PC_STATE_STATE]
  omega

theorem le_granKey (u g : Nat) : 4 * 2 ^ 32 ≤ granKey u g := by
  unfold granKey
  split <;> simp [Fld.key, regKey, Fld.CORE_CM_GRAN_STATE, Fld.FLD_SL_GRAN_WORD] <;> omega

theorem Kept.Holds.assignCore (h : K.Holds s) (hK : K.numbered = false) {l : List Nat} {n p : Nat} : K.Holds (s.assignCore l n p) := by
  unfold State.assignCore
  extract_lets cl s1 s2 off
  have hs1 : K.Holds s1 := (h.freeField hK (by decide) (by rw [physKey]; omega)).free hK (by rw [spareMapKey]; omega)
  have hs2 : K.Holds s2 := (hs1.freeField hK (by decide) (le_pcKey _)).freeField hK (by decide) (by rw [logicalKey]; exact le_pcKey _)
  exact .foldl hs2 fun _ h => h.free hK (le_granKey _ _)

theorem Kept.Holds.numberCluster (h : K.Holds s) (hK : K.numbered = false) {fuse bist all : List Nat} {c : Nat} :
    K.Holds (s.numberCluster fuse bist all c) := by
  have holes {t : State} {v : Nat} (h : K.Holds t) : K.Holds (t.put Fld.CL_CL_STATUS_HOLES v c) :=
    h.freeField hK (by decide) (by rw [holesKey]; omega)
  have avail {t : State} {v : Nat} (h : K.Holds t) : K.Holds (t.put Fld.CL_CL_STATUS_SPARE_AVAIL v c) :=
    h.freeField hK (by decide) (by rw [spareKey]; omega)
  have spare {t : State} {v : Nat} (h : K.Holds t) : K.Holds (t.put Fld.CL_CL_STATUS_SPARE_PHYS v c) :=
    h.freeField hK (by decide) (by rw [ninthKey]; omega)
  have state {t : State} {v i : Nat} (h : K.Holds t) : K.Holds (t.put Fld.CL_PC_STATE_STATE v i) := h.freeField hK (by decide) (le_pcKey i)
  unfold State.numberCluster
  extract_lets good s1 s2 s3
  have hs1 : K.Holds s1 := avail (holes h)
  have hs2 : K.Holds s2 := .foldl hs1 fun {t p} hp h => by
    have hp := List.mem_range.mp hp
    have bypassed : K.Holds (t.setWord (Fld.CL_PC_BYPASS_WORD.key (c * 9 + p) 0) (BitVec.ofNat 32 (bypassWord all c p))) :=
      h.free hK (by rw [bypassKey hp]; omega)
    exact .ite bypassed (state bypassed)
  have hs3 : K.Holds s3 := .foldl hs2 fun _ h => by
    split
    · exact h.assignCore hK
    · exact .foldl (holes h) fun _ h => h.free hK (le_granKey _ _)
  split
  · exact spare (avail (state hs3))
  · exact spare hs3

/-! ### Without an entry in a list -/

/-- The words of the plats' counts are all that tells whether a plat is empty. -/
theorem plats_nil_of_word (hw : t.word (2 * 2 ^ 32 + 0x100) = s.word (2 * 2 ^ 32 + 0x100)) :
    (s.fusePlat = [] → t.fusePlat = []) ∧ (s.retPlat = [] → t.retPlat = []) ∧ (s.fieldPlat = [] → t.fieldPlat = []) := by
  have count {f : Fld} (hf : f.one) (hkey : f.key 0 0 = 2 * 2 ^ 32 + 0x100) : t.get f = s.get f := by
    rw [State.get_one hf, State.get_one hf, hkey, hw]
  unfold State.fusePlat State.retPlat State.fieldPlat
  rw [count (f := Fld.PLAT_PLAT_COUNTS_FUSE) (by decide) (by decide), count (f := Fld.PLAT_PLAT_COUNTS_RETAINED) (by decide) (by decide),
    count (f := Fld.PLAT_PLAT_COUNTS_FIELD) (by decide) (by decide)]
  simp

theorem State.setMeas_word {i k : Nat} {b : Bytes} (hi : i < 16) (hk : k / 2 ^ 32 ≠ 6) : (s.setMeas i b).word k = s.word k := by
  unfold State.setMeas State.putBytes
  rw [fit_length]
  refine State.word_foldl fun {t j} hj => State.word_put_ne _ _ _ _ _ ?_ (.inl (by decide))
  have := List.mem_range.mp hj
  rw [measKey]
  omega

/-! ### The loader's end -/

/-- Where the loader has no section, its end tells so, and the boot links end (R396). -/
theorem Kept.Holds.loadEnd (h : K.Holds s) {l : List Bytes} (hl : s.boot.sections = some l) :
    s.loadEnd.boot.sections = some l ∧ s.loadEnd.boot.stream = s.boot.stream ∧ (K.numbered = true → Numbered s.loadEnd) := by
  unfold State.loadEnd
  split
  · next ended =>
    obtain ⟨_, none, _⟩ := ended
    have empty : l = [] := by simpa [hl] using none
    unfold State.loaded
    extract_lets old s1 s2
    let L : Kept := { K with boot := s1.boot }
    have hs1 : L.Holds s1 := ⟨rfl, h.pos, h.links, fun n => (h.cores n).congr rfl⟩
    have hs2 := hs1.takeRoles (l := (List.range 40).filter (fun m => !s1.serving m))
    rw [Kept.unlink_foldl] at hs2
    change Kept.Holds _ s2 at hs2
    have done {t : State} {f : Nat → Bool} (ht : ({ L with links := f } : Kept).Holds t) :
        t.boot.sections = some l ∧ t.boot.stream = s.boot.stream ∧ (K.numbered = true → Numbered t) :=
      ⟨by rw [ht.boot, empty], by rw [ht.boot], ht.cores⟩
    split
    · exact done hs2
    · exact done hs2.same.put
  · exact ⟨hl, rfl, h.cores⟩

end Sys2Proof.Machine
end

section
/-! SUPPORT. The first clause of the loader, and the end of the relay hold (O9). -/

namespace Sys2Proof.Machine

variable {K : Kept} {s t : State}

/-- What the state has before its cores are numbered, and `b`, whether they will be. -/
def State.kept (s : State) (b : Bool) : Kept := ⟨s.boot, s.get Fld.CLK_CLK_AON_DIEPOS, fun m => (s.mod m).boot, b⟩

theorem State.kept_holds (s : State) : (s.kept false).Holds s := ⟨rfl, rfl, fun _ => rfl, nofun⟩

theorem State.inPhase_of_phase {n : Nat} (h : s.inPhase n = true) : (!s.inPhase n) = false := by simp [h]

/-- The stream and the die's position give the loader its sections. -/
theorem Kept.Holds.loadSections {b : Bool} (h : (s.kept b).Holds t) : t.loadSections = s.loadSections := by
  unfold State.loadSections
  rw [h.boot, h.pos]
  rfl

/-- Once the plats have been read, the numbering leaves the loader with its sections, and numbered cores as they are. -/
theorem Kept.Holds.commitLinks {b : Bool} (h : (s.kept b).Holds t) {all bad : List Nat} {p : Nat → Bool} :
    let t1 := (List.range 8).foldl (fun t sl => (List.range 48).foldl (fun t g => t.setGran (64 + sl) g (if (sliceGrans all sl).contains g then 5 else 0)) t) t
    let t2 := (bad.filter p).foldl (fun t e => if t.modState (bitsAt e 4 6) = 6 then t.leaveActive (bitsAt e 4 6) 0 else t) t1
    let u := ({ t2.markLinks bad with boot := { t2.boot with sections := some t2.loadSections, numbered := true } } : State).loadEnd
    u.boot.sections = some s.loadSections ∧ u.boot.stream = s.boot.stream ∧ (b = true → Numbered u) := by
  intro t1 t2 u
  have ht1 : (s.kept b).Holds t1 := .foldl h fun {t sl} hsl h => .foldl h fun {t g} hg h => by
    have hsl := List.mem_range.mp hsl
    have hg := List.mem_range.mp hg
    refine h.setWord ?_
    rw [sliceGranKey]
    simp [shown]
    omega
  have ht2 : (s.kept b).Holds t2 := .foldl ht1 fun _ h => .ite h.leaveActive h
  have hm : (s.kept b).Holds (t2.markLinks bad) := ht2.markLinks
  let x : State := { t2.markLinks bad with boot := { t2.boot with sections := some t2.loadSections, numbered := true } }
  have hx : ({ s.kept b with boot := x.boot } : Kept).Holds x := ⟨rfl, hm.pos, hm.links, fun n => (hm.cores n).congr rfl⟩
  obtain ⟨sections, stream, cores⟩ := hx.loadEnd (l := s.loadSections) (by rw [← ht2.loadSections])
  exact ⟨sections, stream.trans (by show t2.boot.stream = _; rw [ht2.boot]; rfl), cores⟩

/-- The COMMIT phase gives the loader its sections and numbers the cores (R395, R396). -/
theorem State.commitPhase_answers (hphase : s.inPhase 7 = true) (hsections : s.boot.sections = none) :
    Answers (exec .commitPhase s) fun t => t.boot.sections = some s.loadSections ∧ t.boot.stream = s.boot.stream ∧
      (s.fusePlat = [] → s.boot.findings = [] → s.retPlat = [] → s.fieldPlat = [] → s.fieldRecord = none → Numbered t) := by
  show Answers (execCommitPhase s) _
  unfold execCommitPhase
  rw [if_neg (by simp [hphase, hsections])]
  extract_lets m t fuse bist field t2 all t3 t4 bad t5
  have ht : (s.kept false).Holds t := s.kept_holds.mergeField.setMeas (by decide)
  have ht2 : (s.kept false).Holds t2 := ht.newFindings
  have ht3 : (s.kept false).Holds t3 := .foldl ht2 fun _ h => h.numberCluster rfl
  refine ⟨_, rfl, ?_⟩
  obtain ⟨sections, stream, _⟩ := ht3.commitLinks (all := all) (bad := bad) (p := fun e => e % 16 == 9)
  refine ⟨sections, stream, fun hfuse hfound hret hfield hrecord => ?_⟩
  have numbered : Numbered t3 := by
    have hm : m.1 = s := by simp [m, State.mergeField, hrecord]
    have word : t.word (2 * 2 ^ 32 + 0x100) = s.word (2 * 2 ^ 32 + 0x100) := by
      unfold t
      rw [hm]
      exact State.setMeas_word (by decide) (by decide)
    obtain ⟨fuses, kept, fields⟩ := plats_nil_of_word word
    have found : t.boot.findings = [] := by rw [ht.boot]; exact hfound
    have same : t2 = t := by simp [t2, State.newFindings, found, platGood]
    have none_ : all = [] := by simp [all, fuse, bist, field, same, found, fuses hfuse, kept hret, fields hfield, platGood]
    unfold t3
    rw [none_]
    exact numbered_nil
  have hn : (s.kept true).Holds t3 := ⟨ht3.boot, ht3.pos, ht3.links, fun _ => numbered⟩
  exact (hn.commitLinks (all := all) (bad := bad) (p := fun e => e % 16 == 9)).2.2 rfl

/-- The end of the relay hold ends every boot link (R396). -/
theorem State.relayHold_answers (hphase : s.inPhase 7 = true) (hroled : s.roled = true) (hover : s.boot.roledAt + s.relayHold ≤ s.now) :
    Answers (exec .relayHoldExpiry s) fun t => t.boot.relayOver = true ∧ ∀ m < 40, (t.mod m).boot = false := by
  refine ⟨({ s with boot := { s.boot with relayOver := true } } : State).relayDone, ?_, State.relayDone_links hphase hroled rfl⟩
  show execRelayHoldExpiry s = _
  unfold execRelayHoldExpiry
  rw [if_neg (by simp [hphase, hroled]; omega)]

end Sys2Proof.Machine
end

section
/-! SUPPORT. The records of the loader's sections (O9): how one is taken, and what the loader's writes do. -/

namespace Sys2Proof.Machine

variable {s t : State} {a : Acc} {page off v : Nat} {w : RegW}

/-! ### One record -/

theorem leVal_lt (b : Bytes) : leVal b < 256 ^ b.length := by
  induction b with
  | nil => decide
  | cons x b ih =>
    have hx : x.toNat < 256 := x.isLt
    rw [leVal, List.length_cons, pow_succ]
    omega

theorem leAt_lt {b : Bytes} {o n : Nat} : leAt b o n < 256 ^ n :=
  (leVal_lt _).trans_le (Nat.pow_le_pow_right (by decide) (List.length_take_le n (b.drop o)))

theorem leAt_take {b : Bytes} {m o n : Nat} (h : o + n ≤ m) : leAt (b.take m) o n = leAt b o n := by
  unfold leAt sub
  rw [List.drop_take, List.take_take, Nat.min_eq_left (by omega)]

theorem State.applyRecord_take (t : State) (b : Bytes) : t.applyRecord (b.take 12) = t.applyRecord b := by
  unfold State.applyRecord
  simp only [leAt_take (show 0 + 2 ≤ 12 by decide), leAt_take (show 2 + 2 ≤ 12 by decide), leAt_take (show 4 + 2 ≤ 12 by decide),
    leAt_take (show 6 + 1 ≤ 12 by decide), leAt_take (show 7 + 1 ≤ 12 by decide), leAt_take (show 8 + 4 ≤ 12 by decide)]

/-- The bring-up with the section's first record taken off. -/
def State.took (s : State) (b : Bytes) (rest : List Bytes) : State :=
  { s with boot := { s.boot with waits := [], sections := some (b.drop 12 :: rest) } }

theorem State.took_loads {b : Bytes} {rest : List Bytes} (hphase : s.inPhase 7 = true) : Configures (s.took b rest) ldrAcc := by
  refine .inr ⟨rfl, ?_⟩
  show (s.get Fld.BOOT_BOOT_STATE_PHASE == 8) = false
  simp only [State.inPhase, Bool.and_eq_true, beq_iff_eq] at hphase
  rw [hphase.1]
  rfl

/-- A record of a section that goes on is applied (R396). -/
theorem exec_writeRecord_took {b : Bytes} {rest : List Bytes} (hphase : s.inPhase 7 = true) (hsections : s.boot.sections = some (b :: rest))
    (hwaits : s.boot.waits = []) (hlen : 24 ≤ b.length) : exec .writeRecord s = .next ((s.took b rest).applyRecord b) := by
  rw [exec_writeRecord]
  unfold execWriteRecord
  rw [if_neg (by simp [hphase, hwaits]), hsections]
  dsimp only
  rw [if_neg (show ¬b.length < 24 by omega), if_neg (show ¬b.length < 12 by omega), if_neg (show ¬b.length < 24 by omega)]
  exact (ite_self _).trans (congrArg Host.Outcome.next ((s.took b rest).applyRecord_take b))

theorem State.applyRecord_fail {b : Bytes} (h : 2 ≤ leAt b 6 1 ∨ leAt b 7 1 ≠ 0) : t.applyRecord b = t.fail 9 := by
  unfold State.applyRecord
  extract_lets
  exact if_pos h

theorem State.applyRecord_commit {b : Bytes} (hop : leAt b 6 1 = 1) (hres : leAt b 7 1 = 0) :
    t.applyRecord b = { t.loaderWrite (leAt b 0 2 % 1024) 0x10 1 with
      boot := { (t.loaderWrite (leAt b 0 2 % 1024) 0x10 1).boot with waits := [leAt b 0 2 % 1024] } } := by
  unfold State.applyRecord
  dsimp only
  rw [if_neg (by omega), if_pos hop]

theorem State.applyRecord_page {b : Bytes} (hop : leAt b 6 1 = 0) (hres : leAt b 7 1 = 0) (hinst : leAt b 4 2 = 0xFFFF) :
    t.applyRecord b = t.loaderWrite (leAt b 0 2 % 1024) (leAt b 2 2) (leAt b 8 4) := by
  unfold State.applyRecord
  dsimp only
  rw [if_neg (by omega), if_neg (by omega), if_pos hinst]

theorem State.applyRecord_window {b : Bytes} (hop : leAt b 6 1 = 0) (hres : leAt b 7 1 = 0) (hinst : leAt b 4 2 ≠ 0xFFFF) :
    t.applyRecord b =
      (t.loaderWrite (leAt b 0 2 % 1024) 0x2C (leAt b 4 2)).loaderWrite (leAt b 0 2 % 1024) (0xB000 + leAt b 2 2) (leAt b 8 4) := by
  unfold State.applyRecord
  dsimp only
  rw [if_neg (by omega), if_neg (by omega), if_neg hinst]

/-! ### The loader's writes -/

/-- A write of the loader that ends well. -/
theorem State.loaderWrite_ok (h : t.ctlWrite ldrAcc (pageAddr page off) 4 v = s) (hcode : s.ctl.code = 0) : t.loaderWrite page off v = s := by
  have write : t.ctlWriteBy ctlAct ldrAcc (0x40000000 + page * 0x10000 + off) 4 v = s := h
  unfold State.loaderWrite
  rw [write]
  exact if_pos hcode

/-- A write of MP or of the loader, where no check of the page stops it, reaches its register. -/
theorem Configures.write_spot (h : Configures s a) (hpop : populated page = true) (hpage : page ≠ 0xD) (hoff : off < 0x10000)
    (hword : off % 4 = 0) (hblock : blockOff off = false) {inst o : Nat} {view : Bool} (hspot : s.spot a.cls page off = .reg inst o view)
    (hsel : chselOk a inst o = true) (v : Nat) :
    s.ctlWrite a (pageAddr page off) 4 v = s.putSpot ctlAct a page inst o (v % 2 ^ 32) := by
  have check : s.entryCheck a page off 4 true = none := by
    simp [State.entryCheck, h.port, hpop, sizeOk_word hword, h.class, h.mask, hblock]
  rw [State.ctlWrite_pageAddr s a (populated_lt hpop) hoff]
  unfold State.pageOffWrite
  rw [check, hspot]
  simp [State.writeReg, h.onPage hpage, h.host, hsel]

/-- A write of MP or of the loader to a register of a page's header. -/
theorem Configures.write_header (h : Configures s a) (hpop : populated page = true) (hpage : page ≠ 0xD) (hoff : off < 0x30)
    (hword : off % 4 = 0) (hsel : chselOk a 0 off = true) (v : Nat) :
    s.ctlWrite a (pageAddr page off) 4 v = s.headerWrite a page off (v % 2 ^ 32) := by
  have block : blockOff off = false := by
    simp [blockOff]
    omega
  rw [h.write_spot hpop hpage (by omega) hword block (State.spot_header s a.cls page hoff) hsel]
  exact if_pos ⟨rfl, hoff⟩

end Sys2Proof.Machine
end

section
/-! SUPPORT. What the records of the loader's sections do (O9). -/

namespace Sys2Proof.Machine

variable {s t u : State} {a : Acc} {page off v : Nat} {w : RegW} {b : Bytes} {rest : List Bytes}

/-! ### The state that a die enters -/

theorem State.toPhase_regs (s : State) (p : Nat) : (s.toPhase p).regs =
    ((if s.get Fld.BOOT_BOOT_STATE_PHASE < 8 then
        s.put Fld.BOOT_BOOT_PH_US ((s.now - s.boot.phaseAt) / 100) 0 (s.get Fld.BOOT_BOOT_STATE_PHASE) else s).put Fld.BOOT_BOOT_STATE_PHASE p).regs := by
  unfold State.toPhase
  dsimp only

theorem State.get_toPhase (s : State) (p : Nat) : (s.toPhase p).get Fld.BOOT_BOOT_STATE_PHASE = p % 2 ^ Fld.BOOT_BOOT_STATE_PHASE.len := by
  rw [State.get_congr (s.toPhase_regs p), State.get_put_one (by decide)]

/-- A die that fails is in phase 0xF with its code (R397). -/
theorem State.get_fail (s : State) (code : Nat) :
    (s.fail code).get Fld.BOOT_BOOT_STATE_PHASE = 0xF ∧ (s.fail code).get Fld.BOOT_BOOT_STATE_ERR = code % 2 ^ Fld.BOOT_BOOT_STATE_ERR.len := by
  have reports := State.event_reports ((s.toPhase 0xF).put Fld.BOOT_BOOT_STATE_ERR code) Fld.BOOT_PAGE_EVENT_BOOT_FAIL 0 0
  unfold State.fail
  rw [reports.get (by decide) _ _ (by decide), reports.get (by decide) _ _ (by decide),
    State.get_put_bits (by decide) (by decide) _ _ _ _ _ _ (by decide), State.get_toPhase, State.get_put_one (by decide)]
  exact ⟨rfl, rfl⟩

/-! ### Header registers -/

/-- What enabling page events does but writing the word is reporting (R65). -/
theorem State.headerWrite_enable (t : State) (a : Acc) (page v : Nat) :
    ∃ u, t.headerWrite a page 0x18 v = u.done 0 0 ∧ Reports (t.setWord (pageEventEn page) (BitVec.ofNat 32 v)) u := by
  unfold State.headerWrite
  refine ⟨_, rfl, ?_⟩
  have signals {c : Bool} {x : State} {dest : Nat} (h : Reports (t.setWord (pageEventEn page) (BitVec.ofNat 32 v)) x) :
      Reports (t.setWord (pageEventEn page) (BitVec.ofNat 32 v)) (if c then x.signal page 0 dest else x) := by
    split
    · exact h.trans (State.signal_reports _ _ _ _)
    · exact h
  exact signals (signals (Reports.refl _))

/-- A COMMIT by the owner of the staging copy makes the page busy (R60). -/
theorem State.headerWrite_commit (hpending : t.stagedPending page = true) (hown : t.ownsStage a page = true) (hbusy : t.commitBusy page = false) :
    t.headerWrite a page 0x10 1 = (t.setWord (regKey page 0 0x10) 4).done 0 0 := by
  show t.doCommit a page = _
  unfold State.doCommit
  rw [hpending, hown, hbusy]
  rfl

/-! ### Staged words -/

/-- A staged write leaves every live word but the page's status. -/
theorem State.word_stage {k j mask : Nat} (hj : j ≠ regKey page 0 0xC) : (t.stage a page k mask v).word j = t.word j := by
  have status (d : BitVec 32) : (t.setWord (regKey page 0 0xC) d).word j = t.word j := State.word_setWord_ne t hj d
  unfold State.stage
  extract_lets w s1 old m
  show s1.word j = _
  unfold s1
  split
  · rfl
  · exact status _

/-- A staged word takes the bits that are written, and keeps the others (R58). -/
theorem State.staged_stage {k mask : Nat} : tget noStage k (t.stage a page k mask v).staged =
    { val := ((tget noStage k t.staged).val &&& ~~~BitVec.ofNat 32 mask) ||| (BitVec.ofNat 32 v &&& BitVec.ofNat 32 mask)
      mask := (tget noStage k t.staged).mask ||| BitVec.ofNat 32 mask } := by
  have same : (if bitOf (t.word (regKey page 0 0xC)).toNat 0 then t else t.setWord (regKey page 0 0xC)
      (BitVec.ofNat 32 (1 + 2 * clsCode a.cls + (if a.cls = .host then a.dom % 256 * 256 else 0)))).staged = t.staged := by
    split
    · rfl
    · rw [State.setWord_eq]
  unfold State.stage
  dsimp only
  rw [tget_tset, if_pos rfl, same]

/-- A staged write touches registers and staging alone. -/
theorem State.stage_frame (t : State) (a : Acc) (page k mask v : Nat) :
    t.stage a page k mask v = { t with regs := (t.stage a page k mask v).regs, staged := (t.stage a page k mask v).staged } := by
  unfold State.stage
  extract_lets w s1 old m
  have hs1 : s1 = { t with regs := s1.regs } := by
    unfold s1
    split
    · rfl
    · rw [State.setWord_eq]
  rw [hs1]

/-! ### What a record writes -/

/-- A word that the loader writes in place. -/
theorem Configures.loads_plain (h : Configures t ldrAcc) (live : LiveReg t page off) (hpage : page ≠ 0xD) (hv : v < 2 ^ 32)
    (hw : regWord (blkOf page) false off = some w) (hws : w.ws = 0) (plain : ctlAct t ldrAcc page 0 off v = none) :
    t.loaderWrite page off v =
      (t.setWord (regKey page 0 off) (plainValue (t.word (regKey page 0 off)) (BitVec.ofNat 32 v) w)).done 0 0 :=
  State.loaderWrite_ok (h.write_plain live hpage hv hw hws plain) rfl

/-- A word that the loader stages. -/
theorem Configures.loads_staged (h : Configures t ldrAcc) (live : LiveReg t page off) (hpage : page ≠ 0xD) (hv : v < 2 ^ 32)
    (hw : regWord (blkOf page) false off = some w) (hws : w.ws ≠ 0) (test : t.stageTest ldrAcc page = 0)
    (plain : ctlAct t ldrAcc page 0 off v = none) :
    t.loaderWrite page off v = ((t.plainWrite (regKey page 0 off) v w).stage ldrAcc page (regKey page 0 off) w.ws v).done 0 0 := by
  refine State.loaderWrite_ok ?_ rfl
  rw [h.write_live live hpage, Nat.mod_eq_of_lt hv, State.putSpot_block (.inr (by have := live.block.1; omega)) plain]
  exact State.wordWrite_staged t hw hws test v

end Sys2Proof.Machine
end

section
/-! SUPPORT. The clauses of a loader's record (O9). -/

namespace Sys2Proof.Machine

variable {s t u : State} {a : Acc} {page off v : Nat} {w : RegW} {b : Bytes} {rest : List Bytes}

/-- The enables of the page events are a word of the header (R65). -/
theorem State.loaderWrite_enable (h : Configures t ldrAcc) (hpop : populated page = true) (hpage : page ≠ 0xD) (hv : v < 2 ^ 32) :
    Reports (t.setWord (pageEventEn page) (BitVec.ofNat 32 v)) { t.loaderWrite page 0x18 v with ctl := t.ctl } := by
  obtain ⟨u, write, reports⟩ := t.headerWrite_enable ldrAcc page v
  have whole : t.loaderWrite page 0x18 v = u.done 0 0 := State.loaderWrite_ok
    (by rw [h.write_header hpop hpage (by decide) (by decide) rfl, Nat.mod_eq_of_lt hv, write]) rfl
  rw [whole]
  have same : ({ u.done 0 0 with ctl := t.ctl } : State) = u := by
    have ctl : u.ctl = t.ctl := by rw [reports.rest, State.setWord_eq]
    rw [← ctl]
    rfl
  rwa [same]

/-- A plain word: what the loader's write of it leaves. -/
theorem State.done_setWord_frame (k : Nat) (x : BitVec 32) :
    (t.setWord k x).done 0 0 = { t with regs := ((t.setWord k x).done 0 0).regs, ctl := { code := 0, data := 0 } } := by
  rw [State.done, State.setWord_eq]

/-- A staged word: what the loader's write of it leaves. -/
theorem State.done_stage_words (k : Nat) (hk : k ≠ regKey page 0 0xC) :
    let x := ((t.plainWrite k v w).stage a page k w.ws v).done 0 0
    x = { t with regs := x.regs, staged := x.staged, ctl := { code := 0, data := 0 } } ∧
      x.word k = plainValue (t.word k) (BitVec.ofNat 32 v) w ∧
      (tget noStage k x.staged).mask = (tget noStage k t.staged).mask ||| BitVec.ofNat 32 w.ws ∧
      (tget noStage k x.staged).val =
        ((tget noStage k t.staged).val &&& ~~~BitVec.ofNat 32 w.ws) ||| (BitVec.ofNat 32 v &&& BitVec.ofNat 32 w.ws) := by
  intro x
  have staged : x.staged = ((t.plainWrite k v w).stage a page k w.ws v).staged := rfl
  have before : (t.plainWrite k v w).staged = t.staged := by rw [State.plainWrite_eq, State.setWord_staged]
  refine ⟨?_, ?_, ?_, ?_⟩
  · show State.done _ 0 0 = _
    rw [staged]
    unfold x State.done
    rw [State.stage_frame (t.plainWrite k v w), State.plainWrite_eq, State.setWord_eq]
  · rw [State.word_done, State.word_stage hk, State.plainWrite_eq, State.word_setWord_self]
  · rw [staged, State.staged_stage, before]
  · rw [staged, State.staged_stage, before]

/-! ### Windows -/

/-- The loader selects window `i` of a page (R56). -/
theorem Configures.loads_chsel (h : Configures t ldrAcc) (hpop : populated page = true) (hpage : page ≠ 0xD) {i : Nat} (hi : i < 65536) :
    t.loaderWrite page 0x2C i = (t.setWord (regKey page 0 0x2C) (BitVec.ofNat 32 i)).done 0 0 := by
  refine State.loaderWrite_ok ?_ rfl
  rw [h.write_header hpop hpage (by decide) (by decide) rfl, Nat.mod_eq_of_lt (by omega)]
  show (t.setWord (regKey page 0 0x2C) (BitVec.ofNat 32 (i % 65536))).done 0 0 = _
  rw [Nat.mod_eq_of_lt hi]

/-- The loader's own offsets show the window that it has selected (R49, R56). -/
theorem State.spot_ldrWindow {i : Nat} (hsel : t.chsel page .ldr = i) (hi : i < instCount page) (hoff : off < 0x800) :
    t.spot .ldr page (0xB000 + off) = .reg (i + 1) off false := by
  have count : instCount page ≠ 0 := by omega
  have class_ : (0xB000 + off - 0x8000) / 0x1000 = clsCode .ldr := by
    show _ = 3
    omega
  unfold State.spot
  rw [if_neg (by omega), if_neg (by omega), if_neg (by omega), if_neg (by omega), if_neg (by omega), if_pos (by omega), if_neg count,
    if_neg (by simpa using class_), hsel, if_neg (by omega), show (0xB000 + off) % 0x800 = off by omega,
    show decide ((0xB000 + off) % 0x1000 ≥ 0x800) = false by rw [decide_eq_false_iff_not]; omega]

/-- A write of the loader through its window reaches the selected window. -/
theorem Configures.loads_window (h : Configures t ldrAcc) (hpop : populated page = true) (hpage : page ≠ 0xD) {i : Nat}
    (hsel : t.chsel page .ldr = i) (hi : i < instCount page) (hoff : off < 0x800) (hword : off % 4 = 0) (hv : v < 2 ^ 32)
    (plain : ctlAct t ldrAcc page (i + 1) off v = none) :
    t.ctlWrite ldrAcc (pageAddr page (0xB000 + off)) 4 v = t.wordWrite ldrAcc page (i + 1) off v := by
  have block : blockOff (0xB000 + off) = false := by
    simp [blockOff]
    omega
  rw [h.write_spot hpop hpage (by omega) (by omega) block (State.spot_ldrWindow hsel hi hoff) rfl, Nat.mod_eq_of_lt hv,
    State.putSpot_block (.inl (by omega)) plain]

/-! ### What is refused -/

/-- No class but DBG writes the DBG page (R54): the loader counts it and goes on. -/
theorem Configures.loads_refused (h : Configures t ldrAcc) (hlow : 0x100 ≤ off) (hhigh : off < 0x4000) (hword : off % 4 = 0) :
    t.loaderWrite 0xD off v = ((t.refuse 0xD).bump Fld.BOOT_BOOT_LDR_ERRS_COUNT).event Fld.BOOT_PAGE_EVENT_LDR_ERR := by
  have live : LiveReg t 0xD off := ⟨by decide, rfl, hlow, hhigh, hword⟩
  have write : t.ctlWriteBy ctlAct ldrAcc (0x40000000 + 0xD * 0x10000 + off) 4 v = t.refuse 0xD := by
    show t.ctlWrite ldrAcc (pageAddr 0xD off) 4 v = _
    rw [State.ctlWrite_pageAddr t ldrAcc (by decide) (by omega)]
    unfold State.pageOffWrite
    rw [live.entryCheck true h.port (h.class _ _ _) (h.mask _ _), State.spot_live t _ _ hlow hhigh]
    rfl
  unfold State.loaderWrite
  rw [write]
  exact if_neg Nat.one_ne_zero

end Sys2Proof.Machine
end

section
/-! SUPPORT. The loader, record by record (O9). -/

namespace Sys2Proof.Machine

variable {s : State} {w : RegW} {b : Bytes} {rest : List Bytes}

/-- The event enables of a page, as the image sets them. -/
theorem writeRecord_enable (hphase : s.inPhase 7 = true) (hsections : s.boot.sections = some (b :: rest)) (hwaits : s.boot.waits = [])
    (hlen : 24 ≤ b.length) (hop : leAt b 6 1 = 0) (hres : leAt b 7 1 = 0) (hinst : leAt b 4 2 = 0xFFFF) (hpage : leAt b 0 2 % 1024 = 5)
    (hoff : leAt b 2 2 = 0x18) : Answers (exec .writeRecord s) fun t =>
      t.boot.sections = some (b.drop 12 :: rest) ∧ t.word (pageEventEn 5) = BitVec.ofNat 32 (leAt b 8 4) := by
  have reports := State.loaderWrite_enable (State.took_loads (b := b) (rest := rest) hphase) (page := 5) (by decide) (by decide)
    (show leAt b 8 4 < 2 ^ 32 from leAt_lt)
  refine ⟨_, exec_writeRecord_took hphase hsections hwaits hlen, ?_, ?_⟩ <;> rw [State.applyRecord_page hop hres hinst, hpage, hoff]
  · have boot := congrArg State.boot reports.rest
    rw [State.setWord_eq] at boot
    exact congrArg BootSt.sections boot
  · exact (reports.words (pageEventEn 5) (by decide)).trans (State.word_setWord_self _ _ _)

/-- A reserved record fails the bring-up. -/
theorem writeRecord_reserved (hphase : s.inPhase 7 = true) (hsections : s.boot.sections = some (b :: rest)) (hwaits : s.boot.waits = [])
    (hlen : 24 ≤ b.length) (hrsv : 2 ≤ leAt b 6 1 ∨ leAt b 7 1 ≠ 0) : Answers (exec .writeRecord s) fun t =>
      t.get Fld.BOOT_BOOT_STATE_PHASE = 0xF ∧ t.get Fld.BOOT_BOOT_STATE_ERR = 9 := by
  refine ⟨_, exec_writeRecord_took hphase hsections hwaits hlen, ?_⟩
  rw [State.applyRecord_fail hrsv]
  exact State.get_fail _ 9

theorem State.done_staged (s : State) (code data : Nat) : (s.done code data).staged = s.staged := by
  unfold State.done
  exact Eq.refl _

theorem State.done_boot (s : State) (code data : Nat) : (s.done code data).boot = s.boot := by
  unfold State.done
  exact Eq.refl _

/-- A page that the loader waits for, after its COMMIT. -/
theorem State.waits_committed {x : State} {page : Nat} (busy : x.commitBusy page = true) (staged : x.staged = s.staged)
    (boot : x.boot = (s.took b rest).boot) :
    let t : State := { x with boot := { x.boot with waits := [page] } }
    t.commitBusy page = true ∧ t.boot.waits = [page] ∧ t.staged = s.staged ∧ t.boot.sections = some (b.drop 12 :: rest) :=
  ⟨busy, rfl, staged, congrArg BootSt.sections boot⟩

/-- A COMMIT record is waited for. -/
theorem writeRecord_commit (hphase : s.inPhase 7 = true) (hsections : s.boot.sections = some (b :: rest)) (hwaits : s.boot.waits = [])
    (hlen : 24 ≤ b.length) (hres : leAt b 7 1 = 0) (hop : leAt b 6 1 = 1) {page : Nat} (hrec : leAt b 0 2 % 1024 = page)
    (hpop : populated page = true) (hpage : page ≠ 0xD) (hpending : s.stagedPending page = true) (hown : s.ownsStage ldrAcc page = true)
    (hbusy : s.commitBusy page = false) : Answers (exec .writeRecord s) fun t =>
      t.commitBusy page = true ∧ t.boot.waits = [page] ∧ t.staged = s.staged ∧ t.boot.sections = some (b.drop 12 :: rest) := by
  have write : (s.took b rest).loaderWrite page 0x10 1 = ((s.took b rest).setWord (regKey page 0 0x10) 4).done 0 0 :=
    State.loaderWrite_ok (((State.took_loads hphase).write_header hpop hpage (by decide) (by decide) rfl 1).trans
      (State.headerWrite_commit hpending hown hbusy)) rfl
  have busy : ((s.took b rest).loaderWrite page 0x10 1).commitBusy page = true := by
    rw [State.commitBusy, write, State.word_done, State.word_setWord_self]
    decide
  have staged : ((s.took b rest).loaderWrite page 0x10 1).staged = s.staged := by
    rw [write, State.done_staged, State.setWord_staged]
    rfl
  have boot : ((s.took b rest).loaderWrite page 0x10 1).boot = (s.took b rest).boot := by rw [write, State.done_boot, State.setWord_boot]
  refine ⟨_, exec_writeRecord_took hphase hsections hwaits hlen, ?_⟩
  rw [State.applyRecord_commit hop hres, hrec]
  exact State.waits_committed busy staged boot

/-- A live register of a page. -/
theorem writeRecord_page (hphase : s.inPhase 7 = true) (hsections : s.boot.sections = some (b :: rest)) (hwaits : s.boot.waits = [])
    (hlen : 24 ≤ b.length) (hres : leAt b 7 1 = 0) (hop : leAt b 6 1 = 0) (hinst : leAt b 4 2 = 0xFFFF) {page off v : Nat}
    (hrec : leAt b 0 2 % 1024 = page) (hoff : leAt b 2 2 = off) (hv : leAt b 8 4 = v) (hpage : page ≠ 0xD) (live : LiveReg s page off)
    (hw : regWord (blkOf page) false off = some w) (plain : ctlAct (s.took b rest) ldrAcc page 0 off v = none) :
    (w.ws = 0 → Answers (exec .writeRecord s) fun t =>
      t = { s.took b rest with regs := t.regs, ctl := { code := 0, data := 0 } } ∧
      t.word (regKey page 0 off) = plainValue (s.word (regKey page 0 off)) (BitVec.ofNat 32 v) w) ∧
    (w.ws ≠ 0 → s.stageTest ldrAcc page = 0 → Answers (exec .writeRecord s) fun t =>
      t = { s.took b rest with regs := t.regs, staged := t.staged, ctl := { code := 0, data := 0 } } ∧
      t.word (regKey page 0 off) = plainValue (s.word (regKey page 0 off)) (BitVec.ofNat 32 v) w ∧
      (tget noStage (regKey page 0 off) t.staged).mask = (tget noStage (regKey page 0 off) s.staged).mask ||| BitVec.ofNat 32 w.ws ∧
      (tget noStage (regKey page 0 off) t.staged).val =
        ((tget noStage (regKey page 0 off) s.staged).val &&& ~~~BitVec.ofNat 32 w.ws) ||| (BitVec.ofNat 32 v &&& BitVec.ofNat 32 w.ws)) := by
  have taken := exec_writeRecord_took hphase hsections hwaits hlen
  rw [State.applyRecord_page hop hres hinst, hrec, hoff, hv] at taken
  have loads : Configures (s.took b rest) ldrAcc := State.took_loads hphase
  have live : LiveReg (s.took b rest) page off := live
  have hv : v < 2 ^ 32 := hv ▸ leAt_lt
  refine ⟨fun hws => ⟨_, taken, ?_, ?_⟩, fun hws test => ⟨_, taken, ?_⟩⟩
  · rw [loads.loads_plain live hpage hv hw hws plain]
    exact State.done_setWord_frame _ _
  · rw [loads.loads_plain live hpage hv hw hws plain, State.word_done, State.word_setWord_self]
    rfl
  · rw [loads.loads_staged live hpage hv hw hws test plain]
    have low := live.block.1
    exact State.done_stage_words (t := s.took b rest) (a := ldrAcc) _ (by unfold regKey; omega)

/-- A register of a window. -/
theorem writeRecord_window (hphase : s.inPhase 7 = true) (hsections : s.boot.sections = some (b :: rest)) (hwaits : s.boot.waits = [])
    (hlen : 24 ≤ b.length) (hres : leAt b 7 1 = 0) (hop : leAt b 6 1 = 0) {page off v i : Nat} (hi : leAt b 4 2 = i)
    (hrec : leAt b 0 2 % 1024 = page) (hoff : leAt b 2 2 = off) (hv : leAt b 8 4 = v) (hpop : populated page = true) (hpage : page ≠ 0xD)
    (hcount : i < instCount page) (hinst : i ≠ 0xFFFF) (hhigh : off < 0x800) (hword : off % 4 = 0)
    (hw : regWord (blkOf page) true off = some w)
    (plain : ctlAct (((s.took b rest).setWord (regKey page 0 0x2C) (BitVec.ofNat 32 i)).done 0 0) ldrAcc page (i + 1) off v = none) :
    let k := regKey page (i + 1) off
    (w.ws = 0 → Answers (exec .writeRecord s) fun t =>
      t = { s.took b rest with regs := t.regs, ctl := { code := 0, data := 0 } } ∧ t.word (regKey page 0 0x2C) = BitVec.ofNat 32 i ∧
      t.word k = plainValue (s.word k) (BitVec.ofNat 32 v) w) ∧
    (w.ws ≠ 0 → (((s.took b rest).setWord (regKey page 0 0x2C) (BitVec.ofNat 32 i)).done 0 0).stageTest ldrAcc page = 0 →
      Answers (exec .writeRecord s) fun t =>
        t = { s.took b rest with regs := t.regs, staged := t.staged, ctl := { code := 0, data := 0 } } ∧
        (tget noStage k t.staged).mask = (tget noStage k s.staged).mask ||| BitVec.ofNat 32 w.ws ∧
        (tget noStage k t.staged).val =
          ((tget noStage k s.staged).val &&& ~~~BitVec.ofNat 32 w.ws) ||| (BitVec.ofNat 32 v &&& BitVec.ofNat 32 w.ws)) := by
  intro k
  let u := s.took b rest
  let c : State := (u.setWord (regKey page 0 0x2C) (BitVec.ofNat 32 i)).done 0 0
  have hi16 : i < 65536 := hi ▸ (leAt_lt : leAt b 4 2 < 256 ^ 2)
  have hv32 : v < 2 ^ 32 := hv ▸ leAt_lt
  have loads : Configures u ldrAcc := State.took_loads hphase
  have ne : k ≠ regKey page 0 0x2C := by
    unfold k regKey
    omega
  have select : c.word (regKey page 0 0x2C) = BitVec.ofNat 32 i := by rw [State.word_done, State.word_setWord_self]
  have word : c.word k = s.word k := by
    rw [State.word_done, State.word_setWord_ne u ne]
    rfl
  have frame : c = { u with regs := c.regs, ctl := { code := 0, data := 0 } } := State.done_setWord_frame _ _
  have staged : c.staged = s.staged := by rw [frame]; rfl
  have sel : c.chsel page .ldr = i := by
    show bitsAt (c.word (regKey page 0 0x2C)).toNat 0 16 = i
    rw [select, BitVec.toNat_ofNat, bitsAt]
    omega
  have released : Configures c ldrAcc := by
    refine .inr ⟨rfl, ?_⟩
    have phase : c.get Fld.BOOT_BOOT_STATE_PHASE = u.get Fld.BOOT_BOOT_STATE_PHASE := by
      rw [State.get_one (by decide), State.get_one (by decide), State.word_done, State.word_setWord_ne]
      rw [show Fld.BOOT_BOOT_STATE_PHASE.key 0 0 = 4294967552 by decide]
      unfold regKey
      omega
    obtain h | ⟨-, h⟩ := loads
    · exact absurd h (by decide)
    · unfold State.released at h ⊢
      rwa [phase]
  have write {t : State} (h : c.wordWrite ldrAcc page (i + 1) off v = t) (hcode : t.ctl.code = 0) : exec .writeRecord s = .next t := by
    rw [exec_writeRecord_took hphase hsections hwaits hlen, State.applyRecord_window hop hres (hi.trans_ne hinst), hrec, hoff, hv, hi,
      loads.loads_chsel hpop hpage hi16]
    exact congrArg Host.Outcome.next (State.loaderWrite_ok ((released.loads_window hpop hpage sel hcount hhigh hword hv32 plain).trans h) hcode)
  refine ⟨fun hws => ⟨_, write (State.wordWrite_plain c ldrAcc (inst := i + 1) (by simpa using hw) hws v) rfl, ?_, ?_, ?_⟩,
    fun hws test => ⟨_, write (State.wordWrite_staged c (inst := i + 1) (by simpa using hw) hws test v) rfl, ?_⟩⟩
  · refine (State.done_setWord_frame _ _).trans ?_
    rw [frame]
  · rw [State.word_done, State.word_setWord_ne c ne.symm, select]
  · rw [State.word_done, State.word_setWord_self, word]
  · obtain ⟨rest_, -, mask, val⟩ := State.done_stage_words (t := c) (a := ldrAcc) (v := v) (w := w) (page := page) k (by unfold k regKey; omega)
    refine ⟨rest_.trans ?_, mask.trans (by rw [staged]), val.trans (by rw [staged])⟩
    rw [frame]

end Sys2Proof.Machine
end

section
/-! SUPPORT. A write that the loader counts, and the release of compute (O9). -/

namespace Sys2Proof.Machine

variable {s t : State} {b : Bytes} {rest : List Bytes}

/-! ### Page events -/

/-- A one-bit field whose bit is set reads 1. -/
theorem State.get_of_bit {f : Fld} {i e : Nat} (hlen : f.len = 1) (hlo : f.lo < 32) (h : (s.word (f.key i e)).getLsbD f.lo = true) :
    s.get f i e = 1 := by
  rw [BitVec.getLsbD, Nat.testBit_eq_decide_div_mod_eq, decide_eq_true_eq] at h
  rw [State.get_one (by unfold Fld.one; omega), hlen, bitsAt, pow_one, h]

/-- A write that is refused counts, and the loader goes on (R396). -/
theorem writeRecord_refused (hphase : s.inPhase 7 = true) (hsections : s.boot.sections = some (b :: rest)) (hwaits : s.boot.waits = [])
    (hlen : 24 ≤ b.length) (hres : leAt b 7 1 = 0) (hop : leAt b 6 1 = 0) (hinst : leAt b 4 2 = 0xFFFF) (hrec : leAt b 0 2 % 1024 = 0xD)
    (hlow : 0x100 ≤ leAt b 2 2) (hhigh : leAt b 2 2 < 0x4000) (hword : leAt b 2 2 % 4 = 0) : Answers (exec .writeRecord s) fun t =>
      t.get Fld.BOOT_BOOT_LDR_ERRS_COUNT = satAdd Fld.BOOT_BOOT_LDR_ERRS_COUNT.len (s.get Fld.BOOT_BOOT_LDR_ERRS_COUNT) 1 ∧
      t.get Fld.BOOT_PAGE_EVENT_LDR_ERR = 1 ∧ t.boot = (s.took b rest).boot ∧ t.get Fld.BOOT_BOOT_STATE_PHASE = 7 := by
  have phase : s.get Fld.BOOT_BOOT_STATE_PHASE = 7 := by
    simp only [State.inPhase, Bool.and_eq_true, beq_iff_eq] at hphase
    exact hphase.1
  obtain ⟨-, -, refused⟩ := State.refuse_reports (s.took b rest) 0xD
  have before {f : Fld} (hf : f.one) (hkey : reportKey (f.key 0 0) = false) : ((s.took b rest).refuse 0xD).get f = s.get f :=
    (State.get_congr (Eq.refl _) _ _ _).trans (refused.get hf 0 0 hkey)
  have boot := congrArg State.boot refused.rest
  have reports := State.event_reports (((s.took b rest).refuse 0xD).bump Fld.BOOT_BOOT_LDR_ERRS_COUNT) Fld.BOOT_PAGE_EVENT_LDR_ERR 0 0
  have kept := congrArg State.boot reports.rest
  refine ⟨_, exec_writeRecord_took hphase hsections hwaits hlen, ?_⟩
  rw [State.applyRecord_page hop hres hinst, hrec, (State.took_loads hphase).loads_refused hlow hhigh hword]
  refine ⟨?_, State.get_event rfl (by decide) (by decide) _ _, ?_, ?_⟩
  · rw [reports.get (by decide) _ _ (by decide), State.get_bump (by decide), before (by decide) (by decide)]
  · exact kept.trans ((State.put_boot _ _ _ _ _).trans boot)
  · rw [reports.get (by decide) _ _ (by decide)]
    unfold State.bump
    rw [State.get_put_key (by decide) (by decide) _ _ _ _ _ _ (by decide), before (by decide) (by decide), phase]

/-! ### What the release writes -/

theorem State.askVcore_regs (s : State) (mv : Nat) : (s.askVcore mv).regs = s.regs := by
  unfold State.askVcore State.avsWrite
  split <;> rfl

theorem State.runAt_word {op k : Nat} (hstatus : k ≠ Fld.PWR_PWR_STATUS_OP.key 0 0) (hfreq : k ≠ Fld.CLK_CLK_FREQ_MHZ.key 0 0) :
    (s.runAt op).word k = s.word k := by
  unfold State.runAt
  rw [State.word_congr (State.askVcore_regs _ _), State.word_put_ne _ _ _ _ _ hfreq (.inl (by decide)),
    State.word_put_ne _ _ _ _ _ hstatus (.inl (by decide))]

/-- A phase's time and the phase stand on the BOOT page. -/
theorem State.toPhase_word {p k : Nat} (hk : k / 2 ^ 32 ≠ 1) : (s.toPhase p).word k = s.word k := by
  have time {e : Nat} (he : e < 8) : k ≠ Fld.BOOT_BOOT_PH_US.key 0 e := by
    have key : Fld.BOOT_BOOT_PH_US.key 0 e = 2 ^ 32 + (0x120 + e * 4) := by simp [Fld.key, regKey, Fld.BOOT_BOOT_PH_US]
    rw [key]
    omega
  have phase : k ≠ Fld.BOOT_BOOT_STATE_PHASE.key 0 0 := by
    rw [show Fld.BOOT_BOOT_STATE_PHASE.key 0 0 = 2 ^ 32 + 0x100 by decide]
    omega
  rw [State.word_congr (s.toPhase_regs p), State.word_put_ne _ _ _ _ _ phase (.inl (by decide))]
  split
  · next old => rw [State.word_put_ne _ _ _ _ _ (time old) (.inl (by decide))]
  · rfl

/-- The stream and the cadastre of the pool are gone. -/
structure Emptied (t : State) : Prop where
  stream : t.boot.stream = []
  cadastre : t.cadastre = false

theorem Emptied.put (h : Emptied t) {f : Fld} {v i e : Nat} : Emptied (t.put f v i e) :=
  ⟨by rw [State.put_boot]; exact h.stream, by rw [State.put_cadastre]; exact h.cadastre⟩

theorem Emptied.reports (h : Emptied s) (hr : Reports s t) : Emptied t :=
  ⟨(congrArg (fun x => x.boot.stream) hr.rest).trans h.stream, (congrArg State.cadastre hr.rest).trans h.cadastre⟩

theorem Emptied.foldl {α : Type} {f : State → α → State} {l : List α} (h : Emptied t) (hf : ∀ {t x}, Emptied t → Emptied (f t x)) :
    Emptied (l.foldl f t) := by
  induction l generalizing t with
  | nil => exact h
  | cons x l ih => exact ih (hf h)

/-- The state of the AVSBus is of no account here. -/
theorem Emptied.bus (h : Emptied t) {avs vsramDue vcoreSet vsramSet : _} : Emptied { t with avs, vsramDue, vcoreSet, vsramSet } :=
  ⟨h.stream, h.cadastre⟩

theorem Emptied.avsWrite (h : Emptied t) {rail mv : Nat} : Emptied (t.avsWrite rail mv) := by
  unfold State.avsWrite
  split
  · exact h.bus
  · exact h.bus

theorem Emptied.askVcore (h : Emptied t) {mv : Nat} : Emptied (t.askVcore mv) := by
  unfold State.askVcore
  split
  · exact h.bus.avsWrite.avsWrite
  · exact h.bus.avsWrite

theorem Emptied.runAt (h : Emptied t) {op : Nat} : Emptied (t.runAt op) := by
  unfold State.runAt
  exact h.put.put.askVcore

theorem Emptied.toPhase (h : Emptied t) {p : Nat} : Emptied (t.toPhase p) := by
  have timed {c : Prop} [Decidable c] {v e : Nat} : Emptied (if c then t.put Fld.BOOT_BOOT_PH_US v 0 e else t) := by
    split
    · exact h.put
    · exact h
  unfold State.toPhase
  extract_lets old s1 s2
  have hs1 : Emptied s1 := timed
  have hs2 : Emptied s2 := hs1.put
  clear_value s2
  exact ⟨hs1.stream, hs2.cadastre⟩

/-! ### The cores -/

theorem accSplitKey (n : Nat) : Fld.CORE_CORE_CFG_ACC_SPLIT.key n 0 = (64 + n) * 2 ^ 32 + 0x104 := by
  simp [Fld.key, regKey, Fld.CORE_CORE_CFG_ACC_SPLIT]

theorem splitBareKey (n : Nat) : Fld.CORE_CORE_CFG_SPLIT_BARE.key n 0 = (64 + n) * 2 ^ 32 + 0x104 := by
  simp [Fld.key, regKey, Fld.CORE_CORE_CFG_SPLIT_BARE]

/-- An idle core that is no hole enters service (R396). -/
def State.enterService (t : State) (n : Nat) : State :=
  if t.isHole n ∨ t.get Fld.CORE_CORE_STATE_STATE n ≠ 0 then t else (t.dropSplit n).put Fld.CORE_CORE_STATE_STATE 1 n

/-- A core that enters service writes its own page. -/
theorem State.enterService_word {n k : Nat} (hk : k / 2 ^ 32 ≠ 64 + n) : (t.enterService n).word k = t.word k := by
  unfold State.enterService State.dropSplit
  split
  · rfl
  · rw [State.word_put_ne _ _ _ _ _ (by rw [coreStateKey]; omega) (.inl (by decide)),
      State.word_put_ne _ _ _ _ _ (by rw [splitBareKey]; omega) (.inl (by decide)),
      State.word_put_ne _ _ _ _ _ (by rw [accSplitKey]; omega) (.inl (by decide))]

theorem State.enterService_state {n : Nat} (hole : t.isHole n = false) : (t.enterService n).get Fld.CORE_CORE_STATE_STATE n =
    if t.get Fld.CORE_CORE_STATE_STATE n = 0 then 1 else t.get Fld.CORE_CORE_STATE_STATE n := by
  unfold State.enterService
  by_cases idle : t.get Fld.CORE_CORE_STATE_STATE n = 0
  · rw [if_neg (by simp [hole, idle]), if_pos idle, State.get_put_one (by decide)]
    rfl
  · rw [if_pos (.inr idle), if_neg idle]

/-- Every core enters service by its own page alone. -/
theorem State.enterServices_state {n : Nat} (hn : n < 64) (hole : s.isHole n = false) :
    ((List.range 64).foldl State.enterService s).get Fld.CORE_CORE_STATE_STATE n =
      if s.get Fld.CORE_CORE_STATE_STATE n = 0 then 1 else s.get Fld.CORE_CORE_STATE_STATE n := by
  obtain ⟨l, r, parts⟩ := List.append_of_mem (List.mem_range.mpr hn)
  have once := List.nodup_range (n := 64)
  rw [parts, List.nodup_append, List.nodup_cons] at once
  obtain ⟨-, ⟨after, -⟩, before⟩ := once
  have out {m : List Nat} {x : State} {k : Nat} (hm : ∀ c ∈ m, k / 2 ^ 32 ≠ 64 + c) : (m.foldl State.enterService x).word k = x.word k :=
    State.word_foldl fun hc => State.enterService_word (hm _ hc)
  have core {m : List Nat} (hm : n ∉ m) (x : State) :
      (m.foldl State.enterService x).get Fld.CORE_CORE_STATE_STATE n = x.get Fld.CORE_CORE_STATE_STATE n := by
    rw [State.get_one (by decide), State.get_one (by decide), out fun c hc => ?_]
    rw [coreStateKey]
    have : n ≠ c := fun e => hm (e ▸ hc)
    omega
  have notBefore : n ∉ l := fun h => before n h n (by simp) rfl
  have hole' : (l.foldl State.enterService s).isHole n = false := by
    rw [← hole]
    unfold State.isHole
    rw [State.get_one (by decide), State.get_one (by decide), out fun c hc => by rw [holesKey]; omega]
  rw [parts, List.foldl_append, List.foldl_cons, core after, State.enterService_state hole', core notBefore]

end Sys2Proof.Machine
end

section
/-! SUPPORT. The release of compute, and the loader from its sections to the release (O9). -/

namespace Sys2Proof.Machine

variable {s t : State} {b : Bytes} {rest : List Bytes}

/-- Without boot links nothing waits for the relay. -/
theorem State.relayDone_idle (idle : ∀ m < 40, (s.mod m).boot = false) : s.relayDone = s := by
  have none : (List.range 40).filter (fun m => (s.mod m).boot && (s.boot.relayOver || !s.serving m)) = [] := by
    rw [List.filter_eq_nil_iff]
    intro m hm
    simp [idle m (List.mem_range.mp hm)]
  unfold State.relayDone
  rw [none]
  exact if_neg (by simp)

/-- What the released die shows: its phase, its thermal budget, its cores in service (R396, R425). -/
structure Released (s t : State) : Prop where
  phase : t.get Fld.BOOT_BOOT_STATE_PHASE = 8
  emptied : Emptied t
  budget : t.get Fld.PWR_PWR_POWER_TH_CAP = 900
  event : t.get Fld.BOOT_PAGE_EVENT_RELEASED = 1
  cores : ∀ n < 64, s.isHole n = false → t.get Fld.CORE_CORE_STATE_STATE n =
    (if s.get Fld.CORE_CORE_STATE_STATE n = 0 then 1 else s.get Fld.CORE_CORE_STATE_STATE n)

/-- Reporting leaves a released die released. -/
theorem Released.reports {u : State} (h : Released s t) (hr : Reports t u) : Released s u where
  phase := (hr.get (by decide) _ _ (by decide)).trans h.phase
  emptied := h.emptied.reports hr
  budget := (hr.get (by decide) _ _ (by decide)).trans h.budget
  event := by
    have one := h.event
    rw [State.get_one (by decide), bitsAt] at one
    have set : (t.word (pageEvent 1)).getLsbD 3 = true := by
      rw [BitVec.getLsbD, Nat.testBit_eq_decide_div_mod_eq, decide_eq_true_eq]
      exact one
    exact State.get_of_bit rfl (by decide) (hr.events 1 3 set)
  cores n hn hole := by
    rw [hr.get (by decide) _ _ (by rw [coreStateKey]; simp [reportKey, Fld.key, regKey, Fld.DSP_EVQ_LOST_COUNT]; omega)]
    exact h.cores n hn hole

/-- The registers of a released die, and that its stream is gone, are all that matters. -/
theorem Released.regs {aon : Aon} (h : Released s t) : Released s { t with aon := aon } :=
  ⟨h.phase, ⟨h.emptied.stream, h.emptied.cadastre⟩, h.budget, h.event, h.cores⟩

/-- A trip that the die has not told of yet is told now (R426). -/
theorem Released.trip (h : Released s t) : Released s
    (if t.aon.tripPending then ({ t with aon := { t.aon with tripPending := false } } : State).event Fld.PWR_PAGE_EVENT_TRIP_SEEN else t) := by
  split
  · exact h.regs.reports (State.event_reports _ _ _ _)
  · exact h

/-- The cores enter service, the die takes its operating point and its thermal budget, and the phase changes. -/
theorem Emptied.release (h : Emptied t) (hregs : t.regs = s.regs) :
    Released s ((((((List.range 64).foldl State.enterService t).runAt 1).put Fld.PWR_PWR_POWER_TH_CAP 900).toPhase 8).event Fld.BOOT_PAGE_EVENT_RELEASED) := by
  let x := (((List.range 64).foldl State.enterService t).runAt 1).put Fld.PWR_PWR_POWER_TH_CAP 900
  have entered : Emptied ((List.range 64).foldl State.enterService t) := h.foldl fun {t n} h => by
    unfold State.enterService State.dropSplit
    split
    · exact h
    · exact h.put.put.put
  have cores : ∀ n < 64, s.isHole n = false → x.get Fld.CORE_CORE_STATE_STATE n =
      (if s.get Fld.CORE_CORE_STATE_STATE n = 0 then 1 else s.get Fld.CORE_CORE_STATE_STATE n) := by
    intro n hn hole
    have hole' : t.isHole n = false := by
      unfold State.isHole at hole ⊢
      rwa [State.get_congr hregs]
    rw [← State.get_congr hregs, ← State.enterServices_state hn hole']
    have away {k : Nat} (hk : k < 64 * 2 ^ 32) : Fld.CORE_CORE_STATE_STATE.key n 0 ≠ k := by
      rw [coreStateKey]
      omega
    rw [State.get_one (by decide), State.get_one (by decide), State.word_put_ne _ _ _ _ _ (away (by decide)) (.inl (by decide)),
      State.runAt_word (away (by decide)) (away (by decide))]
  have budget : x.get Fld.PWR_PWR_POWER_TH_CAP = 900 := by
    rw [State.get_put_one (by decide)]
    rfl
  have reports := State.event_reports (x.toPhase 8) Fld.BOOT_PAGE_EVENT_RELEASED 0 0
  have hx : Emptied (x.toPhase 8) := entered.runAt.put.toPhase
  have kept {f : Fld} {i : Nat} (hf : f.one) (hkey : reportKey (f.key i 0) = false) (hpage : f.key i 0 / 2 ^ 32 ≠ 1) :
      ((x.toPhase 8).event Fld.BOOT_PAGE_EVENT_RELEASED).get f i = x.get f i := by
    rw [reports.get hf _ _ hkey, State.get_one hf, State.get_one hf, State.toPhase_word hpage]
  refine ⟨?_, hx.reports reports, ?_, State.get_event rfl (by decide) (by decide) _ _, fun n hn hole => ?_⟩
  · rw [reports.get (by decide) _ _ (by decide), State.get_toPhase]
    rfl
  · exact (kept (f := Fld.PWR_PWR_POWER_TH_CAP) (i := 0) (by decide) (by decide) (by decide)).trans budget
  · rw [← cores n hn hole]
    refine kept (by decide) ?_ ?_
    · rw [coreStateKey]
      simp [reportKey, Fld.key, regKey, Fld.DSP_EVQ_LOST_COUNT]
      omega
    · rw [coreStateKey]
      omega

theorem releaseCompute_answers (hphase : s.inPhase 7 = true) (hroled : s.roled = true) (idle : ∀ m < 40, (s.mod m).boot = false)
    (asked : bitOf (hdr s.boot.stream 14 2) 0 = false ∨ s.boot.releaseAsked = true) : Answers (exec .releaseCompute s) (Released s) := by
  have unserved : (List.range 40).any (fun m => (s.mod m).boot && s.serving m) = false := by
    rw [List.any_eq_false]
    intro m hm
    simp [idle m (List.mem_range.mp hm)]
  have go : ¬((List.range 40).any (fun m => (s.mod m).boot && s.serving m) = true ∨
      (bitOf (hdr s.boot.stream 14 2) 0 = true ∧ (!s.boot.releaseAsked) = true)) := by
    rw [unserved]
    obtain h | h := asked <;> simp [h]
  rw [exec_releaseCompute]
  unfold execReleaseCompute
  rw [if_neg (by simp [hphase, hroled]), State.relayDone_idle idle]
  extract_lets s0 pool old t1 t2 t3 t4 aon
  have same : s0 = s := rfl
  clear_value s0
  subst same
  rw [if_neg go]
  have entered : t2 = (List.range 64).foldl State.enterService t1 := rfl
  have h4 : Released s0 t4 := by
    unfold t4 t3
    rw [entered]
    exact Emptied.release ⟨rfl, rfl⟩ rfl
  exact ⟨_, rfl, h4.trip⟩

end Sys2Proof.Machine
end

section
/-! SUPPORT. The loader from its sections to the release (O9). -/

namespace Sys2Proof.Machine

theorem loaderTakesItsSections : LoaderTakesItsSections := by
  intro s hphase
  refine ⟨fun hnone => ?_, fun b rest hsec hwaits hlen hop hres hinst hpage hoff => ?_, fun b rest hsec hwaits hlen => ⟨fun hrsv => ?_, fun hres => ?_⟩⟩
  · obtain ⟨t, run, sections, stream, numbered⟩ := State.commitPhase_answers hphase hnone
    refine ⟨t, run, sections, stream, fun hfuse hfound hret hfield hrecord => ?_⟩
    have cores := numbered hfuse hfound hret hfield hrecord
    exact ⟨cores.phys, fun c hc => ⟨cores.spare c hc, cores.ninth c hc⟩⟩
  · exact writeRecord_enable hphase hsec hwaits hlen hop hres hinst hpage hoff
  · exact writeRecord_reserved hphase hsec hwaits hlen hrsv
  · refine ⟨fun hop hinst hpage live w hw plain => ?_, fun hop hpop hpage hcount hinst hhigh hword w hw plain => ?_,
      fun hop hpop hpage hpending hown hbusy => ?_, fun hop hinst hpage hlow hhigh hword => ?_⟩
    · exact writeRecord_page hphase hsec hwaits hlen hres hop hinst rfl rfl rfl hpage live hw plain
    · exact writeRecord_window hphase hsec hwaits hlen hres hop rfl rfl rfl rfl hpop hpage hcount hinst hhigh hword hw plain
    · exact writeRecord_commit hphase hsec hwaits hlen hres hop rfl hpop hpage hpending hown hbusy
    · exact writeRecord_refused hphase hsec hwaits hlen hres hop hinst hpage hlow hhigh hword

theorem releasePutsCoresIntoService : ReleasePutsCoresIntoService := by
  intro s hphase hroled
  refine ⟨State.relayHold_answers hphase hroled, fun idle asked => ?_⟩
  obtain ⟨t, run, released⟩ := releaseCompute_answers hphase hroled idle asked
  exact ⟨t, run, released.phase, by simp [State.released, released.phase], released.emptied.stream, released.emptied.cadastre,
    released.budget, released.event, released.cores⟩

/-- Settles O9: the COMMIT phase and the relay hold keep the bring-up through all that a module's role reaches, and each record does what its
write does. -/
theorem loaderRunsUpToRelease : Obligations.LoaderRunsUpToRelease := ⟨loaderTakesItsSections, releasePutsCoresIntoService⟩

end Sys2Proof.Machine
end

section
/-! SUPPORT. Cores that stop (O22-O26, O30): what replacing a core leaves alone, what a fault latches (R104), and what stopping a gang or
ending a test kernel leaves alone (R102, R293). -/

namespace Sys2Proof.Machine

variable {s t u : State} {n : Nat}

/-! ### Replacing a core -/

/-- Replacing a core is all that happens. -/
theorem State.setCore_becomes (s : State) (n : Nat) (k : CoreSt) : CoreBecomes s (s.setCore n k) n k :=
  ⟨by rw [State.setCore_eq], s.core_setCore_self n k, fun m hm => s.core_setCore_ne hm k⟩

/-- The core that a row of the table names is one of the 64. -/
theorem onUnit_lt {kind : String} {k i : Nat} (h : i < k) (r : Res) : onUnit kind k i r = r := if_pos h

/-! ### Cores and memory stand -/

/-- Between `s` and `t` no core and no byte of memory changed. -/
structure CoresStand (s t : State) : Prop where
  cores : t.cores = s.cores
  mem : t.mem = s.mem

theorem CoresStand.refl (s : State) : CoresStand s s := ⟨rfl, rfl⟩

theorem CoresStand.trans (a : CoresStand s t) (b : CoresStand t u) : CoresStand s u := ⟨b.cores.trans a.cores, b.mem.trans a.mem⟩

theorem CoresStand.core (h : CoresStand s t) (m : Nat) : t.core m = s.core m := State.core_congr h.cores m

theorem Reports.coresStand (r : Reports s t) : CoresStand s t := ⟨by rw [r.rest], by rw [r.rest]⟩

theorem CoresStand.put (h : CoresStand s t) {f : Fld} {v i e : Nat} : CoresStand s (t.put f v i e) := h.trans ⟨by simp, by simp⟩

theorem CoresStand.setWord (h : CoresStand s t) {k : Nat} {v : BitVec 32} : CoresStand s (t.setWord k v) := h.trans ⟨by simp, by simp⟩

theorem CoresStand.event (h : CoresStand s t) {f : Fld} {v inst : Nat} : CoresStand s (t.event f v inst) :=
  h.trans (State.event_reports t f v inst).coresStand

theorem CoresStand.send (h : CoresStand s t) {p : Packet} : CoresStand s (t.send p) := h.trans (State.send_reports t p).coresStand

theorem CoresStand.foldl {α : Type} {f : State → α → State} (l : List α) (h : CoresStand s t)
    (hf : ∀ {t x}, CoresStand s t → CoresStand s (f t x)) : CoresStand s (l.foldl f t) :=
  List.foldlRecOn l f h fun _ ht _ _ => hf ht

/-! ### The end of a test kernel -/

theorem CoresStand.closeRound (h : CoresStand s t) {ch st : Nat} : CoresStand s (t.closeRound ch st) := by
  have closed (c : Chain) : CoresStand s (t.setChain ch c) := h.trans ⟨rfl, rfl⟩
  unfold State.closeRound State.count
  dsimp only
  split
  · exact (closed _).put.put.put.put.put
  · exact (closed _).put.put.put.put.put.put.event

theorem CoresStand.sendAborts (h : CoresStand s t) {ch st : Nat} : CoresStand s (t.sendAborts ch st) := by
  unfold State.sendAborts
  split
  · exact h
  · split
    · exact h
    · exact h.send.send

/-- Forgetting a kernel ends its rounds and touches no core (R102, R338). -/
theorem CoresStand.forgetKernel (h : CoresStand s t) {gang : Nat} : CoresStand s (t.forgetKernel gang) := by
  have dropped : CoresStand s (t.dropScales gang) := h.trans ⟨rfl, rfl⟩
  refine .foldl _ dropped fun {u ch} hu => ?_
  split
  · split
    · exact hu.sendAborts.closeRound
    · exact hu
  · exact hu

theorem State.testOver_stands (s : State) (n gang : Nat) : CoresStand s (s.testOver n gang) := (CoresStand.refl s).forgetKernel.event

/-! ### Stopping cores -/

/-- Core `k` with its work dropped, in run state `run` (R104, R212). -/
def CoreSt.halted (k : CoreSt) (run : Nat) : CoreSt :=
  { k with
    run := run, loops := [], cur := none, mq := [], lq := [], aq := [], vq := [], tq := [], waiting := none
    halves := [], loading := [], sets := [], epis := [] }

theorem State.haltCore_eq (s : State) (n run : Nat) : s.haltCore n run = s.setCore n ((s.core n).halted run) := rfl

/-- Between `s` and `t` running cores of gang `gid` stopped: other cores, the registers and memory stand. -/
structure GangStops (s t : State) (gid : Nat) : Prop where
  regs : t.regs = s.regs
  mem : t.mem = s.mem
  others : ∀ m, (s.core m).run ≠ 1 ∨ (s.core m).gang ≠ gid → t.core m = s.core m

theorem GangStops.refl (s : State) (gid : Nat) : GangStops s s gid := ⟨rfl, rfl, fun _ _ => rfl⟩

/-- One more running core of the gang stops. -/
theorem GangStops.haltCore {gid m : Nat} (h : GangStops s t gid) (hm : (t.core m).run = 1 ∧ (t.core m).gang = gid) :
    GangStops s (t.haltCore m 3) gid where
  regs := by rw [State.haltCore_eq, State.setCore_regs, h.regs]
  mem := by rw [State.haltCore_eq, State.setCore_mem, h.mem]
  others j hj := by
    have stood := h.others j hj
    have apart : j ≠ m := by
      rintro rfl
      rw [stood] at hm
      exact hj.elim (· hm.1) (· hm.2)
    rw [State.haltCore_eq, State.core_setCore_ne t apart, stood]

/-- The end of a gang stops its running members and no other core (R293). -/
theorem State.stopGang_stops (s : State) (gid : Nat) (why : Stop) : GangStops s (s.stopGang gid why) gid := by
  unfold State.stopGang
  split
  · exact GangStops.refl s gid
  · next g _ =>
    split
    · exact GangStops.refl s gid
    · extract_lets told
      have start : GangStops s told gid := ⟨rfl, rfl, fun _ _ => rfl⟩
      refine List.foldlRecOn (motive := fun t => GangStops s t gid) g.members _ start fun t ht m _ => ?_
      split
      · next hm => exact ht.haltCore hm
      · exact ht

/-! ### A core fault -/

/-- A register of the core pages other than `PAGE_EVENT` is no word of reports. -/
theorem Fld.ofCore.quiet {f : Fld} (h : f.ofCore) (hoff : f.off ≠ 0x14) (n : Nat) : reportKey (f.key n 0) = false := by
  have hkey := h.key n
  obtain ⟨-, -, hlt⟩ := h
  have page : f.key n 0 / 2 ^ 32 = 0x40 + n := by omega
  have off : f.key n 0 % 2 ^ 32 = f.off := by omega
  have lost : Fld.DSP_EVQ_LOST_COUNT.key 0 0 / 2 ^ 32 = 8 := by decide
  have apart : f.key n 0 ≠ Fld.DSP_EVQ_LOST_COUNT.key 0 0 := by
    intro h
    rw [h, lost] at page
    omega
  simp only [reportKey, page, off, Bool.or_eq_false_iff, Bool.and_eq_false_iff, beq_eq_false_iff_ne]
  exact ⟨⟨hoff, .inl (by omega)⟩, apart⟩

/-- The events of core `n`'s page lie in its `PAGE_EVENT` (R50). -/
theorem Fld.ofCore.event {f : Fld} (h : f.ofCore) (hoff : f.off = 0x14) (n : Nat) : pageEvent (f.key n 0 / 2 ^ 32) = f.key n 0 := by
  rw [h.key n, hoff]
  simp only [pageEvent, regKey]
  omega

/-- A page event of core `n` that was raised reads 1, whatever is reported after it. -/
theorem State.get_coreEvent {f : Fld} (h : f.ofCore) (hoff : f.off = 0x14) (hlen : f.len = 1) (hlo : f.lo < 32) (s : State) (n : Nat)
    (r : Reports (s.event f n) t) : t.get f n = 1 := by
  refine State.get_of_bit hlen hlo ?_
  rw [← h.event hoff n]
  exact r.events _ _ (s.event_sets f n 0 hlo)

/-- Two fields of a core page at other offsets. -/
theorem Fld.ofCore.key_ne {f g : Fld} (hf : f.ofCore) (hg : g.ofCore) (hoff : g.off ≠ f.off) (n : Nat) : g.key n 0 ≠ f.key n 0 := by
  rw [hf.key n, hg.key n]
  omega

/-- Between `s` and `t` core `n`, in service, stopped on fault `code` of instruction `seq` (R104): both are latched, its work is dropped, and
nothing stopped with it but running cores of its gang. -/
structure FaultStops (s t : State) (n code seq : Nat) : Prop where
  code : t.get Fld.CORE_CORE_FAULT_CODE n = code % 2 ^ 8
  seq : t.get Fld.CORE_FAULT_SEQ_SEQ n = seq % 2 ^ 32
  event : t.get Fld.CORE_PAGE_EVENT_FAULT n = 1
  core : t.core n = (s.core n).halted 3
  mem : t.mem = s.mem
  others : ∀ m, m ≠ n → (s.core m).run ≠ 1 ∨ (s.core m).gang ≠ (s.core n).gang → t.core m = s.core m

/-- What latching a fault writes, before dispatch hears of it. -/
theorem State.latchFault_stops (s : State) {n : Nat} (htest : (s.core n).test = false) (code seq : Nat) :
    FaultStops s (s.latchFault n code seq) n code seq := by
  have reports : Reports (s.stopOnFault n code seq) (s.latchFault n code seq) := (State.event_reports _ _ _ _).trans (State.note_reports _ _)
  have stop : s.stopOnFault n code seq = ((s.put Fld.CORE_CORE_FAULT_CODE code n).put Fld.CORE_FAULT_SEQ_SEQ seq n).setCore n ((s.core n).halted 3) := by
    simp only [State.stopOnFault, htest, State.haltCore_eq, State.core_put, Bool.false_eq_true, if_false]
  refine ⟨?_, ?_, State.get_coreEvent (by decide) rfl rfl (by decide) _ n (State.note_reports _ _), ?_, ?_, fun m hm _ => ?_⟩
  · rw [reports.get (by decide) _ _ (Fld.ofCore.quiet (by decide) (by decide) n), stop, State.get_congr (State.setCore_regs _ _ _),
      State.get_put_key (by decide) (by decide) _ _ _ _ _ _ (Fld.ofCore.key_ne (by decide) (by decide) (by decide) n),
      State.get_put_one (by decide)]
    rfl
  · rw [reports.get (by decide) _ _ (Fld.ofCore.quiet (by decide) (by decide) n), stop, State.get_congr (State.setCore_regs _ _ _),
      State.get_put_one (by decide)]
    rfl
  · rw [reports.coresStand.core, stop, State.core_setCore_self]
  · rw [reports.coresStand.mem, stop]
    simp
  · rw [reports.coresStand.core, stop, State.core_setCore_ne _ hm, State.core_put, State.core_put]

/-- A core in service that faults stops (R104). -/
theorem State.coreFault_stops (s : State) {n : Nat} (hrun : (s.core n).run = 1) (htest : (s.core n).test = false) (code seq : Nat) :
    FaultStops s (s.coreFault n code seq) n code seq := by
  have latched := s.latchFault_stops htest code seq
  have fault : s.coreFault n code seq = (s.latchFault n code seq).stopGang (s.core n).gang
      { status := if code = 0x0E then 2 else 1, detail := code, member := (s.core n).member, seq := seq } := by
    simp only [State.coreFault, hrun, ne_eq, not_true_eq_false, State.faultHeard, htest, Bool.false_eq_true, if_false]
  rw [fault]
  generalize s.latchFault n code seq = t at latched
  have stops := t.stopGang_stops (s.core n).gang { status := if code = 0x0E then 2 else 1, detail := code, member := (s.core n).member, seq := seq }
  generalize t.stopGang _ _ = u at stops
  have halted : u.core n = t.core n := stops.others n (.inl (by rw [latched.core]; exact (by decide : 3 ≠ 1)))
  exact
    { code := (State.get_congr stops.regs _ _ _).trans latched.code
      seq := (State.get_congr stops.regs _ _ _).trans latched.seq
      event := (State.get_congr stops.regs _ _ _).trans latched.event
      core := halted.trans latched.core
      mem := stops.mem.trans latched.mem
      others := fun m hm apart => by
        have stood := latched.others m hm apart
        rw [stops.others m (by rwa [stood]), stood] }

theorem FaultStops.run {code seq : Nat} (h : FaultStops s t n code seq) : (t.core n).run = 3 := by
  rw [h.core]
  rfl

end Sys2Proof.Machine
end

section
/-! SUPPORT. The sequencer of a core (O22-O25): when decode has nothing to do, what a control row runs on, what one decode does, and how a
kernel ends. -/

namespace Sys2Proof.Machine

variable {s t : State} {c n : Nat} {d : Dec}

/-! ### When decode has nothing to do -/

/-- Decode does nothing for a core that has what is asked for. -/
theorem State.decodeUntil_of {p : CoreSt → Bool} (h : p (s.core n) = true) : ∀ k, State.decodeUntil p n k s = s
  | 0 => rfl
  | k + 1 => by rw [State.decodeUntil, if_pos h]

/-- A stalled core decodes nothing. -/
theorem State.decode1_stalled (h : (s.core n).stalled = true) : s.decode1 n = s := by simp [State.decode1, h]

theorem State.decodeUntil_stalled (p : CoreSt → Bool) (h : (s.core n).stalled = true) : ∀ k, State.decodeUntil p n k s = s
  | 0 => rfl
  | k + 1 => by rw [State.decodeUntil, State.decode1_stalled h, State.decodeUntil_stalled p h k, ite_self]

/-- A core that holds a control instruction is stalled behind it (R76). -/
theorem CoreSt.stalled_of_cur {k : CoreSt} (h : k.cur = some d) : k.stalled = true := by simp [CoreSt.stalled, h]

/-- A core that decodes runs a kernel. -/
theorem CoreSt.run_of_not_stalled {k : CoreSt} (h : k.stalled = false) : k.run = 1 := by
  simp only [CoreSt.stalled, Bool.or_eq_false_iff, bne_eq_false_iff_eq] at h
  exact h.1.1.1

theorem State.forSequencer_of_cur (h : (s.core c).cur = some d) : s.forSequencer c = s := State.decodeUntil_of (by simp [h]) 64

theorem State.forArray_of_queue (h : (s.core c).aq ≠ []) : s.forArray c = s := State.decodeUntil_of (by simp [h]) 64

theorem State.forLoader_of_queue (h : (s.core c).lq ≠ []) : s.forLoader c = s := State.decodeUntil_of (by simp [h]) 64

/-! ### The control instructions -/

/-- A control row runs on the instruction that the sequencer holds. -/
theorem AtSequencer.row (h : AtSequencer s c d) {maj : Nat} (hmaj : iMajor d.word = maj) (f : State → CoreSt → Dec → State) :
    s.sequencerRow c maj f = .next (f s (s.core c) d) := by
  obtain ⟨hc, hcur⟩ := h
  simp only [State.sequencerRow, onUnit_lt hc, State.forSequencer_of_cur hcur, hcur, hmaj, if_true]

/-- Settles O22: each control row runs on the instruction that the sequencer holds, and replaces the core or lets it fault. -/
theorem controlInstructionsSteerDecode : Obligations.ControlInstructionsSteerDecode := by
  intro s c d h
  refine ⟨fun hmaj => ?_, fun hmaj => ?_, fun hmaj => ?_, fun hmaj idle => ?_, fun hmaj busy => ?_, fun hmaj closed => ?_,
    fun hmaj opened none run test => ?_⟩
  · exact ⟨_, (exec_nop s c).trans (h.row hmaj _), s.setCore_becomes c _⟩
  · exact ⟨_, (exec_loop s c).trans (h.row hmaj _), s.setCore_becomes c _⟩
  · exact ⟨_, (exec_jump s c).trans (h.row hmaj _), s.setCore_becomes c _⟩
  · refine ⟨_, (exec_fence s c).trans (h.row hmaj _), ?_⟩
    rw [if_pos idle]
    exact s.setCore_becomes c _
  · rw [exec_fence, execFence, h.row hmaj, busy]
    rfl
  · refine ⟨_, (exec_endInstr s c).trans (h.row hmaj _), ?_⟩
    rw [closed]
    exact s.setCore_becomes c _
  · have noMma : (s.core c).aq.any (fun e => iMajor e.word == 0x20) = false := by simpa using none
    have stops := s.coreFault_stops run test 0x06 d.seq
    refine ⟨_, (exec_endInstr s c).trans (h.row hmaj _), ?_⟩
    rw [opened, noMma]
    exact ⟨stops.code, stops.seq, stops.run⟩

/-! ### The end of a kernel -/

/-- A core whose END waits for nothing any more stops; a test kernel reports it (R76, R102). -/
theorem execKernelCompletion_idle (hat : AtSequencer s c d) (hmaj : iMajor d.word = 0x01) {seq : Nat} (hend : (s.core c).waiting = some seq)
    (hrun : (s.core c).run = 1) (hmove : (s.core c).moveIdle = true) (hload : (s.core c).loaderIdle = true)
    (harray : (s.core c).arrayIdle = true) (hvec : (s.core c).vq = []) (hepis : (s.core c).epis = []) (htrav : (s.core c).traverseIdle = true) :
    execKernelCompletion c s =
      .next (if (s.core c).test then (s.haltCore c 0).testOver c (s.core c).gang else s.haltCore c 2) := by
  obtain ⟨hc, hcur⟩ := hat
  obtain ⟨hq, hsets⟩ : (s.core c).aq.isEmpty = true ∧ (s.core c).setsIdle = true := by simpa [CoreSt.arrayIdle] using harray
  have atEnd : (s.core c).cur.any (fun d => iMajor d.word == 0x01) = true := by simp [hcur, hmaj]
  simp only [execKernelCompletion, onUnit_lt hc, hend, hrun, atEnd, hmove, hload, hq, hvec, hepis, htrav, hsets]
  cases (s.core c).test <;> simp

/-- Settles O23: the core's work is dropped, and what a test kernel's end reports touches no core. -/
theorem kernelCompletesWhenEveryUnitIsIdle : Obligations.KernelCompletesWhenEveryUnitIsIdle := by
  intro s c d seq hat hmaj hend hrun hmove hload harray hvec hepis htrav
  have completes := execKernelCompletion_idle hat hmaj hend hrun hmove hload harray hvec hepis htrav
  rw [exec_kernelCompletion, completes]
  refine ⟨fun test => ?_, fun test => ?_⟩
  · obtain ⟨rest, core, others⟩ := s.setCore_becomes c ((s.core c).halted 2)
    rw [test, if_neg Bool.false_ne_true, s.haltCore_eq]
    exact ⟨_, rfl, rest, by rw [core]; rfl, others⟩
  · obtain ⟨rest, core, others⟩ := s.setCore_becomes c ((s.core c).halted 0)
    rw [test, s.haltCore_eq, if_pos rfl]
    have ended := (s.setCore c ((s.core c).halted 0)).testOver_stands c (s.core c).gang
    refine ⟨_, rfl, ?_, State.get_coreEvent (by decide) rfl rfl (by decide) _ c (Reports.refl _), ?_, fun m hm => ?_⟩
    · rw [ended.core, core]
      rfl
    · rw [ended.mem, State.setCore_mem]
    · rw [ended.core, others m hm]

/-! ### Decode -/

/-- The code that a core latches is the least of those found (R104). -/
theorem lowest_eq_min? (l : List Nat) : lowest l = l.min? := by
  have from_some : ∀ (l : List Nat) (a : Nat), l.foldl (fun m c => match m with
      | none => some c
      | some d => some (min c d)) (some a) = some (l.foldl min a) := by
    intro l
    induction l with
    | nil => exact fun _ => rfl
    | cons b l ih =>
      intro a
      rw [List.foldl_cons, List.foldl_cons, ih, min_comm]
  cases l with
  | nil => rfl
  | cons a l => rw [List.min?_cons', ← from_some]; rfl

/-- Codes that were found have a least one. -/
theorem lowest_of_ne_nil {l : List Nat} (h : l ≠ []) : ∃ code ∈ l, (∀ x ∈ l, code ≤ x) ∧ lowest l = some code := by
  obtain ⟨code, found⟩ := Option.ne_none_iff_exists'.mp (mt List.min?_eq_none_iff.mp h)
  obtain ⟨mem, least⟩ := List.min?_eq_some_iff.mp found
  exact ⟨code, mem, least, (lowest_eq_min? l).trans found⟩

/-- The faults that decode finds at the core's program counter (R75, R76, R291). -/
def State.decodeFaults (s : State) (n : Nat) : List Nat :=
  wordFaults n false ((s.core n).resolve (s.fetch n (s.core n).pc).word).1 ++ ((s.core n).resolve (s.fetch n (s.core n).pc).word).2 ++
    (s.core n).flowFaults ((s.core n).resolve (s.fetch n (s.core n).pc).word).1

/-- A decode that finds a fault faults the core with the lowest code (R104). -/
theorem State.decode1_fault (hgo : (s.core n).stalled = false) (hfetch : (s.fetch n (s.core n).pc).code = 0) {code : Nat}
    (hcode : lowest (s.decodeFaults n) = some code) :
    s.decode1 n = (s.fetch n (s.core n).pc).state.coreFault n code (s.core n).nextSeq := by
  unfold State.decodeFaults at hcode
  simp only [State.decode1, hgo, hfetch, hcode, ne_eq, not_true_eq_false, Bool.false_eq_true, if_false]

/-- A decode that finds no fault puts the instruction in its queue (R72, R76). -/
theorem State.decode1_queues (hgo : (s.core n).stalled = false) (hfetch : (s.fetch n (s.core n).pc).code = 0)
    (hcore : (s.fetch n (s.core n).pc).state.core n = s.core n) (hnone : s.decodeFaults n = []) {w : Nat}
    (hw : ((s.core n).resolve (s.fetch n (s.core n).pc).word).1 = w) (hroom : (s.core n).full (unitOfWord w) = false) :
    s.decode1 n = ((s.fetch n (s.core n).pc).state.setCore n (CoreSt.enqueue { s.core n with
        loops := (wrapLoops (s.core n).loops ((s.core n).pc + 16)).1, pc := (wrapLoops (s.core n).loops ((s.core n).pc + 16)).2
        nextSeq := ((s.core n).nextSeq + 1) % 2 ^ 32 } { seq := (s.core n).nextSeq, word := w } (unitOfWord w))).put
      Fld.CORE_SEQ_NUM_SEQ (s.core n).nextSeq n := by
  unfold State.decodeFaults at hnone
  have none : lowest [] = none := rfl
  rw [hw] at hnone
  simp [State.decode1, hgo, hfetch, hw, hnone, none, hroom, hcore]

/-- Settles O24: a decode that finds no fault changes its core and `SEQ_NUM`, one that does faults the core with the least code. -/
theorem decodeQueuesInOrder : Obligations.DecodeQueuesInOrder := by
  intro s n _ hgo hfetch hcore w faults
  refine ⟨fun hnone hroom => ?_, fun hsome htest => ?_⟩
  · intro l
    rw [State.decode1_queues hgo hfetch hcore hnone rfl hroom]
    exact ⟨by rw [State.core_put, State.core_setCore_self], State.get_put_one (by decide) _ _ _ _⟩
  · obtain ⟨code, mem, least, hcode⟩ := lowest_of_ne_nil hsome
    have hrun := CoreSt.run_of_not_stalled hgo
    rw [← hcore] at hrun htest
    have stops := (s.fetch n (s.core n).pc).state.coreFault_stops hrun htest code (s.core n).nextSeq
    rw [State.decode1_fault hgo hfetch hcode]
    exact ⟨code, mem, least, stops.code, stops.seq, stops.run⟩

/-! ### Core faults and the residency deadlock -/

theorem coreFaultStopsTheCore : CoreFaultStopsTheCore := by
  intro s n code seq _ hrun htest hcode t
  have stops : FaultStops s t n code seq := s.coreFault_stops hrun htest code seq
  have core := stops.core
  refine ⟨stops.code.trans (Nat.mod_eq_of_lt (by omega)), stops.seq, stops.event, stops.run, ?_, ?_, ?_, ?_, ?_, ?_, ?_, ?_, stops.mem,
    fun m hm => stops.others m ?_ (.inl hm), fun m hm gang => stops.others m hm (.inr gang)⟩
  all_goals try (rw [core]; rfl)
  rintro rfl
  exact hm hrun

/-- Nothing is left to decode for a core that a residency deadlock holds, and decode is stalled as R92 says. -/
theorem Deadlocked.decode {l : List Dec} (h : Deadlocked s c l) : s.decodeAll c = s ∧ s.deadStall c = true := by
  obtain ⟨e, hcur, hstall⟩ | settled := h.stall
  · refine ⟨State.decodeUntil_stalled _ (CoreSt.stalled_of_cur hcur) 64, ?_⟩
    simpa [State.deadStall, hcur] using hstall
  · exact settled

theorem residencyDeadlockFaults : ResidencyDeadlockFaults := by
  intro s c d l h
  obtain ⟨hc, hrun, htest, hsplit⟩ := h.core
  obtain ⟨hloading, hhalves⟩ := h.noLoad
  obtain ⟨hall, hdead⟩ := h.decode
  have stops := s.coreFault_stops hrun htest 0x0B d.seq
  have feeders : (s.core c).notFeeding = true := by
    simp only [CoreSt.notFeeding, Bool.not_eq_true', List.any_eq_false]
    exact fun e he => by simp [(h.noSet e he).1]
  have sets : (s.core c).sets.any (fun e => e.2.state == 1 || e.2.state == 4 || e.2.state == 5) = false := by
    simp only [List.any_eq_false]
    exact fun e he => by simp [h.noSet e he]
  have halves : (s.core c).halves.any (fun x => x.2.state == 3) = false := by simpa using hhalves
  refine ⟨s.coreFault c 0x0B d.seq, ?_, stops.code, stops.seq, stops.run⟩
  simp only [exec_residencyDeadlock, execResidencyDeadlock, onUnit_lt hc, hall, hdead, hrun, h.queues, feeders, sets, halves, hloading, h.noClaim]
  refine if_pos ⟨trivial, rfl, ?_, ?_, trivial⟩
  · cases hq : (s.core c).aq with
    | nil => rfl
    | cons e q =>
      obtain ⟨hmaj, hopen, hres | ⟨hopen', htarget⟩⟩ := h.array e q hq
      · simp [hsplit, hmaj, hopen, hres]
      · simp [hsplit, hmaj, htarget, ← hopen, hopen']
  · cases hq : (s.core c).lq with
    | nil => rfl
    | cons e q => simpa using h.loader e q hq

/-- Settles O25: a fault latches its code before it halts the core and its gang, and a deadlock that meets the conditions of R92 is one. -/
theorem coreFaultsStopTheCore : Obligations.CoreFaultsStopTheCore := ⟨coreFaultStopsTheCore, residencyDeadlockFaults⟩

end Sys2Proof.Machine
end

section
/-! SUPPORT. Operand halves, accumulator sets and tables of a core (O26-O30): what each update of a core leaves of its halves and sets, and
the rows that load a half or a table (R82-R89). -/

namespace Sys2Proof.Machine

variable {s : State} {c : Nat} {d : Dec} {q : List Dec} {k : CoreSt}

/-! ### Halves and sets -/

@[simp] theorem CoreSt.half_setHalf_self (k : CoreSt) (h : Nat) (x : Half) : (k.setHalf h x).half h = x := tget_tset_self _ h x k.halves

theorem CoreSt.half_setHalf_ne (k : CoreSt) {h j : Nat} (hj : j ≠ h) (x : Half) : (k.setHalf h x).half j = k.half j :=
  tget_tset_ne _ hj x k.halves

@[simp] theorem CoreSt.half_emptyHalf_self (k : CoreSt) (h : Nat) : (k.emptyHalf h).half h = { state := 0, fmt := 0, k := 0, recs := [] } :=
  tget_tdel_self _ h k.halves

theorem CoreSt.half_emptyHalf_ne (k : CoreSt) {h j : Nat} (hj : j ≠ h) : (k.emptyHalf h).half j = k.half j := tget_tdel_ne _ hj k.halves

@[simp] theorem CoreSt.set_setSet_self (k : CoreSt) (u : Nat) (x : AccSet) : (k.setSet u x).set u = x := tget_tset_self _ u x k.sets

theorem CoreSt.set_setSet_ne (k : CoreSt) {u v : Nat} (hv : v ≠ u) (x : AccSet) : (k.setSet u x).set v = k.set v :=
  tget_tset_ne _ hv x k.sets

theorem thas_tdel {α : Type} (k : Nat) (t : Tbl α) : thas k (tdel k t) = false := by
  induction t with
  | nil => rfl
  | cons e t ih =>
    obtain ⟨j, v⟩ := e
    by_cases hj : j = k
    · rw [tdel, if_pos hj, ih]
    · rw [tdel, if_neg hj, thas, ih, Bool.or_false, beq_eq_false_iff_ne.mpr hj]

/-- A set that was freed is IDLE. -/
@[simp] theorem CoreSt.setFree_freeSet (k : CoreSt) (u : Nat) : (k.freeSet u).setFree u = true := by
  simp [CoreSt.setFree, CoreSt.freeSet, thas_tdel]

/-! ### The array queue -/

/-- An array row runs on the instruction at the head of the array queue. -/
theorem AtArray.row (h : AtArray s c d q) {maj : Nat} (hmaj : iMajor d.word = maj) {p : Nat → Bool} (hp : p d.word = true)
    (f : State → CoreSt → Dec → State) : s.arrayRow c maj p f = .next (f s (s.core c) d) := by
  obtain ⟨hc, hq⟩ := h
  have settled : s.forArray c = s := State.forArray_of_queue (by simp [hq])
  simp only [State.arrayRow, onUnit_lt hc, settled, hq, hmaj, hp, and_self, if_true]

/-! ### The release of halves -/

/-- OPFREE begins the release of a RESIDENT half (R88). -/
def CoreSt.beginRelease (k : CoreSt) (h : Nat) : CoreSt := if (k.half h).state = 2 then k.setHalf h { k.half h with state := 3 } else k

theorem CoreSt.beginRelease_state (k : CoreSt) (h j : Nat) :
    ((k.beginRelease h).half j).state = if j = h ∧ (k.half j).state = 2 then 3 else (k.half j).state := by
  unfold CoreSt.beginRelease
  obtain rfl | hj := eq_or_ne j h
  · by_cases resident : (k.half j).state = 2 <;> simp [resident]
  · rw [if_neg (fun both : j = h ∧ (k.half j).state = 2 => hj both.1)]
    split
    · rw [k.half_setHalf_ne hj]
    · rfl

theorem CoreSt.beginRelease_aq (k : CoreSt) (h : Nat) : (k.beginRelease h).aq = k.aq := by
  unfold CoreSt.beginRelease
  split <;> rfl

/-- The halves that are named and RESIDENT begin their release, and no other half changes its state. -/
theorem CoreSt.beginReleases (hs : List Nat) : ∀ k : CoreSt, (hs.foldl CoreSt.beginRelease k).aq = k.aq ∧
    ∀ h, ((hs.foldl CoreSt.beginRelease k).half h).state = if h ∈ hs ∧ (k.half h).state = 2 then 3 else (k.half h).state := by
  induction hs with
  | nil => exact fun k => ⟨rfl, fun h => by simp⟩
  | cons a hs ih =>
    intro k
    obtain ⟨aq, states⟩ := ih (k.beginRelease a)
    refine ⟨aq.trans (k.beginRelease_aq a), fun h => ?_⟩
    rw [List.foldl_cons, states h, k.beginRelease_state a h]
    obtain rfl | ha := eq_or_ne h a
    · by_cases resident : (k.half h).state = 2 <;> simp [resident]
    · simp [ha]

/-- Core `k` with the array queue `l`. -/
def CoreSt.withArray (k : CoreSt) (l : List Dec) : CoreSt := { k with aq := l }

/-- OPFREE takes the RESIDENT halves it names to RELEASING, and waits in the queue for those that are LOADING (R88). -/
theorem execOpfree_releases (h : AtArray s c d q) (hmaj : iMajor d.word = 0x22) :
    let left := (maskIdx 4 (iSel d.word)).filter (fun h => ((s.core c).half h).state == 1)
    execOpfree c s = .next (s.setCore c (((maskIdx 4 (iSel d.word)).foldl CoreSt.beginRelease (s.core c)).withArray
      (if left = [] then q else { d with word := bitsPut d.word 24 4 (idxMask left) } :: q))) := by
  intro left
  let freed := (maskIdx 4 (iSel d.word)).foldl CoreSt.beginRelease (s.core c)
  have rest : freed.aq.drop 1 = q := by rw [(CoreSt.beginReleases _ _).1, h.2, List.drop_one, List.tail_cons]
  have queue (e : Dec) : (if left.isEmpty then freed.aq.drop 1 else e :: freed.aq.drop 1) = if left = [] then q else e :: q := by
    simp only [rest, List.isEmpty_iff]
  refine (h.row (p := fun _ => true) hmaj rfl _).trans ?_
  exact congrArg (fun l => Host.Outcome.next (s.setCore c (freed.withArray l))) (queue { d with word := bitsPut d.word 24 4 (idxMask left) })

/-- Core `k` with the loader queue `l` and the transfers `r` under way. -/
def CoreSt.withLoader (k : CoreSt) (l : List Dec) (r : List Nat) : CoreSt := { k with lq := l, loading := r }

@[simp] theorem CoreSt.half_withLoader (k : CoreSt) (l : List Dec) (r : List Nat) (h : Nat) : (k.withLoader l r).half h = k.half h := rfl

/-- The operand words of a half that a load writes hold no flipped bits (R214). -/
def State.freshHalf (s : State) (c w : Nat) : State :=
  { s with ecc := tkeep (fun e => !(decide (eccOpBuf c (opldHalf w * 0x4000) ≤ e) &&
      decide (e < eccOpBuf c (opldHalf w * 0x4000) + recordSize (opldFmt w) (opldK w) * opldCnt w / 8))) s.ecc }

/-- The loader starts an OPLD whose half is EMPTY: the half is LOADING and holds what was read (R82, R87). -/
theorem execOpld_loads (hc : c < 64) (hq : (s.core c).lq = d :: q) (hempty : ((s.core c).half (opldHalf d.word)).state = 0)
    (hread : (opldReads s c d.word).1.status = 0) (hcore : (opldReads s c d.word).1.state.core c = s.core c) :
    execOpld c s = .next (((opldReads s c d.word).1.state.freshHalf c d.word).setCore c
      (((s.core c).setHalf (opldHalf d.word) { state := 1, fmt := opldFmt d.word, k := opldK d.word, recs := (opldReads s c d.word).2 }).withLoader
        q ((s.core c).loading ++ [opldHalf d.word]))) := by
  have settled : s.forLoader c = s := State.forLoader_of_queue (by simp [hq])
  unfold opldReads at hread hcore ⊢
  simp only [execOpld, onUnit_lt hc, settled, hq, hempty, hread, hcore, ne_eq, not_true_eq_false, if_false, State.freshHalf, CoreSt.withLoader]

/-- Settles O27: each row of a half changes its core alone, and the half that it names goes to its next state. -/
theorem operandHalfGoesRound : Obligations.OperandHalfGoesRound := by
  intro s c hc
  refine ⟨fun d q hq hempty hread hcore => ?_, fun h l hl => ?_, fun d q hq hmaj => ?_, fun h hh hstate => ?_⟩
  · refine ⟨_, (exec_opld s c).trans (execOpld_loads hc hq hempty hread hcore), ?_⟩
    simp only [State.core_setCore_self, CoreSt.half_withLoader, CoreSt.half_setHalf_self, true_and]
    exact ⟨rfl, rfl⟩
  · obtain ⟨rest, core, others⟩ := s.setCore_becomes c (((s.core c).setHalf h { (s.core c).half h with state := 2 }).withLoader (s.core c).lq l)
    refine ⟨_, ?_, rest, ?_, ?_, fun j hj => ?_, others⟩
    · simp only [exec_loadComplete, execLoadComplete, onUnit_lt hc, hl]
      rfl
    · rw [core, CoreSt.half_withLoader, CoreSt.half_setHalf_self]
    · rw [core]
      rfl
    · rw [core, CoreSt.half_withLoader, CoreSt.half_setHalf_ne _ hj]
  · intro left
    obtain ⟨rest, core, others⟩ := s.setCore_becomes c (((maskIdx 4 (iSel d.word)).foldl CoreSt.beginRelease (s.core c)).withArray
      (if left = [] then q else { d with word := bitsPut d.word 24 4 (idxMask left) } :: q))
    refine ⟨_, (exec_opfree s c).trans (execOpfree_releases ⟨hc, hq⟩ hmaj), rest, by rw [core]; rfl, fun h => ?_, others⟩
    rw [core]
    exact (CoreSt.beginReleases _ _).2 h
  · obtain ⟨rest, core, others⟩ := s.setCore_becomes c ((s.core c).emptyHalf h)
    refine ⟨_, ?_, rest, ?_, ?_, fun j hj => ?_, others⟩
    · simp only [exec_halfReleaseEnd, execHalfReleaseEnd, onUnit_lt hc, onUnit_lt hh, hstate, if_true]
    · rw [core, CoreSt.half_emptyHalf_self]
    · rw [core, CoreSt.half_emptyHalf_self]
    · rw [core, CoreSt.half_emptyHalf_ne _ hj]

/-! ### Tables -/

/-- A source that can be read is loaded. -/
theorem State.arraySource_ok {len : Nat} (hread : (s.readMem (s.coreWho c 3) (iAddr32 d.word) len).status = 0) (f : State → Nat → State) :
    s.arraySource c d len f = f (s.readMem (s.coreWho c 3) (iAddr32 d.word) len).state (leVal (s.readMem (s.coreWho c 3) (iAddr32 d.word) len).bytes) := by
  simp only [State.arraySource, hread, ne_eq, not_true_eq_false, if_false]

/-- A table row leaves the queue and changes its core alone. -/
theorem State.core_arrayDone {t : State} (hcore : t.core c = s.core c) (hq : (s.core c).aq = d :: q) (f : CoreSt → CoreSt) :
    (t.arrayDone c f).core c = f { s.core c with aq := q } ∧ (t.arrayDone c f).mem = t.mem := by
  simp only [State.arrayDone, State.core_setCore_self, State.setCore_mem, hcore, hq, List.drop_one, List.tail_cons, and_self]

theorem pdset_loads (h : AtArray s c d q) :
    let r := s.readMem (s.coreWho c 3) (iAddr32 d.word) 32
    iMajor d.word = 0x23 → (∀ e ∈ (s.core c).sets, e.2.pd ≠ iSel d.word) → r.status = 0 → r.state.core c = s.core c →
      r.state.pdFaults c ((s.core c).resolvePd (leVal r.bytes)).1 ((s.core c).resolvePd (leVal r.bytes)).2 = [] →
      Answers (exec (.pdset c) s) fun t => tget (fun _ => 0) (iSel d.word) (t.core c).pd = ((s.core c).resolvePd (leVal r.bytes)).1 ∧
        (t.core c).aq = q ∧ t.mem = r.state.mem ∧ ∀ i, i ≠ iSel d.word → tget (fun _ => 0) i (t.core c).pd = tget (fun _ => 0) i (s.core c).pd := by
  intro r hmaj unused hread hcore hfaults
  have held : (s.core c).pdHeld (iSel d.word) = false := by simpa [CoreSt.pdHeld] using unused
  obtain ⟨core, mem⟩ := State.core_arrayDone hcore h.2 fun k =>
    { k with pd := tset (fun _ => 0) (iSel d.word) ((s.core c).resolvePd (leVal r.bytes)).1 k.pd }
  refine ⟨_, (exec_pdset s c).trans (h.row (p := fun _ => true) hmaj rfl _), ?_⟩
  dsimp only
  rw [held, if_neg Bool.false_ne_true, State.arraySource_ok hread, hcore, hfaults]
  dsimp only [lowest, List.foldl_nil]
  rw [core, mem]
  exact ⟨tget_tset_self _ _ _ _, rfl, rfl, fun i hi => tget_tset_ne _ hi _ _⟩

theorem mskset_loads (h : AtArray s c d q) :
    let r := s.readMem (s.coreWho c 3) (iAddr32 d.word) 32
    iMajor d.word = 0x24 → (∀ e ∈ (s.core c).sets, e.2.state = 3 ∨ e.2.state = 4 → e.2.maskSel ≠ bitsAt d.word 24 2) → r.status = 0 →
      r.state.core c = s.core c → Answers (exec (.mskset c) s) fun t =>
        tget (fun _ => (0, 0)) (bitsAt d.word 24 2) (t.core c).mr = (leVal r.bytes % 2 ^ 128, leVal r.bytes / 2 ^ 128) ∧ (t.core c).aq = q := by
  intro r hmaj unused hread hcore
  have held : (s.core c).maskHeld (bitsAt d.word 24 2) = false := by
    simp only [CoreSt.maskHeld, List.any_eq_false, Bool.and_eq_true, Bool.or_eq_true, beq_iff_eq]
    exact fun e he hboth => unused e he hboth.1 hboth.2
  obtain ⟨core, -⟩ := State.core_arrayDone hcore h.2 fun k =>
    { k with mr := tset (fun _ => (0, 0)) (bitsAt d.word 24 2) (leVal r.bytes % 2 ^ 128, leVal r.bytes / 2 ^ 128) k.mr }
  refine ⟨_, (exec_mskset s c).trans (h.row (p := fun _ => true) hmaj rfl _), ?_⟩
  dsimp only
  rw [held, if_neg Bool.false_ne_true, State.arraySource_ok hread, core]
  exact ⟨tget_tset_self _ _ _ _, rfl⟩

theorem wtset_loads (h : AtArray s c d q) :
    let r := s.readMem (s.coreWho c 3) (iAddr32 d.word) 16
    iMajor d.word = 0x25 → (∀ e ∈ (s.core c).sets, e.2.feeding = true → e.2.feedWt ≠ some (bitsAt d.word 24 2)) → r.status = 0 →
      r.state.core c = s.core c → (∀ e < 16, bitsAt (leVal r.bytes) (8 * e + 6) 2 = 0) → Answers (exec (.wtset c) s) fun t =>
        tget (fun _ => 0) (bitsAt d.word 24 2) (t.core c).wt = leVal r.bytes ∧ (t.core c).aq = q := by
  intro r hmaj unused hread hcore reserved
  have held : (s.core c).sets.any (fun e => e.2.feeding && e.2.feedWt == some (bitsAt d.word 24 2)) = false := by
    simp only [List.any_eq_false, Bool.and_eq_true, beq_iff_eq]
    exact fun e he hboth => unused e he hboth.1 hboth.2
  have clear : (List.range 16).any (fun e => bitsAt (leVal r.bytes) (8 * e + 6) 2 != 0) = false := by
    simp only [List.any_eq_false, List.mem_range, bne_iff_ne, ne_eq, not_not]
    exact reserved
  obtain ⟨core, -⟩ := State.core_arrayDone hcore h.2 fun k => { k with wt := tset (fun _ => 0) (bitsAt d.word 24 2) (leVal r.bytes) k.wt }
  refine ⟨_, (exec_wtset s c).trans (h.row (p := fun _ => true) hmaj rfl _), ?_⟩
  dsimp only
  rw [held, if_neg Bool.false_ne_true, State.arraySource_ok hread, clear, if_neg Bool.false_ne_true, core]
  exact ⟨tget_tset_self _ _ _ _, rfl⟩

/-- Settles O28: each row finds its table unused, reads its source and enters it. -/
theorem tablesLoadFromTheWindow : Obligations.TablesLoadFromTheWindow := fun _ _ _ _ h => ⟨pdset_loads h, mskset_loads h, wtset_loads h⟩

end Sys2Proof.Machine
end

section
/-! SUPPORT. The states of an accumulator set (O29): claim, fill, the end of feeding and the parcel's last result (R93, R94, R156, R158,
R163). -/

namespace Sys2Proof.Machine

variable {s : State} {c u n : Nat} {d : Dec} {x : AccSet}

/-! ### The numeric status word -/

/-- A bit that was set is set. -/
theorem bitOf_or_two_pow (w i : Nat) : bitOf (w ||| 2 ^ i) i = true := by
  have bit : bitOf (w ||| 2 ^ i) i = (w ||| 2 ^ i).testBit i := by rw [Nat.testBit_eq_decide_div_mod_eq]; rfl
  rw [bit, Nat.testBit_or, Nat.testBit_two_pow_self, Bool.or_true]

/-- Core `k` with bit `i` of its numeric status word set. -/
def CoreSt.withNsw (k : CoreSt) (i : Nat) : CoreSt := { k with nsw := k.nsw ||| 2 ^ i }

@[simp] theorem CoreSt.set_withNsw (k : CoreSt) (i v : Nat) : (k.withNsw i).set v = k.set v := rfl

theorem State.setNsw_eq (s : State) (n i : Nat) : s.setNsw n i = s.setCore n ((s.core n).withNsw i) := rfl

theorem State.bit_setNsw (s : State) (n i : Nat) : bitOf ((s.setNsw n i).core n).nsw i = true := by
  rw [s.setNsw_eq, State.core_setCore_self]
  exact bitOf_or_two_pow _ i

@[simp] theorem State.set_setNsw (s : State) (n i v : Nat) : ((s.setNsw n i).core n).set v = (s.core n).set v := by
  rw [s.setNsw_eq, State.core_setCore_self, CoreSt.set_withNsw]

@[simp] theorem State.setNsw_mem (s : State) (n i : Nat) : (s.setNsw n i).mem = s.mem := by rw [s.setNsw_eq, State.setCore_mem]

/-! ### Claim and fill -/

/-- A claim takes the set to FILLING (R93). -/
theorem accClaim_fills (hc : c < 64) (hq : (s.core c).aq ≠ []) (hclaim : s.claimable c = some (u, d)) :
    Answers (exec (.accClaim c) s) fun t => t = { s with cores := t.cores } ∧ ((t.core c).set u).state = 1 ∧
      ((t.core c).set u).claimSeq = some d.seq ∧ ((t.core c).set u).desc = tget (fun _ => 0) (mmaPd d.word) (s.core c).pd := by
  obtain ⟨rest, core, -⟩ := s.setCore_becomes c ((s.core c).setSet u ((s.core c).openSet d.word d.seq 1))
  refine ⟨_, ?_, rest, ?_⟩
  · simp only [exec_accClaim, execAccClaim, onUnit_lt hc, State.forArray_of_queue hq, hclaim]
  · rw [core, CoreSt.set_setSet_self]
    exact ⟨rfl, rfl, rfl⟩

/-- A fill waits for the earlier passes on its record (R158). -/
theorem execFillComplete_waits (hc : c < 64) (hu : u < 2) (hstate : ((s.core c).set u).state = 1)
    (hbusy : (s.core c).recordBusy u (pdPassBase ((s.core c).set u).desc) = true) : execFillComplete c u s = .next s := by
  simp only [execFillComplete, onUnit_lt hc, onUnit_lt hu, hstate, hbusy, ne_eq, not_true_eq_false, if_false, if_true]

/-- A fill from a record that is not open or of another pass starts the set fresh (R163). -/
theorem fillComplete_fresh (hc : c < 64) (hu : u < 2) (hstate : ((s.core c).set u).state = 1)
    (hfree : (s.core c).recordBusy u (pdPassBase ((s.core c).set u).desc) = false) :
    let r := s.readMem (s.passWho c) (pdPassBase ((s.core c).set u).desc) 64
    r.status = 0 → hdrFlag r.bytes 0 = false ∨ leAt r.bytes 1 1 ≠ ((s.core c).set u).mode ∨ hdrFlag r.bytes 2 ≠ ((s.core c).set u).b64 →
      r.state.core c = s.core c → Answers (exec (.fillComplete c u) s) fun t =>
        (t.core c).set u = { (s.core c).set u with state := 2 } ∧ bitOf (t.core c).nsw nswRecInvalid = true ∧ t.mem = r.state.mem := by
  intro r hread hother hcore
  have misfit : (!hdrFlag r.bytes 0 || leAt r.bytes 1 1 != ((s.core c).set u).mode || hdrFlag r.bytes 2 != ((s.core c).set u).b64) = true := by
    simpa [or_assoc] using hother
  refine ⟨(r.state.setCore c ((s.core c).setSet u { (s.core c).set u with state := 2 })).setNsw c nswRecInvalid, ?_, ?_, State.bit_setNsw _ _ _, ?_⟩
  · simp only [exec_fillComplete, execFillComplete, onUnit_lt hc, onUnit_lt hu, hstate, hfree, hread, hcore, misfit, ne_eq, not_true_eq_false,
      Bool.false_eq_true, if_false, if_true, r]
  · rw [State.set_setNsw, State.core_setCore_self, CoreSt.set_setSet_self]
  · rw [State.setNsw_mem, State.setCore_mem]

/-- A fill from an open record of the pass takes its containers and counts (R156, R163). -/
theorem fillComplete_resumes (hc : c < 64) (hu : u < 2) (hstate : ((s.core c).set u).state = 1)
    (hfree : (s.core c).recordBusy u (pdPassBase ((s.core c).set u).desc) = false) :
    let x := (s.core c).set u
    let r := s.readMem (s.passWho c) (pdPassBase x.desc) 64
    let q := r.state.readElems c (pdPassBase x.desc) 9 passOff (x.acc.map (·.1))
    r.status = 0 → hdrFlag r.bytes 0 = true → leAt r.bytes 1 1 = x.mode → hdrFlag r.bytes 2 = x.b64 → q.1.status = 0 →
      q.1.state.core c = s.core c → Answers (exec (.fillComplete c u) s) fun t =>
        (t.core c).set u = { x with
          state := 2, acc := q.2, hdr := r.bytes, resumed := true, lapsed := hdrFlag r.bytes 3, ovf := hdrFlag r.bytes 4
          hdrAdds := leAt r.bytes 4 4, hdrProducts := leAt r.bytes 8 8 } ∧
        (hdrFlag r.bytes 3 = true → bitOf (t.core c).nsw nswLapsed = true) ∧
        (∀ v, v ≠ u → (t.core c).set v = (s.core c).set v) ∧ t.mem = q.1.state.mem := by
  intro x r q hread hopen hmode hkind helems hcore
  have fits : (!hdrFlag r.bytes 0 || leAt r.bytes 1 1 != x.mode || hdrFlag r.bytes 2 != x.b64) = false := by simp [hopen, hmode, hkind]
  let y : AccSet := { x with
    state := 2, acc := q.2, hdr := r.bytes, resumed := true, lapsed := hdrFlag r.bytes 3, ovf := hdrFlag r.bytes 4
    hdrAdds := leAt r.bytes 4 4, hdrProducts := leAt r.bytes 8 8 }
  have run : exec (.fillComplete c u) s = .next ((q.1.state.setCore c ((s.core c).setSet u y)).setNswIf (hdrFlag r.bytes 3) c nswLapsed) := by
    simp only [exec_fillComplete, execFillComplete, onUnit_lt hc, onUnit_lt hu, hstate, hfree, hread, hcore, fits, helems, ne_eq,
      not_true_eq_false, Bool.false_eq_true, if_false, r, q, x, y]
  refine ⟨_, run, ?_⟩
  unfold State.setNswIf
  split
  · next lapsed =>
    refine ⟨?_, fun _ => State.bit_setNsw _ _ _, fun v hv => ?_, ?_⟩
    · rw [State.set_setNsw, State.core_setCore_self, CoreSt.set_setSet_self]
    · rw [State.set_setNsw, State.core_setCore_self, CoreSt.set_setSet_ne _ hv]
    · rw [State.setNsw_mem, State.setCore_mem]
  · next lapsed =>
    refine ⟨?_, fun h => absurd h lapsed, fun v hv => ?_, ?_⟩
    · rw [State.core_setCore_self, CoreSt.set_setSet_self]
    · rw [State.core_setCore_self, CoreSt.set_setSet_ne _ hv]
    · rw [State.setCore_mem]

/-! ### The end of feeding -/

/-- The set `x` after its MMA has fed, in state `st`. -/
def AccSet.fed (x : AccSet) (st : Nat) : AccSet := { x with state := st, feeding := false, feedWt := none }

/-- The feeding of an MMA that leaves its pass open ends (R90). -/
theorem execFeedEnd_open (hc : c < 64) (hu : u < 64) (hstate : ((s.core c).set u).state = 3) (hfeed : ((s.core c).set u).feeding = true)
    (hclose : ((s.core c).set u).closeSeq = none) : execFeedEnd c u s = .next (s.setCore c ((s.core c).setSet u (((s.core c).set u).fed 3))) := by
  simp only [execFeedEnd, onUnit_lt hc, onUnit_lt hu, hstate, hfeed, hclose, Option.isNone_none, and_self, if_true, AccSet.fed]

/-- The feeding of a closing MMA ends; its set spills (R93). -/
theorem execFeedEnd_closed (hc : c < 64) (hu : u < 64) (hstate : ((s.core c).set u).state = 3) (hfeed : ((s.core c).set u).feeding = true)
    (hclose : ((s.core c).set u).closeSeq.isSome = true) (hspill : pdFinal ((s.core c).set u).desc = false) :
    execFeedEnd c u s = .next (s.setCore c ((s.core c).setSet u (((s.core c).set u).fed 4))) := by
  obtain ⟨seq, hseq⟩ := Option.isSome_iff_exists.mp hclose
  simp [execFeedEnd, onUnit_lt hc, onUnit_lt hu, hstate, hfeed, hseq, hspill, AccSet.fed]

/-- The epilogue of the parcel that the set `x`, of number `u`, closed (R201). -/
def AccSet.epilogue (x : AccSet) (u : Nat) : Epi :=
  { set := u, seq := x.closeSeq.getD 0, desc := x.desc, pc := pdEpiPc x.desc, rows := x.rows, cols := x.cols, orgM := x.orgM, orgN := x.orgN
    started := false, ip := 0, taken := 0 }

/-- Core `k` with one more epilogue. -/
def CoreSt.joinEpi (k : CoreSt) (e : Epi) : CoreSt := { k with epis := k.epis ++ [e] }

@[simp] theorem CoreSt.set_joinEpi (k : CoreSt) (e : Epi) (v : Nat) : (k.joinEpi e).set v = k.set v := rfl

/-- The feeding of a closing MMA ends; its final pass joins the epilogues (R201). -/
theorem execFeedEnd_final (hc : c < 64) (hu : u < 64) (hstate : ((s.core c).set u).state = 3) (hfeed : ((s.core c).set u).feeding = true)
    (hclose : ((s.core c).set u).closeSeq.isSome = true) (hfinal : pdFinal ((s.core c).set u).desc = true) (hepis : (s.core c).epis ≠ []) :
    execFeedEnd c u s = .next (s.setCore c (((s.core c).setSet u (((s.core c).set u).fed 4)).joinEpi (((s.core c).set u).epilogue u))) := by
  obtain ⟨seq, hseq⟩ := Option.isSome_iff_exists.mp hclose
  have more : (s.core c).epis.isEmpty = false := by simpa using hepis
  have stands (x : AccSet) : ((s.core c).setSet u x).epis = (s.core c).epis := rfl
  simp only [execFeedEnd, onUnit_lt hc, onUnit_lt hu, hstate, hfeed, hseq, hfinal, stands, more, Option.isNone_some, Bool.false_eq_true, and_false, and_self,
    if_true, if_false, AccSet.fed, AccSet.epilogue, CoreSt.joinEpi]

/-! ### The statement -/

/-- Settles O29: each row finds the set in the state that it leaves, and replaces it; a fill takes what it has read. -/
theorem accumulatorSetGoesThroughItsStates : Obligations.AccumulatorSetGoesThroughItsStates := by
  intro s c hc
  refine ⟨fun u d hq hclaim => accClaim_fills hc hq hclaim, fun u hu hstate hbusy => ?_, fun u hu hstate hfree => fillComplete_fresh hc hu hstate hfree,
    fun u hu hstate hfree => fillComplete_resumes hc hu hstate hfree, fun u hu hstate hfeed hclose => ?_, fun u hu hstate hfeed hclose hspill => ?_,
    fun u hu hstate hfeed hclose hfinal hepis => ?_, fun u hu hstate => ?_⟩
  · rw [exec_fillComplete, execFillComplete_waits hc hu hstate hbusy]
  · obtain ⟨rest, core, -⟩ := s.setCore_becomes c ((s.core c).setSet u (((s.core c).set u).fed 3))
    refine ⟨_, (exec_feedEnd s c u).trans (execFeedEnd_open hc hu hstate hfeed hclose), rest, ?_, by rw [core]; rfl⟩
    rw [core, CoreSt.set_setSet_self, AccSet.fed, ← hstate]
  · obtain ⟨rest, core, -⟩ := s.setCore_becomes c ((s.core c).setSet u (((s.core c).set u).fed 4))
    refine ⟨_, (exec_feedEnd s c u).trans (execFeedEnd_closed hc hu hstate hfeed hclose hspill), rest, ?_, by rw [core]; rfl⟩
    rw [core, CoreSt.set_setSet_self, AccSet.fed]
  · obtain ⟨rest, core, -⟩ := s.setCore_becomes c
      (((s.core c).setSet u (((s.core c).set u).fed 4)).joinEpi (((s.core c).set u).epilogue u))
    refine ⟨_, (exec_feedEnd s c u).trans (execFeedEnd_final hc hu hstate hfeed hclose hfinal hepis), rest, ?_, ((s.core c).set u).epilogue u,
      by rw [core]; rfl, rfl, rfl, rfl, rfl⟩
    rw [core, CoreSt.set_joinEpi, CoreSt.set_setSet_self, AccSet.fed]
  · obtain ⟨rest, core, others⟩ := s.setCore_becomes c ((s.core c).setSet u { (s.core c).set u with state := 5 })
    refine ⟨_, ?_, rest, by rw [core, CoreSt.set_setSet_self], fun v hv => by rw [core, CoreSt.set_setSet_ne _ hv], others⟩
    simp only [exec_parcelFinal, execParcelFinal, onUnit_lt hc, onUnit_lt hu, hstate, if_true]

end Sys2Proof.Machine
end

section
/-! SUPPORT. The MMAs (O26): where one goes, what it leaves of its core, and when it faults (R90, R93, R95, R99, R103, R148-R151, R156). -/

namespace Sys2Proof.Machine

variable {s : State} {c u : Nat} {d : Dec} {q : List Dec} {x : AccSet} {k : CoreSt}

/-! ### The rows -/

/-- The command of a mode is that mode's row. -/
theorem exec_mmaCommand (s : State) (c : Nat) : ∀ {mode : Nat}, mode ≤ 6 → exec (mmaCommand c mode) s = s.mmaRow c mode
  | 0, _ => exec_mmaMultiplyAdd s c
  | 1, _ => exec_mmaL1Distance s c
  | 2, _ => exec_mmaSquaredDifference s c
  | 3, _ => exec_mmaMaxPlus s c
  | 4, _ => exec_mmaMinPlus s c
  | 5, _ => exec_mmaMaxTimes s c
  | 6, _ => exec_mmaEqualityCount s c

/-- Without a split the MMA at the head of the queue is tried as in normal service (R90). -/
theorem AtArray.mmaNormal (h : AtArray s c d q) {mode : Nat} (hle : mode ≤ 6) (hmaj : iMajor d.word = 0x20) (hmode : iMinor d.word = mode)
    (hsplit : s.split c = none) : exec (mmaCommand c mode) s = .next (s.mmaNormal c d) := by
  rw [exec_mmaCommand s c hle, State.mmaRow, h.row hmaj (by simpa using hmode), hsplit]

/-- In a split it is tried on the slots (R103). -/
theorem AtArray.mmaSplit (h : AtArray s c d q) {mode : Nat} (hle : mode ≤ 6) (hmaj : iMajor d.word = 0x20) (hmode : iMinor d.word = mode)
    {sp : Nat × Bool} (hsplit : s.split c = some sp) : exec (mmaCommand c mode) s = .next (s.mmaSplit c d sp) := by
  rw [exec_mmaCommand s c hle, State.mmaRow, h.row hmaj (by simpa using hmode), hsplit]

/-! ### An MMA that may issue -/

/-- What holds an MMA of any set or slot back is not there (R90). -/
theorem MmaIssues.tried (h : MmaIssues s c d u x) (bare : Bool) : s.mmaTry c u d x bare [] = s.mmaCharge c u d x bare := by
  simp [State.mmaTry, h.resident, h.fits, h.feeder, codeIf, lowest]

/-- An MMA that may issue is issued on its set or slot, in the bare form where the split is bare (R90, R93, R95, R103). -/
theorem MmaIssues.run (h : MmaIssues s c d u x) (hat : AtArray s c d q) {mode : Nat} (hle : mode ≤ 6) (hmode : iMinor d.word = mode) :
    exec (mmaCommand c mode) s = .next (s.mmaCharge c u d x ((s.split c).any (·.2))) := by
  have tried := h.tried
  obtain ⟨hsplit, hopen, hpass, hfresh, rfl, hfree⟩ | ⟨hsplit, hopen, hpass, hstart, hfound⟩ | ⟨hsplit, hopen, hpass, hpd, hm, hn, hmask, hmodeX⟩ |
    ⟨sp, hsplit, hopen, hclose, hfresh, hm, hn, hfound, rfl⟩ := h.goes
  · have target : (s.core c).openTarget d = some (u, (s.core c).openSet d.word d.seq 3) := by
      obtain ⟨h0, rfl⟩ | ⟨h0, h1, rfl⟩ := hfree <;> simp [CoreSt.openTarget, *]
    rw [hat.mmaNormal hle h.major hmode hsplit, hsplit, ← tried]
    simp [State.mmaNormal, hopen, hpass, target, codeIf]
  · have target : (s.core c).openTarget d = some (u, x) := by simp only [CoreSt.openTarget, hstart, hfound, if_true]
    rw [hat.mmaNormal hle h.major hmode hsplit, hsplit, ← tried]
    simp [State.mmaNormal, hopen, hpass, target, codeIf]
  · have shape : sameShape d.word x = true := by simp [sameShape, hpd, hm, hn, hmask, hmodeX]
    rw [hat.mmaNormal hle h.major hmode hsplit, hsplit, ← tried]
    simp [State.mmaNormal, hopen, hpass, shape, codeIf]
  · have faults : (s.core c).splitFaults d.word sp = [] := by
      simp [CoreSt.splitFaults, hopen, hclose, hfresh, codeIf, Nat.not_lt.mpr (Nat.succ_le_of_lt hm), Nat.not_lt.mpr (Nat.succ_le_of_lt hn)]
    rw [hat.mmaSplit hle h.major hmode hsplit, hsplit, Option.any_some, ← tried]
    simp [State.mmaSplit, hfound, h.fits, faults, codeIf, lowest]

/-! ### What an MMA makes of its set -/

/-- What the MMA `d` does in every PE of set or slot `u`. -/
def Dec.mmaCtx (d : Dec) (u : Nat) (bare : Bool) : MmaCtx :=
  { mode := iMinor d.word, b64 := mmaAFmt d.word == 8, fp32 := mmaAFmt d.word == 7, bare := bare, seq := d.seq, set := u % 2
    orgM := mmaOrgM d.word, orgN := mmaOrgN d.word, kblk := mmaKblk d.word }

/-- The sums of the MMA `d` over the elements of `x`. -/
def CoreSt.mmaSums (k : CoreSt) (u : Nat) (d : Dec) (x : AccSet) (bare : Bool) : List (Nat × Nat) × Bool × EvSum :=
  let w := d.word
  let size := groupSize (mmaAFmt w) (mmaBFmt w)
  mmaRun (d.mmaCtx u bare) (k.halfGroups (mmaAHalf w) (mmaMM1 w + 1) 0 size (mmaK w))
    (k.halfGroups (mmaBHalf w) (mmaNM1 w + 1) (tget (fun _ => 0) (mmaWt w) k.wt) size (mmaK w)) x.acc

/-- The group additions that an MMA counts (R156). -/
def mmaAdds (w : Nat) : Nat :=
  if mmaAFmt w = 8 then 0 else if mmaAFmt w = 7 then 3 * ceilDiv (mmaK w) 4 else ceilDiv (mmaK w) (groupSize (mmaAFmt w) (mmaBFmt w))

/-- The limits of R167 that the MMA passes. -/
def Dec.mmaLapses (d : Dec) (x : AccSet) : List Nat :=
  lapseBits (iMinor d.word) (mmaAFmt d.word == 8) (x.hdrAdds + x.groupAdds) (x.hdrAdds + x.groupAdds + mmaAdds d.word) (x.hdrProducts + x.products)
    (x.hdrProducts + x.products + mmaK d.word)

/-- The set or slot `x` after the MMA `d` (R93, R156). -/
def CoreSt.mmaSet (k : CoreSt) (u : Nat) (d : Dec) (x : AccSet) (bare : Bool) : AccSet :=
  { x with
    state := 3, acc := (k.mmaSums u d x bare).1, groupAdds := x.groupAdds + mmaAdds d.word, products := x.products + mmaK d.word
    lapsed := x.lapsed || !(d.mmaLapses x).isEmpty, ovf := x.ovf || (k.mmaSums u d x bare).2.1, orgM := mmaOrgM d.word, orgN := mmaOrgN d.word
    kblk := mmaKblk d.word, claimSeq := none, closeSeq := if mmaClose d.word then some d.seq else none, feeding := true
    feedWt := if 9 ≤ mmaBFmt d.word ∧ mmaBFmt d.word ≤ 0xB then some (mmaWt d.word) else none
    order := if mmaClose d.word then k.closes else x.order }

/-- A half that the MMA releases begins its release (R88). -/
def CoreSt.releaseIf (k : CoreSt) (b : Bool) (h : Nat) : CoreSt := if b then k.setHalf h { k.half h with state := 3 } else k

/-- Core `k` with the head of its array queue gone and `n` passes closed. -/
def CoreSt.tookArray (k : CoreSt) (n : Nat) : CoreSt := { k with aq := k.aq.drop 1, closes := n }

@[simp] theorem CoreSt.set_tookArray (k : CoreSt) (n v : Nat) : (k.tookArray n).set v = k.set v := rfl

/-- Core `k` with the halves that the MMA of word `w` releases in their release. -/
def CoreSt.mmaFreed (k : CoreSt) (w : Nat) : CoreSt := (k.releaseIf (mmaRelA w) (mmaAHalf w)).releaseIf (mmaRelB w) (mmaBHalf w)

/-- Core `k` after the MMA at the head of its array queue. -/
def CoreSt.afterMma (k : CoreSt) (u : Nat) (d : Dec) (x : AccSet) (bare : Bool) : CoreSt :=
  ((k.mmaFreed d.word).setSet u (k.mmaSet u d x bare)).tookArray
    (if mmaClose d.word then (k.mmaFreed d.word).closes + 1 else (k.mmaFreed d.word).closes)

theorem CoreSt.releaseIf_state (k : CoreSt) (b : Bool) (h j : Nat) :
    ((k.releaseIf b h).half j).state = if b = true ∧ j = h then 3 else (k.half j).state := by
  unfold CoreSt.releaseIf
  cases b with
  | false => simp
  | true =>
    obtain rfl | hj := eq_or_ne j h
    · simp
    · simp [hj, k.half_setHalf_ne hj]

theorem CoreSt.releaseIf_frame (k : CoreSt) (b : Bool) (h : Nat) : k.releaseIf b h = { k with halves := (k.releaseIf b h).halves } := by
  unfold CoreSt.releaseIf
  split <;> rfl

theorem CoreSt.mmaFreed_frame (k : CoreSt) (w : Nat) : k.mmaFreed w = { k with halves := (k.mmaFreed w).halves } := by
  unfold CoreSt.mmaFreed
  rw [CoreSt.releaseIf_frame, CoreSt.releaseIf_frame k]

theorem CoreSt.afterMma_set_self (k : CoreSt) (u : Nat) (d : Dec) (x : AccSet) (bare : Bool) :
    (k.afterMma u d x bare).set u = k.mmaSet u d x bare := by
  rw [CoreSt.afterMma, CoreSt.set_tookArray, CoreSt.set_setSet_self]

theorem CoreSt.afterMma_set_ne (k : CoreSt) {u v : Nat} (hv : v ≠ u) (d : Dec) (x : AccSet) (bare : Bool) :
    (k.afterMma u d x bare).set v = k.set v := by
  rw [CoreSt.afterMma, CoreSt.set_tookArray, CoreSt.set_setSet_ne _ hv, CoreSt.mmaFreed_frame]
  rfl

theorem CoreSt.afterMma_aq (k : CoreSt) (u : Nat) (d : Dec) (x : AccSet) (bare : Bool) : (k.afterMma u d x bare).aq = k.aq.drop 1 := by
  change (k.mmaFreed d.word).aq.drop 1 = _
  rw [CoreSt.mmaFreed_frame]

theorem CoreSt.afterMma_trap (k : CoreSt) (u : Nat) (d : Dec) (x : AccSet) (bare : Bool) : (k.afterMma u d x bare).trap = k.trap := by
  change (k.mmaFreed d.word).trap = _
  rw [CoreSt.mmaFreed_frame]

/-- The A halves are 0 and 1, the B halves 2 and 3. -/
theorem mmaHalves_ne (w : Nat) : mmaAHalf w ≠ mmaBHalf w := by
  have low := bitsAt_lt w 32 1
  unfold mmaAHalf mmaBHalf
  omega

/-- The resident halves of an MMA stand, but for those that it releases. -/
theorem CoreSt.afterMma_halves (hres : k.mmaResident d.word = true) (u : Nat) (x : AccSet) (bare : Bool) :
    ((k.afterMma u d x bare).half (mmaAHalf d.word)).state = (if mmaRelA d.word then 3 else 2) ∧
      ((k.afterMma u d x bare).half (mmaBHalf d.word)).state = (if mmaRelB d.word then 3 else 2) := by
  obtain ⟨hA, hB⟩ : (k.half (mmaAHalf d.word)).state = 2 ∧ (k.half (mmaBHalf d.word)).state = 2 := by simpa [CoreSt.mmaResident] using hres
  have half (j : Nat) : ((k.afterMma u d x bare).half j).state =
      (((k.releaseIf (mmaRelA d.word) (mmaAHalf d.word)).releaseIf (mmaRelB d.word) (mmaBHalf d.word)).half j).state := rfl
  have apart := mmaHalves_ne d.word
  rw [half, half]
  simp only [CoreSt.releaseIf_state, hA, hB, apart, apart.symm, and_true, and_false, if_false]

/-! ### What an MMA leaves -/

theorem CoreLeft.setNswIf {s t : State} {n : Nat} {k : CoreSt} (h : CoreLeft s t n k) (b : Bool) (bit : Nat) :
    CoreLeft s (t.setNswIf b n bit) n k := by
  unfold State.setNswIf
  split
  · exact h.setNsw bit
  · exact h

theorem CoreLeft.setNsws {s t : State} {n : Nat} {k : CoreSt} (h : CoreLeft s t n k) (bits : List Nat) :
    CoreLeft s (bits.foldl (fun s b => s.setNsw n b) t) n k :=
  List.foldlRecOn (motive := fun t => CoreLeft s t n k) bits _ h fun _ ht b _ => ht.setNsw b

/-- The die after the MMA `d`, but for its numeric events and its charge. -/
def State.mmaWork (s : State) (c u : Nat) (d : Dec) (x : AccSet) (bare : Bool) : State :=
  let fed := (s.setCore c ((s.core c).afterMma u d x bare)).count Fld.CORE_ARR_FEED_CK_COUNT
    (feedCk (iMinor d.word) (mmaAFmt d.word) (mmaBFmt d.word) (mmaK d.word)) c
  (d.mmaLapses x).foldl (fun s b => s.setNsw c b)
    ((fed.setNswIf ((s.core c).mmaSums u d x bare).2.1 c nswAccOvf).setNswIf (!(d.mmaLapses x).isEmpty) c nswLapsed)

theorem State.mmaWork_left (s : State) (c u : Nat) (d : Dec) (x : AccSet) (bare : Bool) :
    CoreLeft s (s.mmaWork c u d x bare) c ((s.core c).afterMma u d x bare) :=
  have counted := ((CoreLeft.refl s c).setCore ((s.core c).afterMma u d x bare)).put (f := Fld.CORE_ARR_FEED_CK_COUNT) (by decide)
  (((counted _).setNswIf _ _).setNswIf _ _).setNsws _

/-- An MMA that issues leaves its core as `afterMma` says, but for the numeric status word. -/
theorem MmaIssues.left (h : MmaIssues s c d u x) (bare : Bool) : CoreLeft s (s.mmaCharge c u d x bare) c ((s.core c).afterMma u d x bare) := by
  obtain ⟨cleanA, cleanB⟩ := h.clean
  have issued : s.mmaIssue c u d x bare = (s.mmaWork c u d x bare).numEvents c ((s.core c).mmaSums u d x bare).2.2 := by
    unfold State.mmaIssue
    dsimp only
    rw [cleanA, cleanB]
    rfl
  have work := s.mmaWork_left c u d x bare
  have noTrap : ((s.mmaWork c u d x bare).core c).trap = false := by
    rw [work.core]
    exact (CoreSt.afterMma_trap _ u d x bare).trans h.noTrap
  rw [State.mmaCharge, h.account, if_neg Bool.false_ne_true, issued]
  exact (work.andThen (State.numEvents_left noTrap _)).andThen (State.charge_left _ _ _ c)

/-- Each element of an MMA's set gets what its PE makes of it (R148-R151). -/
theorem mmaRun_acc (m : MmaCtx) (rows cols : List (List Grp)) (acc : List (Nat × Nat)) :
    (mmaRun m rows cols acc).1 = acc.map fun e =>
      let p := peGroups m (e.1 / 128) (e.1 % 128) 0 { s := contSum m.b64 e.2, c := contComp m.b64 e.2, ovf := false, ev := EvSum.none }
        (rows.getD (e.1 / 128) []) (cols.getD (e.1 % 128) [])
      (e.1, contOf m.b64 p.s p.c) := by
  induction acc with
  | nil => rfl
  | cons e acc ih =>
    rw [List.map_cons, ← ih]
    rfl

/-- A set that opens fresh holds the mode's fresh value in every enabled element (R78, R99). -/
theorem CoreSt.openSet_acc (k : CoreSt) (w seq state : Nat) :
    (k.openSet w seq state).acc.map (·.1) = enabledElems (k.enabled w).1 (k.enabled w).2 ∧
      ∀ e ∈ (k.openSet w seq state).acc, e.2 = contOf (mmaAFmt w == 8) (freshSum (iMinor w)) vzero := by
  have acc : (k.openSet w seq state).acc =
      (enabledElems (k.enabled w).1 (k.enabled w).2).map fun i => (i, contOf (mmaAFmt w == 8) (freshSum (iMinor w)) vzero) := rfl
  rw [acc]
  refine ⟨by rw [List.map_map]; exact List.map_id _, fun e he => ?_⟩
  obtain ⟨i, -, rfl⟩ := List.mem_map.mp he
  rfl

theorem mmaAdds_eq (w : Nat) : mmaAdds w =
    if (mmaAFmt w == 8) = true then 0 else if (mmaAFmt w == 7) = true then 3 * ceilDiv (mmaK w) 4 else ceilDiv (mmaK w) (groupSize (mmaAFmt w) (mmaBFmt w)) := by
  simp only [mmaAdds, beq_iff_eq]

theorem issuedMmaAddsItsCombine : IssuedMmaAddsItsCombine := by
  intro s c d q mode u x hat h hle hmode
  have left := h.left ((s.split c).any (·.2))
  refine ⟨_, h.run hat hle hmode, ?_⟩
  generalize s.mmaCharge c u d x ((s.split c).any (·.2)) = t at left
  have sets (v : Nat) : (t.core c).set v = ((s.core c).afterMma u d x ((s.split c).any (·.2))).set v := by rw [left.core]; rfl
  have halves (j : Nat) : (t.core c).half j = ((s.core c).afterMma u d x ((s.split c).any (·.2))).half j := by rw [left.core]; rfl
  obtain ⟨hA, hB⟩ := CoreSt.afterMma_halves h.resident u x ((s.split c).any (·.2))
  subst hmode
  dsimp only
  rw [sets u, CoreSt.afterMma_set_self]
  refine ⟨rfl, rfl, mmaRun_acc _ _ _ _, ?_, rfl, ?_, rfl, rfl, ?_, by rw [halves, hA], by rw [halves, hB],
    fun v hv => by rw [sets, CoreSt.afterMma_set_ne _ hv], left.mem.1, left.others⟩
  · rintro rfl
    exact CoreSt.openSet_acc _ _ _ _
  · rw [← mmaAdds_eq]
    rfl
  · have queue : (t.core c).aq = ((s.core c).afterMma u d x ((s.split c).any (·.2))).aq := by rw [left.core]
    rw [queue, CoreSt.afterMma_aq, hat.2, List.drop_one, List.tail_cons]

theorem misplacedMmaFaults : MisplacedMmaFaults := by
  intro s c d q mode hat hle hmaj hmode hsplit hrun htest
  refine ⟨fun hclash => ?_, fun hopen hpass htarget hres hmisfit => ?_⟩
  · have stops := s.coreFault_stops hrun htest 0x06 d.seq
    refine ⟨_, hat.mmaNormal hle hmaj hmode hsplit, ?_⟩
    rw [State.mmaNormal, if_pos (by simpa using hclash)]
    exact ⟨stops.code, stops.run⟩
  · obtain ⟨e, he⟩ := Option.ne_none_iff_exists'.mp htarget
    have stops := s.coreFault_stops hrun htest 0x05 d.seq
    have tried : s.mmaNormal c d = s.coreFault c 0x05 d.seq := by
      simp [State.mmaNormal, State.mmaTry, hopen, hpass, he, hres, hmisfit, codeIf, lowest]
    rw [hat.mmaNormal hle hmaj hmode hsplit, tried]
    exact ⟨_, rfl, stops.code, stops.run⟩

/-- Settles O26: the MMA is issued where it goes, and leaves its core with each element's sum; one that clashes with the open pass or its halves
faults where it is tried. -/
theorem mmaOpensAPassOrFaults : Obligations.MmaOpensAPassOrFaults := ⟨issuedMmaAddsItsCombine, misplacedMmaFaults⟩

end Sys2Proof.Machine
end

section
/-! SUPPORT. Spill drains (O30): the fold of a ledger entry that stays finite, and the state that a spill leaves below and at the spill interval
(R154, R156, R159-R161). -/

namespace Sys2Proof.Machine

variable {s : State} {n u : Nat} {x : AccSet}

/-! ### Additions that stay finite -/

/-- A value that is neither infinite nor a NaN. -/
def Val.Finite (v : Val) : Prop := v.isInf = false ∧ v.isNan = false

/-- A sum with an infinity or a NaN is one. -/
theorem vadd_not_finite (a b : Val) (h : a.isNan = true ∨ a.isInf = true) : ¬(vadd a b).Finite := by
  cases a with
  | nan => simp [vadd, Val.Finite, Val.isNan]
  | inf p =>
    cases b with
    | nan => simp [vadd, Val.Finite, Val.isNan]
    | inf q =>
      by_cases same : p = q
      · simp [vadd, same, Val.Finite, Val.isInf]
      · simp [vadd, same, Val.Finite, Val.isNan]
    | fin m e => simp [vadd, Val.Finite, Val.isInf]
  | fin m e => simp [Val.isNan, Val.isInf] at h

/-- ADD and FOLD agree on the sum and its compensation (R154, R161). -/
theorem addComp_foldStep (v c y : Val) : ((addComp fB64 v c y).s, (addComp fB64 v c y).c) = foldStep (v, c) y := by
  unfold addComp foldStep
  split
  · rfl
  · split
    · cases vadd v y <;> rfl
    · dsimp only
      split <;> rfl

/-- A sum that stays finite neither overflowed nor met opposite infinities (R154). -/
theorem addComp_flags {v c y : Val} (h : (addComp fB64 v c y).s.Finite) : (addComp fB64 v c y).ovf = false ∧ (addComp fB64 v c y).opp = false := by
  unfold addComp at h ⊢
  split
  · exact ⟨rfl, rfl⟩
  · next number =>
    rw [if_neg number] at h
    split
    · next infinite =>
      rw [if_pos infinite] at h
      cases hv : vadd v y with
      | nan => simp [hv, Val.Finite, Val.isNan] at h
      | inf p => exact ⟨rfl, rfl⟩
      | fin m e => exact ⟨rfl, rfl⟩
    · next finite =>
      rw [if_neg finite] at h
      dsimp only at h ⊢
      split
      · next infinite =>
        rw [if_pos infinite] at h
        exact absurd h.1 (by rw [infinite]; decide)
      · exact ⟨rfl, rfl⟩

/-- A sum that is finite was finite before (R154). -/
theorem addComp_finite {v c y : Val} (h : (addComp fB64 v c y).s.Finite) : v.Finite := by
  by_contra lost
  have odd : v.isNan = true ∨ v.isInf = true := by
    simp only [Val.Finite, not_and_or, Bool.not_eq_false] at lost
    exact lost.symm
  have sum := vadd_not_finite v y odd
  unfold addComp at h
  split at h
  · simp [Val.Finite, Val.isNan] at h
  · next number =>
    have infinite : (v.isInf || y.isInf) = true := by
      obtain nan | inf := odd
      · simp [nan] at number
      · simp [inf]
    rw [if_pos infinite] at h
    cases hv : vadd v y with
    | nan => simp [hv, Val.Finite, Val.isNan] at h
    | inf p => simp [hv, Val.Finite, Val.isInf] at h
    | fin m e => exact sum (by simp [hv, Val.Finite, Val.isInf, Val.isNan])

/-- The ledger entry that FOLD makes, where it stays finite or the mode compares (R161): no overflow and no opposite infinities are met. -/
theorem foldEntry_finite (mode old : Nat) (v c : Val)
    (h : ¬(3 ≤ mode ∧ mode ≤ 5) → (foldResult mode (fB64.dec (old % 2 ^ 64), fB64.dec (old / 2 ^ 64)) v c).1.Finite) :
    foldEntry mode old v c = (ledgerOf (foldResult mode (fB64.dec (old % 2 ^ 64), fB64.dec (old / 2 ^ 64)) v c).1
      (foldResult mode (fB64.dec (old % 2 ^ 64), fB64.dec (old / 2 ^ 64)) v c).2, false, false) := by
  generalize hls : fB64.dec (old % 2 ^ 64) = ls at h ⊢
  generalize hlc : fB64.dec (old / 2 ^ 64) = lc at h ⊢
  by_cases comparing : 3 ≤ mode ∧ mode ≤ 5
  · simp only [foldEntry, foldResult, comparing, and_self, if_true, hls]
  · have finite := h comparing
    have first := addComp_foldStep ls lc v
    have second := addComp_foldStep (addComp fB64 ls lc v).s (addComp fB64 ls lc v).c c
    simp only [foldEntry, foldResult, comparing, if_false, hls, hlc] at finite ⊢
    rw [← first, ← second] at finite ⊢
    obtain ⟨ovf2, opp2⟩ := addComp_flags finite
    obtain ⟨ovf1, opp1⟩ := addComp_flags (addComp_finite finite)
    rw [ovf1, ovf2, opp1, opp2]
    rfl

/-! ### The parts of a spill -/

/-- The field of `l` bytes at `o` of the record's header, 0 where the pass resumed none (R156). -/
def AccSet.field (x : AccSet) (o l : Nat) : Nat := if x.resumed then leAt x.hdr o l else 0

/-- The pass resumed a record that has a ledger (R159). -/
def AccSet.ledger (x : AccSet) : Bool := x.resumed && hdrFlag x.hdr 1

/-- The header's flags after a spill of `x` (R156). -/
def AccSet.flags (x : AccSet) (ledger : Bool) : Nat := 1 + 2 * b2n ledger + 4 * b2n x.b64 + 8 * b2n x.lapsed + 16 * b2n x.ovf

/-- The pass covers every row and column that the record has touched (R161). -/
def AccSet.covers (x : AccSet) : Bool :=
  let rows := x.field 16 16 ||| x.rows
  let cols := x.field 32 16 ||| x.cols
  rows == 0 || cols == 0 || (rows == x.rows && cols == x.cols)

/-- The header of a spill below the interval (R156, R160). -/
def AccSet.spillHeader (x : AccSet) : Bytes :=
  headerBytes (x.flags x.ledger) x.mode (x.field 2 1 + 1) (x.field 4 4 + x.groupAdds) (x.field 8 8 + x.products) (x.field 16 16 ||| x.rows)
    (x.field 32 16 ||| x.cols)

/-- The header of a spill that folds (R156, R161). -/
def AccSet.foldHeader (x : AccSet) : Bytes :=
  headerBytes (x.flags true) x.mode 0 (if x.covers then 0 else x.field 4 4 + x.groupAdds) (x.field 8 8 + x.products)
    (if x.covers then 0 else x.field 16 16 ||| x.rows) (if x.covers then 0 else x.field 32 16 ||| x.cols)

/-- The end of a spill whose elements are written: the header, and the set is free; a failed access faults the core (R160, R165). -/
def State.endSpill (n u : Nat) (x : AccSet) (r : State × Nat) (header : Bytes) : State :=
  if r.2 ≠ 0 then r.1.coreFault n (passCode r.2) (x.closeSeq.getD 0)
  else
    let w := r.1.writeMem (r.1.passWho n) (pdPassBase x.desc) header
    if w.2 ≠ 0 then w.1.coreFault n (passCode w.2) (x.closeSeq.getD 0) else w.1.setCore n ((w.1.core n).freeSet u)

theorem State.endSpill_ok {r : State × Nat} {header : Bytes} (hr : r.2 = 0)
    (hw : (r.1.writeMem (r.1.passWho n) (pdPassBase x.desc) header).2 = 0) :
    State.endSpill n u x r header = (r.1.writeMem (r.1.passWho n) (pdPassBase x.desc) header).1.setCore n
      (((r.1.writeMem (r.1.passWho n) (pdPassBase x.desc) header).1.core n).freeSet u) := by
  simp only [State.endSpill, hr, hw, ne_eq, not_true_eq_false, if_false]

/-- Below the spill interval the containers are written (R160). -/
theorem State.spill_below (hmay : s.mayWritePass n (pdPassBase x.desc) = true) (hlow : x.field 2 1 + 1 < (s.core n).spill + 1) :
    s.spill n u x false = State.endSpill n u x (s.writeElems n (pdPassBase x.desc) 9 passOff x.acc) x.spillHeader := by
  have noFold : decide ((s.core n).spill + 1 ≤ x.field 2 1 + 1) = false := decide_eq_false (by omega)
  unfold State.spill
  exact (if_neg (by rw [hmay]; decide)).trans (if_pos (by simpa [AccSet.field] using noFold))

/-- What a fold reads of the ledger (R159). -/
def State.oldLedger (s : State) (n : Nat) (x : AccSet) : Rd × List (Nat × Nat) :=
  if x.ledger then s.readElems n (pdPassBase x.desc) 16 ledgerOff (x.acc.map (·.1)) else (⟨s, 0, []⟩, x.acc.map (fun e => (e.1, 0)))

/-- What a fold makes of an element and its old ledger entry (R161). -/
def AccSet.entry (x : AccSet) (e : (Nat × Nat) × (Nat × Nat)) : Val × Val :=
  if x.ledger then foldResult x.mode (fB64.dec (e.2.2 % 2 ^ 64), fB64.dec (e.2.2 / 2 ^ 64)) (contSum x.b64 e.1.2) (contComp x.b64 e.1.2)
  else (contSum x.b64 e.1.2, contComp x.b64 e.1.2)

/-- The state in which a fold has written the ledger (R161). -/
def State.foldLedger (s : State) (n : Nat) (x : AccSet) : State × Nat :=
  (s.oldLedger n x).1.state.writeElems n (pdPassBase x.desc) 16 ledgerOff
    ((x.acc.zip (s.oldLedger n x).2).map (fun e => (e.1.1, ledgerOf (x.entry e).1 (x.entry e).2)))

/-- At the spill interval the sums that stay finite are folded into the ledger, and the pass area starts fresh (R161). -/
theorem State.spill_fold (hmay : s.mayWritePass n (pdPassBase x.desc) = true) (hhigh : (s.core n).spill + 1 ≤ x.field 2 1 + 1)
    (hread : (s.oldLedger n x).1.status = 0)
    (hfin : x.ledger = true → ¬(3 ≤ x.mode ∧ x.mode ≤ 5) → ∀ e ∈ x.acc.zip (s.oldLedger n x).2, (x.entry e).1.Finite)
    (hwrite : (s.foldLedger n x).2 = 0) :
    s.spill n u x false = State.endSpill n u x ((s.foldLedger n x).1.writeElems n (pdPassBase x.desc) 9 passOff
      (x.acc.map (fun e => (e.1, contOf x.b64 (freshSum x.mode) vzero)))) x.foldHeader := by
  unfold State.spill
  extract_lets c seq base ledger passes adds products rows cols fold covers flags finish old entries ovf ev w w' header
  have folds : fold = true := decide_eq_true hhigh
  rw [if_neg (by simp [base, hmay]), if_neg (by simp [folds])]
  have hold : old = s.oldLedger n x := rfl
  rw [if_neg (by rw [hold, hread]; decide)]
  have hentries : entries = (x.acc.zip (s.oldLedger n x).2).map fun e => (e.1.1, ledgerOf (x.entry e).1 (x.entry e).2, false, false) := by
    refine List.map_congr_left fun e he => ?_
    have finite := fun hl hm => hfin hl hm e he
    dsimp only
    by_cases hl : x.ledger = true
    · simp only [AccSet.entry, hl, if_true, forall_const] at finite ⊢
      rw [if_pos (show ledger = true from hl), foldEntry_finite x.mode e.2.2 _ _ finite]
    · rw [if_neg (show ¬ledger = true from hl), AccSet.entry, if_neg hl]
  have hovf : ovf = false := by simp [ovf, hentries]
  have hev : ev = EvSum.none := by
    unfold ev
    rw [hentries, List.foldl_map]
    exact List.foldl_fixed _
  have hw : w = s.foldLedger n x := by
    unfold w
    rw [hentries, List.map_map]
    rfl
  have hw' : w' = (s.foldLedger n x).1.writeElems n (pdPassBase x.desc) 9 passOff
      (x.acc.map (fun e => (e.1, contOf x.b64 (freshSum x.mode) vzero))) := by
    unfold w'
    rw [hw, if_neg (by rw [hwrite]; decide)]
  have hheader : header = x.foldHeader := by
    unfold header
    rw [hovf, Bool.or_false]
    rfl
  rw [hovf, hev, hw', hheader]
  rfl

/-! ### The row -/

/-- The drain of a closed pass runs when no earlier pass drains to its record (R158). -/
theorem execSpillDrainComplete_first {c : Nat} (hc : c < 64) (hu : u < 64) (hstate : ((s.core c).set u).state = 5)
    (hspill : pdFinal ((s.core c).set u).desc = false)
    (hfirst : ∀ e ∈ (s.core c).sets, e.1 = u ∨ pdPassBase e.2.desc ≠ pdPassBase ((s.core c).set u).desc) :
    exec (.spillDrainComplete c u) s = .next (s.spill c u ((s.core c).set u) (s.split c).isSome) := by
  have free : (s.core c).sets.any (fun e => e.1 != u && e.2.closeSeq.isSome && decide (e.2.order < ((s.core c).set u).order) &&
      pdUsesRecord e.2.desc && pdPassBase e.2.desc == pdPassBase ((s.core c).set u).desc) = false := by
    rw [List.any_eq_false]
    intro e he
    obtain own | other := hfirst e he
    · simp [own]
    · simp [other]
  simp only [exec_spillDrainComplete, execSpillDrainComplete, onUnit_lt hc, onUnit_lt hu, hstate, hspill, free, Bool.not_false, and_self,
    Bool.false_eq_true, if_true, if_false]

/-- A set that a spill frees is IDLE. -/
theorem State.freed_setFree (s : State) (c u : Nat) : ((s.setCore c ((s.core c).freeSet u)).core c).setFree u = true := by
  rw [State.core_setCore_self, CoreSt.setFree_freeSet]

/-- Settles O30: the drain waits for earlier ones; then it writes its elements, or folds them into the ledger, and ends with the header. -/
theorem spillWritesThePassRecord : Obligations.SpillWritesThePassRecord := by
  intro s c u hc hu hstate hspill
  refine ⟨fun hwaits => ?_, fun hfirst hsplit hmay => ?_, fun hfirst hmay hrun htest => ?_⟩
  · simp only [exec_spillDrainComplete, execSpillDrainComplete, onUnit_lt hc, onUnit_lt hu, hstate, hspill, hwaits, Bool.not_false, and_self, if_true]
  · intro x base h led adds products rows cols flags frees
    have run := execSpillDrainComplete_first hc hu hstate hspill hfirst
    rw [hsplit, Option.isSome_none] at run
    refine ⟨fun hlow => ?_, fun hhigh => ?_⟩
    · intro w hw hv
      refine ⟨_, ?_, rfl, State.freed_setFree _ c u⟩
      rw [run, State.spill_below hmay hlow]
      exact congrArg _ (State.endSpill_ok hw hv)
    · intro r entry w z covered hread hfin hw hz hv
      refine ⟨_, ?_, rfl, State.freed_setFree _ c u⟩
      rw [run, State.spill_fold hmay hhigh hread hfin hw]
      exact congrArg _ (State.endSpill_ok hz hv)
  · have stops := s.coreFault_stops hrun htest 9 (((s.core c).set u).closeSeq.getD 0)
    have refused : s.spill c u ((s.core c).set u) (s.split c).isSome = s.coreFault c 9 (((s.core c).set u).closeSeq.getD 0) := by
      unfold State.spill
      exact if_pos (by rw [hmay]; decide)
    rw [execSpillDrainComplete_first hc hu hstate hspill hfirst, refused]
    exact ⟨_, rfl, stops.code, stops.run⟩

end Sys2Proof.Machine
end

section
/-! SUPPORT. Core test (O12): how a `CORE_TEST` command of the debug port reaches its core page, and what entering, starting and leaving write
(R53, R102, R107, R437). -/

namespace Sys2Proof.Machine

variable {s t : State} {a : Acc} {c : Nat}

/-! ### The page of a core -/

theorem blkOf_core (hc : c < 64) : blkOf (0x40 + c) = 0x40 := by
  unfold blkOf
  rw [if_neg (by omega), if_pos (by omega)]

theorem populated_core (hc : c < 64) : populated (0x40 + c) = true := by
  have inside : decide (0x40 ≤ 0x40 + c) = true ∧ decide (0x40 + c ≤ 0x7F) = true := ⟨decide_eq_true (by omega), decide_eq_true (by omega)⟩
  simp only [populated, inside, Bool.and_self, Bool.or_true, Bool.true_or]

/-- A write of a core page's field leaves a field of another page alone. -/
theorem State.get_put_otherPage {f g : Fld} (hf : f.ofCore) (hg : g.one) {n j e : Nat} (hpage : g.key j e / 2 ^ 32 ≠ 0x40 + n) (s : State) (v : Nat) :
    (s.put f v n).get g j e = s.get g j e := by
  rw [State.get_one hg, State.get_one hg, State.word_put_ofCore hf s v hpage]

/-- A write of a core page's field leaves a field at another offset of the page alone. -/
theorem State.get_put_otherOff {f g : Fld} (hf : f.ofCore) (hg : g.ofCore) (hf1 : f.one) (hg1 : g.one) (hoff : g.off ≠ f.off) (s : State) (v n : Nat) :
    (s.put f v n).get g n = s.get g n :=
  State.get_put_key hf1 hg1 s v n 0 n 0 (Fld.ofCore.key_ne hf hg hoff n)

/-! ### The command -/

theorem State.done_regs (s : State) (code data : Nat) : (s.done code data).regs = s.regs := by
  unfold State.done
  exact Eq.refl _

theorem State.done_cores (s : State) (code data : Nat) : (s.done code data).cores = s.cores := by
  unfold State.done
  exact Eq.refl _

theorem State.done_code (s : State) (code data : Nat) : (s.done code data).ctl.code = code := by
  unfold State.done
  exact Eq.refl _

theorem State.get_done (s : State) (code data : Nat) (f : Fld) (j : Nat) : (s.done code data).get f j = s.get f j :=
  State.get_congr (s.done_regs code data) f j 0

theorem State.core_done (s : State) (code data m : Nat) : (s.done code data).core m = s.core m := State.core_congr (s.done_cores code data) m

/-- The `CORE_TEST` word of command `bit`, which leaves the test domain `dom` as it is (R107). -/
def testWord (bit dom : Nat) : Nat := 2 ^ bit + 256 * dom

theorem testWord_dom {bit dom : Nat} (hbit : bit < 3) (hdom : dom < 256) : bitsAt (testWord bit dom % 2 ^ 32) 8 8 = dom := by
  unfold bitsAt testWord
  interval_cases bit <;> omega

theorem testWord_bit {bit dom : Nat} (hbit : bit < 3) {i : Nat} (hi : i < 3) :
    bitOf (testWord bit dom % 2 ^ 32) i = decide (i = bit) := by
  unfold bitOf testWord
  rw [beq_eq_decide]
  interval_cases bit <;> interval_cases i <;> exact decide_eq_decide.mpr (by omega)

/-- A write of the debug port to `CORE_TEST` on an unlocked die reaches its register (R53, R107). -/
theorem State.testCommand_reaches (hc : c < 64) (hcls : a.cls = .dbg) (hport : s.portOpen a = true) (hunlocked : s.unlocked = true)
    (hhole : s.isHole c = false) (bit : Nat) :
    s.testCommand a c bit = .next (s.testControl a (0x40 + c) (testWord bit (s.get Fld.CORE_CORE_TEST_TEST_DOM c) % 2 ^ 32)) := by
  have live : LiveReg s (0x40 + c) 0x140 :=
    ⟨populated_core hc, by simp [State.retiredPage, hhole], by decide, by decide, by decide⟩
  have class_ : s.classOk a (0x40 + c) 0x140 true = true := by simp [State.classOk, hcls, hunlocked]
  have mask : s.maskOk a (0x40 + c) (.reg 0 0x140 false) = true := by simp [State.maskOk, hcls]
  have onPage : s.pageWrite a (0x40 + c) 0x140 = true := by simp [State.pageWrite, hcls, hunlocked]
  have host (v : Nat) : s.hostWrite a (0x40 + c) 0 0x140 v = true := by simp [State.hostWrite, hcls]
  have act (v : Nat) : ctlAct s a (0x40 + c) 0 0x140 v = some (s.testControl a (0x40 + c) v) := by simp [ctlAct, blkOf_core hc]
  rw [State.testCommand, onUnit_lt hc, State.pageWord, State.ctlWrite_pageAddr s a (populated_lt live.1) (by decide), State.pageOffWrite,
    live.entryCheck true hport class_ mask, s.spot_live a.cls (0x40 + c) (by decide) (by decide)]
  simp only [State.writeReg, onPage, host, chselOk_block a (show 0x100 ≤ 0x140 by decide), Bool.and_self, Bool.not_true, Bool.false_eq_true, if_false,
    Nat.reduceEqDiff, State.putSpot, Nat.reduceLT, and_false, act, testWord]

/-- What a `CORE_TEST` command finds: the die with its test domain written again (R107). -/
def State.testFound (s : State) (c : Nat) : State := s.put Fld.CORE_CORE_TEST_TEST_DOM (s.get Fld.CORE_CORE_TEST_TEST_DOM c) c

theorem State.testFound_stands (s : State) (c : Nat) : CoresStand s (s.testFound c) := (CoresStand.refl s).put

theorem State.testFound_dom (s : State) (c : Nat) : (s.testFound c).get Fld.CORE_CORE_TEST_TEST_DOM c = s.get Fld.CORE_CORE_TEST_TEST_DOM c := by
  rw [State.testFound, State.get_put_one (by decide), Nat.mod_eq_of_lt (State.get_lt (by decide) s c 0)]

theorem State.testFound_core (s : State) (c : Nat) {f : Fld} (hf : f.ofCore) (hf1 : f.one) (hoff : f.off ≠ 0x140) :
    (s.testFound c).get f c = s.get f c :=
  State.get_put_otherOff (by decide) hf (by decide) hf1 hoff s _ c

theorem State.testFound_page (hc : c < 64) (s : State) {f : Fld} (hf : f.one) {e : Nat} (hkey : f.key 0 e / 2 ^ 32 < 0x40) :
    (s.testFound c).get f 0 e = s.get f 0 e :=
  State.get_put_otherPage (by decide) hf (by omega) s _

theorem State.testFound_fatal (hc : c < 64) (s : State) : (s.testFound c).fatal = s.fatal := by
  rw [State.fatal, State.fatal, State.testFound_page hc s (by decide) (by decide)]

theorem State.testFound_domActive (hc : c < 64) (s : State) {d : Nat} (hd : d < 256) : (s.testFound c).domActive d = s.domActive d := by
  have key : Fld.DSP_DOM_CFG_STATE.key 0 d / 2 ^ 32 < 0x40 := by
    simp [Fld.key, regKey, Fld.DSP_DOM_CFG_STATE]
    omega
  rw [State.domActive, State.domActive, State.testFound_page hc s (by decide) key]

/-- A command acts on a core that is neither in recovery nor in BIST, by its lowest bit (R102, R107). -/
theorem State.testCommand_acts (hc : c < 64) (hcls : a.cls = .dbg) (hport : s.portOpen a = true) (hunlocked : s.unlocked = true)
    (hphase : s.get Fld.BOOT_BOOT_STATE_PHASE ≠ 2) (hhole : s.isHole c = false) (hstate : s.get Fld.CORE_CORE_STATE_STATE c ≠ 4) {bit : Nat}
    (hbit : bit < 3) : s.testCommand a c bit = .next ((if decide (0 = bit) then (s.testFound c).testEnter c else
      if decide (1 = bit) then (s.testFound c).testLeave c else if decide (2 = bit) then (s.testFound c).testStart c else s.testFound c).done 0 0) := by
  have hdom := State.get_lt (f := Fld.CORE_CORE_TEST_TEST_DOM) (by decide) s c 0
  have here : ¬((s.testFound c).get Fld.CORE_CORE_STATE_STATE c = 4 ∨ (s.testFound c).get Fld.BOOT_BOOT_STATE_PHASE = 2) := by
    rw [State.testFound_core s c (by decide) (by decide) (by decide), State.testFound_page hc s (by decide) (by decide)]
    exact not_or.mpr ⟨hstate, hphase⟩
  rw [State.testCommand_reaches hc hcls hport hunlocked hhole, State.testControl, if_neg (by simp [hcls])]
  dsimp only
  rw [testWord_dom hbit hdom, Nat.add_sub_cancel_left, ← State.testFound, if_neg here, testWord_bit hbit (by decide),
    testWord_bit hbit (by decide), testWord_bit hbit (by decide)]

/-! ### Start and leave -/

theorem CoresStand.clearNer (h : CoresStand s t) {n : Nat} : CoresStand s (t.clearNer n) := h.foldl _ fun h => h.setWord

/-- Core `k` as the start of a kernel leaves it: its tables survive only from a kernel of the same domain (R292). -/
def CoreSt.started (k : CoreSt) (x : KStart) : CoreSt :=
  { CoreSt.init with
    run := 1, test := x.test, gang := x.gang, member := x.member, dom := x.dom, lastDom := some x.dom, queue := x.queue, kinst := x.kinst
    step := x.step, seed := x.seed, trap := x.trap, spill := x.spill, codeBase := x.codeBase, codeLen := x.codeLen, pc := x.codeBase
    handles := x.handles
    pd := if k.lastDom = some x.dom then k.pd else [], mr := if k.lastDom = some x.dom then k.mr else []
    wt := if k.lastDom = some x.dom then k.wt else [] }

/-- A kernel start replaces its core; what else it writes are registers and check bits (R292). -/
theorem State.startCore_stands (s : State) (n : Nat) (x : KStart) : CoresStand (s.setCore n ((s.core n).started x)) (s.startCore n x) := by
  unfold State.startCore
  dsimp only
  refine CoresStand.setWord (.put (.put (.clearNer (.put (.put (.put ?_))))))
  exact ⟨rfl, rfl⟩

/-- A test kernel starts at `TEST_PC` in an active test domain, but none after a die-fatal error (R102, R437). -/
theorem State.testStart_starts (hstate : s.get Fld.CORE_CORE_STATE_STATE c = 3) (hrun : (s.core c).run = 0)
    (hactive : s.domActive (s.get Fld.CORE_CORE_TEST_TEST_DOM c) = true) (hfatal : s.fatal = false) :
    ((s.testStart c).core c).run = 1 ∧ ((s.testStart c).core c).test = true ∧ ((s.testStart c).core c).pc = s.get Fld.CORE_TEST_PC_ADDR c ∧
      ((s.testStart c).core c).codeLen = s.get Fld.CORE_TEST_LEN_LEN c ∧ ((s.testStart c).core c).dom = s.get Fld.CORE_CORE_TEST_TEST_DOM c ∧
      ((s.testStart c).core c).kinst = 0 ∧ ∀ m, m ≠ c → (s.testStart c).core m = s.core m := by
  rw [State.testStart, if_pos ⟨hstate, hrun, hactive, by rw [hfatal]; rfl⟩]
  have core := (State.startCore_stands { s with nextGang := s.nextGang + 1 } c
    { test := true, gang := s.nextGang, member := 0, dom := s.get Fld.CORE_CORE_TEST_TEST_DOM c, queue := 0, kinst := 0, step := 0, seed := 0
      trap := false, spill := 0, codeBase := s.get Fld.CORE_TEST_PC_ADDR c, codeLen := s.get Fld.CORE_TEST_LEN_LEN c, handles := [] }).core
  refine ⟨?_, ?_, ?_, ?_, ?_, ?_, fun m hm => ((core m).trans (State.core_setCore_ne _ hm _)).trans (State.core_congr rfl m)⟩
  all_goals rw [core, State.core_setCore_self, CoreSt.started]

/-- Clearing the numeric event record leaves a field below it on the core's page alone. -/
theorem State.get_clearNer {f : Fld} (hf : f.ofCore) (hf1 : f.one) (hoff : f.off < 0x200) (s : State) (n : Nat) :
    (s.clearNer n).get f n = s.get f n := by
  have key : Fld.CORE_NER_INFO_VALID.key n 0 = (0x40 + n) * 2 ^ 32 + 0x200 := Fld.ofCore.key (by decide) n
  refine List.foldlRecOn (motive := fun t => State.get t f n = s.get f n) (List.range 16) _ rfl fun t ht i _ => ?_
  rw [State.get_one hf1, State.word_setWord_ne _ (by rw [key, hf.key n]; omega), ← State.get_one hf1, ht]

/-- Leaving a core test zeroes the core, drops its split and returns it to service (R102). -/
theorem State.testLeave_leaves (hstate : s.get Fld.CORE_CORE_STATE_STATE c = 3) (hrun : (s.core c).run = 0) :
    (s.testLeave c).get Fld.CORE_CORE_STATE_STATE c = 1 ∧ (s.testLeave c).core c = CoreSt.init ∧
      (s.testLeave c).get Fld.CORE_CORE_CFG_ACC_SPLIT c = 0 ∧ (s.testLeave c).get Fld.CORE_CORE_CFG_SPLIT_BARE c = 0 ∧
      ∀ m, m ≠ c → (s.testLeave c).core m = s.core m := by
  have left : s.testLeave c = (((s.dropSplit c).setCore c CoreSt.init).clearNer c).put Fld.CORE_CORE_STATE_STATE 1 c := if_pos ⟨hstate, hrun⟩
  have dropped : CoresStand s (s.dropSplit c) := (CoresStand.refl s).put.put
  have stands : CoresStand ((s.dropSplit c).setCore c CoreSt.init) (s.testLeave c) := by
    rw [left]
    exact (CoresStand.refl _).clearNer.put
  have get {f : Fld} (hf : f.ofCore) (hf1 : f.one) (hoff : f.off = 0x104) : (s.testLeave c).get f c = (s.dropSplit c).get f c := by
    rw [left, State.get_put_otherOff (by decide) hf (by decide) hf1 (by rw [hoff]; decide), State.get_clearNer hf hf1 (by omega),
      State.get_congr (State.setCore_regs _ _ _)]
  refine ⟨?_, ?_, ?_, ?_, fun m hm => ?_⟩
  · rw [left, State.get_put_one (by decide)]
    rfl
  · rw [stands.core, State.core_setCore_self]
  · rw [get (by decide) (by decide) rfl, State.dropSplit, State.get_put_bits (by decide) (by decide) _ _ _ _ _ _ (by decide),
      State.get_put_one (by decide), Nat.zero_mod]
  · rw [get (by decide) (by decide) rfl, State.dropSplit, State.get_put_one (by decide), Nat.zero_mod]
  · rw [stands.core, State.core_setCore_ne _ hm, dropped.core]

/-- Settles O12: the command reaches the core page, and a core without a kernel does what its state allows. -/
theorem coreTestEntersRunsAndLeaves : Obligations.CoreTestEntersRunsAndLeaves := by
  intro s a c hc hcls hport hunlocked hphase hhole hrun
  have hdom := State.get_lt (f := Fld.CORE_CORE_TEST_TEST_DOM) (by decide) s c 0
  have stands := s.testFound_stands c
  have state := s.testFound_core c (f := Fld.CORE_CORE_STATE_STATE) (by decide) (by decide) (by decide)
  have dom := s.testFound_dom c
  have run : ((s.testFound c).core c).run = 0 := by rw [stands.core, hrun]
  have acts (hstate : s.get Fld.CORE_CORE_STATE_STATE c ≠ 4) {bit : Nat} (hbit : bit < 3) :=
    State.testCommand_acts hc hcls hport hunlocked hphase hhole hstate hbit
  refine ⟨fun hserves => ?_, fun htest hfatal => ?_, fun htest hactive hfatal => ?_, fun htest => ?_⟩
  · have entered : (s.testFound c).testEnter c = (s.testFound c).put Fld.CORE_CORE_STATE_STATE 3 c := if_pos ⟨state.trans hserves, run⟩
    refine ⟨_, (exec_coreTestEnter s a c).trans (acts (by rw [hserves]; decide) (bit := 0) (by decide)), ?_, State.done_code _ _ _, ?_⟩
    · rw [State.get_done, if_pos (by decide), entered, State.get_put_one (by decide)]
      rfl
    · rw [State.done_cores, if_pos (by decide), entered, State.put_cores, stands.cores]
  · have refused : (s.testFound c).testStart c = (s.testFound c).event Fld.CORE_PAGE_EVENT_TEST_REFUSED c :=
      if_neg (by simp [State.testFound_fatal hc, hfatal])
    refine ⟨_, (exec_coreTestStart s a c).trans (acts (by rw [htest]; decide) (bit := 2) (by decide)), ?_, ?_⟩
    · rw [State.done_cores, if_neg (by decide), if_neg (by decide), if_pos (by decide), refused, stands.event.cores]
    · rw [State.get_done, if_neg (by decide), if_neg (by decide), if_pos (by decide), refused]
      exact State.get_coreEvent (by decide) rfl rfl (by decide) _ c (Reports.refl _)
  · obtain ⟨running, test, pc, codeLen, inDom, kinst, others⟩ := State.testStart_starts (state.trans htest) run
      (by rw [dom, State.testFound_domActive hc s hdom, hactive]) (by rw [State.testFound_fatal hc, hfatal])
    refine ⟨_, (exec_coreTestStart s a c).trans (acts (by rw [htest]; decide) (bit := 2) (by decide)), ?_⟩
    simp only [State.core_done, State.done_code]
    rw [if_neg (by decide), if_neg (by decide), if_pos (by decide)]
    rw [State.testFound_core s c (by decide) (by decide) (by decide)] at pc codeLen
    exact ⟨running, test, pc, codeLen, inDom.trans dom, kinst, trivial, fun m hm => (others m hm).trans (stands.core m)⟩
  · obtain ⟨served, core, split, bare, others⟩ := State.testLeave_leaves (state.trans htest) run
    refine ⟨_, (exec_coreTestLeave s a c).trans (acts (by rw [htest]; decide) (bit := 1) (by decide)), ?_⟩
    simp only [State.core_done, State.get_done, State.done_code]
    rw [if_neg (by decide), if_pos (by decide)]
    exact ⟨served, core, split, bare, trivial, fun m hm => (others m hm).trans (stands.core m)⟩

end Sys2Proof.Machine
end
